-- ==== Sys2Proof/Word.lean ====
section
/-!
DEFINITION. The word types of the SV-2440 and their plainest arithmetic: words of 32 bits, bytes, status codes (R86),
little-endian packing (R6), sign extension and saturating counters.
-/
namespace Sys2Proof

/-- A 32-bit register or memory word (R10). -/
abbrev Word := BitVec 32

/-- One byte. -/
abbrev Byte := BitVec 8

/-- Bits `[lo + w - 1 : lo]` of a number. -/
def bitsOf (n lo w : Nat) : Nat := n / 2 ^ lo % 2 ^ w

/-- `n` read as a two's-complement number of `w` bits. -/
def signedOf (n w : Nat) : Int :=
  if n % 2 ^ w < 2 ^ (w - 1) then (n % 2 ^ w : Nat) else (n % 2 ^ w : Nat) - (2 ^ w : Nat)

/-- The two's-complement code of `x` in `w` bits, wrapping. -/
def codeOf (x : Int) (w : Nat) : Nat := (x % (2 ^ w : Nat)).toNat

/-- `x` limited to `lo … hi`. -/
def clampInt (lo hi x : Int) : Int := if x < lo then lo else if hi < x then hi else x

/-- Saturating increment of a counter of `w` bits. -/
def satInc (n w : Nat) : Nat := if n + 1 < 2 ^ w then n + 1 else 2 ^ w - 1

/-- Saturating sum in `w` bits. -/
def satAdd (n k w : Nat) : Nat := if n + k < 2 ^ w then n + k else 2 ^ w - 1

/-- The `n` little-endian bytes of a number (R6). -/
def leBytes : (n : Nat) → (v : Nat) → List Byte
  | 0, _ => []
  | n + 1, v => BitVec.ofNat 8 v :: leBytes n (v / 256)

/-- The number that little-endian bytes spell (R6). -/
def ofLeBytes : List Byte → Nat
  | [] => 0
  | b :: bs => b.toNat + 256 * ofLeBytes bs

/-- One bit of CRC-16 (R117): polynomial 0x1021, most significant bit first. -/
def crcBit (crc : BitVec 16) : BitVec 16 :=
  if crc.msb then (crc <<< 1) ^^^ 0x1021#16 else crc <<< 1

/-- One byte of CRC-16 (R117). -/
def crcByte (crc : BitVec 16) (b : Byte) : BitVec 16 :=
  let x := crc ^^^ (b.zeroExtend 16 <<< 8)
  crcBit (crcBit (crcBit (crcBit (crcBit (crcBit (crcBit (crcBit x)))))))

/-- CRC-16 of R117: initial value 0xFFFF, no reflection, no final XOR. -/
def crc16 (bs : List Byte) : BitVec 16 := bs.foldl crcByte 0xFFFF#16

/-- One bit of CRC-8 with the polynomial given by `poly`. -/
def crc8Bit (poly crc : Byte) : Byte := if crc.msb then (crc <<< 1) ^^^ poly else crc <<< 1

/-- Replace the element at index `i`, leaving the list's length as it is. -/
def listSet {α : Type} (l : List α) (i : Nat) (x : α) : List α := l.set i x

/-- Update the first element that satisfies `p`. -/
def updFirst {α : Type} (p : α → Bool) (f : α → α) : List α → List α
  | [] => []
  | x :: xs => if p x then f x :: xs else x :: updFirst p f xs

/-- Remove the first element that satisfies `p`. -/
def eraseFirst {α : Type} (p : α → Bool) : List α → List α
  | [] => []
  | x :: xs => if p x then xs else x :: eraseFirst p xs

/-- Update every element that satisfies `p`. -/
def updAll {α : Type} (p : α → Bool) (f : α → α) (l : List α) : List α :=
  l.map fun x => if p x then f x else x

/-- Response status codes (R86). -/
abbrev Status := BitVec 8

namespace St
abbrev ok : Status := 0x00#8
abbrev already : Status := 0x01#8
abbrev busy : Status := 0x10#8
abbrev noCredit : Status := 0x11#8
abbrev badArg : Status := 0x20#8
abbrev state : Status := 0x21#8
abbrev perm : Status := 0x22#8
abbrev exclUnsup : Status := 0x23#8
abbrev timeout : Status := 0x30#8
abbrev cfgIgnored : Status := 0x31#8
abbrev guard : Status := 0x32#8
abbrev admitEnergy : Status := 0x40#8
abbrev admitHeat : Status := 0x41#8
abbrev admitStore : Status := 0x42#8
abbrev admitPath : Status := 0x43#8
abbrev waitEnergy : Status := 0x50#8
abbrev internal : Status := 0x7F#8
end St

end Sys2Proof
end

