-- ==== Sys2Proof/Syntax.lean ====
section
/-!
DEFINITION. The commands of the SV-2440, one constructor for each row of the table of commands, with what the outside
world supplies with each: the master and data of an access, the header and bytes of a host packet, the time or the
reading of a physical event. No command carries a value that the device itself computes.
-/
namespace Sys2Proof

/-- The masters of the register fabric, coded as SYS.BES.MST (R54): Orrery context, Heliostat, host bridge (with the
client whose request it carries), debug port, Almanac core. -/
inductive Master
  | orr (ctx : Fin 4)
  | hel
  | host (clid : Byte)
  | debug
  | alm
  deriving DecidableEq, Repr

/-- The two directions of the die bridge (R28). -/
inductive BridgeDir | lToP | pToL
  deriving DecidableEq, Repr

/-- How an RT frame arrives (R33): good, failing its CRC, or missing. -/
inductive FrameQuality | good | badCrc | missing
  deriving DecidableEq, Repr

/-- The header of a host packet as it arrives (R356), with the interface that carried it. -/
structure Hdr where
  spi : Bool
  clid : Byte
  tag : Byte
  flags : Byte
  seq : BitVec 16
  deriving DecidableEq, Repr

/-- The physical readings of the P-die that its comparators and converters hold when an RT frame is launched (R28, R127,
R130, R203, R210, R213, R235): input voltage (mV), current (mA) and power (0.01 W), RES voltage (mV), thermistor
codes, HV feedback codes, bridge currents (mA) and polygon rotation (rpm). They are inputs of the machine. -/
structure Readings where
  vin : BitVec 16
  iin : BitVec 16
  pin : BitVec 16
  vres : BitVec 16
  th0 : BitVec 12
  th1 : BitVec 12
  hvf0 : BitVec 12
  hvf1 : BitVec 12
  hvf2 : BitVec 12
  hvf3 : BitVec 12
  hcur0 : BitVec 16
  hcur1 : BitVec 16
  hcur2 : BitVec 16
  hcur3 : BitVec 16
  rpm : BitVec 16
  deriving DecidableEq, Repr

/-- The supplies of the AON domain (R466): VSYS (VIN present), VSTO, VBAT. -/
inductive Supply | vsys | vsto | vbat
  deriving DecidableEq, Repr

/-- A register page by its place in R52 and R53: 0–27 the L-die pages, 28–50 the P-die pages. -/
abbrev PageSel := Fin 51

/-- The carrier of an Almanac service request (R430): the mailbox, a Turradar frame with its source and SEQ, or a Nimora APDU with P1–P2
and Le. -/
inductive Carrier
  | mailbox
  | turradar (src : Byte) (seq : BitVec 16)
  | nimora (p12 : BitVec 16) (le : BitVec 9)
  deriving DecidableEq, Repr


/-- What a read of the F-die finds in the cells (R405, R418, R419): nothing wrong, a single-bit cell fault, or a broken line. -/
inductive CellFault
  | none
  | cell
  | line (b : Fin 39)
  deriving DecidableEq, Repr

/-- A read of the F-die window: what it finds, and whether a commit in progress has passed its commit point by then (R407, R413). -/
structure WindowRead where
  found : CellFault
  past : Bool
  deriving DecidableEq, Repr

/-- What an SPI instruction for a channel sends first (R351): the lane code and the function code of its first byte, here whether R351's table names
the function, and the channel. A transaction whose lane code or function code is reserved is no instruction of its own, and may stand in any row
with a head. -/
structure SpiHead where
  lanes : Fin 4
  known : Bool
  ch : Fin 8
  deriving DecidableEq, Repr

/-- How a frame that a port sends ends (R385, R389): its last stop bit is out, or a character that read back different on ML has aborted it. -/
inductive FrameEnd
  | sent (port : Fin 3)
  | collided
  deriving DecidableEq, Repr

/-- The commands (events, register accesses, packets and services) of the SV-2440. -/
inductive Instr where
  /-- An RT frame arrives on one die and its actuator commands or driver and sensor readings are applied 2.0 µs after launch. (R28) -/
  | rtFrameReceived (dir : BridgeDir) (q : FrameQuality) (t : BitVec 16)
  /-- Every 10 µs each die launches one 64-byte RT frame in each direction at the next flit boundary. (R28) -/
  | rtFrameLaunch (meas : Readings)
  /-- After three consecutive missing or bad RT frames in one direction, the receiving die applies the Last Line safe state and BRIDGE_LOSS is raised. (R33) -/
  | bridgeLoss (dir : BridgeDir)
  /-- A REG transaction unanswered for 50 µs ends in a bus error: a read returns 0, a host request gets 0x30, and the error is captured. (R32) -/
  | regTimeout (m : Master)
  /-- The data of a P-die register read returns and releases the master's held port. (R29) -/
  | pDieReadReturn (m : Master)
  /-- A posted P-die write drains from its master's 16-entry queue and is applied on the P-die. (R31) -/
  | postedWriteApplied (m : Master)
  /-- A write of 1 to DBR.TRN.RUN in OFF or FAULT stops RT frames and retrains the die-bridge lanes with the sidebands held low. (R570) -/
  | retrain (m : Master)
  /-- Retraining ends, TRND rises, RT frames resume and the bridge-loss rule applies again. (R570) -/
  | retrainDone
  /-- Lanes still untrained 1 ms after the retrain write count as a bridge loss and set DBR.IST.LOSS. (R570) -/
  | retrainTimeout
  /-- At each mirror-rate tick the latest value of every enabled mirror channel is sent to the L-die as REG traffic. (R36) -/
  | mirrorUpdate (ms : BitVec 16)
  /-- The AON domain starts from nothing when VIN reaches VST, VBAT rises to 2.20 V or VSTO rises through TH_RUN, and the boot sequence begins at stage POR. (R465) -/
  | aonPor (sup : Supply)
  /-- A boot stage finishes its work and the sequence advances PSY.BST.STG to the next stage. (R43) -/
  | bootStageComplete (ok : Bool)
  /-- With both firmware slots failed, the boot ROM retries committing the BOOT_FAIL record at each rise of VSTO through TH_NVW. (R45) -/
  | bootFailRecordRetry
  /-- A write to a register with no row of its own is judged in the fixed order of checks and takes effect per field class. (R84) -/
  | registerWrite (m : Master) (addr : BitVec 32) (v : Word)
  /-- A write through the SET alias sets the RW bits where the value has 1, as one read-modify-write. (R60) -/
  | setAliasWrite (m : Master) (addr : BitVec 32) (v : Word)
  /-- A write through the CLR alias clears the RW bits where the value has 1, as one read-modify-write. (R60) -/
  | clrAliasWrite (m : Master) (addr : BitVec 32) (v : Word)
  /-- A write through the TOG alias inverts the RW bits where the value has 1, as one read-modify-write. (R60) -/
  | togAliasWrite (m : Master) (addr : BitVec 32) (v : Word)
  /-- A write to a guarded register arms the page's guard latch with the value, master and offset. (R63) -/
  | guardValueWrite (m : Master) (addr : BitVec 32) (v : Word)
  /-- A write to a complement twin commits the armed value if it completes the sequence, or fails it with 0x32. (R63) -/
  | guardTwinWrite (m : Master) (addr : BitVec 32) (v : Word)
  /-- 640 ns pass without the twin write, the guard sequence fails and the latch is cleared. (R64) -/
  | guardWindowExpiry (pg : PageSel)
  /-- A write of 1 to CFS.DROP discards every pending shadow of the page without an apply event. (R58) -/
  | cfsDrop (m : Master) (pg : PageSel)
  /-- A class-S write held while STA.ENA = 1 takes effect when ENA falls. (R68) -/
  | heldWriteApply (pg : PageSel)
  /-- After CTL.EN is cleared the block stops and STA.ENA falls, applying pending shadows. (R58) -/
  | blockStopped (pg : PageSel)
  /-- A write to OWN claims, shares or releases page ownership under the ownership rules. (R82) -/
  | ownershipWrite (m : Master) (pg : PageSel) (v : Word)
  /-- The WAKE command moves the engine from OFF to WAKING. (R98) -/
  | wake (h : Hdr) (args : List Byte)
  /-- The OFF command stops the engine, withdrawing queued items and letting admitted items end under DRAIN. (R98) -/
  | off (h : Hdr) (args : List Byte)
  /-- The START command is checked, creates an item with the next ID and commits its OPEN/QUEUED record before the response. (R99) -/
  | start (h : Hdr) (args : List Byte)
  /-- The ABORT command ends one item or all items, WITHDRAWN if queued and FAILED(ABORTED) if admitted. (R108) -/
  | abort (h : Hdr) (args : List Byte)
  /-- The DRAIN command stops admission and lets admitted items finish. (R98) -/
  | drain (h : Hdr) (args : List Byte)
  /-- The HALT command stops the engine at once, braking transport and ending items. (R108) -/
  | halt (h : Hdr) (args : List Byte)
  /-- The RESUME command leaves HALT for WAKING when the path is empty, or returns 0x10. (R108) -/
  | resume (h : Hdr) (args : List Byte)
  /-- The CLEAR command leaves FAULT for OFF, releasing Last Line, unless a fault cause is still active. (R519) -/
  | clear (h : Hdr) (args : List Byte)
  /-- The SERVICE command enters the SERVICE state from OFF or READY. (R98) -/
  | service (h : Hdr) (args : List Byte)
  /-- The EXIT command leaves SERVICE for OFF. (R98) -/
  | exit (h : Hdr) (args : List Byte)
  /-- The STATUS command returns the 16-byte engine status block. (R104) -/
  | status (h : Hdr) (args : List Byte)
  /-- The REPGET command returns the oldest unacknowledged report at or after the given ID. (R118) -/
  | repget (h : Hdr) (args : List Byte)
  /-- The REPACK command frees the journal records of reports up to the given ID. (R118) -/
  | repack (h : Hdr) (args : List Byte)
  /-- The polygon locks and self-checks pass, and the engine moves from WAKING to WARMUP or READY. (R92) -/
  | wakeComplete
  /-- BWKT expires before lock and the engine enters FAULT. (R92) -/
  | wakeTimeout
  /-- BWUT expires before the heat band is reached and the engine enters FAULT. (R92) -/
  | warmupTimeout
  /-- BIDT expires in READY with no item queued or admitted and the engine enters OFF. (R93) -/
  | idleTimeout
  /-- The TH0 mirror enters the heat band, moving WARMUP to READY and making a ledger decision point. (R137) -/
  | heatBandEnter
  /-- TH0 stays outside the heat band for 200 ms; READY with no item returns to WARMUP and admission stops. (R137) -/
  | heatBandLeave
  /-- A journal record commit completes, letting the response, admission or report that waited on it proceed. (R569) -/
  | journalCommitDone
  /-- Almanac firmware retries committing a held closing record once the supply check passes, then resends the final report. (R112) -/
  | journalCloseRetry (item : BitVec 32)
  /-- An item's ADMIT_WAIT expires unadmitted and it ends WITHDRAWN with its last refusal status. (R110) -/
  | admitWaitExpiry (item : BitVec 32)
  /-- BHDT after EXITED with records undrained, the item ends FAILED(HOST_DRAIN) and its records are discarded. (R106) -/
  | hostDrainTimeout (item : BitVec 32)
  /-- An item's outcome is decided, its CLOSED record committed and its report sent as an EVT to the client. (R118) -/
  | itemReportIssue (item : BitVec 32)
  /-- VIN above VOV for 2 µs applies the Last Line safe state and raises VIN_OV. (R125) -/
  | vinOvervoltage (mv : BitVec 16)
  /-- VIN crosses VBW, setting or clearing PWR.STA.BW and stopping admission. (R125) -/
  | brownoutWarning (mv : BitVec 16)
  /-- VIN below VPF for 2 µs latches PFAIL, stops the charger, applies Last Line and closes the reserve switch. (R126) -/
  | powerFail (mv : BitVec 16)
  /-- At 2 ms into the safe stop Almanac firmware saves volatile-held values and commits at most two safe-stop groups. (R571) -/
  | safeStopSaves
  /-- By 40 ms the L-die and D-die are held in reset and VIO and VCORE go off. (R132) -/
  | safeStopLDieOff
  /-- Commits complete, the reserve switch opens, AON moves to VSTO or VBAT and the RES bleed starts. (R132) -/
  | safeStopEnd
  /-- A rail below its good threshold for 5 µs stops the boot or applies Last Line, holds the L-die in reset and raises RAIL. (R124) -/
  | railFault (rail : Fin 4) (mv : BitVec 16)
  /-- Rails good for 10 ms after a rail fault restart the boot at stage RAILS. (R530) -/
  | railRecovery
  /-- PIN above PLIM in two consecutive bins, or IIN above ILIM for 20 µs, starts shedding the charger and heater duty. (R127) -/
  | limiterShed (pin : BitVec 16) (iin : BitVec 16)
  /-- Two consecutive bins within PLIM and ILIM end shedding and release the heater limit. (R127) -/
  | shedEnd (pin : BitVec 16) (iin : BitVec 16)
  /-- PIN still above 1.05 × PLIM 10 ms after heater duty reached 0 raises the ENGINE-class fault. (R127) -/
  | pwrLimit (pin : BitVec 16)
  /-- IIN above 1.25 × ILIM for 5 µs applies the Last Line safe state. (R127) -/
  | ilimTrip (iin : BitVec 16)
  /-- The periodic, repeat or boot reserve test sinks 100 mA from RES for 2 ms. (R129) -/
  | reserveTestStart
  /-- A write of 1 to RES.TCMD.RUN starts a reserve test now. (R129) -/
  | tcmdRun (m : Master)
  /-- The reserve test ends, setting ESR, C, VALID or TFAIL and scheduling a repeat after a failure. (R130) -/
  | reserveTestDone (esr : BitVec 12) (c : BitVec 16)
  /-- VALID falls when VRES drops below 22 V or the last pass is older than 10 s. (R130) -/
  | reserveValidExpiry (vres : BitVec 16)
  /-- Every DPER ms with items queued a ledger decision point occurs. (R142) -/
  | ledgerDecisionTick
  /-- At each 1 ms bin the ledger timeline advances and power bins and zone windows that end are released. (R143) -/
  | ledgerBinTick
  /-- A qualifying beam-detect pulse is accepted or rejected against the window, updating facet period, count and lock. (R147) -/
  | bdPulse (t : Nat) (w : BitVec 16)
  /-- An acceptance window closes without a pulse and the BD is synthesised, or the BD input is declared lost. (R149) -/
  | flywheelSynth
  /-- The acceptance window opens and Meridian lights the BD laser. (R152) -/
  | bdWindowOpen
  /-- A PIX index pulse marks facet 0 and restores IDXOK. (R150) -/
  | pixPulse (ns : BitVec 16)
  /-- No PIX pulse for two revolutions clears IDXOK and suspends facet correction. (R150) -/
  | indexLost
  /-- A gated station begins its sweep at pixel 0 and raises its sweep-start event. (R162) -/
  | sweepStart (stn : Fin 3)
  /-- A station's last pixel ends and its sweep-end event is raised. (R162) -/
  | sweepEnd (stn : Fin 3) (raw : List (List (BitVec 12))) (mon : List (BitVec 24 × BitVec 12))
  /-- Clearing MER.CTL.EN stops BD tracking, lock and all stations once sweeps in progress complete. (R573) -/
  | meridianDisable (m : Master)
  /-- The record writer pushes a line record, header or trailer into its ring within 2 µs of sweep end, or drops it. (R187) -/
  | recordPush (stn : Fin 2)
  /-- A CAL.CMD DARK run fires NAVG lines with sources off and sets the dark offsets. (R179) -/
  | calDark (m : Master) (v : Word)
  /-- A CAL.CMD WHITE run fires NAVG lines and sets the shading gains. (R179) -/
  | calWhite (m : Master) (v : Word)
  /-- A CAL.CMD SAVE commits the shading RAM as a new calibration set. (R179) -/
  | calSave (m : Master) (v : Word)
  /-- A calibration run ends, increments CAL.SEQ and sets IST.DONE. (R179) -/
  | calRunDone (sums : List (BitVec 32))
  /-- A CAL.TDA access reads or writes one shading RAM entry and increments the index. (R178) -/
  | shadingTableAccess (m : Master) (w : Option Word)
  /-- The job loader takes a job header from the print stream and loads, refuses or rejects the job. (R197) -/
  | jobLoad
  /-- A job's copy into the print region completes and its state becomes READY. (R197) -/
  | jobLoadDone
  /-- A write to MRK.JDEL frees a READY, REFUSED or ERROR job entry. (R220) -/
  | jobDelete (m : Master) (v : Word)
  /-- Band fetch refills its 16-line FIFO with write lines from the print region. (R202) -/
  | bandFetch
  /-- An HV channel holds within 2 % of target for 1 ms, starting the next channel or setting HVRDY. (R204) -/
  | hvChannelSettled (ch : Fin 4)
  /-- HV feedback at or above its ceiling for 20 µs turns the channel off and raises an ENGINE fault. (R203) -/
  | hvOv (ch : Fin 4)
  /-- TH1 at TCUT or a thermistor open or short forces HTG low and raises the SAFETY fault. (R208) -/
  | fuserCut (cause : Fin 3)
  /-- TH0 and TH1 differ by more than TDIF for 1 s with the heater on and an ENGINE fault is raised. (R209) -/
  | thDisag
  /-- TH0 below TSET − BLO for BHFT with a MARK item in the nip ends the item FAILED(HEAT). (R211) -/
  | heat
  /-- A media sensor edge qualifies after SNS.FLT and is checked against the item windows. (R226) -/
  | sensorEdge (n : Fin 6) (v : BitVec 10) (raw : Nat) (level : BitVec 10) (t : BitVec 16)
  /-- An edge window closes with no edge, giving PICK_MISS or a missing-edge jam. (R230) -/
  | edgeWindowExpiry (item : BitVec 32) (role : Fin 8) (lead : Bool)
  /-- No axis has counted for 2 ms, so reports of stopped items are issued. (R240) -/
  | transportStopped
  /-- A quadrature edge advances the 32-bit encoder position, driving all position comparisons. (R234) -/
  | encoderCount (axis : Fin 2) (up : Bool) (t : Nat)
  /-- A qualified index pulse latches the position into IDXn. (R234) -/
  | encoderIndex (axis : Fin 2)
  /-- ERRMAX decoding errors within 1 ms declare the encoder lost. (R234) -/
  | encoderLost (axis : Fin 2) (n : BitVec 8)
  /-- No encoder count for STALLT at commanded speed raises TRANSPORT_STALL. (R241) -/
  | stall (axis : Fin 2)
  /-- Bridge current above 1.25 × HICL for 2 µs turns the bridge off and raises an ENGINE fault. (R235) -/
  | bridgeOc (bridge : Fin 4) (ma : BitVec 16)
  /-- PALN ms of alignment end and the open-loop ramp starts. (R237) -/
  | polyAlignDone
  /-- 24 valid back-EMF crossings hand commutation over to back-EMF. (R237) -/
  | polyHandover
  /-- No handover within PRMP + 500 ms leads to a retry after a 2 s coast, or POLY_START after three. (R237) -/
  | polyStartTimeout
  /-- Commutation above POVS for 10 ms makes the driver coast and raises the ENGINE fault. (R238) -/
  | polyOvspd (rpm : BitVec 16)
  /-- TPK ms after switch-on a solenoid switch goes from full conduction to hold PWM. (R239) -/
  | solPeakEnd (n : Fin 6)
  /-- Solenoid current above 1.5 A for 2 µs opens the switch and raises a WARN fault. (R239) -/
  | solOc (n : Fin 6)
  /-- In each RT frame period the scheduler computes every due loop slot in ascending order. (R249) -/
  | heliostatFrame (t : Nat) (comm : BitVec 32)
  /-- A write to HEL.MCMD commands a slot's mode, applied at the next computation window. (R250) -/
  | mcmd (m : Master) (v : Word)
  /-- An HTB.TDA access reads or writes one friction or cogging entry and increments the index. (R268) -/
  | tableAccess (m : Master) (w : Option Word)
  /-- In its slot a context fetches and executes a word, writing results and sending strobes. (R270) -/
  | microwordExecute (ctx : Fin 4) (err : Fin 3)
  /-- An EVENT-mode wait reaches its limit T with its fields suppressed and TMOX set. (R276) -/
  | waitTimeout (ctx : Fin 4)
  /-- A waiting word's condition becomes true and its fields act once. (R275) -/
  | waitSatisfied (ctx : Fin 4)
  /-- A pending preempting dispatch entry is taken, abandoning a held word and jumping or calling to its vector. (R279) -/
  | dispatchPreempt (ctx : Fin 4)
  /-- A context in SLEEP leaves it when a dispatch entry is pending and takes that entry. (R283) -/
  | yieldWake (ctx : Fin 4)
  /-- A context's watchdog reaches WDGn and the context stops in FAULT with ORR_WDG. (R284) -/
  | contextWatchdog (ctx : Fin 4)
  /-- A context timer reaches 0 and raises condition TMRn. (R316) -/
  | contextTimerExpiry (ctx : Fin 4) (n : Fin 4)
  /-- A write of ORR.SWP.ARM starts measuring the staging bank into MS5. (R291) -/
  | swapArm (m : Master)
  /-- Measurement of the staging bank ends and ARMD rises. (R291) -/
  | swapMeasureDone
  /-- A write of ORR.SWP.DIS clears ARMD and sets IST.DISARM. (R291) -/
  | swapDisarm (m : Master)
  /-- At a document boundary with ARMD the banks exchange and every context restarts at its entry. (R291) -/
  | bankSwap
  /-- ORC.CMD STOP sends one context to STOPPED. (R296) -/
  | contextStop (m : Master) (ctx : Fin 4)
  /-- ORC.CMD RESTART starts one context at its entry with its state cleared. (R296) -/
  | contextRestart (m : Master) (ctx : Fin 4)
  /-- A producer pushes an entry onto a ring, stored or refused by depth. (R321) -/
  | ringPush (n : Fin 64) (cls : Fin 7) (v : Word) (data : List Byte)
  /-- A consumer pops the oldest entry of a ring, or EMPTY. (R321) -/
  | ringPop (n : Fin 64) (cls : Fin 7)
  /-- A host write to RNG.HPSH pushes an entry to ring HSEL, retrying while full. (R324) -/
  | hpsh (m : Master) (v : Word)
  /-- A host read of RNG.HPOP pops ring HSEL as HOST. (R323) -/
  | hpop (m : Master)
  /-- A write to RNG.HDONE completes the oldest popped entry of ring HSEL. (R325) -/
  | hdone (m : Master) (v : Word)
  /-- A host push still refused after 50 µs completes with 0x30 and stores nothing. (R324) -/
  | ringPushTimeout (n : Fin 64)
  /-- A DATA entry is consumed and the space and granules behind it are released. (R339) -/
  | dataEntryConsumed (n : Fin 64)
  /-- BHDT after a failed or withdrawn report, the item's unconsumed records are discarded. (R340) -/
  | recordDiscard (item : BitVec 32)
  /-- The store controller issues a refresh every 7.8 µs, or 3.9 µs when hot. (R330) -/
  | refresh (rtWaiting : Bool)
  /-- The store initialisation sweep ends and CST.IST.INITD is set. (R331) -/
  | initSweepDone
  /-- The scrubber reads a store word, writes back corrected errors or takes a bad granule out. (R333) -/
  | scrubPass (ofs : BitVec 26) (kind : Fin 3)
  /-- A USB bus reset, VBUS loss or SET_CONFIGURATION(0) closes every USB client. (R349) -/
  | usbBusReset (cause : Fin 3) (hs : Bool)
  /-- EP0 answers a standard USB request, or STALL for others. (R346) -/
  | usbStandardRequest (typ : Byte) (req : Byte) (value : BitVec 16) (index : BitVec 16) (len : BitVec 16)
  /-- After 3 ms of bus idle the USB interface suspends. (R348) -/
  | usbSuspend
  /-- Host resume signalling takes the USB interface out of suspend. (R348) -/
  | usbResume
  /-- With an EVT queued and remote wakeup enabled, the bridge signals resume no sooner than 5 ms after suspend. (R348) -/
  | usbRemoteWakeup
  /-- The SPI STAT instruction returns the 16-byte status block. (R351, R352) -/
  | spiStat
  /-- The SPI WRITE instruction carries host packets or print data to a channel. (R353) -/
  | spiWrite (head : SpiHead) (data : List Byte) (crcOk : Bool)
  /-- The SPI READ instruction returns bytes from a channel, consumed at CS rise or by ACK. `got`: the data bytes
  shifted out when CS rose, none where CS rose after everything, CRC included. (R354) -/
  | spiRead (head : SpiHead) (m : BitVec 16) (got : Option (BitVec 16))
  /-- The SPI ACK instruction consumes a count of read bytes in ACKM mode. (R354) -/
  | spiAck (head : SpiHead) (n : BitVec 16)
  /-- The SPI RESET instruction closes every SPI client and discards a partial packet. (R355) -/
  | spiReset
  /-- CS low with no SCLK edge for 10 ms ends the transaction and sets SPIFR. (R497) -/
  | spiCsTimeout
  /-- The RD packet reads n addresses and returns their data. (R357) -/
  | rd (h : Hdr) (payload : List Byte)
  /-- The WR packet writes n address and data pairs, posted or non-posted. (R357) -/
  | wr (h : Hdr) (payload : List Byte)
  /-- The WRN packet writes n pairs non-posted and always answers. (R357) -/
  | wrn (h : Hdr) (payload : List Byte)
  /-- The BLKRD packet reads a contiguous block. (R358) -/
  | blkrd (h : Hdr) (payload : List Byte)
  /-- The BLKWR packet writes a contiguous block. (R358) -/
  | blkwr (h : Hdr) (payload : List Byte)
  /-- A host TUN packet pushes a whole foreign frame into a port's outbound ring. (R385) -/
  | tun (h : Hdr) (payload : List Byte)
  /-- A QUOTE request returns a signed attestation body with the measurement registers and log. (R447) -/
  | quote (h : Hdr) (payload : List Byte)
  /-- A write of its own ID to CLI.OPN opens a client on its interface. (R361) -/
  | clientOpen (h : Hdr)
  /-- A write to CLI.CLS closes a client, discarding requests and events and releasing its pages and credits. (R362) -/
  | clientClose (h : Hdr) (id : Byte)
  /-- An RSP is delivered to the host and its credit is returned. (R363) -/
  | responseDelivered (refusal : Bool)
  /-- A UART character completes, setting line errors, acting on flow characters or entering the FIFO or frame. (R380) -/
  | uartRxChar (port : Fin 3) (c : Byte) (pe : Bool) (fe : Bool)
  /-- A break is received, setting BRK and ending an inbound frame. (R380) -/
  | uartBreak (port : Fin 3)
  /-- A read of a UART STA records the set error flags for the reading master. (R381) -/
  | uartStatusRead (m : Master) (port : Fin 3)
  /-- A read of a UART DATA pops the RX FIFO and clears recorded flags. (R382) -/
  | uartDataRead (m : Master) (port : Fin 3)
  /-- A write to a UART DATA pushes the TX FIFO in DIRECT mode. (R382) -/
  | uartDataWrite (m : Master) (port : Fin 3) (v : Word)
  /-- XOFFR held for XOTMO × 10 ms resumes the transmitter and sets IST.XOTMO. (R383) -/
  | xoffTimeout (port : Fin 2)
  /-- IDLE character times with no character end an inbound tunnel frame. (R387) -/
  | tunnelIdleCut (port : Fin 2)
  /-- The last stop bit of an outbound frame is sent, setting TXDONE. (R385) -/
  | uartFrameSent (fin : FrameEnd)
  /-- A Turradar frame is received whole and checked, addressed and de-duplicated. (R391) -/
  | turradarFrameReceived (dst : Byte) (src : Byte) (ctl : Byte) (seq : BitVec 16) (payload : List Byte) (crcOk : Bool)
  /-- A controller's RTO expires without a response and the request is repeated or NORSP set. (R392) -/
  | turradarResponseTimeout
  /-- A responder sends its answer no sooner than TTA after the request. (R392) -/
  | turradarResponseSend (late : Bool) (coll : Bool)
  /-- A sync word with good CRC sets the position, merges flags and is forwarded. (R399) -/
  | syncWordReceived (w : Word) (crc : Byte)
  /-- The head sends a sync word every PER µs with EPOCH incremented. (R399) -/
  | syncPeriodTick
  /-- An engine raises its epoch tick at the computed delay after its word's arrival. (R400) -/
  | syncEpochTick
  /-- A rising HALT or FLT flag sends an urgent word after the word in progress. (R401) -/
  | syncUrgentWord
  /-- No good sync word for MISS × PER sets LOST and raises the WARN fault. (R402) -/
  | syncLost
  /-- NVM.CMD OPEN opens a commit group owned by the writer, or is held or refused. (R408) -/
  | nvmOpen (m : Master)
  /-- NVM.CMD COMMIT passes the supply check and starts the group commit. (R410) -/
  | nvmCommit (m : Master)
  /-- NVM.CMD DISCARD empties the transaction buffer without writing. (R408) -/
  | nvmDiscard (m : Master)
  /-- A group commit writes redo, commit word, home pages and done word and returns to IDLE. (R411) -/
  | nvmCommitDone
  /-- A group still OPEN GTO ms after opening is discarded. (R408) -/
  | groupTimeout
  /-- A write to NVM.TPA selects a page and preloads it into a buffer slot. (R409) -/
  | tpaSelect (m : Master) (p : BitVec 15)
  /-- The preload of a selected page ends and waiting TDA accesses proceed. (R409) -/
  | pagePreloadDone
  /-- An NVM.TDA access reads or writes one buffered word and advances TWI. (R409) -/
  | tdaAccess (m : Master) (w : Option Word)
  /-- A read of the F-die window returns corrected data, POISON bits with 0x7F, or 0 for KEYS. (R407) -/
  | fDieWindowRead (m : Master) (ofs : BitVec 21) (r : WindowRead)
  /-- After 1 ms idle the controller copies a broken line onto a spare, block by block. (R418) -/
  | senseLineRemap (bank : Fin 8)
  /-- A write to NVS.VAL stores a new value in the next slot of its ring, or in SRAM if volatile-held. (R422) -/
  | nvsValueWrite (m : Master) (v : Word)
  /-- A write to NVS.ADD adds a signed saturating amount to a value. (R426) -/
  | nvsValueAdd (m : Master) (d : Word)
  /-- A write of NVS.SAVE.ALL saves every volatile-held value to its slot ring. (R425) -/
  | nvsSaveAll (m : Master)
  /-- VHP seconds after the last save the volatile-held values are saved. (R425) -/
  | nvsPeriodicSave
  /-- A write of ALM.MDB.GO starts the mailbox service request. (R431) -/
  | mailboxGo (m : Master)
  /-- A mailbox service ends with the response in MBUF and MRS.DONE set. (R431) -/
  | mailboxDone
  /-- The Almanac STATUS service returns the 16-byte supply, boot and log status block. (R430) -/
  | statusService (via : Carrier)
  /-- The IDENT service returns DEVID, public key and versions. (R430) -/
  | ident (via : Carrier)
  /-- The LOG_READ service returns log records from a start LSEQ. (R430) -/
  | logRead (via : Carrier) (lseq : BitVec 32) (n : Byte)
  /-- The PARAM_READ service returns bytes of PARAM, OEM or CAL. (R430) -/
  | paramRead (via : Carrier) (part : Byte) (ofs : BitVec 32) (n : Byte)
  /-- The PARAM_WRITE service commits bytes to PARAM or OEM with a SVCWRITE record. (R430) -/
  | paramWrite (via : Carrier) (seq : BitVec 16) (part : Byte) (ofs : BitVec 32) (data : List Byte)
  /-- The TIME service sets the RTC seconds and logs TIMESET. (R430) -/
  | time (via : Carrier) (seq : BitVec 16) (sec : BitVec 32)
  /-- The UPD service carries an update op, including DATA, over mailbox, Turradar or Nimora. (R451) -/
  | updService (via : Carrier) (seq : BitVec 16) (op : Byte) (args : List Byte)
  /-- The CONT service returns the next part of the requester's last response. (R431) -/
  | cont (via : Carrier)
  /-- The sensor ADC converts its enabled channels at SCAN.RATE. (R433) -/
  | sensorScan (vals : List (BitVec 16))
  /-- A tamper input at its active level for 1 ms counts, sets IST.TAMP and logs TAMPER. (R434) -/
  | tamper (n : Fin 2)
  /-- TMP.PKG crosses 85 °C, setting HOT and changing the refresh rate. (R436) -/
  | tempHot (die : Fin 4) (t : BitVec 12)
  /-- TMP.PKG above TWRN for 1 s raises the WARN fault. (R436) -/
  | overtempW (die : Fin 4) (t : BitVec 12)
  /-- TMP.PKG at 125 °C for 1 ms applies Last Line and raises the SAFETY fault. (R436) -/
  | overtemp (die : Fin 4) (t : BitVec 12)
  /-- A read of LOG.TAKE returns and increments LOG.NSEQ to number a staged record. (R438) -/
  | logTake (m : Master)
  /-- A taken LSEQ not arrived after 10 ms is skipped and counted in LOG.GAP. (R438) -/
  | logGapTimeout
  /-- Staged log records are committed as one group when NREC, BMS, class or PFAIL triggers it. (R439) -/
  | logCommit
  /-- At first boot with KEYS empty the key engine generates and stores the attestation key pair. (R446) -/
  | keygen
  /-- UPD.CMD BEGIN targets a partition of the inactive slot for a new image. (R451) -/
  | updBegin (m : Master) (kind : Byte)
  /-- UPD.CMD PUSH commits the 1 KiB DWIN window at DOFS. (R451) -/
  | updPush (m : Master)
  /-- UPD.CMD VERIFY starts verifying the received image. (R451) -/
  | updVerify (m : Master)
  /-- Verification or clone ends with ST VERIFIED or FAILED and IST.DONE. (R451) -/
  | updVerifyDone
  /-- UPD.CMD ABORT returns the update state to IDLE. (R451) -/
  | updAbort (m : Master)
  /-- UPD.CMD CLONE copies the active slot's partition into the inactive slot and verifies it. (R451) -/
  | updClone (m : Master) (kind : Byte)
  /-- UPD.CMD REBOOT restarts the boot from POR of the management core and L-die 10 ms later. (R451) -/
  | updReboot (m : Master)
  /-- A guarded write to UPD.ARM arms or disarms a verified inactive slot as trial. (R452) -/
  | updArm (m : Master) (v : Word)
  /-- A trial slot not at DONE 30 s after POR triggers the management core watchdog and fallback. (R452) -/
  | trialWatchdog
  /-- The Nimora port answers REQA or WUPA with ATQA. (R454) -/
  | nimoraReqa (wupa : Bool)
  /-- The port takes part in anticollision and selection at both cascade levels. (R454) -/
  | nimoraAnticollision (level : Fin 2) (bits : List Byte)
  /-- RATS is answered with the ATS and the ISO/IEC 14443-4 protocol starts. (R454) -/
  | nimoraRats (cid : Fin 16)
  /-- HLTA halts the Nimora listener. (R454) -/
  | nimoraHlta
  /-- S(DESELECT) ends the session and its authentication. (R456) -/
  | nimoraDeselect
  /-- The SELECT APDU selects the Haldith application by AID. (R455) -/
  | select (p1 : Byte) (p2 : Byte) (aid : List Byte)
  /-- The GET CHALLENGE APDU returns 16 random bytes. (R455) -/
  | getChallenge (p12 : BitVec 16) (le : BitVec 9)
  /-- The AUTH APDU verifies a service key and signature over the challenge to authenticate the session. (R456) -/
  | auth (p12 : BitVec 16) (data : List Byte)
  /-- The GET RESPONSE APDU returns the next part of a pending response. (R455) -/
  | getResponse (le : BitVec 9)
  /-- The reader's field collapses, ending the session and leaving writes per their step. (R458) -/
  | nimoraFieldLost
  /-- VSTO crosses one of the four thresholds, changing what the core and checks permit. (R461) -/
  | vstoThresholdCross (th : Fin 6) (up : Bool)
  /-- The supply selector changes the AON supply between VSYS, VSTO and VBAT make-before-break. (R466) -/
  | supplySwitch (vsto : BitVec 16) (vbat : BitVec 16) (run : Bool)
  /-- VSTO below TH_SENSE for LDARK switches the AON domain to VBAT. (R466) -/
  | ldarkExpiry (vbat : BitVec 16)
  /-- The AON supply falls below VAMIN and the domain shuts down. (R466) -/
  | aonShutdown (k : Nat)
  /-- Every MPPT.PER seconds the PV charger samples VOC and sets VMPP. (R463) -/
  | mpptSample (voc : BitVec 16)
  /-- With the entry conditions held for 100 µs the device enters IDLE. (R473) -/
  | idleEntry
  /-- An event, interrupt, packet or sync word returns the device from IDLE to RUN. (R473) -/
  | idleExit
  /-- A guarded RET.REQ write of 0x04 requests STANDBY. (R474) -/
  | standbyRequest (m : Master)
  /-- A guarded RET.REQ write of 0x08 requests HIBERNATE. (R474) -/
  | hibernateRequest (m : Master)
  /-- A guarded RET.REQ write of 0x20 requests SHIP. (R474) -/
  | shipRequest (m : Master)
  /-- EDLY after the request, the L-die enters STANDBY with self-refresh and 0.6 V core. (R475) -/
  | standbyEntry
  /-- EDLY after the request, clients close, the save list is saved, pads latch and the L-die and D-die power off. (R476) -/
  | hibernateEntry
  /-- EDLY after the request, values are saved, RTC stored in NVS and power removed except VIN-detect. (R477) -/
  | shipEntry
  /-- An enabled wake source returns STANDBY to running within 20 µs. (R480) -/
  | standbyWake (src : BitVec 9)
  /-- An enabled wake source re-enters the boot at LDIE and restores the save list. (R480) -/
  | hibernateWake (src : BitVec 9)
  /-- A guarded write of PPD.REL releases every latched L-die pad in one cycle. (R483) -/
  | padRelease (m : Master)
  /-- RTC.SEC reaches ALRM and the alarm fires. (R484) -/
  | rtcAlarm
  /-- A write to RTC.SEC restarts SUB and clears LOST. (R484) -/
  | rtcSet (m : Master) (v : Word)
  /-- The 32.768 kHz crystal stops for 2 s and the RTC moves to the RC. (R489) -/
  | xtal32Loss
  /-- Reference stopped or PLL unlocked applies Last Line, enters holdover and raises the SAFETY fault. (R490) -/
  | clkLoss (sub : Fin 2)
  /-- With AUTO set, the PLL relocks once the reference has run for 10 ms. (R490) -/
  | pllRelock
  /-- A frequency monitor window ends and the count is judged against its limit. (R491) -/
  | freqMonitorWindow (n : Fin 10) (dev : BitVec 16)
  /-- The modulator takes up a written spread depth at its next zero deviation. (R492) -/
  | sscDepthChange
  /-- A GP pad level change qualifies after its filter and drives router inputs and watchers. (R498) -/
  | gpEdge (pad : Fin 16) (level : Bool)
  /-- An activity watcher sees no edge for its limit and flags or raises GUARD_ACT. (R499) -/
  | activityTimeout (w : Fin 16)
  /-- Safe-state entry not complete within SSTO trips Last Line. (R516) -/
  | safeTmo (us : BitVec 16)
  /-- A write of an entry's LSEQ to FLT.DONE ends its handling. (R511) -/
  | fltDone (m : Master) (v : Word)
  /-- A write to FLT.INJ in SERVICE raises a fault code as if from its source. (R528) -/
  | fltInj (m : Master) (v : Word)
  /-- An interlock channel opens and Last Line cuts the laser within 0.70 µs. (R521) -/
  | ilkOpen (ch : Fin 2)
  /-- One interlock channel open and the other closed for longer than DSC raises ILK_DISC and sets DLAT. (R520) -/
  | ilkDisc (ch : Fin 2) (ms : BitVec 16)
  /-- A guarded write of ILK.LLR releases Last Line when no trigger is active. (R519) -/
  | lastLineRelease (m : Master)
  /-- A guarded write of ILK.FRC trips Last Line. (R529) -/
  | llForce (m : Master)
  /-- A guarded write to DBG.ULK unlocks or locks the debug port. (R545) -/
  | debugUnlock (m : Master) (en : Bool)
  /-- A guarded write of DBG.SRST.GO schedules an L-die and D-die reset. (R548) -/
  | srst (m : Master)
  /-- 10 ms after SRST the L-die and D-die reset and the boot re-enters at LDIE. (R548) -/
  | systemReset
  /-- A write of DBG.CMD.PKCLR resets the pick time range. (R538) -/
  | pkclr (m : Master)
  /-- A DBGACC Update-DR starts a debug register access and Capture-DR returns its outcome. (R547) -/
  | dbgacc (op : Fin 4) (addr : BitVec 32) (data : Word)
  /-- The EXTEST instruction drives the boundary scan in OFF or FAULT with sidebands held low. (R543) -/
  | extest
  /-- TRST low or Test-Logic-Reset resets only the TAP and DBGACC. (R531) -/
  | tapReset
  /-- Ball USBVB detects VBUS and, with BRG.IFC.USBE = 1, the device attaches its D+ pull-up. (R344) -/
  | vbusDetect
  /-- A USB OUT transaction on EP5 pushes print data into ring 2 as a stallable HOST producer, or is NAKed while the ring is full. (R374) -/
  | ep5PrintData (data : List Byte)
  /-- VIN returns while the AON domain runs in HARVEST (or rises through 4.5 V in SHIP) and the boot runs from stage POR as a POR of the AON domain. (R478) -/
  | vinReturn
  /-- A reader's 13.56 MHz field raises VRF to 1.80 V, setting HRV.STA.RFON and IST.FIELD and charging VSTO. (R464) -/
  | rfFieldDetect
  /-- An interlock channel returns to its closed level, clearing its LLA bit, and DLAT clears after both have been open 10 ms and then closed together. (R520) -/
  | ilkClose (ch : Fin 2) (together : Bool)
  /-- The 200 µA diagnostic current finds an open load on a switched-off solenoid output and sets SOL.IST.OPEN. (R239) -/
  | solOpenLoad (n : Fin 6)
  /-- The 32.768 kHz crystal oscillates again and the RTC moves back to it from the internal RC, setting RTC.STA.XTAL. (R484) -/
  | xtal32Return
  /-- Every 60 s while VIN is present Almanac firmware measures the RTC RC against the 25 MHz reference and trims it. (R484) -/
  | rcCalibration
  /-- Stage LOAD step 6 not done within 100 ms of step 5 fails the boot with PSY.BST.FAIL = 0x06. (R537) -/
  | loadTimeout
  deriving DecidableEq, Repr

end Sys2Proof
end

