-- ==== Sys2Proof/Config.lean ====
section
/-!
DEFINITION. What the manual leaves open or fixes in silicon without saying the value: constants without a body, so that a
statement about one holds for every value of it (notes/assumptions/2.md).
-/
namespace Sys2Proof.Config

/-- Free values drawn in order: contents, measurements and results the manual does not state. -/
opaque freeWord : Nat → BitVec 32

/-- The boot ROM's bytes (R37). -/
opaque bootRom : Nat → BitVec 8

/-- SHA-256 of a byte string (R443): 32 bytes. The manual names the algorithm and does not define it. -/
opaque sha256 : List (BitVec 8) → List (BitVec 8)

/-- ECDSA P-256 verification of a signature over a digest by a public key (R43, R449). -/
opaque ecdsaOk : (key digest sig : List (BitVec 8)) → Bool

/-- The OEM's firmware public key, whose SHA-256 P-die OTP holds (R450). -/
opaque fwKey : List (BitVec 8)

/-- Random bytes, by draw and index (R455). -/
opaque randomByte : Nat → Nat → BitVec 8

/-- The body of USB string descriptors 1 and 2 (R345): manufacturer and product, whose text the manual does not give. -/
opaque usbString : Nat → List (BitVec 8)

/-- Haldith's USB vendor ID in P-die OTP, the same on every SV-2440 (R345). -/
opaque haldithVid : BitVec 16

end Sys2Proof.Config
end

