-- ==== Sys2Proof/Machine/RegTypes.lean ====
section
/-!
DEFINITION. How a register table of the manual is written down: access codes (R11), classes (R12, R68–R76), legal
values (R13), fields, registers and pages (R56, R58).
-/
namespace Sys2Proof.Machine

/-- Access codes (R11). -/
inductive Acc | rw | ro | wo | w1c | rwg
  deriving DecidableEq, Repr

/-- Boundaries of class-B fields (R73). -/
inductive Bnd | sample | line | band | document | packet | frame
  deriving DecidableEq, Repr

/-- Configuration classes (R68–R76). A field with no class is listed as `l`: its access alone decides. -/
inductive Cls | s | l | b (bnd : Bnd)
  deriving DecidableEq, Repr

/-- The values of a field that are no reserved encodings (R13). -/
inductive Legal
  | any
  | among (ranges : List (Nat × Nat))
  | signed (lo hi : Int)
  deriving DecidableEq, Repr

/-- One field of a register: bits `[lo + w - 1 : lo]`. -/
structure FieldDesc where
  lo : Nat
  w : Nat
  acc : Acc
  reset : Nat
  cls : Cls
  legal : Legal := .any
  deriving DecidableEq, Repr

/-- A register, or `count` like registers `stride` bytes apart, each of `inner` consecutive words. `zeroRead` marks a
register that reads 0 whatever was written. -/
structure RegDesc where
  off : Nat
  count : Nat
  stride : Nat
  inner : Nat
  zeroRead : Bool
  fields : List FieldDesc
  deriving DecidableEq, Repr

/-- A register page (R52, R53, R58): its base and number, CAP bits BAS, XPA, GRD and BNDM, whether CTL.EN reads 1 and
ignores writes, whether host writes to it are forced non-posted (R368), its block-defined CTL, STA and IST bits, and
its registers. -/
structure PageDesc where
  base : Nat
  num : Nat
  bas : Bool
  xpa : Bool
  grd : Bool
  en1 : Bool
  np : Bool
  bounds : List Bnd
  ctl : List FieldDesc
  sta : List FieldDesc
  ist : List FieldDesc
  regs : List RegDesc
  deriving DecidableEq, Repr

/-- A field as a register table writes it, `[hi:lo]`. -/
def fd (hi lo : Nat) (acc : Acc) (reset : Nat) (cls : Cls) (legal : Legal := .any) : FieldDesc :=
  { lo := lo, w := hi - lo + 1, acc := acc, reset := reset, cls := cls, legal := legal }

/-- A single register. -/
def rd (off : Nat) (fields : List FieldDesc) (zeroRead : Bool := false) : RegDesc :=
  { off := off, count := 1, stride := 4, inner := 1, zeroRead := zeroRead, fields := fields }

/-- A run of like registers. -/
def rds (off count stride inner : Nat) (fields : List FieldDesc) (zeroRead : Bool := false) : RegDesc :=
  { off := off, count := count, stride := stride, inner := inner, zeroRead := zeroRead, fields := fields }

/-- A field addressed by its register's address and its bits: the handle by which meanings read and write it. -/
structure Field where
  addr : Nat
  lo : Nat
  w : Nat
  deriving DecidableEq, Repr

/-- Is `n`, read in `w` bits, a legal value (R13)? -/
def Legal.ok (l : Legal) (n w : Nat) : Bool :=
  match l with
  | .any => true
  | .among rs => rs.any fun r => r.1 ≤ n && n ≤ r.2
  | .signed lo hi => lo ≤ signedOf n w && signedOf n w ≤ hi

/-- Does the register (or run of registers) hold the page offset `o`? -/
def RegDesc.holds (r : RegDesc) (o : Nat) : Bool :=
  r.off ≤ o && (o - r.off) / r.stride < r.count && (o - r.off) % r.stride < 4 * r.inner && (o - r.off) % 4 == 0

/-- A register is guarded when a field of it is (R63). -/
def RegDesc.guarded (r : RegDesc) : Bool := r.fields.any fun f => f.acc == .rwg

end Sys2Proof.Machine
end

