-- ==== Sys2Proof/Machine/RegNames.lean ====
section
/-!
DEFINITION. Names of the pages, registers and fields of the register tables (RegTable.lean) that the meanings and the
statements use: `Pg.<page>` is a page's base address (R52, R53), `Reg.<page>_<register>` a register's address and
`Fld.<page>_<register>_<field>` a field, each as the manual names it.
-/
namespace Sys2Proof.Machine

namespace Pg
abbrev SYS : Nat := 0x40000000
abbrev PSY : Nat := 0x50000000
abbrev DOC : Nat := 0x40050000
abbrev PWR : Nat := 0x50004000
abbrev RES : Nat := 0x50008000
abbrev LGR : Nat := 0x40054000
abbrev MER : Nat := 0x40028000
abbrev IMG : Nat := 0x4002C000
abbrev CAL : Nat := 0x40030000
abbrev MRK : Nat := 0x4004C000
abbrev HVD : Nat := 0x5001C000
abbrev FUS : Nat := 0x50020000
abbrev LDR : Nat := 0x50014000
abbrev MOT : Nat := 0x40040000
abbrev ENC : Nat := 0x40044000
abbrev SNS : Nat := 0x40048000
abbrev MDR : Nat := 0x50024000
abbrev SOL : Nat := 0x50028000
abbrev HEL : Nat := 0x40034000
abbrev HLP : Nat := 0x40038000
abbrev HTB : Nat := 0x4003C000
abbrev ORR : Nat := 0x40020000
abbrev ORC : Nat := 0x40024000
abbrev CST : Nat := 0x40018000
abbrev RNG : Nat := 0x4001C000
abbrev BRG : Nat := 0x4000C000
abbrev CLI : Nat := 0x40010000
abbrev DBR : Nat := 0x40014000
abbrev UA0 : Nat := 0x4005C000
abbrev UA1 : Nat := 0x40060000
abbrev MLK : Nat := 0x50054000
abbrev SYN : Nat := 0x40064000
abbrev NVM : Nat := 0x50040000
abbrev NVS : Nat := 0x50044000
abbrev ALM : Nat := 0x50034000
abbrev SEN : Nat := 0x50038000
abbrev LOG : Nat := 0x5003C000
abbrev MSR : Nat := 0x50048000
abbrev UPD : Nat := 0x5004C000
abbrev NIM : Nat := 0x50050000
abbrev TMP : Nat := 0x50058000
abbrev RET : Nat := 0x5000C000
abbrev PPD : Nat := 0x50010000
abbrev HRV : Nat := 0x5002C000
abbrev RTC : Nat := 0x50030000
abbrev CLK : Nat := 0x40004000
abbrev PAD : Nat := 0x40008000
abbrev GPI : Nat := 0x40068000
abbrev FLT : Nat := 0x40058000
abbrev ILK : Nat := 0x50018000
abbrev DBG : Nat := 0x4006C000
end Pg

namespace Reg
abbrev SYS_IST : Nat := 0x40000010
abbrev SYS_REV : Nat := 0x40000040
abbrev SYS_BEA : Nat := 0x40000048
abbrev SYS_BES : Nat := 0x4000004C
abbrev PSY_IST : Nat := 0x50000010
abbrev PSY_BST : Nat := 0x50000044
abbrev PSY_BEA : Nat := 0x50000048
abbrev PSY_BES : Nat := 0x5000004C
abbrev DOC_CTL : Nat := 0x40050008
abbrev DOC_STA : Nat := 0x4005000C
abbrev DOC_IST : Nat := 0x40050010
abbrev DOC_ST : Nat := 0x40050040
abbrev DOC_NID : Nat := 0x40050044
abbrev DOC_OLD : Nat := 0x40050048
abbrev DOC_JUSE : Nat := 0x4005004C
abbrev DOC_REFC : Nat := 0x40050050
abbrev DOC_LREF : Nat := 0x40050054
abbrev DOC_BCFG : Nat := 0x40050600
abbrev DOC_BIDT : Nat := 0x4005060C
abbrev DOC_BSZT : Nat := 0x40050614
abbrev PWR_STA : Nat := 0x5000400C
abbrev PWR_IST : Nat := 0x50004010
abbrev PWR_VIN : Nat := 0x50004040
abbrev PWR_IIN : Nat := 0x50004044
abbrev PWR_PIN : Nat := 0x50004048
abbrev PWR_VPF : Nat := 0x5000404C
abbrev PWR_ILIM : Nat := 0x50004050
abbrev PWR_BCK : Nat := 0x50004054
abbrev RES_STA : Nat := 0x5000800C
abbrev RES_IST : Nat := 0x50008010
abbrev RES_VRES : Nat := 0x50008040
abbrev RES_CHG : Nat := 0x50008044
abbrev RES_TCFG : Nat := 0x50008048
abbrev RES_TRES : Nat := 0x5000804C
abbrev RES_TAGE : Nat := 0x50008050
abbrev RES_TCMD : Nat := 0x50008054
abbrev LGR_CTL : Nat := 0x40054008
abbrev LGR_LDEC : Nat := 0x40054040
abbrev LGR_LITM : Nat := 0x40054044
abbrev LGR_RFC : Nat := 0x40054048
abbrev LGR_PEAK : Nat := 0x4005404C
abbrev LGR_TMIN : Nat := 0x40054050
abbrev LGR_XBYP : Nat := 0x40054054
abbrev LGR_PLIM : Nat := 0x40054600
abbrev LGR_MRG : Nat := 0x40054604
abbrev LGR_BASE : Nat := 0x40054608
abbrev LGR_SCHED : Nat := 0x4005460C
abbrev LGR_HEAT : Nat := 0x40054610
abbrev LGR_THM : Nat := 0x40054614
abbrev LGR_THM2 : Nat := 0x40054618
abbrev LGR_HTR : Nat := 0x4005461C
abbrev LGR_LDT (i : Nat) : Nat := 0x40054640 + 4 * i
abbrev MER_CTL : Nat := 0x40028008
abbrev MER_STA : Nat := 0x4002800C
abbrev MER_IST : Nat := 0x40028010
abbrev MER_GEO : Nat := 0x40028040
abbrev MER_TFP : Nat := 0x40028044
abbrev MER_BDF : Nat := 0x40028048
abbrev MER_LCK : Nat := 0x4002804C
abbrev MER_FPM : Nat := 0x40028050
abbrev MER_FST : Nat := 0x40028054
abbrev MER_LCNT : Nat := 0x40028058
abbrev MER_PPR : Nat := 0x4002805C
abbrev MER_PPW : Nat := 0x40028060
abbrev MER_OFS (i : Nat) : Nat := 0x40028064 + 4 * i
abbrev MER_NPX (i : Nat) : Nat := 0x40028070 + 4 * i
abbrev MER_SLT : Nat := 0x4002807C
abbrev MER_SLEN : Nat := 0x40028080
abbrev MER_STB : Nat := 0x40028084
abbrev MER_SSC : Nat := 0x40028088
abbrev MER_RQR : Nat := 0x4002808C
abbrev MER_FCOR (i : Nat) : Nat := 0x40028090 + 4 * i
abbrev MER_BPOL : Nat := 0x40028600
abbrev MER_BSPD : Nat := 0x40028604
abbrev MER_BDPI : Nat := 0x40028608
abbrev MER_BWID (i : Nat) : Nat := 0x4002860C + 4 * i
abbrev MER_BOFS (i : Nat) : Nat := 0x40028618 + 4 * i
abbrev MER_BSLT : Nat := 0x40028624
abbrev IMG_CTL : Nat := 0x4002C008
abbrev IMG_STA : Nat := 0x4002C00C
abbrev IMG_IST : Nat := 0x4002C010
abbrev IMG_LTRG : Nat := 0x4002C040
abbrev IMG_PITCH : Nat := 0x4002C044
abbrev IMG_LOFS (i : Nat) : Nat := 0x4002C048 + 4 * i
abbrev IMG_HYS : Nat := 0x4002C050
abbrev IMG_RVMX : Nat := 0x4002C054
abbrev IMG_RING : Nat := 0x4002C058
abbrev IMG_PROC : Nat := 0x4002C05C
abbrev IMG_AFE (i : Nat) : Nat := 0x4002C060 + 4 * i
abbrev IMG_OFD (i : Nat) : Nat := 0x4002C068 + 4 * i
abbrev IMG_QMSK : Nat := 0x4002C070
abbrev IMG_TST (i : Nat) : Nat := 0x4002C074 + 4 * i
abbrev IMG_HWM (i : Nat) : Nat := 0x4002C07C + 4 * i
abbrev IMG_NLN (i : Nat) : Nat := 0x4002C084 + 4 * i
abbrev IMG_DROP : Nat := 0x4002C08C
abbrev IMG_BLPI : Nat := 0x4002C600
abbrev IMG_BLOF (i : Nat) : Nat := 0x4002C604 + 4 * i
abbrev IMG_BHYS : Nat := 0x4002C60C
abbrev IMG_BRVM : Nat := 0x4002C610
abbrev IMG_BGN (i : Nat) : Nat := 0x4002C614 + 4 * i
abbrev IMG_BOF (i : Nat) : Nat := 0x4002C61C + 4 * i
abbrev IMG_BPROC : Nat := 0x4002C624
abbrev CAL_STA : Nat := 0x4003000C
abbrev CAL_IST : Nat := 0x40030010
abbrev CAL_CMD : Nat := 0x40030040
abbrev CAL_CFG : Nat := 0x40030044
abbrev CAL_CRS : Nat := 0x40030048
abbrev CAL_SEQ : Nat := 0x4003004C
abbrev CAL_TAD : Nat := 0x40030050
abbrev CAL_TDA : Nat := 0x40030054
abbrev MRK_CTL : Nat := 0x4004C008
abbrev MRK_STA : Nat := 0x4004C00C
abbrev MRK_IST : Nat := 0x4004C010
abbrev MRK_GEO : Nat := 0x4004C040
abbrev MRK_WPIT : Nat := 0x4004C044
abbrev MRK_TNP : Nat := 0x4004C048
abbrev MRK_FNP : Nat := 0x4004C04C
abbrev MRK_DWT : Nat := 0x4004C050
abbrev MRK_HSEQ : Nat := 0x4004C054
abbrev MRK_HVS (i : Nat) : Nat := 0x4004C058 + 4 * i
abbrev MRK_APC (i : Nat) : Nat := 0x4004C068 + 4 * i
abbrev MRK_FSET : Nat := 0x4004C074
abbrev MRK_HFT : Nat := 0x4004C078
abbrev MRK_RING : Nat := 0x4004C07C
abbrev MRK_PRB : Nat := 0x4004C080
abbrev MRK_PRS : Nat := 0x4004C084
abbrev MRK_BST : Nat := 0x4004C088
abbrev MRK_UNDR : Nat := 0x4004C08C
abbrev MRK_JDEL : Nat := 0x4004C090
abbrev MRK_JHND (i : Nat) : Nat := 0x4004C0A0 + 4 * i
abbrev MRK_JSTA (i : Nat) : Nat := 0x4004C0E0 + 4 * i
abbrev MRK_BWLPI : Nat := 0x4004C600
abbrev MRK_BTNP : Nat := 0x4004C604
abbrev MRK_BFNP : Nat := 0x4004C608
abbrev MRK_BDWT : Nat := 0x4004C60C
abbrev MRK_BRMP : Nat := 0x4004C610
abbrev MRK_BTRL : Nat := 0x4004C614
abbrev MRK_BHV (i : Nat) : Nat := 0x4004C618 + 4 * i
abbrev MRK_BHS (i : Nat) : Nat := 0x4004C628 + 4 * i
abbrev MRK_BFUS : Nat := 0x4004C638
abbrev MRK_BHFT : Nat := 0x4004C63C
abbrev MRK_BAPC (i : Nat) : Nat := 0x4004C640 + 4 * i
abbrev HVD_CTL : Nat := 0x5001C008
abbrev HVD_STA : Nat := 0x5001C00C
abbrev HVD_IST : Nat := 0x5001C010
abbrev HVD_CEIL (i : Nat) : Nat := 0x5001C050 + 4 * i
abbrev HVD_DMAX (i : Nat) : Nat := 0x5001C060 + 4 * i
abbrev HVD_HVF (i : Nat) : Nat := 0x5001C070 + 4 * i
abbrev HVD_DTY (i : Nat) : Nat := 0x5001C080 + 4 * i
abbrev FUS_CTL : Nat := 0x50020008
abbrev FUS_STA : Nat := 0x5002000C
abbrev FUS_IST : Nat := 0x50020010
abbrev FUS_TH (i : Nat) : Nat := 0x50020040 + 4 * i
abbrev FUS_TCEIL : Nat := 0x50020048
abbrev FUS_TCUT : Nat := 0x5002004C
abbrev FUS_DTY : Nat := 0x50020054
abbrev FUS_TDIF : Nat := 0x50020058
abbrev LDR_CTL : Nat := 0x50014008
abbrev LDR_STA : Nat := 0x5001400C
abbrev LDR_IST : Nat := 0x50014010
abbrev LDR_BIAS (i : Nat) : Nat := 0x50014040 + 4 * i
abbrev LDR_MODI (i : Nat) : Nat := 0x5001404C + 4 * i
abbrev LDR_CEIL (i : Nat) : Nat := 0x50014058 + 4 * i
abbrev LDR_BDI (i : Nat) : Nat := 0x50014064 + 4 * i
abbrev LDR_MODA (i : Nat) : Nat := 0x50014070 + 4 * i
abbrev LDR_MON (i : Nat) : Nat := 0x5001407C + 4 * i
abbrev LDR_APCM : Nat := 0x50014088
abbrev MOT_CTL : Nat := 0x40040008
abbrev MOT_STA : Nat := 0x4004000C
abbrev MOT_IST : Nat := 0x40040010
abbrev MOT_AX (i : Nat) : Nat := 0x40040040 + 4 * i
abbrev MOT_STL : Nat := 0x40040048
abbrev MOT_CM (i : Nat) : Nat := 0x4004004C + 4 * i
abbrev MOT_JST : Nat := 0x40040054
abbrev MOT_JITM : Nat := 0x40040058
abbrev MOT_PROFA (i : Nat) : Nat := 0x40040600 + 24 * i
abbrev MOT_PROFB (i : Nat) : Nat := 0x40040604 + 24 * i
abbrev MOT_PROFC (i : Nat) : Nat := 0x40040608 + 24 * i
abbrev MOT_PROFD (i : Nat) : Nat := 0x4004060C + 24 * i
abbrev MOT_PROFE (i : Nat) : Nat := 0x40040610 + 24 * i
abbrev MOT_PROFF (i : Nat) : Nat := 0x40040614 + 24 * i
abbrev MOT_BHOME : Nat := 0x40040780
abbrev MOT_BZS (i : Nat) : Nat := 0x400407A0 + 4 * i
abbrev MOT_BZE (i : Nat) : Nat := 0x400407C0 + 4 * i
abbrev ENC_CTL : Nat := 0x40044008
abbrev ENC_STA : Nat := 0x4004400C
abbrev ENC_IST : Nat := 0x40044010
abbrev ENC_CFG (i : Nat) : Nat := 0x40044040 + 4 * i
abbrev ENC_POS (i : Nat) : Nat := 0x40044048 + 4 * i
abbrev ENC_IDX (i : Nat) : Nat := 0x40044050 + 4 * i
abbrev ENC_ERR : Nat := 0x40044058
abbrev ENC_OLS (i : Nat) : Nat := 0x4004405C + 4 * i
abbrev SNS_STA : Nat := 0x4004800C
abbrev SNS_IST : Nat := 0x40048010
abbrev SNS_SCFG (i : Nat) : Nat := 0x40048040 + 4 * i
abbrev SNS_LVL : Nat := 0x4004805C
abbrev SNS_MON (i : Nat) : Nat := 0x40048060 + 4 * i
abbrev SNS_ATHC : Nat := 0x40048078
abbrev SNS_EPOS (i : Nat) : Nat := 0x40048080 + 4 * i
abbrev SNS_BPOS (i : Nat) : Nat := 0x40048600 + 4 * i
abbrev MDR_CTL : Nat := 0x50024008
abbrev MDR_STA : Nat := 0x5002400C
abbrev MDR_IST : Nat := 0x50024010
abbrev MDR_PGEO : Nat := 0x50024040
abbrev MDR_PRMP : Nat := 0x50024044
abbrev MDR_PSTA : Nat := 0x50024048
abbrev MDR_PICL : Nat := 0x5002404C
abbrev MDR_HICL (i : Nat) : Nat := 0x50024054 + 4 * i
abbrev MDR_HCUR (i : Nat) : Nat := 0x50024064 + 4 * i
abbrev MDR_POVS : Nat := 0x50024074
abbrev SOL_CTL : Nat := 0x50028008
abbrev SOL_STA : Nat := 0x5002800C
abbrev SOL_IST : Nat := 0x50028010
abbrev SOL_SON : Nat := 0x5002805C
abbrev HEL_STA : Nat := 0x4003400C
abbrev HEL_IST : Nat := 0x40034010
abbrev HEL_RUN : Nat := 0x40034040
abbrev HEL_PIN : Nat := 0x40034044
abbrev HEL_LOSS : Nat := 0x40034048
abbrev HEL_FLGS : Nat := 0x4003404C
abbrev HEL_MCMD : Nat := 0x40034050
abbrev HEL_FRM : Nat := 0x40034054
abbrev HEL_CYC : Nat := 0x40034058
abbrev HLP_CTL : Nat := 0x40038008
abbrev HLP_CFG (i : Nat) : Nat := 0x40038040 + 112 * i
abbrev HLP_KP (i : Nat) : Nat := 0x40038044 + 112 * i
abbrev HLP_KI (i : Nat) : Nat := 0x40038048 + 112 * i
abbrev HLP_KD (i : Nat) : Nat := 0x4003804C + 112 * i
abbrev HLP_KF (i : Nat) : Nat := 0x40038050 + 112 * i
abbrev HLP_SHF (i : Nat) : Nat := 0x40038054 + 112 * i
abbrev HLP_RMAX (i : Nat) : Nat := 0x40038058 + 112 * i
abbrev HLP_OMIN (i : Nat) : Nat := 0x4003805C + 112 * i
abbrev HLP_OMAX (i : Nat) : Nat := 0x40038060 + 112 * i
abbrev HLP_YMIN (i : Nat) : Nat := 0x40038064 + 112 * i
abbrev HLP_YMAX (i : Nat) : Nat := 0x40038068 + 112 * i
abbrev HLP_DYM (i : Nat) : Nat := 0x4003806C + 112 * i
abbrev HLP_FRZ (i : Nat) : Nat := 0x40038070 + 112 * i
abbrev HLP_GRD (i : Nat) : Nat := 0x40038074 + 112 * i
abbrev HLP_TABC (i : Nat) : Nat := 0x40038078 + 112 * i
abbrev HLP_TSCL (i : Nat) : Nat := 0x4003807C + 112 * i
abbrev HLP_TPH (i : Nat) : Nat := 0x40038080 + 112 * i
abbrev HLP_REF (i : Nat) : Nat := 0x40038084 + 112 * i
abbrev HLP_FB (i : Nat) : Nat := 0x40038088 + 112 * i
abbrev HLP_OUT (i : Nat) : Nat := 0x4003808C + 112 * i
abbrev HLP_IACC (i : Nat) : Nat := 0x40038090 + 112 * i
abbrev HLP_HLO (i : Nat) : Nat := 0x40038094 + 112 * i
abbrev HLP_HHI (i : Nat) : Nat := 0x40038098 + 112 * i
abbrev HLP_ST (i : Nat) : Nat := 0x4003809C + 112 * i
abbrev HLP_CNT (i : Nat) : Nat := 0x400380A0 + 112 * i
abbrev HLP_TGT (i : Nat) : Nat := 0x400380A4 + 112 * i
abbrev HLP_AUX (i : Nat) : Nat := 0x400380A8 + 112 * i
abbrev HLP_BOB (i : Nat) : Nat := 0x40038600 + 8 * i
abbrev HLP_BPN (i : Nat) : Nat := 0x40038604 + 8 * i
abbrev HTB_TAD : Nat := 0x4003C040
abbrev HTB_TDA : Nat := 0x4003C044
abbrev ORR_CTL : Nat := 0x40020008
abbrev ORR_STA : Nat := 0x4002000C
abbrev ORR_IST : Nat := 0x40020010
abbrev ORR_SWP : Nat := 0x40020040
abbrev ORR_SWPC : Nat := 0x40020044
abbrev ORR_ECE : Nat := 0x40020048
abbrev ORR_CYC : Nat := 0x4002004C
abbrev ORR_V (i : Nat) : Nat := 0x40020050 + 4 * i
abbrev ORC_ENT (i : Nat) : Nat := 0x40024040 + 128 * i
abbrev ORC_CFG (i : Nat) : Nat := 0x40024044 + 128 * i
abbrev ORC_ST (i : Nat) : Nat := 0x40024048 + 128 * i
abbrev ORC_FLG (i : Nat) : Nat := 0x4002404C + 128 * i
abbrev ORC_DSP (i j : Nat) : Nat := 0x40024050 + 128 * i + 4 * j
abbrev ORC_PEND (i : Nat) : Nat := 0x40024070 + 128 * i
abbrev ORC_TMXC (i : Nat) : Nat := 0x40024074 + 128 * i
abbrev ORC_WDG (i : Nat) : Nat := 0x40024078 + 128 * i
abbrev ORC_W (i j : Nat) : Nat := 0x40024080 + 128 * i + 4 * j
abbrev ORC_CMD : Nat := 0x40024400
abbrev CST_CTL : Nat := 0x40018008
abbrev CST_STA : Nat := 0x4001800C
abbrev CST_IST : Nat := 0x40018010
abbrev CST_SYSR : Nat := 0x40018040
abbrev CST_HSTR : Nat := 0x40018044
abbrev CST_POOL : Nat := 0x40018048
abbrev CST_ECC : Nat := 0x40018050
abbrev CST_UEA : Nat := 0x40018054
abbrev CST_SCRB : Nat := 0x40018058
abbrev CST_BADG : Nat := 0x4001805C
abbrev CST_RSVI (i : Nat) : Nat := 0x40018080 + 16 * i
abbrev CST_RSVF (i : Nat) : Nat := 0x40018084 + 16 * i
abbrev CST_RSVR (i : Nat) : Nat := 0x40018088 + 16 * i
abbrev CST_RSVE (i : Nat) : Nat := 0x4001808C + 16 * i
abbrev RNG_IST : Nat := 0x4001C010
abbrev RNG_HSEL : Nat := 0x4001C040
abbrev RNG_HPSH : Nat := 0x4001C044
abbrev RNG_HPOP : Nat := 0x4001C048
abbrev RNG_HDONE : Nat := 0x4001C04C
abbrev RNG_HSTA : Nat := 0x4001C050
abbrev RNG_RCFG (i : Nat) : Nat := 0x4001C100 + 16 * i
abbrev RNG_RBAS (i : Nat) : Nat := 0x4001C104 + 16 * i
abbrev RNG_RDEP (i : Nat) : Nat := 0x4001C108 + 16 * i
abbrev RNG_STAT (i : Nat) : Nat := 0x4001C10C + 16 * i
abbrev BRG_CTL : Nat := 0x4000C008
abbrev BRG_IST : Nat := 0x4000C010
abbrev BRG_IEN : Nat := 0x4000C014
abbrev BRG_IFC : Nat := 0x4000C040
abbrev BRG_USTA : Nat := 0x4000C044
abbrev BRG_UVID : Nat := 0x4000C048
abbrev BRG_UREL : Nat := 0x4000C04C
abbrev BRG_SCFG : Nat := 0x4000C050
abbrev BRG_PERR : Nat := 0x4000C054
abbrev CLI_OPN : Nat := 0x40010040
abbrev CLI_CLS : Nat := 0x40010044
abbrev CLI_SEL : Nat := 0x40010048
abbrev CLI_CST : Nat := 0x4001004C
abbrev CLI_CRT : Nat := 0x40010050
abbrev CLI_PRL : Nat := 0x40010054
abbrev CLI_PRP : Nat := 0x40010058
abbrev CLI_PWL : Nat := 0x4001005C
abbrev CLI_PWP : Nat := 0x40010060
abbrev CLI_PXL : Nat := 0x40010064
abbrev CLI_PXP : Nat := 0x40010068
abbrev CLI_SEQ : Nat := 0x4001006C
abbrev CLI_POOL : Nat := 0x40010070
abbrev DBR_IST : Nat := 0x40014010
abbrev DBR_LST : Nat := 0x40014040
abbrev DBR_RTE : Nat := 0x40014044
abbrev DBR_REGT : Nat := 0x40014048
abbrev DBR_TRN : Nat := 0x4001404C
abbrev DBR_MCFG : Nat := 0x40014050
abbrev DBR_MSRC (i : Nat) : Nat := 0x40014080 + 4 * i
abbrev DBR_MVAL (i : Nat) : Nat := 0x400140C0 + 4 * i
abbrev DBR_MAGE (i : Nat) : Nat := 0x40014100 + 4 * i
abbrev UA0_STA : Nat := 0x4005C00C
abbrev UA0_IST : Nat := 0x4005C010
abbrev UA0_FMT : Nat := 0x4005C040
abbrev UA0_BAUD : Nat := 0x4005C044
abbrev UA0_FLOW : Nat := 0x4005C048
abbrev UA0_TUN : Nat := 0x4005C04C
abbrev UA0_MAXF : Nat := 0x4005C050
abbrev UA0_WM : Nat := 0x4005C054
abbrev UA0_DATA : Nat := 0x4005C058
abbrev UA0_LVL : Nat := 0x4005C05C
abbrev UA0_CNT : Nat := 0x4005C060
abbrev UA0_ERRC : Nat := 0x4005C064
abbrev UA1_BAUD : Nat := 0x40060044
abbrev UA1_WM : Nat := 0x40060054
abbrev UA1_DATA : Nat := 0x40060058
abbrev MLK_STA : Nat := 0x5005400C
abbrev MLK_IST : Nat := 0x50054010
abbrev MLK_ADDR : Nat := 0x50054040
abbrev MLK_FMT : Nat := 0x50054044
abbrev MLK_BAUD : Nat := 0x50054048
abbrev MLK_TIM : Nat := 0x5005404C
abbrev MLK_TUN : Nat := 0x50054050
abbrev MLK_DATA : Nat := 0x50054054
abbrev MLK_CNT : Nat := 0x50054058
abbrev MLK_ERRC : Nat := 0x5005405C
abbrev SYN_CTL : Nat := 0x40064008
abbrev SYN_STA : Nat := 0x4006400C
abbrev SYN_IST : Nat := 0x40064010
abbrev SYN_CFG : Nat := 0x40064040
abbrev SYN_PER : Nat := 0x40064044
abbrev SYN_TIM : Nat := 0x40064048
abbrev SYN_USRO : Nat := 0x4006404C
abbrev SYN_RXW : Nat := 0x40064050
abbrev SYN_POS : Nat := 0x40064054
abbrev SYN_ERRC : Nat := 0x40064058
abbrev NVM_STA : Nat := 0x5004000C
abbrev NVM_IST : Nat := 0x50040010
abbrev NVM_CMD : Nat := 0x50040040
abbrev NVM_GST : Nat := 0x50040044
abbrev NVM_TPA : Nat := 0x50040048
abbrev NVM_TWI : Nat := 0x5004004C
abbrev NVM_TDA : Nat := 0x50040050
abbrev NVM_GSEQ : Nat := 0x50040054
abbrev NVM_BP : Nat := 0x5004005C
abbrev NVM_ECC : Nat := 0x50040060
abbrev NVM_UEA : Nat := 0x50040064
abbrev NVM_RCV : Nat := 0x50040068
abbrev NVM_CFG : Nat := 0x5004006C
abbrev NVM_SLB (i : Nat) : Nat := 0x50040080 + 4 * i
abbrev NVM_CFT (i : Nat) : Nat := 0x500400A0 + 4 * i
abbrev NVS_STA : Nat := 0x5004400C
abbrev NVS_IST : Nat := 0x50044010
abbrev NVS_SEL : Nat := 0x50044040
abbrev NVS_VAL : Nat := 0x50044044
abbrev NVS_ADD : Nat := 0x50044048
abbrev NVS_VST : Nat := 0x5004404C
abbrev NVS_DCFG : Nat := 0x50044050
abbrev NVS_VHP : Nat := 0x50044054
abbrev NVS_SAVE : Nat := 0x50044058
abbrev ALM_STA : Nat := 0x5003400C
abbrev ALM_IST : Nat := 0x50034010
abbrev ALM_FWV : Nat := 0x50034040
abbrev ALM_DEVL : Nat := 0x50034044
abbrev ALM_DEVH : Nat := 0x50034048
abbrev ALM_MSVC : Nat := 0x50034050
abbrev ALM_MLEN : Nat := 0x50034054
abbrev ALM_MDB : Nat := 0x50034058
abbrev ALM_MRS : Nat := 0x5003405C
abbrev ALM_MBUF (i : Nat) : Nat := 0x50034100 + 4 * i
abbrev SEN_STA : Nat := 0x5003800C
abbrev SEN_IST : Nat := 0x50038010
abbrev SEN_SCAN : Nat := 0x50038040
abbrev SEN_TCFG : Nat := 0x50038060
abbrev SEN_TCNT : Nat := 0x50038064
abbrev SEN_VAL (i : Nat) : Nat := 0x50038080 + 4 * i
abbrev LOG_STA : Nat := 0x5003C00C
abbrev LOG_IST : Nat := 0x5003C010
abbrev LOG_NSEQ : Nat := 0x5003C040
abbrev LOG_TAKE : Nat := 0x5003C044
abbrev LOG_GAP : Nat := 0x5003C04C
abbrev LOG_DROP : Nat := 0x5003C050
abbrev MSR_MS (i : Nat) : Nat := 0x50048040 + 4 * i
abbrev MSR_LOADC : Nat := 0x50048100
abbrev MSR_FLG : Nat := 0x50048104
abbrev UPD_STA : Nat := 0x5004C04C
abbrev UPD_IST : Nat := 0x5004C010
abbrev UPD_CMD : Nat := 0x5004C040
abbrev UPD_LEN : Nat := 0x5004C044
abbrev UPD_DOFS : Nat := 0x5004C048
abbrev UPD_SLOT : Nat := 0x5004C050
abbrev UPD_ARM : Nat := 0x5004C054
abbrev UPD_RBK : Nat := 0x5004C058
abbrev UPD_DWIN (i : Nat) : Nat := 0x5004C200 + 4 * i
abbrev NIM_CTL : Nat := 0x50050008
abbrev NIM_STA : Nat := 0x5005000C
abbrev NIM_IST : Nat := 0x50050010
abbrev NIM_CFG : Nat := 0x50050040
abbrev NIM_UIDL : Nat := 0x50050044
abbrev NIM_UIDH : Nat := 0x50050048
abbrev NIM_ST : Nat := 0x5005004C
abbrev NIM_LSEQ : Nat := 0x50050050
abbrev NIM_CNT : Nat := 0x50050054
abbrev TMP_STA : Nat := 0x5005800C
abbrev TMP_IST : Nat := 0x50058010
abbrev TMP_T (i : Nat) : Nat := 0x50058040 + 4 * i
abbrev TMP_PKG : Nat := 0x50058050
abbrev TMP_TWRN : Nat := 0x50058054
abbrev RET_STA : Nat := 0x5000C00C
abbrev RET_IST : Nat := 0x5000C010
abbrev RET_REQ : Nat := 0x5000C040
abbrev RET_CFG : Nat := 0x5000C044
abbrev RET_WSRC : Nat := 0x5000C048
abbrev RET_WCAU : Nat := 0x5000C04C
abbrev RET_LVL : Nat := 0x5000C050
abbrev RET_SAV : Nat := 0x5000C054
abbrev PPD_STA : Nat := 0x5001000C
abbrev PPD_REL : Nat := 0x50010040
abbrev HRV_STA : Nat := 0x5002C00C
abbrev HRV_IST : Nat := 0x5002C010
abbrev HRV_THT : Nat := 0x5002C040
abbrev HRV_MPPT : Nat := 0x5002C044
abbrev HRV_LDK : Nat := 0x5002C048
abbrev HRV_CSTO : Nat := 0x5002C050
abbrev HRV_ITX : Nat := 0x5002C054
abbrev HRV_VOC : Nat := 0x5002C058
abbrev HRV_DKT : Nat := 0x5002C05C
abbrev RTC_STA : Nat := 0x5003000C
abbrev RTC_IST : Nat := 0x50030010
abbrev RTC_SEC : Nat := 0x50030040
abbrev RTC_SUB : Nat := 0x50030044
abbrev RTC_ALRM : Nat := 0x50030048
abbrev CLK_STA : Nat := 0x4000400C
abbrev CLK_IST : Nat := 0x40004010
abbrev CLK_SSC : Nat := 0x40004040
abbrev CLK_CKO : Nat := 0x40004048
abbrev CLK_LKA : Nat := 0x40004050
abbrev CLK_FMW : Nat := 0x40004054
abbrev CLK_FM (i : Nat) : Nat := 0x40004058 + 4 * i
abbrev CLK_FM7 : Nat := 0x40004074
abbrev CLK_FM8 : Nat := 0x40004078
abbrev CLK_FM9 : Nat := 0x4000407C
abbrev PAD_IST : Nat := 0x40008010
abbrev PAD_SLW (i : Nat) : Nat := 0x40008040 + 4 * i
abbrev PAD_GFL (i : Nat) : Nat := 0x40008070 + 4 * i
abbrev PAD_GFL5 : Nat := 0x40008084
abbrev PAD_ATO (i : Nat) : Nat := 0x40008090 + 4 * i
abbrev PAD_INE0 : Nat := 0x400080D0
abbrev PAD_ATEN : Nat := 0x400080D8
abbrev PAD_ATACT : Nat := 0x400080DC
abbrev PAD_ATS : Nat := 0x400080E0
abbrev GPI_CTL : Nat := 0x40068008
abbrev GPI_PCFG (i : Nat) : Nat := 0x40068040 + 4 * i
abbrev GPI_RSEL (i : Nat) : Nat := 0x40068080 + 4 * i
abbrev GPI_ROSRC (i : Nat) : Nat := 0x40068090 + 4 * i
abbrev GPI_DIN : Nat := 0x400680E0
abbrev GPI_ROUT : Nat := 0x400680E4
abbrev FLT_STA : Nat := 0x4005800C
abbrev FLT_IST : Nat := 0x40058010
abbrev FLT_CUR : Nat := 0x40058040
abbrev FLT_CURS : Nat := 0x40058044
abbrev FLT_CITM : Nat := 0x40058048
abbrev FLT_DONE : Nat := 0x4005804C
abbrev FLT_QST : Nat := 0x40058050
abbrev FLT_CNT1 : Nat := 0x40058054
abbrev FLT_CNT2 : Nat := 0x40058058
abbrev FLT_SSTO : Nat := 0x4005805C
abbrev FLT_LAT : Nat := 0x40058060
abbrev FLT_INJ : Nat := 0x40058064
abbrev ILK_STA : Nat := 0x5001800C
abbrev ILK_IST : Nat := 0x50018010
abbrev ILK_CFG : Nat := 0x50018040
abbrev ILK_IN : Nat := 0x50018044
abbrev ILK_LLC : Nat := 0x50018048
abbrev ILK_LLA : Nat := 0x5001804C
abbrev ILK_LLR : Nat := 0x50018050
abbrev ILK_FRC : Nat := 0x50018054
abbrev ILK_TCNT : Nat := 0x50018058
abbrev DBG_STA : Nat := 0x4006C00C
abbrev DBG_IST : Nat := 0x4006C010
abbrev DBG_RST : Nat := 0x4006C040
abbrev DBG_PSE : Nat := 0x4006C044
abbrev DBG_PKT : Nat := 0x4006C048
abbrev DBG_PKR : Nat := 0x4006C04C
abbrev DBG_CMD : Nat := 0x4006C050
abbrev DBG_ULK : Nat := 0x4006C054
abbrev DBG_SRST : Nat := 0x4006C058
abbrev UPD_HEADSTA : Nat := 0x5004C00C
end Reg

namespace Fld
abbrev SYS_IST_BERR : Field := ⟨Reg.SYS_IST, 0, 1⟩
abbrev SYS_REV_LREVN : Field := ⟨Reg.SYS_REV, 0, 8⟩
abbrev SYS_BEA_ADDR : Field := ⟨Reg.SYS_BEA, 0, 32⟩
abbrev SYS_BES_VLD : Field := ⟨Reg.SYS_BES, 31, 1⟩
abbrev SYS_BES_CNT : Field := ⟨Reg.SYS_BES, 24, 7⟩
abbrev SYS_BES_KIND : Field := ⟨Reg.SYS_BES, 16, 2⟩
abbrev SYS_BES_CLID : Field := ⟨Reg.SYS_BES, 8, 8⟩
abbrev SYS_BES_MST : Field := ⟨Reg.SYS_BES, 0, 8⟩
abbrev PSY_IST_BERR : Field := ⟨Reg.PSY_IST, 0, 1⟩
abbrev PSY_BST_FALLBK : Field := ⟨Reg.PSY_BST, 17, 1⟩
abbrev PSY_BST_SLOT : Field := ⟨Reg.PSY_BST, 16, 1⟩
abbrev PSY_BST_FAIL : Field := ⟨Reg.PSY_BST, 8, 8⟩
abbrev PSY_BST_STG : Field := ⟨Reg.PSY_BST, 0, 8⟩
abbrev PSY_BEA_ADDR : Field := ⟨Reg.PSY_BEA, 0, 32⟩
abbrev PSY_BES_VLD : Field := ⟨Reg.PSY_BES, 31, 1⟩
abbrev PSY_BES_CNT : Field := ⟨Reg.PSY_BES, 24, 7⟩
abbrev PSY_BES_KIND : Field := ⟨Reg.PSY_BES, 16, 2⟩
abbrev PSY_BES_CLID : Field := ⟨Reg.PSY_BES, 8, 8⟩
abbrev PSY_BES_MST : Field := ⟨Reg.PSY_BES, 0, 8⟩
abbrev DOC_CTL_EN : Field := ⟨Reg.DOC_CTL, 0, 1⟩
abbrev DOC_STA_RCVP : Field := ⟨Reg.DOC_STA, 23, 1⟩
abbrev DOC_STA_JFULL : Field := ⟨Reg.DOC_STA, 22, 1⟩
abbrev DOC_STA_NQUE : Field := ⟨Reg.DOC_STA, 16, 6⟩
abbrev DOC_STA_NADM : Field := ⟨Reg.DOC_STA, 12, 4⟩
abbrev DOC_STA_ST : Field := ⟨Reg.DOC_STA, 8, 4⟩
abbrev DOC_IST_REFUSE : Field := ⟨Reg.DOC_IST, 11, 1⟩
abbrev DOC_IST_JFULL : Field := ⟨Reg.DOC_IST, 10, 1⟩
abbrev DOC_IST_REP : Field := ⟨Reg.DOC_IST, 9, 1⟩
abbrev DOC_IST_STCH : Field := ⟨Reg.DOC_IST, 8, 1⟩
abbrev DOC_ST_CAUSE : Field := ⟨Reg.DOC_ST, 8, 8⟩
abbrev DOC_ST_PREV : Field := ⟨Reg.DOC_ST, 4, 4⟩
abbrev DOC_ST_ST : Field := ⟨Reg.DOC_ST, 0, 4⟩
abbrev DOC_NID_ID : Field := ⟨Reg.DOC_NID, 0, 32⟩
abbrev DOC_OLD_ID : Field := ⟨Reg.DOC_OLD, 0, 32⟩
abbrev DOC_JUSE_CLSD : Field := ⟨Reg.DOC_JUSE, 16, 8⟩
abbrev DOC_JUSE_OPN : Field := ⟨Reg.DOC_JUSE, 8, 8⟩
abbrev DOC_JUSE_USE : Field := ⟨Reg.DOC_JUSE, 0, 8⟩
abbrev DOC_REFC_CNT : Field := ⟨Reg.DOC_REFC, 0, 16⟩
abbrev DOC_LREF_CLID : Field := ⟨Reg.DOC_LREF, 16, 8⟩
abbrev DOC_LREF_ST : Field := ⟨Reg.DOC_LREF, 8, 4⟩
abbrev DOC_LREF_CMD : Field := ⟨Reg.DOC_LREF, 0, 8⟩
abbrev DOC_BCFG_MAXADM : Field := ⟨Reg.DOC_BCFG, 4, 3⟩
abbrev DOC_BCFG_MODE : Field := ⟨Reg.DOC_BCFG, 2, 2⟩
abbrev DOC_BCFG_REAR : Field := ⟨Reg.DOC_BCFG, 1, 1⟩
abbrev DOC_BCFG_MARK : Field := ⟨Reg.DOC_BCFG, 0, 1⟩
abbrev DOC_BIDT_T : Field := ⟨Reg.DOC_BIDT, 0, 16⟩
abbrev DOC_BSZT_T : Field := ⟨Reg.DOC_BSZT, 0, 16⟩
abbrev PWR_STA_SHED : Field := ⟨Reg.PWR_STA, 14, 1⟩
abbrev PWR_STA_ILIMA : Field := ⟨Reg.PWR_STA, 13, 1⟩
abbrev PWR_STA_OV : Field := ⟨Reg.PWR_STA, 12, 1⟩
abbrev PWR_STA_BW : Field := ⟨Reg.PWR_STA, 11, 1⟩
abbrev PWR_STA_VCOREG : Field := ⟨Reg.PWR_STA, 10, 1⟩
abbrev PWR_STA_VIOG : Field := ⟨Reg.PWR_STA, 9, 1⟩
abbrev PWR_STA_VSYSG : Field := ⟨Reg.PWR_STA, 8, 1⟩
abbrev PWR_IST_SHED : Field := ⟨Reg.PWR_IST, 11, 1⟩
abbrev PWR_IST_OV : Field := ⟨Reg.PWR_IST, 10, 1⟩
abbrev PWR_IST_PFAIL : Field := ⟨Reg.PWR_IST, 9, 1⟩
abbrev PWR_IST_BW : Field := ⟨Reg.PWR_IST, 8, 1⟩
abbrev PWR_VIN_MV : Field := ⟨Reg.PWR_VIN, 0, 16⟩
abbrev PWR_IIN_MA : Field := ⟨Reg.PWR_IIN, 0, 16⟩
abbrev PWR_PIN_CW : Field := ⟨Reg.PWR_PIN, 0, 16⟩
abbrev PWR_VPF_BWO : Field := ⟨Reg.PWR_VPF, 16, 8⟩
abbrev PWR_VPF_VPF : Field := ⟨Reg.PWR_VPF, 0, 10⟩
abbrev PWR_ILIM_A : Field := ⟨Reg.PWR_ILIM, 0, 7⟩
abbrev RES_STA_ABV22 : Field := ⟨Reg.RES_STA, 12, 1⟩
abbrev RES_STA_TBUSY : Field := ⟨Reg.RES_STA, 11, 1⟩
abbrev RES_STA_TFAIL : Field := ⟨Reg.RES_STA, 10, 1⟩
abbrev RES_STA_CHRG : Field := ⟨Reg.RES_STA, 9, 1⟩
abbrev RES_STA_VALID : Field := ⟨Reg.RES_STA, 8, 1⟩
abbrev RES_IST_VALID : Field := ⟨Reg.RES_IST, 9, 1⟩
abbrev RES_IST_TFAIL : Field := ⟨Reg.RES_IST, 8, 1⟩
abbrev RES_VRES_MV : Field := ⟨Reg.RES_VRES, 0, 16⟩
abbrev RES_CHG_CHEN : Field := ⟨Reg.RES_CHG, 8, 1⟩
abbrev RES_CHG_ICHG : Field := ⟨Reg.RES_CHG, 0, 8⟩
abbrev RES_TCFG_CMIN : Field := ⟨Reg.RES_TCFG, 16, 16⟩
abbrev RES_TCFG_EMAX : Field := ⟨Reg.RES_TCFG, 4, 12⟩
abbrev RES_TRES_ESR : Field := ⟨Reg.RES_TRES, 16, 12⟩
abbrev RES_TRES_C : Field := ⟨Reg.RES_TRES, 0, 16⟩
abbrev RES_TAGE_MS : Field := ⟨Reg.RES_TAGE, 0, 16⟩
abbrev LGR_CTL_XP : Field := ⟨Reg.LGR_CTL, 1, 1⟩
abbrev LGR_LDEC_FBIN : Field := ⟨Reg.LGR_LDEC, 8, 12⟩
abbrev LGR_LDEC_STATUS : Field := ⟨Reg.LGR_LDEC, 0, 8⟩
abbrev LGR_LITM_ID : Field := ⟨Reg.LGR_LITM, 0, 32⟩
abbrev LGR_RFC_PATH : Field := ⟨Reg.LGR_RFC, 24, 8⟩
abbrev LGR_RFC_STORE : Field := ⟨Reg.LGR_RFC, 16, 8⟩
abbrev LGR_RFC_HEAT : Field := ⟨Reg.LGR_RFC, 8, 8⟩
abbrev LGR_RFC_ENERGY : Field := ⟨Reg.LGR_RFC, 0, 8⟩
abbrev LGR_PEAK_PEFF : Field := ⟨Reg.LGR_PEAK, 16, 10⟩
abbrev LGR_PEAK_PK : Field := ⟨Reg.LGR_PEAK, 0, 10⟩
abbrev LGR_TMIN_T : Field := ⟨Reg.LGR_TMIN, 0, 12⟩
abbrev LGR_XBYP_HEAT : Field := ⟨Reg.LGR_XBYP, 1, 1⟩
abbrev LGR_XBYP_STORE : Field := ⟨Reg.LGR_XBYP, 0, 1⟩
abbrev LGR_PLIM_W : Field := ⟨Reg.LGR_PLIM, 0, 10⟩
abbrev LGR_MRG_W : Field := ⟨Reg.LGR_MRG, 0, 8⟩
abbrev LGR_BASE_W : Field := ⟨Reg.LGR_BASE, 0, 10⟩
abbrev LGR_SCHED_PGAP : Field := ⟨Reg.LGR_SCHED, 24, 8⟩
abbrev LGR_SCHED_DEFER : Field := ⟨Reg.LGR_SCHED, 16, 8⟩
abbrev LGR_SCHED_LEAD : Field := ⟨Reg.LGR_SCHED, 0, 8⟩
abbrev LGR_HEAT_BHI : Field := ⟨Reg.LGR_HEAT, 8, 8⟩
abbrev LGR_HEAT_BLO : Field := ⟨Reg.LGR_HEAT, 0, 8⟩
abbrev LGR_THM_RTH : Field := ⟨Reg.LGR_THM, 16, 16⟩
abbrev LGR_THM_CTH : Field := ⟨Reg.LGR_THM, 0, 16⟩
abbrev LGR_THM2_TAMB : Field := ⟨Reg.LGR_THM2, 8, 8⟩
abbrev LGR_THM2_HEFF : Field := ⟨Reg.LGR_THM2, 0, 8⟩
abbrev LGR_HTR_PHMAX : Field := ⟨Reg.LGR_HTR, 16, 8⟩
abbrev LGR_HTR_RH : Field := ⟨Reg.LGR_HTR, 0, 16⟩
abbrev LGR_LDT_MEDIA (i : Nat) : Field := ⟨Reg.LGR_LDT i, 24, 8⟩
abbrev LGR_LDT_MARK (i : Nat) : Field := ⟨Reg.LGR_LDT i, 16, 8⟩
abbrev LGR_LDT_TRAN (i : Nat) : Field := ⟨Reg.LGR_LDT i, 8, 8⟩
abbrev LGR_LDT_PICK (i : Nat) : Field := ⟨Reg.LGR_LDT i, 0, 8⟩
abbrev MER_CTL_EN : Field := ⟨Reg.MER_CTL, 0, 1⟩
abbrev MER_CTL_XP : Field := ⟨Reg.MER_CTL, 1, 1⟩
abbrev MER_STA_ENA : Field := ⟨Reg.MER_STA, 0, 1⟩
abbrev MER_STA_FCA : Field := ⟨Reg.MER_STA, 12, 1⟩
abbrev MER_STA_SSCA : Field := ⟨Reg.MER_STA, 11, 1⟩
abbrev MER_STA_FLY : Field := ⟨Reg.MER_STA, 10, 1⟩
abbrev MER_STA_IDXOK : Field := ⟨Reg.MER_STA, 9, 1⟩
abbrev MER_STA_LOCK : Field := ⟨Reg.MER_STA, 8, 1⟩
abbrev MER_IST_IDXLOST : Field := ⟨Reg.MER_IST, 14, 1⟩
abbrev MER_IST_WCODE : Field := ⟨Reg.MER_IST, 13, 1⟩
abbrev MER_IST_CFGERR : Field := ⟨Reg.MER_IST, 12, 1⟩
abbrev MER_IST_FLY : Field := ⟨Reg.MER_IST, 11, 1⟩
abbrev MER_IST_BDREJ : Field := ⟨Reg.MER_IST, 10, 1⟩
abbrev MER_IST_UNLOCK : Field := ⟨Reg.MER_IST, 9, 1⟩
abbrev MER_IST_LOCK : Field := ⟨Reg.MER_IST, 8, 1⟩
abbrev MER_CTL_SEN : Field := ⟨Reg.MER_CTL, 8, 3⟩
abbrev MER_GEO_BDSRC : Field := ⟨Reg.MER_GEO, 4, 1⟩
abbrev MER_GEO_IDXE : Field := ⟨Reg.MER_GEO, 3, 1⟩
abbrev MER_GEO_NFAC : Field := ⟨Reg.MER_GEO, 0, 2⟩
abbrev MER_TFP_P : Field := ⟨Reg.MER_TFP, 0, 22⟩
abbrev MER_BDF_MISS : Field := ⟨Reg.MER_BDF, 16, 4⟩
abbrev MER_BDF_WIN : Field := ⟨Reg.MER_BDF, 8, 8⟩
abbrev MER_BDF_WMIN : Field := ⟨Reg.MER_BDF, 0, 8⟩
abbrev MER_LCK_TOL : Field := ⟨Reg.MER_LCK, 16, 8⟩
abbrev MER_LCK_N : Field := ⟨Reg.MER_LCK, 0, 16⟩
abbrev MER_FPM_P : Field := ⟨Reg.MER_FPM, 0, 22⟩
abbrev MER_FST_REJ : Field := ⟨Reg.MER_FST, 16, 16⟩
abbrev MER_FST_FLYC : Field := ⟨Reg.MER_FST, 8, 8⟩
abbrev MER_FST_FACET : Field := ⟨Reg.MER_FST, 0, 3⟩
abbrev MER_LCNT_CNT : Field := ⟨Reg.MER_LCNT, 0, 32⟩
abbrev MER_OFS_FSK (i : Nat) : Field := ⟨Reg.MER_OFS i, 29, 3⟩
abbrev MER_OFS_T (i : Nat) : Field := ⟨Reg.MER_OFS i, 0, 22⟩
abbrev MER_NPX_N (i : Nat) : Field := ⟨Reg.MER_NPX i, 0, 12⟩
abbrev MER_SLT_SORD : Field := ⟨Reg.MER_SLT, 4, 1⟩
abbrev MER_SLT_EN : Field := ⟨Reg.MER_SLT, 0, 4⟩
abbrev MER_STB_SSMP : Field := ⟨Reg.MER_STB, 8, 8⟩
abbrev MER_STB_BLANK : Field := ⟨Reg.MER_STB, 0, 8⟩
abbrev MER_SSC_DTRM : Field := ⟨Reg.MER_SSC, 16, 8⟩
abbrev MER_SSC_TAU : Field := ⟨Reg.MER_SSC, 8, 8⟩
abbrev MER_SSC_MODE : Field := ⟨Reg.MER_SSC, 0, 2⟩
abbrev MER_RQR_RPIX : Field := ⟨Reg.MER_RQR, 16, 12⟩
abbrev MER_RQR_RES : Field := ⟨Reg.MER_RQR, 0, 16⟩
abbrev MER_FCOR_C (i : Nat) : Field := ⟨Reg.MER_FCOR i, 0, 16⟩
abbrev MER_BPOL_NFAC : Field := ⟨Reg.MER_BPOL, 16, 2⟩
abbrev MER_BPOL_RPM : Field := ⟨Reg.MER_BPOL, 0, 16⟩
abbrev MER_BSPD_V : Field := ⟨Reg.MER_BSPD, 0, 24⟩
abbrev MER_BDPI_WR : Field := ⟨Reg.MER_BDPI, 16, 10⟩
abbrev MER_BDPI_RD : Field := ⟨Reg.MER_BDPI, 0, 10⟩
abbrev MER_BWID_W (i : Nat) : Field := ⟨Reg.MER_BWID i, 0, 14⟩
abbrev MER_BOFS_FSK (i : Nat) : Field := ⟨Reg.MER_BOFS i, 29, 3⟩
abbrev MER_BOFS_D (i : Nat) : Field := ⟨Reg.MER_BOFS i, 0, 24⟩
abbrev MER_BSLT_SORD : Field := ⟨Reg.MER_BSLT, 4, 1⟩
abbrev MER_BSLT_EN : Field := ⟨Reg.MER_BSLT, 0, 4⟩
abbrev IMG_CTL_EN : Field := ⟨Reg.IMG_CTL, 0, 1⟩
abbrev IMG_CTL_XP : Field := ⟨Reg.IMG_CTL, 1, 1⟩
abbrev IMG_STA_BACK : Field := ⟨Reg.IMG_STA, 10, 1⟩
abbrev IMG_STA_ARM1 : Field := ⟨Reg.IMG_STA, 9, 1⟩
abbrev IMG_STA_ARM0 : Field := ⟨Reg.IMG_STA, 8, 1⟩
abbrev IMG_IST_CFGERR : Field := ⟨Reg.IMG_IST, 15, 1⟩
abbrev IMG_IST_CLIP : Field := ⟨Reg.IMG_IST, 14, 1⟩
abbrev IMG_IST_SOVF : Field := ⟨Reg.IMG_IST, 13, 1⟩
abbrev IMG_IST_LDROP : Field := ⟨Reg.IMG_IST, 12, 1⟩
abbrev IMG_IST_RVFAIL : Field := ⟨Reg.IMG_IST, 11, 1⟩
abbrev IMG_IST_REV : Field := ⟨Reg.IMG_IST, 10, 1⟩
abbrev IMG_IST_LINE1 : Field := ⟨Reg.IMG_IST, 9, 1⟩
abbrev IMG_IST_LINE0 : Field := ⟨Reg.IMG_IST, 8, 1⟩
abbrev IMG_LTRG_BKLG : Field := ⟨Reg.IMG_LTRG, 4, 3⟩
abbrev IMG_LTRG_DIR : Field := ⟨Reg.IMG_LTRG, 2, 1⟩
abbrev IMG_LTRG_AXIS : Field := ⟨Reg.IMG_LTRG, 0, 2⟩
abbrev IMG_PITCH_P : Field := ⟨Reg.IMG_PITCH, 0, 32⟩
abbrev IMG_LOFS_D (i : Nat) : Field := ⟨Reg.IMG_LOFS i, 0, 32⟩
abbrev IMG_HYS_C : Field := ⟨Reg.IMG_HYS, 0, 16⟩
abbrev IMG_RVMX_C : Field := ⟨Reg.IMG_RVMX, 0, 24⟩
abbrev IMG_RING_RING1 : Field := ⟨Reg.IMG_RING, 8, 6⟩
abbrev IMG_RING_RING0 : Field := ⟨Reg.IMG_RING, 0, 6⟩
abbrev IMG_PROC_SHD : Field := ⟨Reg.IMG_PROC, 1, 1⟩
abbrev IMG_PROC_DSUB : Field := ⟨Reg.IMG_PROC, 0, 1⟩
abbrev IMG_QMSK_M : Field := ⟨Reg.IMG_QMSK, 0, 12⟩
abbrev IMG_TST_ST (i : Nat) : Field := ⟨Reg.IMG_TST i, 8, 2⟩
abbrev IMG_TST_BKL (i : Nat) : Field := ⟨Reg.IMG_TST i, 0, 4⟩
abbrev IMG_HWM_P (i : Nat) : Field := ⟨Reg.IMG_HWM i, 0, 32⟩
abbrev IMG_NLN_NLMAX (i : Nat) : Field := ⟨Reg.IMG_NLN i, 16, 16⟩
abbrev IMG_NLN_NEXT (i : Nat) : Field := ⟨Reg.IMG_NLN i, 0, 16⟩
abbrev IMG_DROP_SDROP : Field := ⟨Reg.IMG_DROP, 16, 16⟩
abbrev IMG_DROP_LDROP : Field := ⟨Reg.IMG_DROP, 0, 16⟩
abbrev IMG_BLPI_L : Field := ⟨Reg.IMG_BLPI, 0, 10⟩
abbrev IMG_BLOF_D (i : Nat) : Field := ⟨Reg.IMG_BLOF i, 0, 32⟩
abbrev IMG_BHYS_D : Field := ⟨Reg.IMG_BHYS, 0, 10⟩
abbrev IMG_BRVM_D : Field := ⟨Reg.IMG_BRVM, 0, 7⟩
abbrev CAL_STA_BUSY : Field := ⟨Reg.CAL_STA, 8, 1⟩
abbrev CAL_IST_FAIL : Field := ⟨Reg.CAL_IST, 9, 1⟩
abbrev CAL_IST_DONE : Field := ⟨Reg.CAL_IST, 8, 1⟩
abbrev CAL_CFG_TGT : Field := ⟨Reg.CAL_CFG, 20, 12⟩
abbrev CAL_CFG_WMIN : Field := ⟨Reg.CAL_CFG, 8, 12⟩
abbrev CAL_CFG_BADMAX : Field := ⟨Reg.CAL_CFG, 0, 8⟩
abbrev CAL_CRS_BADC : Field := ⟨Reg.CAL_CRS, 16, 16⟩
abbrev CAL_CRS_RSLT : Field := ⟨Reg.CAL_CRS, 8, 8⟩
abbrev CAL_SEQ_N : Field := ⟨Reg.CAL_SEQ, 0, 32⟩
abbrev CAL_TAD_I : Field := ⟨Reg.CAL_TAD, 0, 15⟩
abbrev MRK_CTL_EN : Field := ⟨Reg.MRK_CTL, 0, 1⟩
abbrev MRK_CTL_XP : Field := ⟨Reg.MRK_CTL, 1, 1⟩
abbrev MRK_STA_TRNON : Field := ⟨Reg.MRK_STA, 12, 1⟩
abbrev MRK_STA_HVRDY : Field := ⟨Reg.MRK_STA, 11, 1⟩
abbrev MRK_STA_ABRT : Field := ⟨Reg.MRK_STA, 10, 1⟩
abbrev MRK_STA_NIP : Field := ⟨Reg.MRK_STA, 9, 1⟩
abbrev MRK_STA_BUSY : Field := ⟨Reg.MRK_STA, 8, 1⟩
abbrev MRK_IST_CFGERR : Field := ⟨Reg.MRK_IST, 15, 1⟩
abbrev MRK_IST_JREF : Field := ⟨Reg.MRK_IST, 14, 1⟩
abbrev MRK_IST_JOB : Field := ⟨Reg.MRK_IST, 13, 1⟩
abbrev MRK_IST_WPIN : Field := ⟨Reg.MRK_IST, 12, 1⟩
abbrev MRK_IST_WUNDR : Field := ⟨Reg.MRK_IST, 11, 1⟩
abbrev MRK_IST_MREV : Field := ⟨Reg.MRK_IST, 10, 1⟩
abbrev MRK_IST_HEAT : Field := ⟨Reg.MRK_IST, 9, 1⟩
abbrev MRK_IST_BDONE : Field := ⟨Reg.MRK_IST, 8, 1⟩
abbrev MRK_GEO_RVC : Field := ⟨Reg.MRK_GEO, 8, 4⟩
abbrev MRK_GEO_AXIS : Field := ⟨Reg.MRK_GEO, 0, 2⟩
abbrev MRK_WPIT_P : Field := ⟨Reg.MRK_WPIT, 0, 32⟩
abbrev MRK_TNP_C : Field := ⟨Reg.MRK_TNP, 0, 24⟩
abbrev MRK_FNP_C : Field := ⟨Reg.MRK_FNP, 0, 24⟩
abbrev MRK_DWT_C : Field := ⟨Reg.MRK_DWT, 0, 24⟩
abbrev MRK_HSEQ_RMP : Field := ⟨Reg.MRK_HSEQ, 24, 8⟩
abbrev MRK_HSEQ_TRL : Field := ⟨Reg.MRK_HSEQ, 0, 16⟩
abbrev MRK_HVS_C (i : Nat) : Field := ⟨Reg.MRK_HVS i, 0, 12⟩
abbrev MRK_APC_C (i : Nat) : Field := ⟨Reg.MRK_APC i, 0, 12⟩
abbrev MRK_FSET_T : Field := ⟨Reg.MRK_FSET, 0, 12⟩
abbrev MRK_HFT_MS : Field := ⟨Reg.MRK_HFT, 0, 8⟩
abbrev MRK_RING_PR : Field := ⟨Reg.MRK_RING, 0, 6⟩
abbrev MRK_PRB_A : Field := ⟨Reg.MRK_PRB, 16, 16⟩
abbrev MRK_PRS_N : Field := ⟨Reg.MRK_PRS, 0, 8⟩
abbrev MRK_BST_PH : Field := ⟨Reg.MRK_BST, 24, 3⟩
abbrev MRK_BST_BAND : Field := ⟨Reg.MRK_BST, 16, 8⟩
abbrev MRK_BST_LINE : Field := ⟨Reg.MRK_BST, 0, 16⟩
abbrev MRK_UNDR_N : Field := ⟨Reg.MRK_UNDR, 0, 16⟩
abbrev MRK_JHND_H (i : Nat) : Field := ⟨Reg.MRK_JHND i, 0, 32⟩
abbrev MRK_JSTA_NB (i : Nat) : Field := ⟨Reg.MRK_JSTA i, 16, 7⟩
abbrev MRK_JSTA_CLID (i : Nat) : Field := ⟨Reg.MRK_JSTA i, 8, 8⟩
abbrev MRK_JSTA_ST (i : Nat) : Field := ⟨Reg.MRK_JSTA i, 0, 3⟩
abbrev MRK_BWLPI_L : Field := ⟨Reg.MRK_BWLPI, 0, 10⟩
abbrev MRK_BTNP_D : Field := ⟨Reg.MRK_BTNP, 0, 24⟩
abbrev MRK_BFNP_D : Field := ⟨Reg.MRK_BFNP, 0, 24⟩
abbrev MRK_BDWT_D : Field := ⟨Reg.MRK_BDWT, 0, 24⟩
abbrev MRK_BRMP_T : Field := ⟨Reg.MRK_BRMP, 0, 8⟩
abbrev MRK_BTRL_D : Field := ⟨Reg.MRK_BTRL, 0, 16⟩
abbrev MRK_BHV_V (i : Nat) : Field := ⟨Reg.MRK_BHV i, 0, 16⟩
abbrev MRK_BHS_S (i : Nat) : Field := ⟨Reg.MRK_BHS i, 0, 16⟩
abbrev MRK_BFUS_T : Field := ⟨Reg.MRK_BFUS, 0, 12⟩
abbrev MRK_BHFT_MS : Field := ⟨Reg.MRK_BHFT, 0, 8⟩
abbrev MRK_BAPC_C (i : Nat) : Field := ⟨Reg.MRK_BAPC i, 0, 11⟩
abbrev HVD_CTL_EN : Field := ⟨Reg.HVD_CTL, 0, 1⟩
abbrev HVD_STA_CLMP : Field := ⟨Reg.HVD_STA, 12, 4⟩
abbrev HVD_STA_ON : Field := ⟨Reg.HVD_STA, 8, 4⟩
abbrev HVD_CEIL_C (i : Nat) : Field := ⟨Reg.HVD_CEIL i, 0, 12⟩
abbrev HVD_DMAX_D (i : Nat) : Field := ⟨Reg.HVD_DMAX i, 0, 10⟩
abbrev HVD_HVF_C (i : Nat) : Field := ⟨Reg.HVD_HVF i, 0, 12⟩
abbrev HVD_DTY_D (i : Nat) : Field := ⟨Reg.HVD_DTY i, 0, 10⟩
abbrev FUS_CTL_EN : Field := ⟨Reg.FUS_CTL, 0, 1⟩
abbrev FUS_STA_CUT : Field := ⟨Reg.FUS_STA, 10, 1⟩
abbrev FUS_STA_HTON : Field := ⟨Reg.FUS_STA, 9, 1⟩
abbrev FUS_STA_CLMP : Field := ⟨Reg.FUS_STA, 8, 1⟩
abbrev FUS_IST_CUT : Field := ⟨Reg.FUS_IST, 10, 1⟩
abbrev FUS_IST_DISAG : Field := ⟨Reg.FUS_IST, 9, 1⟩
abbrev FUS_IST_SENS : Field := ⟨Reg.FUS_IST, 8, 1⟩
abbrev FUS_TH_ST (i : Nat) : Field := ⟨Reg.FUS_TH i, 30, 2⟩
abbrev FUS_TH_T (i : Nat) : Field := ⟨Reg.FUS_TH i, 0, 12⟩
abbrev FUS_TCEIL_T : Field := ⟨Reg.FUS_TCEIL, 0, 12⟩
abbrev FUS_TCUT_T : Field := ⟨Reg.FUS_TCUT, 0, 12⟩
abbrev FUS_DTY_D : Field := ⟨Reg.FUS_DTY, 0, 10⟩
abbrev FUS_TDIF_T : Field := ⟨Reg.FUS_TDIF, 0, 8⟩
abbrev LDR_CTL_EN : Field := ⟨Reg.LDR_CTL, 0, 1⟩
abbrev LDR_STA_CLMP : Field := ⟨Reg.LDR_STA, 11, 3⟩
abbrev LDR_STA_ON : Field := ⟨Reg.LDR_STA, 8, 3⟩
abbrev LDR_BIAS_I (i : Nat) : Field := ⟨Reg.LDR_BIAS i, 0, 8⟩
abbrev LDR_MODI_I (i : Nat) : Field := ⟨Reg.LDR_MODI i, 0, 12⟩
abbrev LDR_CEIL_I (i : Nat) : Field := ⟨Reg.LDR_CEIL i, 0, 8⟩
abbrev LDR_BDI_I (i : Nat) : Field := ⟨Reg.LDR_BDI i, 0, 8⟩
abbrev LDR_MODA_I (i : Nat) : Field := ⟨Reg.LDR_MODA i, 0, 12⟩
abbrev LDR_MON_VLD (i : Nat) : Field := ⟨Reg.LDR_MON i, 15, 1⟩
abbrev LDR_MON_C (i : Nat) : Field := ⟨Reg.LDR_MON i, 0, 12⟩
abbrev LDR_APCM_MINL : Field := ⟨Reg.LDR_APCM, 0, 16⟩
abbrev MOT_CTL_XP : Field := ⟨Reg.MOT_CTL, 1, 1⟩
abbrev MOT_STA_JAMST : Field := ⟨Reg.MOT_STA, 9, 1⟩
abbrev MOT_STA_HALTBRK : Field := ⟨Reg.MOT_STA, 8, 1⟩
abbrev MOT_IST_CFGERR : Field := ⟨Reg.MOT_IST, 12, 1⟩
abbrev MOT_IST_STALL : Field := ⟨Reg.MOT_IST, 11, 1⟩
abbrev MOT_IST_JAM : Field := ⟨Reg.MOT_IST, 10, 1⟩
abbrev MOT_IST_SIZE : Field := ⟨Reg.MOT_IST, 9, 1⟩
abbrev MOT_IST_DFEED : Field := ⟨Reg.MOT_IST, 8, 1⟩
abbrev MOT_AX_MS (i : Nat) : Field := ⟨Reg.MOT_AX i, 8, 4⟩
abbrev MOT_AX_DIR (i : Nat) : Field := ⟨Reg.MOT_AX i, 3, 1⟩
abbrev MOT_AX_PAR (i : Nat) : Field := ⟨Reg.MOT_AX i, 2, 1⟩
abbrev MOT_AX_TYPE (i : Nat) : Field := ⟨Reg.MOT_AX i, 0, 2⟩
abbrev MOT_STL_V : Field := ⟨Reg.MOT_STL, 0, 16⟩
abbrev MOT_CM_SPD (i : Nat) : Field := ⟨Reg.MOT_CM i, 8, 24⟩
abbrev MOT_CM_MODE (i : Nat) : Field := ⟨Reg.MOT_CM i, 0, 3⟩
abbrev MOT_JST_SENS : Field := ⟨Reg.MOT_JST, 8, 8⟩
abbrev MOT_JST_CAUSE : Field := ⟨Reg.MOT_JST, 0, 2⟩
abbrev MOT_JITM_ID : Field := ⟨Reg.MOT_JITM, 0, 32⟩
abbrev MOT_PROFA_VRET (i : Nat) : Field := ⟨Reg.MOT_PROFA i, 16, 16⟩
abbrev MOT_PROFA_V (i : Nat) : Field := ⟨Reg.MOT_PROFA i, 0, 16⟩
abbrev MOT_PROFB_CARR (i : Nat) : Field := ⟨Reg.MOT_PROFB i, 26, 1⟩
abbrev MOT_PROFB_AXIS (i : Nat) : Field := ⟨Reg.MOT_PROFB i, 24, 2⟩
abbrev MOT_PROFB_K (i : Nat) : Field := ⟨Reg.MOT_PROFB i, 0, 24⟩
abbrev MOT_PROFC_PSOL (i : Nat) : Field := ⟨Reg.MOT_PROFC i, 24, 6⟩
abbrev MOT_PROFC_PKW (i : Nat) : Field := ⟨Reg.MOT_PROFC i, 16, 8⟩
abbrev MOT_PROFC_TPICK (i : Nat) : Field := ⟨Reg.MOT_PROFC i, 0, 16⟩
abbrev MOT_PROFD_JWIN (i : Nat) : Field := ⟨Reg.MOT_PROFD i, 16, 16⟩
abbrev MOT_PROFD_JLMAX (i : Nat) : Field := ⟨Reg.MOT_PROFD i, 0, 16⟩
abbrev MOT_PROFE_CSTART (i : Nat) : Field := ⟨Reg.MOT_PROFE i, 16, 16⟩
abbrev MOT_PROFE_STALLT (i : Nat) : Field := ⟨Reg.MOT_PROFE i, 0, 16⟩
abbrev MOT_PROFF_DFL (i : Nat) : Field := ⟨Reg.MOT_PROFF i, 16, 16⟩
abbrev MOT_PROFF_ACC (i : Nat) : Field := ⟨Reg.MOT_PROFF i, 0, 16⟩
abbrev MOT_BHOME_V : Field := ⟨Reg.MOT_BHOME, 0, 16⟩
abbrev MOT_BZS_X (i : Nat) : Field := ⟨Reg.MOT_BZS i, 0, 32⟩
abbrev MOT_BZE_X (i : Nat) : Field := ⟨Reg.MOT_BZE i, 0, 32⟩
abbrev ENC_CTL_EN : Field := ⟨Reg.ENC_CTL, 0, 1⟩
abbrev ENC_STA_LOST : Field := ⟨Reg.ENC_STA, 10, 2⟩
abbrev ENC_CFG_ERRMAX (i : Nat) : Field := ⟨Reg.ENC_CFG i, 8, 8⟩
abbrev ENC_CFG_INV (i : Nat) : Field := ⟨Reg.ENC_CFG i, 2, 1⟩
abbrev ENC_CFG_IDXE (i : Nat) : Field := ⟨Reg.ENC_CFG i, 1, 1⟩
abbrev ENC_POS_P (i : Nat) : Field := ⟨Reg.ENC_POS i, 0, 32⟩
abbrev ENC_IDX_P (i : Nat) : Field := ⟨Reg.ENC_IDX i, 0, 32⟩
abbrev ENC_ERR_B : Field := ⟨Reg.ENC_ERR, 8, 8⟩
abbrev ENC_ERR_A : Field := ⟨Reg.ENC_ERR, 0, 8⟩
abbrev ENC_OLS_S (i : Nat) : Field := ⟨Reg.ENC_OLS i, 0, 32⟩
abbrev SNS_STA_PIN : Field := ⟨Reg.SNS_STA, 8, 6⟩
abbrev SNS_IST_PIN : Field := ⟨Reg.SNS_IST, 15, 1⟩
abbrev SNS_SCFG_THHI (i : Nat) : Field := ⟨Reg.SNS_SCFG i, 24, 8⟩
abbrev SNS_SCFG_THLO (i : Nat) : Field := ⟨Reg.SNS_SCFG i, 16, 8⟩
abbrev SNS_SCFG_TH (i : Nat) : Field := ⟨Reg.SNS_SCFG i, 8, 8⟩
abbrev SNS_SCFG_ATH (i : Nat) : Field := ⟨Reg.SNS_SCFG i, 4, 1⟩
abbrev SNS_SCFG_POL (i : Nat) : Field := ⟨Reg.SNS_SCFG i, 3, 1⟩
abbrev SNS_SCFG_ROLE (i : Nat) : Field := ⟨Reg.SNS_SCFG i, 0, 3⟩
abbrev SNS_LVL_COV : Field := ⟨Reg.SNS_LVL, 0, 6⟩
abbrev SNS_MON_LO (i : Nat) : Field := ⟨Reg.SNS_MON i, 20, 10⟩
abbrev SNS_MON_LC (i : Nat) : Field := ⟨Reg.SNS_MON i, 10, 10⟩
abbrev SNS_MON_V (i : Nat) : Field := ⟨Reg.SNS_MON i, 0, 10⟩
abbrev SNS_ATHC_N : Field := ⟨Reg.SNS_ATHC, 0, 16⟩
abbrev SNS_EPOS_P (i : Nat) : Field := ⟨Reg.SNS_EPOS i, 0, 32⟩
abbrev SNS_BPOS_X (i : Nat) : Field := ⟨Reg.SNS_BPOS i, 0, 32⟩
abbrev MDR_CTL_EN : Field := ⟨Reg.MDR_CTL, 0, 1⟩
abbrev MDR_STA_HON : Field := ⟨Reg.MDR_STA, 12, 4⟩
abbrev MDR_STA_PST : Field := ⟨Reg.MDR_STA, 8, 3⟩
abbrev MDR_IST_POVS : Field := ⟨Reg.MDR_IST, 10, 1⟩
abbrev MDR_IST_PSTF : Field := ⟨Reg.MDR_IST, 9, 1⟩
abbrev MDR_PGEO_PALI : Field := ⟨Reg.MDR_PGEO, 8, 8⟩
abbrev MDR_PGEO_PP : Field := ⟨Reg.MDR_PGEO, 0, 4⟩
abbrev MDR_PRMP_PHOV : Field := ⟨Reg.MDR_PRMP, 0, 16⟩
abbrev MDR_PSTA_RPM : Field := ⟨Reg.MDR_PSTA, 16, 16⟩
abbrev MDR_PSTA_ST : Field := ⟨Reg.MDR_PSTA, 0, 3⟩
abbrev MDR_PICL_I : Field := ⟨Reg.MDR_PICL, 0, 8⟩
abbrev MDR_HICL_I (i : Nat) : Field := ⟨Reg.MDR_HICL i, 0, 8⟩
abbrev MDR_HCUR_I (i : Nat) : Field := ⟨Reg.MDR_HCUR i, 0, 16⟩
abbrev MDR_POVS_RPM : Field := ⟨Reg.MDR_POVS, 0, 16⟩
abbrev SOL_CTL_EN : Field := ⟨Reg.SOL_CTL, 0, 1⟩
abbrev SOL_STA_ON : Field := ⟨Reg.SOL_STA, 8, 6⟩
abbrev SOL_SON_ON : Field := ⟨Reg.SOL_SON, 0, 6⟩
abbrev HEL_STA_ACT : Field := ⟨Reg.HEL_STA, 8, 1⟩
abbrev HEL_IST_CFGERR : Field := ⟨Reg.HEL_IST, 11, 1⟩
abbrev HEL_IST_FLAG : Field := ⟨Reg.HEL_IST, 10, 1⟩
abbrev HEL_IST_LOSS : Field := ⟨Reg.HEL_IST, 9, 1⟩
abbrev HEL_IST_PIN : Field := ⟨Reg.HEL_IST, 8, 1⟩
abbrev HEL_RUN_S : Field := ⟨Reg.HEL_RUN, 0, 12⟩
abbrev HEL_PIN_S : Field := ⟨Reg.HEL_PIN, 0, 12⟩
abbrev HEL_LOSS_S : Field := ⟨Reg.HEL_LOSS, 0, 12⟩
abbrev HEL_FLGS_S : Field := ⟨Reg.HEL_FLGS, 0, 12⟩
abbrev HEL_FRM_N : Field := ⟨Reg.HEL_FRM, 0, 32⟩
abbrev HEL_CYC_C : Field := ⟨Reg.HEL_CYC, 0, 10⟩
abbrev HLP_CTL_EN : Field := ⟨Reg.HLP_CTL, 0, 1⟩
abbrev HLP_CTL_XP : Field := ⟨Reg.HLP_CTL, 1, 1⟩
abbrev HLP_CTL_BND : Field := ⟨Reg.HLP_CTL, 4, 4⟩
abbrev HLP_CFG_SIDX (i : Nat) : Field := ⟨Reg.HLP_CFG i, 28, 4⟩
abbrev HLP_CFG_ACT (i : Nat) : Field := ⟨Reg.HLP_CFG i, 24, 4⟩
abbrev HLP_CFG_SRC (i : Nat) : Field := ⟨Reg.HLP_CFG i, 16, 4⟩
abbrev HLP_CFG_RSRC (i : Nat) : Field := ⟨Reg.HLP_CFG i, 14, 1⟩
abbrev HLP_CFG_TRIG (i : Nat) : Field := ⟨Reg.HLP_CFG i, 12, 2⟩
abbrev HLP_CFG_PER (i : Nat) : Field := ⟨Reg.HLP_CFG i, 0, 10⟩
abbrev HLP_KP_K (i : Nat) : Field := ⟨Reg.HLP_KP i, 0, 32⟩
abbrev HLP_KI_K (i : Nat) : Field := ⟨Reg.HLP_KI i, 0, 32⟩
abbrev HLP_KD_K (i : Nat) : Field := ⟨Reg.HLP_KD i, 0, 32⟩
abbrev HLP_KF_K (i : Nat) : Field := ⟨Reg.HLP_KF i, 0, 32⟩
abbrev HLP_SHF_SF (i : Nat) : Field := ⟨Reg.HLP_SHF i, 24, 5⟩
abbrev HLP_SHF_SD (i : Nat) : Field := ⟨Reg.HLP_SHF i, 16, 5⟩
abbrev HLP_SHF_SI (i : Nat) : Field := ⟨Reg.HLP_SHF i, 8, 5⟩
abbrev HLP_SHF_SP (i : Nat) : Field := ⟨Reg.HLP_SHF i, 0, 5⟩
abbrev HLP_RMAX_R (i : Nat) : Field := ⟨Reg.HLP_RMAX i, 0, 31⟩
abbrev HLP_OMIN_U (i : Nat) : Field := ⟨Reg.HLP_OMIN i, 0, 32⟩
abbrev HLP_OMAX_U (i : Nat) : Field := ⟨Reg.HLP_OMAX i, 0, 32⟩
abbrev HLP_YMIN_Y (i : Nat) : Field := ⟨Reg.HLP_YMIN i, 0, 32⟩
abbrev HLP_YMAX_Y (i : Nat) : Field := ⟨Reg.HLP_YMAX i, 0, 32⟩
abbrev HLP_DYM_D (i : Nat) : Field := ⟨Reg.HLP_DYM i, 0, 31⟩
abbrev HLP_FRZ_FRZD (i : Nat) : Field := ⟨Reg.HLP_FRZ i, 24, 8⟩
abbrev HLP_FRZ_FRZN (i : Nat) : Field := ⟨Reg.HLP_FRZ i, 0, 16⟩
abbrev HLP_GRD_PINN (i : Nat) : Field := ⟨Reg.HLP_GRD i, 8, 16⟩
abbrev HLP_GRD_FRN (i : Nat) : Field := ⟨Reg.HLP_GRD i, 0, 8⟩
abbrev HLP_TABC_FE (i : Nat) : Field := ⟨Reg.HLP_TABC i, 25, 1⟩
abbrev HLP_TABC_CE (i : Nat) : Field := ⟨Reg.HLP_TABC i, 24, 1⟩
abbrev HLP_TABC_DFS (i : Nat) : Field := ⟨Reg.HLP_TABC i, 16, 5⟩
abbrev HLP_TABC_TSF (i : Nat) : Field := ⟨Reg.HLP_TABC i, 8, 5⟩
abbrev HLP_TABC_TSC (i : Nat) : Field := ⟨Reg.HLP_TABC i, 0, 5⟩
abbrev HLP_TSCL_S (i : Nat) : Field := ⟨Reg.HLP_TSCL i, 0, 32⟩
abbrev HLP_TPH_P (i : Nat) : Field := ⟨Reg.HLP_TPH i, 0, 32⟩
abbrev HLP_REF_R (i : Nat) : Field := ⟨Reg.HLP_REF i, 0, 32⟩
abbrev HLP_FB_Y (i : Nat) : Field := ⟨Reg.HLP_FB i, 0, 32⟩
abbrev HLP_OUT_U (i : Nat) : Field := ⟨Reg.HLP_OUT i, 0, 32⟩
abbrev HLP_IACC_I (i : Nat) : Field := ⟨Reg.HLP_IACC i, 0, 32⟩
abbrev HLP_HLO_U (i : Nat) : Field := ⟨Reg.HLP_HLO i, 0, 32⟩
abbrev HLP_HHI_U (i : Nat) : Field := ⟨Reg.HLP_HHI i, 0, 32⟩
abbrev HLP_ST_MODE (i : Nat) : Field := ⟨Reg.HLP_ST i, 24, 3⟩
abbrev HLP_ST_PIN (i : Nat) : Field := ⟨Reg.HLP_ST i, 19, 1⟩
abbrev HLP_ST_LOSS (i : Nat) : Field := ⟨Reg.HLP_ST i, 18, 1⟩
abbrev HLP_ST_LCAU (i : Nat) : Field := ⟨Reg.HLP_ST i, 16, 2⟩
abbrev HLP_CNT_N (i : Nat) : Field := ⟨Reg.HLP_CNT i, 0, 32⟩
abbrev HLP_TGT_T (i : Nat) : Field := ⟨Reg.HLP_TGT i, 0, 32⟩
abbrev HLP_AUX_IRUN (i : Nat) : Field := ⟨Reg.HLP_AUX i, 8, 8⟩
abbrev HLP_AUX_IHLD (i : Nat) : Field := ⟨Reg.HLP_AUX i, 0, 8⟩
abbrev HLP_BOB_BHI (i : Nat) : Field := ⟨Reg.HLP_BOB i, 16, 16⟩
abbrev HLP_BOB_BLO (i : Nat) : Field := ⟨Reg.HLP_BOB i, 0, 16⟩
abbrev HLP_BPN_PINN (i : Nat) : Field := ⟨Reg.HLP_BPN i, 0, 16⟩
abbrev HTB_TAD_I : Field := ⟨Reg.HTB_TAD, 0, 11⟩
abbrev HTB_TDA_V : Field := ⟨Reg.HTB_TDA, 0, 16⟩
abbrev ORR_CTL_EN : Field := ⟨Reg.ORR_CTL, 0, 1⟩
abbrev ORR_STA_RUNC : Field := ⟨Reg.ORR_STA, 12, 4⟩
abbrev ORR_STA_HOSTC : Field := ⟨Reg.ORR_STA, 10, 1⟩
abbrev ORR_STA_MEAS : Field := ⟨Reg.ORR_STA, 9, 1⟩
abbrev ORR_STA_ARMD : Field := ⟨Reg.ORR_STA, 8, 1⟩
abbrev ORR_IST_V7W : Field := ⟨Reg.ORR_IST, 15, 1⟩
abbrev ORR_IST_ECC2 : Field := ⟨Reg.ORR_IST, 14, 1⟩
abbrev ORR_IST_ECC1 : Field := ⟨Reg.ORR_IST, 13, 1⟩
abbrev ORR_IST_SWAP : Field := ⟨Reg.ORR_IST, 12, 1⟩
abbrev ORR_IST_DISARM : Field := ⟨Reg.ORR_IST, 11, 1⟩
abbrev ORR_IST_CFLT : Field := ⟨Reg.ORR_IST, 10, 1⟩
abbrev ORR_IST_WDG : Field := ⟨Reg.ORR_IST, 9, 1⟩
abbrev ORR_IST_TMOX : Field := ⟨Reg.ORR_IST, 8, 1⟩
abbrev ORR_SWPC_N : Field := ⟨Reg.ORR_SWPC, 0, 16⟩
abbrev ORR_ECE_CE : Field := ⟨Reg.ORR_ECE, 16, 16⟩
abbrev ORR_ECE_ADDR : Field := ⟨Reg.ORR_ECE, 0, 12⟩
abbrev ORR_CYC_N : Field := ⟨Reg.ORR_CYC, 0, 32⟩
abbrev ORR_V_V (i : Nat) : Field := ⟨Reg.ORR_V i, 0, 32⟩
abbrev ORC_ENT_A (i : Nat) : Field := ⟨Reg.ORC_ENT i, 0, 12⟩
abbrev ORC_CFG_LOCK (i : Nat) : Field := ⟨Reg.ORC_CFG i, 8, 1⟩
abbrev ORC_ST_SP (i : Nat) : Field := ⟨Reg.ORC_ST i, 24, 4⟩
abbrev ORC_ST_LJIT (i : Nat) : Field := ⟨Reg.ORC_ST i, 21, 1⟩
abbrev ORC_ST_LOCK (i : Nat) : Field := ⟨Reg.ORC_ST i, 20, 1⟩
abbrev ORC_ST_STATE (i : Nat) : Field := ⟨Reg.ORC_ST i, 16, 3⟩
abbrev ORC_ST_PC (i : Nat) : Field := ⟨Reg.ORC_ST i, 0, 12⟩
abbrev ORC_FLG_TMOX (i : Nat) : Field := ⟨Reg.ORC_FLG i, 4, 1⟩
abbrev ORC_FLG_V (i : Nat) : Field := ⟨Reg.ORC_FLG i, 3, 1⟩
abbrev ORC_FLG_C (i : Nat) : Field := ⟨Reg.ORC_FLG i, 2, 1⟩
abbrev ORC_FLG_N (i : Nat) : Field := ⟨Reg.ORC_FLG i, 1, 1⟩
abbrev ORC_FLG_Z (i : Nat) : Field := ⟨Reg.ORC_FLG i, 0, 1⟩
abbrev ORC_DSP_EN (i j : Nat) : Field := ⟨Reg.ORC_DSP i j, 31, 1⟩
abbrev ORC_DSP_PRE (i j : Nat) : Field := ⟨Reg.ORC_DSP i j, 30, 1⟩
abbrev ORC_DSP_KIND (i j : Nat) : Field := ⟨Reg.ORC_DSP i j, 29, 1⟩
abbrev ORC_DSP_COND (i j : Nat) : Field := ⟨Reg.ORC_DSP i j, 16, 7⟩
abbrev ORC_DSP_VEC (i j : Nat) : Field := ⟨Reg.ORC_DSP i j, 0, 12⟩
abbrev ORC_PEND_INSV (i : Nat) : Field := ⟨Reg.ORC_PEND i, 8, 8⟩
abbrev ORC_PEND_PND (i : Nat) : Field := ⟨Reg.ORC_PEND i, 0, 8⟩
abbrev ORC_TMXC_N (i : Nat) : Field := ⟨Reg.ORC_TMXC i, 0, 16⟩
abbrev ORC_WDG_US (i : Nat) : Field := ⟨Reg.ORC_WDG i, 0, 16⟩
abbrev ORC_W_W (i j : Nat) : Field := ⟨Reg.ORC_W i j, 0, 32⟩
abbrev CST_CTL_EN : Field := ⟨Reg.CST_CTL, 0, 1⟩
abbrev CST_STA_ENA : Field := ⟨Reg.CST_STA, 0, 1⟩
abbrev CST_STA_HOT : Field := ⟨Reg.CST_STA, 10, 1⟩
abbrev CST_STA_SCRUB : Field := ⟨Reg.CST_STA, 9, 1⟩
abbrev CST_STA_INIT : Field := ⟨Reg.CST_STA, 8, 1⟩
abbrev CST_IST_BADG : Field := ⟨Reg.CST_IST, 12, 1⟩
abbrev CST_IST_RING : Field := ⟨Reg.CST_IST, 11, 1⟩
abbrev CST_IST_UE : Field := ⟨Reg.CST_IST, 10, 1⟩
abbrev CST_IST_CE : Field := ⟨Reg.CST_IST, 9, 1⟩
abbrev CST_IST_INITD : Field := ⟨Reg.CST_IST, 8, 1⟩
abbrev CST_SYSR_SZ : Field := ⟨Reg.CST_SYSR, 16, 10⟩
abbrev CST_SYSR_BASE : Field := ⟨Reg.CST_SYSR, 0, 10⟩
abbrev CST_HSTR_SZ : Field := ⟨Reg.CST_HSTR, 16, 10⟩
abbrev CST_HSTR_BASE : Field := ⟨Reg.CST_HSTR, 0, 10⟩
abbrev CST_POOL_FREE : Field := ⟨Reg.CST_POOL, 16, 10⟩
abbrev CST_POOL_LRUN : Field := ⟨Reg.CST_POOL, 0, 10⟩
abbrev CST_ECC_CE : Field := ⟨Reg.CST_ECC, 16, 16⟩
abbrev CST_ECC_UE : Field := ⟨Reg.CST_ECC, 0, 16⟩
abbrev CST_UEA_A : Field := ⟨Reg.CST_UEA, 0, 32⟩
abbrev CST_SCRB_PER : Field := ⟨Reg.CST_SCRB, 0, 16⟩
abbrev CST_BADG_N : Field := ⟨Reg.CST_BADG, 0, 10⟩
abbrev CST_RSVI_ITEM (i : Nat) : Field := ⟨Reg.CST_RSVI i, 0, 32⟩
abbrev CST_RSVF_G (i : Nat) : Field := ⟨Reg.CST_RSVF i, 16, 10⟩
abbrev CST_RSVF_BASE (i : Nat) : Field := ⟨Reg.CST_RSVF i, 0, 10⟩
abbrev CST_RSVR_G (i : Nat) : Field := ⟨Reg.CST_RSVR i, 16, 10⟩
abbrev CST_RSVR_BASE (i : Nat) : Field := ⟨Reg.CST_RSVR i, 0, 10⟩
abbrev CST_RSVE_ER (i : Nat) : Field := ⟨Reg.CST_RSVE i, 16, 16⟩
abbrev CST_RSVE_EF (i : Nat) : Field := ⟨Reg.CST_RSVE i, 0, 16⟩
abbrev RNG_IST_STALL : Field := ⟨Reg.RNG_IST, 10, 1⟩
abbrev RNG_IST_DROP : Field := ⟨Reg.RNG_IST, 9, 1⟩
abbrev RNG_IST_REF : Field := ⟨Reg.RNG_IST, 8, 1⟩
abbrev RNG_HSEL_RING : Field := ⟨Reg.RNG_HSEL, 0, 6⟩
abbrev RNG_HSTA_EMP : Field := ⟨Reg.RNG_HSTA, 8, 1⟩
abbrev RNG_RCFG_EN (i : Nat) : Field := ⟨Reg.RNG_RCFG i, 31, 1⟩
abbrev RNG_RCFG_PRD (i : Nat) : Field := ⟨Reg.RNG_RCFG i, 26, 3⟩
abbrev RNG_RCFG_CNS (i : Nat) : Field := ⟨Reg.RNG_RCFG i, 23, 3⟩
abbrev RNG_RCFG_USE (i : Nat) : Field := ⟨Reg.RNG_RCFG i, 21, 1⟩
abbrev RNG_RCFG_CAPC (i : Nat) : Field := ⟨Reg.RNG_RCFG i, 16, 5⟩
abbrev RNG_RBAS_A (i : Nat) : Field := ⟨Reg.RNG_RBAS i, 2, 24⟩
abbrev RNG_RDEP_D (i : Nat) : Field := ⟨Reg.RNG_RDEP i, 0, 17⟩
abbrev RNG_STAT_STL (i : Nat) : Field := ⟨Reg.RNG_STAT i, 20, 12⟩
abbrev RNG_STAT_DSC (i : Nat) : Field := ⟨Reg.RNG_STAT i, 8, 12⟩
abbrev RNG_STAT_REF (i : Nat) : Field := ⟨Reg.RNG_STAT i, 0, 8⟩
abbrev BRG_CTL_EN : Field := ⟨Reg.BRG_CTL, 0, 1⟩
abbrev BRG_IST_RSM : Field := ⟨Reg.BRG_IST, 15, 1⟩
abbrev BRG_IST_SUSP : Field := ⟨Reg.BRG_IST, 14, 1⟩
abbrev BRG_IST_USBRST : Field := ⟨Reg.BRG_IST, 13, 1⟩
abbrev BRG_IST_SOVR : Field := ⟨Reg.BRG_IST, 12, 1⟩
abbrev BRG_IST_SCRC : Field := ⟨Reg.BRG_IST, 11, 1⟩
abbrev BRG_IST_SPIFR : Field := ⟨Reg.BRG_IST, 10, 1⟩
abbrev BRG_IST_TAGDUP : Field := ⟨Reg.BRG_IST, 9, 1⟩
abbrev BRG_IST_PERR : Field := ⟨Reg.BRG_IST, 8, 1⟩
abbrev BRG_IFC_PRTIF : Field := ⟨Reg.BRG_IFC, 5, 1⟩
abbrev BRG_IFC_IMGIF : Field := ⟨Reg.BRG_IFC, 4, 1⟩
abbrev BRG_IFC_SPIE : Field := ⟨Reg.BRG_IFC, 1, 1⟩
abbrev BRG_IFC_USBE : Field := ⟨Reg.BRG_IFC, 0, 1⟩
abbrev BRG_USTA_ADDR : Field := ⟨Reg.BRG_USTA, 8, 7⟩
abbrev BRG_USTA_RWE : Field := ⟨Reg.BRG_USTA, 5, 1⟩
abbrev BRG_USTA_HS : Field := ⟨Reg.BRG_USTA, 4, 1⟩
abbrev BRG_USTA_ST : Field := ⟨Reg.BRG_USTA, 0, 3⟩
abbrev BRG_UVID_PID : Field := ⟨Reg.BRG_UVID, 16, 16⟩
abbrev BRG_UVID_VID : Field := ⟨Reg.BRG_UVID, 0, 16⟩
abbrev BRG_UREL_BCD : Field := ⟨Reg.BRG_UREL, 0, 16⟩
abbrev BRG_SCFG_HMSK : Field := ⟨Reg.BRG_SCFG, 12, 3⟩
abbrev BRG_SCFG_HIEN : Field := ⟨Reg.BRG_SCFG, 11, 1⟩
abbrev BRG_SCFG_HPOL : Field := ⟨Reg.BRG_SCFG, 2, 1⟩
abbrev BRG_SCFG_ACKM : Field := ⟨Reg.BRG_SCFG, 1, 1⟩
abbrev BRG_SCFG_CRC : Field := ⟨Reg.BRG_SCFG, 0, 1⟩
abbrev BRG_PERR_ROVF : Field := ⟨Reg.BRG_PERR, 24, 8⟩
abbrev BRG_PERR_TDUP : Field := ⟨Reg.BRG_PERR, 16, 8⟩
abbrev BRG_PERR_MAL : Field := ⟨Reg.BRG_PERR, 0, 16⟩
abbrev CLI_SEL_ID : Field := ⟨Reg.CLI_SEL, 0, 8⟩
abbrev CLI_CST_OUTS : Field := ⟨Reg.CLI_CST, 8, 5⟩
abbrev CLI_CST_IF : Field := ⟨Reg.CLI_CST, 1, 1⟩
abbrev CLI_CST_OPEN : Field := ⟨Reg.CLI_CST, 0, 1⟩
abbrev CLI_CRT_EVS : Field := ⟨Reg.CLI_CRT, 10, 1⟩
abbrev CLI_CRT_O : Field := ⟨Reg.CLI_CRT, 9, 1⟩
abbrev CLI_CRT_G : Field := ⟨Reg.CLI_CRT, 8, 1⟩
abbrev CLI_CRT_CRL : Field := ⟨Reg.CLI_CRT, 0, 5⟩
abbrev CLI_PRL_P : Field := ⟨Reg.CLI_PRL, 0, 28⟩
abbrev CLI_PRP_P : Field := ⟨Reg.CLI_PRP, 0, 23⟩
abbrev CLI_PWL_P : Field := ⟨Reg.CLI_PWL, 0, 28⟩
abbrev CLI_PWP_P : Field := ⟨Reg.CLI_PWP, 0, 23⟩
abbrev CLI_PXL_P : Field := ⟨Reg.CLI_PXL, 0, 28⟩
abbrev CLI_PXP_P : Field := ⟨Reg.CLI_PXP, 0, 23⟩
abbrev CLI_SEQ_S : Field := ⟨Reg.CLI_SEQ, 0, 16⟩
abbrev CLI_POOL_N : Field := ⟨Reg.CLI_POOL, 0, 11⟩
abbrev DBR_IST_MSRC : Field := ⟨Reg.DBR_IST, 10, 1⟩
abbrev DBR_IST_RTERR : Field := ⟨Reg.DBR_IST, 9, 1⟩
abbrev DBR_IST_LOSS : Field := ⟨Reg.DBR_IST, 8, 1⟩
abbrev DBR_LST_TRND : Field := ⟨Reg.DBR_LST, 8, 1⟩
abbrev DBR_LST_UP : Field := ⟨Reg.DBR_LST, 0, 4⟩
abbrev DBR_RTE_CRC : Field := ⟨Reg.DBR_RTE, 16, 16⟩
abbrev DBR_RTE_MISS : Field := ⟨Reg.DBR_RTE, 0, 16⟩
abbrev DBR_REGT_N : Field := ⟨Reg.DBR_REGT, 0, 16⟩
abbrev DBR_MCFG_RATE : Field := ⟨Reg.DBR_MCFG, 0, 14⟩
abbrev DBR_MSRC_EN (i : Nat) : Field := ⟨Reg.DBR_MSRC i, 31, 1⟩
abbrev DBR_MSRC_WOFS (i : Nat) : Field := ⟨Reg.DBR_MSRC i, 0, 20⟩
abbrev DBR_MVAL_V (i : Nat) : Field := ⟨Reg.DBR_MVAL i, 0, 32⟩
abbrev DBR_MAGE_MS (i : Nat) : Field := ⟨Reg.DBR_MAGE i, 0, 16⟩
abbrev UA0_STA_XOFFR : Field := ⟨Reg.UA0_STA, 15, 1⟩
abbrev UA0_STA_XOFFS : Field := ⟨Reg.UA0_STA, 14, 1⟩
abbrev UA0_STA_TXBSY : Field := ⟨Reg.UA0_STA, 13, 1⟩
abbrev UA0_IST_XOTMO : Field := ⟨Reg.UA0_IST, 14, 1⟩
abbrev UA0_IST_TXDONE : Field := ⟨Reg.UA0_IST, 13, 1⟩
abbrev UA0_IST_RXFRM : Field := ⟨Reg.UA0_IST, 12, 1⟩
abbrev UA0_IST_ESCE : Field := ⟨Reg.UA0_IST, 10, 1⟩
abbrev UA0_IST_DISC : Field := ⟨Reg.UA0_IST, 9, 1⟩
abbrev UA0_FMT_D7 : Field := ⟨Reg.UA0_FMT, 0, 1⟩
abbrev UA0_FLOW_XOFFC : Field := ⟨Reg.UA0_FLOW, 24, 8⟩
abbrev UA0_FLOW_XONC : Field := ⟨Reg.UA0_FLOW, 16, 8⟩
abbrev UA0_FLOW_XRX : Field := ⟨Reg.UA0_FLOW, 9, 1⟩
abbrev UA0_FLOW_XTX : Field := ⟨Reg.UA0_FLOW, 8, 1⟩
abbrev UA0_FLOW_XOTMO : Field := ⟨Reg.UA0_FLOW, 0, 8⟩
abbrev UA0_TUN_MODE : Field := ⟨Reg.UA0_TUN, 28, 1⟩
abbrev UA0_TUN_TERM : Field := ⟨Reg.UA0_TUN, 16, 8⟩
abbrev UA0_TUN_TERMEN : Field := ⟨Reg.UA0_TUN, 9, 1⟩
abbrev UA0_TUN_ESC : Field := ⟨Reg.UA0_TUN, 8, 1⟩
abbrev UA0_TUN_CLID : Field := ⟨Reg.UA0_TUN, 0, 8⟩
abbrev UA0_MAXF_N : Field := ⟨Reg.UA0_MAXF, 0, 12⟩
abbrev UA0_WM_RXHI : Field := ⟨Reg.UA0_WM, 16, 6⟩
abbrev UA0_WM_RXLO : Field := ⟨Reg.UA0_WM, 0, 6⟩
abbrev UA0_LVL_TXL : Field := ⟨Reg.UA0_LVL, 16, 7⟩
abbrev UA0_LVL_RXL : Field := ⟨Reg.UA0_LVL, 0, 7⟩
abbrev UA0_CNT_TXF : Field := ⟨Reg.UA0_CNT, 16, 16⟩
abbrev UA0_CNT_RXF : Field := ⟨Reg.UA0_CNT, 0, 16⟩
abbrev UA0_ERRC_BRK : Field := ⟨Reg.UA0_ERRC, 24, 8⟩
abbrev UA0_ERRC_OE : Field := ⟨Reg.UA0_ERRC, 16, 8⟩
abbrev UA0_ERRC_FE : Field := ⟨Reg.UA0_ERRC, 8, 8⟩
abbrev UA0_ERRC_PE : Field := ⟨Reg.UA0_ERRC, 0, 8⟩
abbrev MLK_STA_WAIT : Field := ⟨Reg.MLK_STA, 15, 1⟩
abbrev MLK_STA_TXBSY : Field := ⟨Reg.MLK_STA, 14, 1⟩
abbrev MLK_IST_ROLE : Field := ⟨Reg.MLK_IST, 15, 1⟩
abbrev MLK_IST_LATE : Field := ⟨Reg.MLK_IST, 14, 1⟩
abbrev MLK_IST_NORSP : Field := ⟨Reg.MLK_IST, 13, 1⟩
abbrev MLK_IST_COLL : Field := ⟨Reg.MLK_IST, 12, 1⟩
abbrev MLK_IST_CRCE : Field := ⟨Reg.MLK_IST, 11, 1⟩
abbrev MLK_IST_TXDONE : Field := ⟨Reg.MLK_IST, 9, 1⟩
abbrev MLK_IST_RXFRM : Field := ⟨Reg.MLK_IST, 8, 1⟩
abbrev MLK_ADDR_MODE : Field := ⟨Reg.MLK_ADDR, 9, 1⟩
abbrev MLK_ADDR_ROLE : Field := ⟨Reg.MLK_ADDR, 8, 1⟩
abbrev MLK_ADDR_A : Field := ⟨Reg.MLK_ADDR, 0, 8⟩
abbrev MLK_FMT_D7 : Field := ⟨Reg.MLK_FMT, 0, 1⟩
abbrev MLK_BAUD_OVS8 : Field := ⟨Reg.MLK_BAUD, 30, 1⟩
abbrev MLK_BAUD_DIV : Field := ⟨Reg.MLK_BAUD, 8, 16⟩
abbrev MLK_BAUD_FRAC : Field := ⟨Reg.MLK_BAUD, 0, 6⟩
abbrev MLK_TIM_RTRY : Field := ⟨Reg.MLK_TIM, 12, 3⟩
abbrev MLK_TUN_CLID : Field := ⟨Reg.MLK_TUN, 0, 8⟩
abbrev MLK_CNT_TXF : Field := ⟨Reg.MLK_CNT, 16, 16⟩
abbrev MLK_CNT_RXF : Field := ⟨Reg.MLK_CNT, 0, 16⟩
abbrev MLK_ERRC_NORSP : Field := ⟨Reg.MLK_ERRC, 24, 8⟩
abbrev MLK_ERRC_COLL : Field := ⟨Reg.MLK_ERRC, 16, 8⟩
abbrev MLK_ERRC_CRCE : Field := ⟨Reg.MLK_ERRC, 8, 8⟩
abbrev MLK_ERRC_FE : Field := ⟨Reg.MLK_ERRC, 0, 8⟩
abbrev SYN_CTL_EN : Field := ⟨Reg.SYN_CTL, 0, 1⟩
abbrev SYN_STA_CHERR : Field := ⟨Reg.SYN_STA, 10, 1⟩
abbrev SYN_STA_LOST : Field := ⟨Reg.SYN_STA, 9, 1⟩
abbrev SYN_STA_SYNC : Field := ⟨Reg.SYN_STA, 8, 1⟩
abbrev SYN_IST_CHERR : Field := ⟨Reg.SYN_IST, 12, 1⟩
abbrev SYN_IST_EPOCH : Field := ⟨Reg.SYN_IST, 11, 1⟩
abbrev SYN_IST_HALTR : Field := ⟨Reg.SYN_IST, 10, 1⟩
abbrev SYN_IST_LOST : Field := ⟨Reg.SYN_IST, 9, 1⟩
abbrev SYN_IST_CRCE : Field := ⟨Reg.SYN_IST, 8, 1⟩
abbrev SYN_CFG_LOSSH : Field := ⟨Reg.SYN_CFG, 7, 1⟩
abbrev SYN_CFG_HIN : Field := ⟨Reg.SYN_CFG, 6, 1⟩
abbrev SYN_CFG_HOUT : Field := ⟨Reg.SYN_CFG, 5, 1⟩
abbrev SYN_CFG_FOUT : Field := ⟨Reg.SYN_CFG, 4, 1⟩
abbrev SYN_CFG_HEAD : Field := ⟨Reg.SYN_CFG, 0, 1⟩
abbrev SYN_USRO_U : Field := ⟨Reg.SYN_USRO, 0, 8⟩
abbrev SYN_RXW_W : Field := ⟨Reg.SYN_RXW, 0, 32⟩
abbrev SYN_POS_VLD : Field := ⟨Reg.SYN_POS, 8, 1⟩
abbrev SYN_POS_P : Field := ⟨Reg.SYN_POS, 0, 5⟩
abbrev SYN_ERRC_CRCE : Field := ⟨Reg.SYN_ERRC, 0, 16⟩
abbrev NVM_STA_SPX : Field := ⟨Reg.NVM_STA, 12, 1⟩
abbrev NVM_STA_REMAP : Field := ⟨Reg.NVM_STA, 11, 1⟩
abbrev NVM_STA_RCVR : Field := ⟨Reg.NVM_STA, 10, 1⟩
abbrev NVM_STA_OPEN : Field := ⟨Reg.NVM_STA, 9, 1⟩
abbrev NVM_STA_BUSY : Field := ⟨Reg.NVM_STA, 8, 1⟩
abbrev NVM_IST_RCV : Field := ⟨Reg.NVM_IST, 14, 1⟩
abbrev NVM_IST_CELL : Field := ⟨Reg.NVM_IST, 13, 1⟩
abbrev NVM_IST_LINE : Field := ⟨Reg.NVM_IST, 12, 1⟩
abbrev NVM_IST_UE : Field := ⟨Reg.NVM_IST, 11, 1⟩
abbrev NVM_IST_CE : Field := ⟨Reg.NVM_IST, 10, 1⟩
abbrev NVM_IST_GTO : Field := ⟨Reg.NVM_IST, 9, 1⟩
abbrev NVM_IST_CMTD : Field := ⟨Reg.NVM_IST, 8, 1⟩
abbrev NVM_GST_CLID : Field := ⟨Reg.NVM_GST, 24, 8⟩
abbrev NVM_GST_MST : Field := ⟨Reg.NVM_GST, 16, 8⟩
abbrev NVM_GST_NPG : Field := ⟨Reg.NVM_GST, 8, 7⟩
abbrev NVM_GST_ST : Field := ⟨Reg.NVM_GST, 0, 3⟩
abbrev NVM_TPA_P : Field := ⟨Reg.NVM_TPA, 0, 15⟩
abbrev NVM_TWI_I : Field := ⟨Reg.NVM_TWI, 0, 4⟩
abbrev NVM_TDA_D : Field := ⟨Reg.NVM_TDA, 0, 32⟩
abbrev NVM_GSEQ_N : Field := ⟨Reg.NVM_GSEQ, 0, 32⟩
abbrev NVM_BP_BPL : Field := ⟨Reg.NVM_BP, 8, 1⟩
abbrev NVM_BP_BP : Field := ⟨Reg.NVM_BP, 0, 2⟩
abbrev NVM_ECC_CE : Field := ⟨Reg.NVM_ECC, 16, 16⟩
abbrev NVM_ECC_UE : Field := ⟨Reg.NVM_ECC, 0, 16⟩
abbrev NVM_UEA_A : Field := ⟨Reg.NVM_UEA, 0, 32⟩
abbrev NVM_RCV_OUT : Field := ⟨Reg.NVM_RCV, 16, 2⟩
abbrev NVM_RCV_NPG : Field := ⟨Reg.NVM_RCV, 0, 7⟩
abbrev NVM_CFG_CFMAX : Field := ⟨Reg.NVM_CFG, 0, 8⟩
abbrev NVM_SLB_SPX (i : Nat) : Field := ⟨Reg.NVM_SLB i, 31, 1⟩
abbrev NVM_SLB_ELN (i : Nat) : Field := ⟨Reg.NVM_SLB i, 24, 6⟩
abbrev NVM_SLB_SP1 (i : Nat) : Field := ⟨Reg.NVM_SLB i, 16, 6⟩
abbrev NVM_SLB_SP0 (i : Nat) : Field := ⟨Reg.NVM_SLB i, 8, 6⟩
abbrev NVM_SLB_RST (i : Nat) : Field := ⟨Reg.NVM_SLB i, 0, 2⟩
abbrev NVM_CFT_CNT (i : Nat) : Field := ⟨Reg.NVM_CFT i, 24, 8⟩
abbrev NVM_CFT_W (i : Nat) : Field := ⟨Reg.NVM_CFT i, 0, 19⟩
abbrev NVS_STA_SCAN : Field := ⟨Reg.NVS_STA, 8, 1⟩
abbrev NVS_IST_EMPTYV : Field := ⟨Reg.NVS_IST, 10, 1⟩
abbrev NVS_IST_TORN : Field := ⟨Reg.NVS_IST, 9, 1⟩
abbrev NVS_IST_SAVED : Field := ⟨Reg.NVS_IST, 8, 1⟩
abbrev NVS_SEL_ID : Field := ⟨Reg.NVS_SEL, 0, 8⟩
abbrev NVS_VAL_V : Field := ⟨Reg.NVS_VAL, 0, 32⟩
abbrev NVS_VST_VALID : Field := ⟨Reg.NVS_VST, 31, 1⟩
abbrev NVS_VST_VH : Field := ⟨Reg.NVS_VST, 30, 1⟩
abbrev NVS_VST_HOST : Field := ⟨Reg.NVS_VST, 29, 1⟩
abbrev NVS_VST_IDX : Field := ⟨Reg.NVS_VST, 16, 6⟩
abbrev NVS_VST_SEQ : Field := ⟨Reg.NVS_VST, 0, 16⟩
abbrev NVS_VHP_S : Field := ⟨Reg.NVS_VHP, 0, 16⟩
abbrev ALM_STA_MORE : Field := ⟨Reg.ALM_STA, 9, 1⟩
abbrev ALM_STA_BUSY : Field := ⟨Reg.ALM_STA, 8, 1⟩
abbrev ALM_IST_MBX : Field := ⟨Reg.ALM_IST, 8, 1⟩
abbrev ALM_FWV_V : Field := ⟨Reg.ALM_FWV, 0, 32⟩
abbrev ALM_DEVL_D : Field := ⟨Reg.ALM_DEVL, 0, 32⟩
abbrev ALM_DEVH_D : Field := ⟨Reg.ALM_DEVH, 0, 32⟩
abbrev ALM_MSVC_SVC : Field := ⟨Reg.ALM_MSVC, 0, 8⟩
abbrev ALM_MLEN_N : Field := ⟨Reg.ALM_MLEN, 0, 11⟩
abbrev ALM_MRS_BUSY : Field := ⟨Reg.ALM_MRS, 31, 1⟩
abbrev ALM_MRS_DONE : Field := ⟨Reg.ALM_MRS, 30, 1⟩
abbrev ALM_MRS_STATUS : Field := ⟨Reg.ALM_MRS, 16, 8⟩
abbrev ALM_MRS_RLEN : Field := ⟨Reg.ALM_MRS, 0, 11⟩
abbrev ALM_MBUF_D (i : Nat) : Field := ⟨Reg.ALM_MBUF i, 0, 32⟩
abbrev SEN_STA_TLVL : Field := ⟨Reg.SEN_STA, 8, 2⟩
abbrev SEN_IST_TAMP : Field := ⟨Reg.SEN_IST, 8, 1⟩
abbrev SEN_SCAN_EN : Field := ⟨Reg.SEN_SCAN, 16, 7⟩
abbrev SEN_TCFG_EN : Field := ⟨Reg.SEN_TCFG, 8, 2⟩
abbrev SEN_TCNT_C1 : Field := ⟨Reg.SEN_TCNT, 8, 8⟩
abbrev SEN_TCNT_C0 : Field := ⟨Reg.SEN_TCNT, 0, 8⟩
abbrev SEN_VAL_VLD (i : Nat) : Field := ⟨Reg.SEN_VAL i, 31, 1⟩
abbrev SEN_VAL_V (i : Nat) : Field := ⟨Reg.SEN_VAL i, 0, 16⟩
abbrev LOG_STA_HELD : Field := ⟨Reg.LOG_STA, 8, 1⟩
abbrev LOG_IST_DROP : Field := ⟨Reg.LOG_IST, 9, 1⟩
abbrev LOG_IST_CMT : Field := ⟨Reg.LOG_IST, 8, 1⟩
abbrev LOG_NSEQ_N : Field := ⟨Reg.LOG_NSEQ, 0, 32⟩
abbrev LOG_TAKE_N : Field := ⟨Reg.LOG_TAKE, 0, 32⟩
abbrev LOG_GAP_N : Field := ⟨Reg.LOG_GAP, 0, 16⟩
abbrev LOG_DROP_N : Field := ⟨Reg.LOG_DROP, 0, 16⟩
abbrev MSR_MS_D (i : Nat) : Field := ⟨Reg.MSR_MS i, 0, 32⟩
abbrev MSR_LOADC_N : Field := ⟨Reg.MSR_LOADC, 0, 32⟩
abbrev MSR_FLG_NLOG : Field := ⟨Reg.MSR_FLG, 8, 7⟩
abbrev MSR_FLG_LFULL : Field := ⟨Reg.MSR_FLG, 1, 1⟩
abbrev MSR_FLG_HOSTC : Field := ⟨Reg.MSR_FLG, 0, 1⟩
abbrev UPD_IST_DONE : Field := ⟨Reg.UPD_IST, 9, 1⟩
abbrev UPD_IST_ARMD : Field := ⟨Reg.UPD_IST, 8, 1⟩
abbrev UPD_LEN_N : Field := ⟨Reg.UPD_LEN, 0, 18⟩
abbrev UPD_DOFS_N : Field := ⟨Reg.UPD_DOFS, 0, 18⟩
abbrev UPD_STA_ERR : Field := ⟨Reg.UPD_STA, 16, 8⟩
abbrev UPD_STA_ENGOK : Field := ⟨Reg.UPD_STA, 9, 1⟩
abbrev UPD_STA_FWOK : Field := ⟨Reg.UPD_STA, 8, 1⟩
abbrev UPD_STA_ST : Field := ⟨Reg.UPD_STA, 0, 3⟩
abbrev UPD_SLOT_TRIAL : Field := ⟨Reg.UPD_SLOT, 3, 1⟩
abbrev UPD_SLOT_ARMSLOT : Field := ⟨Reg.UPD_SLOT, 2, 1⟩
abbrev UPD_SLOT_ARMED : Field := ⟨Reg.UPD_SLOT, 1, 1⟩
abbrev UPD_SLOT_ACTIVE : Field := ⟨Reg.UPD_SLOT, 0, 1⟩
abbrev UPD_ARM_EN : Field := ⟨Reg.UPD_ARM, 8, 1⟩
abbrev UPD_ARM_SLOT : Field := ⟨Reg.UPD_ARM, 0, 1⟩
abbrev UPD_RBK_N : Field := ⟨Reg.UPD_RBK, 0, 32⟩
abbrev UPD_DWIN_D (i : Nat) : Field := ⟨Reg.UPD_DWIN i, 0, 32⟩
abbrev NIM_CTL_EN : Field := ⟨Reg.NIM_CTL, 0, 1⟩
abbrev NIM_STA_AUTH : Field := ⟨Reg.NIM_STA, 9, 1⟩
abbrev NIM_STA_FIELD : Field := ⟨Reg.NIM_STA, 8, 1⟩
abbrev NIM_IST_WRITE : Field := ⟨Reg.NIM_IST, 9, 1⟩
abbrev NIM_IST_SEL : Field := ⟨Reg.NIM_IST, 8, 1⟩
abbrev NIM_CFG_FWI : Field := ⟨Reg.NIM_CFG, 20, 4⟩
abbrev NIM_CFG_MFR : Field := ⟨Reg.NIM_CFG, 8, 8⟩
abbrev NIM_UIDL_U : Field := ⟨Reg.NIM_UIDL, 0, 32⟩
abbrev NIM_UIDH_U : Field := ⟨Reg.NIM_UIDH, 0, 32⟩
abbrev NIM_ST_S : Field := ⟨Reg.NIM_ST, 0, 3⟩
abbrev NIM_LSEQ_S : Field := ⟨Reg.NIM_LSEQ, 0, 16⟩
abbrev NIM_CNT_WEN : Field := ⟨Reg.NIM_CNT, 16, 16⟩
abbrev NIM_CNT_APDU : Field := ⟨Reg.NIM_CNT, 0, 16⟩
abbrev TMP_STA_CRIT : Field := ⟨Reg.TMP_STA, 10, 1⟩
abbrev TMP_STA_WARN : Field := ⟨Reg.TMP_STA, 9, 1⟩
abbrev TMP_STA_HOT : Field := ⟨Reg.TMP_STA, 8, 1⟩
abbrev TMP_IST_WARN : Field := ⟨Reg.TMP_IST, 9, 1⟩
abbrev TMP_IST_CRIT : Field := ⟨Reg.TMP_IST, 8, 1⟩
abbrev TMP_T_VLD (i : Nat) : Field := ⟨Reg.TMP_T i, 31, 1⟩
abbrev TMP_T_T (i : Nat) : Field := ⟨Reg.TMP_T i, 0, 12⟩
abbrev TMP_PKG_T : Field := ⟨Reg.TMP_PKG, 0, 12⟩
abbrev TMP_TWRN_T : Field := ⟨Reg.TMP_TWRN, 0, 12⟩
abbrev RET_STA_PLAT : Field := ⟨Reg.RET_STA, 10, 1⟩
abbrev RET_STA_RSTD : Field := ⟨Reg.RET_STA, 9, 1⟩
abbrev RET_STA_IMGV : Field := ⟨Reg.RET_STA, 8, 1⟩
abbrev RET_IST_RSTF : Field := ⟨Reg.RET_IST, 10, 1⟩
abbrev RET_IST_REFU : Field := ⟨Reg.RET_IST, 9, 1⟩
abbrev RET_IST_WAKE : Field := ⟨Reg.RET_IST, 8, 1⟩
abbrev RET_REQ_LVL : Field := ⟨Reg.RET_REQ, 0, 8⟩
abbrev RET_CFG_AREL : Field := ⟨Reg.RET_CFG, 9, 1⟩
abbrev RET_CFG_AIDL : Field := ⟨Reg.RET_CFG, 8, 1⟩
abbrev RET_WSRC_EN : Field := ⟨Reg.RET_WSRC, 0, 9⟩
abbrev RET_WCAU_C : Field := ⟨Reg.RET_WCAU, 0, 9⟩
abbrev RET_LVL_PREV : Field := ⟨Reg.RET_LVL, 8, 8⟩
abbrev RET_LVL_CUR : Field := ⟨Reg.RET_LVL, 0, 8⟩
abbrev RET_SAV_CRC : Field := ⟨Reg.RET_SAV, 16, 16⟩
abbrev RET_SAV_N : Field := ⟨Reg.RET_SAV, 0, 16⟩
abbrev PPD_STA_LAT : Field := ⟨Reg.PPD_STA, 8, 1⟩
abbrev HRV_STA_SRC : Field := ⟨Reg.HRV_STA, 16, 2⟩
abbrev HRV_STA_ABV : Field := ⟨Reg.HRV_STA, 12, 4⟩
abbrev HRV_STA_COLD : Field := ⟨Reg.HRV_STA, 10, 1⟩
abbrev HRV_STA_RFON : Field := ⟨Reg.HRV_STA, 9, 1⟩
abbrev HRV_STA_PVON : Field := ⟨Reg.HRV_STA, 8, 1⟩
abbrev HRV_IST_BROWN : Field := ⟨Reg.HRV_IST, 12, 1⟩
abbrev HRV_IST_FIELD : Field := ⟨Reg.HRV_IST, 11, 1⟩
abbrev HRV_IST_WARN : Field := ⟨Reg.HRV_IST, 10, 1⟩
abbrev HRV_IST_TOVS : Field := ⟨Reg.HRV_IST, 9, 1⟩
abbrev HRV_IST_TOVB : Field := ⟨Reg.HRV_IST, 8, 1⟩
abbrev HRV_THT_RUN : Field := ⟨Reg.HRV_THT, 24, 8⟩
abbrev HRV_THT_XMT : Field := ⟨Reg.HRV_THT, 16, 8⟩
abbrev HRV_THT_NVW : Field := ⟨Reg.HRV_THT, 8, 8⟩
abbrev HRV_THT_SNS : Field := ⟨Reg.HRV_THT, 0, 8⟩
abbrev HRV_MPPT_EN : Field := ⟨Reg.HRV_MPPT, 16, 1⟩
abbrev HRV_MPPT_K : Field := ⟨Reg.HRV_MPPT, 0, 7⟩
abbrev HRV_LDK_S : Field := ⟨Reg.HRV_LDK, 0, 17⟩
abbrev HRV_CSTO_UF : Field := ⟨Reg.HRV_CSTO, 0, 14⟩
abbrev HRV_ITX_I : Field := ⟨Reg.HRV_ITX, 0, 8⟩
abbrev HRV_VOC_VMPP : Field := ⟨Reg.HRV_VOC, 16, 16⟩
abbrev HRV_VOC_VOC : Field := ⟨Reg.HRV_VOC, 0, 16⟩
abbrev HRV_DKT_S : Field := ⟨Reg.HRV_DKT, 0, 17⟩
abbrev RTC_STA_LOST : Field := ⟨Reg.RTC_STA, 9, 1⟩
abbrev RTC_STA_XTAL : Field := ⟨Reg.RTC_STA, 8, 1⟩
abbrev RTC_IST_ALRM : Field := ⟨Reg.RTC_IST, 8, 1⟩
abbrev RTC_SEC_S : Field := ⟨Reg.RTC_SEC, 0, 32⟩
abbrev RTC_SUB_T : Field := ⟨Reg.RTC_SUB, 0, 15⟩
abbrev RTC_ALRM_S : Field := ⟨Reg.RTC_ALRM, 0, 32⟩
abbrev CLK_STA_HOLD : Field := ⟨Reg.CLK_STA, 12, 1⟩
abbrev CLK_STA_SSD : Field := ⟨Reg.CLK_STA, 10, 2⟩
abbrev CLK_STA_XOK : Field := ⟨Reg.CLK_STA, 9, 1⟩
abbrev CLK_STA_LOCK : Field := ⟨Reg.CLK_STA, 8, 1⟩
abbrev CLK_IST_FREQ : Field := ⟨Reg.CLK_IST, 11, 1⟩
abbrev CLK_IST_REFL : Field := ⟨Reg.CLK_IST, 10, 1⟩
abbrev CLK_IST_UNLK : Field := ⟨Reg.CLK_IST, 9, 1⟩
abbrev CLK_IST_SSCH : Field := ⟨Reg.CLK_IST, 8, 1⟩
abbrev CLK_SSC_DEPTH : Field := ⟨Reg.CLK_SSC, 0, 2⟩
abbrev CLK_LKA_AUTO : Field := ⟨Reg.CLK_LKA, 0, 1⟩
abbrev CLK_FMW_N : Field := ⟨Reg.CLK_FMW, 8, 8⟩
abbrev CLK_FM_LIM (i : Nat) : Field := ⟨Reg.CLK_FM i, 0, 16⟩
abbrev CLK_FM7_LIM : Field := ⟨Reg.CLK_FM7, 0, 16⟩
abbrev CLK_FM8_LIM : Field := ⟨Reg.CLK_FM8, 0, 16⟩
abbrev CLK_FM9_LIM : Field := ⟨Reg.CLK_FM9, 0, 16⟩
abbrev PAD_ATO_PAD (i : Nat) : Field := ⟨Reg.PAD_ATO i, 24, 6⟩
abbrev PAD_ATO_CNT (i : Nat) : Field := ⟨Reg.PAD_ATO i, 0, 16⟩
abbrev PAD_INE0_E : Field := ⟨Reg.PAD_INE0, 0, 32⟩
abbrev PAD_ATEN_E : Field := ⟨Reg.PAD_ATEN, 0, 16⟩
abbrev PAD_ATACT_A : Field := ⟨Reg.PAD_ATACT, 0, 32⟩
abbrev PAD_ATS_X : Field := ⟨Reg.PAD_ATS, 0, 16⟩
abbrev GPI_CTL_EN : Field := ⟨Reg.GPI_CTL, 0, 1⟩
abbrev GPI_PCFG_INV (i : Nat) : Field := ⟨Reg.GPI_PCFG i, 12, 1⟩
abbrev GPI_PCFG_FUN (i : Nat) : Field := ⟨Reg.GPI_PCFG i, 0, 4⟩
abbrev GPI_RSEL_EDGE (i : Nat) : Field := ⟨Reg.GPI_RSEL i, 8, 2⟩
abbrev GPI_RSEL_SRC (i : Nat) : Field := ⟨Reg.GPI_RSEL i, 0, 8⟩
abbrev GPI_DIN_D : Field := ⟨Reg.GPI_DIN, 0, 16⟩
abbrev GPI_ROUT_O : Field := ⟨Reg.GPI_ROUT, 0, 16⟩
abbrev FLT_STA_STORM : Field := ⟨Reg.FLT_STA, 10, 1⟩
abbrev FLT_STA_ENTRY : Field := ⟨Reg.FLT_STA, 9, 1⟩
abbrev FLT_STA_SAFE : Field := ⟨Reg.FLT_STA, 8, 1⟩
abbrev FLT_IST_STORM : Field := ⟨Reg.FLT_IST, 11, 1⟩
abbrev FLT_IST_PRE : Field := ⟨Reg.FLT_IST, 10, 1⟩
abbrev FLT_IST_SAFE : Field := ⟨Reg.FLT_IST, 9, 1⟩
abbrev FLT_IST_NEW : Field := ⟨Reg.FLT_IST, 8, 1⟩
abbrev FLT_CUR_CODE : Field := ⟨Reg.FLT_CUR, 16, 16⟩
abbrev FLT_CUR_CLS : Field := ⟨Reg.FLT_CUR, 8, 3⟩
abbrev FLT_CUR_UNIT : Field := ⟨Reg.FLT_CUR, 0, 8⟩
abbrev FLT_CURS_LSEQ : Field := ⟨Reg.FLT_CURS, 0, 32⟩
abbrev FLT_CITM_ITEM : Field := ⟨Reg.FLT_CITM, 0, 32⟩
abbrev FLT_QST_DEPTH : Field := ⟨Reg.FLT_QST, 16, 5⟩
abbrev FLT_QST_HWM : Field := ⟨Reg.FLT_QST, 8, 5⟩
abbrev FLT_CNT1_ENG : Field := ⟨Reg.FLT_CNT1, 24, 8⟩
abbrev FLT_CNT1_ITM : Field := ⟨Reg.FLT_CNT1, 16, 8⟩
abbrev FLT_CNT1_WRN : Field := ⟨Reg.FLT_CNT1, 8, 8⟩
abbrev FLT_CNT1_NOT : Field := ⟨Reg.FLT_CNT1, 0, 8⟩
abbrev FLT_CNT2_STRM : Field := ⟨Reg.FLT_CNT2, 16, 8⟩
abbrev FLT_CNT2_QDROP : Field := ⟨Reg.FLT_CNT2, 8, 8⟩
abbrev FLT_CNT2_SAF : Field := ⟨Reg.FLT_CNT2, 0, 8⟩
abbrev FLT_SSTO_US : Field := ⟨Reg.FLT_SSTO, 0, 13⟩
abbrev FLT_LAT_T : Field := ⟨Reg.FLT_LAT, 0, 16⟩
abbrev ILK_STA_DLAT : Field := ⟨Reg.ILK_STA, 11, 1⟩
abbrev ILK_STA_LL : Field := ⟨Reg.ILK_STA, 10, 1⟩
abbrev ILK_STA_OPEN : Field := ⟨Reg.ILK_STA, 8, 2⟩
abbrev ILK_IST_DISC : Field := ⟨Reg.ILK_IST, 10, 1⟩
abbrev ILK_IST_OPEN : Field := ⟨Reg.ILK_IST, 9, 1⟩
abbrev ILK_IST_LL : Field := ⟨Reg.ILK_IST, 8, 1⟩
abbrev ILK_CFG_DSC : Field := ⟨Reg.ILK_CFG, 16, 10⟩
abbrev ILK_CFG_POL : Field := ⟨Reg.ILK_CFG, 0, 2⟩
abbrev ILK_IN_FILT : Field := ⟨Reg.ILK_IN, 8, 2⟩
abbrev ILK_IN_RAW : Field := ⟨Reg.ILK_IN, 0, 2⟩
abbrev ILK_LLC_C : Field := ⟨Reg.ILK_LLC, 0, 13⟩
abbrev ILK_LLA_A : Field := ⟨Reg.ILK_LLA, 0, 13⟩
abbrev ILK_TCNT_N : Field := ⟨Reg.ILK_TCNT, 0, 16⟩
abbrev DBG_STA_XTST : Field := ⟨Reg.DBG_STA, 10, 1⟩
abbrev DBG_STA_PERMIT : Field := ⟨Reg.DBG_STA, 9, 1⟩
abbrev DBG_STA_UNL : Field := ⟨Reg.DBG_STA, 8, 1⟩
abbrev DBG_IST_XREF : Field := ⟨Reg.DBG_IST, 9, 1⟩
abbrev DBG_IST_UNLK : Field := ⟨Reg.DBG_IST, 8, 1⟩
abbrev DBG_RST_CAUSE : Field := ⟨Reg.DBG_RST, 0, 8⟩
abbrev DBG_PSE_LBAD : Field := ⟨Reg.DBG_PSE, 31, 1⟩
abbrev DBG_PSE_NOCAL : Field := ⟨Reg.DBG_PSE, 30, 1⟩
abbrev DBG_PSE_FIDX : Field := ⟨Reg.DBG_PSE, 16, 13⟩
abbrev DBG_PSE_FST : Field := ⟨Reg.DBG_PSE, 8, 8⟩
abbrev DBG_PSE_NREF : Field := ⟨Reg.DBG_PSE, 0, 8⟩
abbrev DBG_PKT_TRD : Field := ⟨Reg.DBG_PKT, 16, 16⟩
abbrev DBG_PKT_TPK : Field := ⟨Reg.DBG_PKT, 0, 16⟩
abbrev DBG_PKR_MAX : Field := ⟨Reg.DBG_PKR, 16, 16⟩
abbrev DBG_PKR_MIN : Field := ⟨Reg.DBG_PKR, 0, 16⟩
abbrev UPD_HEADSTA_TRIAL : Field := ⟨Reg.UPD_HEADSTA, 8, 1⟩
end Fld

end Sys2Proof.Machine
end

