-- ==== Sys2Proof/Machine/RegReset.lean ====
section
/-!
DEFINITION. Reset words of the registers whose tables say "see text" and whose value is not zero: the rings of R326, the
fixed mirror channels of R376, the full-scale tuning limits of R264, and the interlock inputs, which the model starts
closed (notes/assumptions/3.md). CLI.SEL resets to 0, so CRT and PRL–PXP show client 0 (R81).
-/
namespace Sys2Proof.Machine

/-- RCFG words of rings 0–13 (R326): EN 1, producer, consumer, use and CAPC. Producer and consumer codes are those of
R323. -/
def ringResetCfg (n : Nat) : Nat :=
  let cfg (prd cns use capc : Nat) : Nat :=
    2 ^ 31 + prd * 2 ^ 26 + cns * 2 ^ 23 + use * 2 ^ 21 + capc * 2 ^ 16
  match n with
  | 0 => cfg 4 1 1 13
  | 1 => cfg 4 1 1 13
  | 2 => cfg 1 5 1 8
  | 3 => cfg 5 5 0 5
  | 4 => cfg 1 3 1 6
  | 5 => cfg 3 1 1 6
  | 6 => cfg 3 1 1 7
  | 7 => cfg 2 1 1 6
  | 8 => cfg 1 2 1 6
  | 9 => cfg 2 1 1 6
  | 10 => cfg 1 2 1 6
  | 11 => cfg 2 1 1 6
  | 12 => cfg 1 2 1 6
  | 13 => cfg 3 6 1 6
  | _ => 0

/-- RBAS words of rings 0–13 (R326): byte offsets of the entry arrays from 0x8000_0000. -/
def ringResetBase (n : Nat) : Nat :=
  ([0x0, 0x8000, 0x10000, 0x10400, 0x10500, 0x10600, 0x10800, 0x10A00, 0x10B00, 0x10C00, 0x10D00, 0x10E00, 0x10F00,
    0x11000][n]?).getD 0

/-- MSRC words of mirror channels 0–7 (R376): EN 1 and the word offset of PWR.VIN, IIN, PIN, STA, RES.VRES, STA, FUS.TH0
and TH1 from 0x5000_0000. -/
def mirrorReset (n : Nat) : Nat :=
  match [0x1010, 0x1011, 0x1012, 0x1003, 0x2010, 0x2003, 0x8010, 0x8011][n]? with
  | some o => 2 ^ 31 + o
  | none => 0

/-- BOB words: the full-scale range of the default actuator of each slot in the units of R264; slot 11 has none. RTC.STA resets with LOST
(R465) and with ENA, whose CTL.EN reads 1 (R58). -/
def boundReset (n : Nat) : Nat :=
  if n = 0 then 1500 * 65536
  else if n ≤ 2 then 1000 * 65536 + (65536 - 1000)
  else if n = 3 then 150 * 65536
  else if n ≤ 6 then 4095 * 65536
  else if n ≤ 10 then 1000 * 65536
  else 0

/-- The reset word of a "see text" register that is not zero and not in RegTable.lean. -/
def resetText (a : Nat) : Option (BitVec 32) :=
  if 0x4001C100 ≤ a && a < 0x4001C500 && a % 16 == 0 then
    some (BitVec.ofNat 32 (ringResetCfg ((a - 0x4001C100) / 16)))
  else if 0x4001C100 ≤ a && a < 0x4001C500 && a % 16 == 4 then
    some (BitVec.ofNat 32 (ringResetBase ((a - 0x4001C100) / 16)))
  else if 0x40014080 ≤ a && a < 0x400140C0 && a % 4 == 0 then
    some (BitVec.ofNat 32 (mirrorReset ((a - 0x40014080) / 4)))
  else if a = 0x40010050 then some 0x304#32
  else if a = 0x40010054 || a = 0x4001005C || a = 0x40010064 then some 0x0FFFFFFF#32
  else if a = 0x40010058 || a = 0x40010060 || a = 0x40010068 then some 0x007FFFFF#32
  else if a = 0x50018044 then some 0x303#32
  else if a = 0x5003000C then some 0x201#32
  else if 0x40038600 ≤ a && a < 0x40038660 && a % 8 == 0 then some (BitVec.ofNat 32 (boundReset ((a - 0x40038600) / 8)))
  else none

end Sys2Proof.Machine
end

