-- ==== Sys2Proof/Machine/RegTable.lean ====
section
/-!
DEFINITION. The register pages of the SV-2440, as the register tables of the manual give them (R54 and the
"Registers" section of each chapter): for each page its common-header capabilities and block bits, and for each
register its offset, the number of like registers with their strides, and its fields (bits, access, reset, class,
legal values; a reset shown as "see text" stands at the value named in notes/assumptions/3.md).
-/
namespace Sys2Proof.Machine


/-- Registers of page SYS (R54, chapter 01). -/
def regsSYS : List RegDesc := [
  -- REV (R54): DREVN, LREVN
  rd 0x040 [fd 15 8 .ro 0x0 .l, fd 7 0 .ro 0x0 .l],
  -- BEA (R55): ADDR
  rd 0x048 [fd 31 0 .ro 0x0 .l],
  -- BES (R55): VLD, CNT, KIND, CLID, MST
  rd 0x04C [fd 31 31 .w1c 0x0 .l, fd 30 24 .ro 0x0 .l, fd 17 16 .ro 0x0 .l, fd 15 8 .ro 0x0 .l, fd 7 0 .ro 0x0 .l]]

/-- Page SYS. -/
def pageSYS : PageDesc :=
  { base := 0x40000000, num := 0x00, bas := false, xpa := false, grd := false, en1 := true, np := false, bounds := [],
    ctl := [],
    sta := [],
    ist := [],
    regs := regsSYS }

/-- Registers of page PSY (R54, chapter 01). -/
def regsPSY : List RegDesc := [
  -- REV (R54): FREVN, PREVN
  rd 0x040 [fd 15 8 .ro 0x0 .l, fd 7 0 .ro 0x0 .l],
  -- BST (R43): FALLBK, SLOT, FAIL, STG
  rd 0x044 [fd 17 17 .ro 0x0 .l, fd 16 16 .ro 0x0 .l, fd 15 8 .ro 0x0 .l, fd 7 0 .ro 0x0 .l],
  -- BEA (R55): ADDR
  rd 0x048 [fd 31 0 .ro 0x0 .l],
  -- BES (R55): VLD, CNT, KIND, CLID, MST
  rd 0x04C [fd 31 31 .w1c 0x0 .l, fd 30 24 .ro 0x0 .l, fd 17 16 .ro 0x0 .l, fd 15 8 .ro 0x0 .l, fd 7 0 .ro 0x0 .l]]

/-- Page PSY. -/
def pagePSY : PageDesc :=
  { base := 0x50000000, num := 0x00, bas := false, xpa := false, grd := false, en1 := true, np := false, bounds := [],
    ctl := [],
    sta := [],
    ist := [],
    regs := regsPSY }

/-- Registers of page DOC (R122, chapter 03). -/
def regsDOC : List RegDesc := [
  -- ST (R92): CAUSE, PREV, ST
  rd 0x040 [fd 15 8 .ro 0x0 .l, fd 7 4 .ro 0x0 .l, fd 3 0 .ro 0x0 .l],
  -- NID (R94): ID
  rd 0x044 [fd 31 0 .ro 0x1 .l],
  -- OLD (R115): ID
  rd 0x048 [fd 31 0 .ro 0x0 .l],
  -- JUSE (R119): CLSD, OPN, USE
  rd 0x04C [fd 23 16 .ro 0x0 .l, fd 15 8 .ro 0x0 .l, fd 7 0 .ro 0x0 .l],
  -- REFC (R103): CNT
  rd 0x050 [fd 15 0 .ro 0x0 .l],
  -- LREF (R103): CLID, ST, CMD
  rd 0x054 [fd 23 16 .ro 0x0 .l, fd 11 8 .ro 0x0 .l, fd 7 0 .ro 0x0 .l],
  -- BCFG (R96): MAXADM, MODE, REAR, MARK
  rd 0x600 [fd 6 4 .rw 0x4 .s, fd 3 2 .rw 0x0 .s (.among [(0, 2)]), fd 1 1 .rw 0x0 .s, fd 0 0 .rw 0x0 .s],
  -- BWKT (R93): T
  rd 0x604 [fd 15 0 .rw 0x1388 (.b .document) (.among [(500, 30000)])],
  -- BWUT (R93): T
  rd 0x608 [fd 15 0 .rw 0x5a (.b .document) (.among [(10, 600)])],
  -- BIDT (R93): T
  rd 0x60C [fd 15 0 .rw 0xa .l (.among [(0, 1440)])],
  -- BHDT (R106): T
  rd 0x610 [fd 15 0 .rw 0x7d0 (.b .document) (.among [(100, 60000)])],
  -- BSZT (R109): T
  rd 0x614 [fd 15 0 .rw 0x32 (.b .document) (.among [(0, 200)])]]

/-- Page DOC. -/
def pageDOC : PageDesc :=
  { base := 0x40050000, num := 0x14, bas := true, xpa := false, grd := false, en1 := false, np := false, bounds := [.document],
    ctl := [],
    sta := [fd 23 23 .ro 0 .l, fd 22 22 .ro 0 .l, fd 21 16 .ro 0 .l, fd 15 12 .ro 0 .l, fd 11 8 .ro 0 .l],
    ist := [fd 11 11 .w1c 0 .l, fd 10 10 .w1c 0 .l, fd 9 9 .w1c 0 .l, fd 8 8 .w1c 0 .l],
    regs := regsDOC }

/-- Registers of page PWR (R124, chapter 04). -/
def regsPWR : List RegDesc := [
  -- VIN (R127): MV
  rd 0x040 [fd 15 0 .ro 0x0 .l],
  -- IIN (R127): MA
  rd 0x044 [fd 15 0 .ro 0x0 .l],
  -- PIN (R127): CW
  rd 0x048 [fd 15 0 .ro 0x0 .l],
  -- VPF (R125): BWO, VPF
  rd 0x04C [fd 23 16 .rw 0xa .l (.among [(5, 50)]), fd 9 0 .rw 0x37 .l (.among [(50, 360)])],
  -- ILIM (R127): A
  rd 0x050 [fd 6 0 .rwg 0x50 (.b .document) (.among [(5, 100)])],
  -- BCK (R68): FSW
  rd 0x054 [fd 1 0 .rw 0x0 .s (.among [(0, 1)])]]

/-- Page PWR. -/
def pagePWR : PageDesc :=
  { base := 0x50004000, num := 0x01, bas := false, xpa := false, grd := true, en1 := true, np := false, bounds := [.document],
    ctl := [],
    sta := [fd 14 14 .ro 0 .l, fd 13 13 .ro 0 .l, fd 12 12 .ro 0 .l, fd 11 11 .ro 0 .l, fd 10 10 .ro 0 .l, fd 9 9 .ro 0 .l, fd 8 8 .ro 0 .l],
    ist := [fd 11 11 .w1c 0 .l, fd 10 10 .w1c 0 .l, fd 9 9 .w1c 0 .l, fd 8 8 .w1c 0 .l],
    regs := regsPWR }

/-- Registers of page RES (R128, chapter 04). -/
def regsRES : List RegDesc := [
  -- VRES (R130): MV
  rd 0x040 [fd 15 0 .ro 0x0 .l],
  -- CHG (R128): CHEN, ICHG
  rd 0x044 [fd 8 8 .rw 0x0 .l, fd 7 0 .rw 0x64 .l (.among [(25, 200)])],
  -- TCFG (R129): CMIN, EMAX, TPER
  rd 0x048 [fd 31 16 .rw 0x596 .l (.among [(1000, 10000)]), fd 15 4 .rw 0x1f4 .l (.among [(50, 4095)]), fd 3 0 .rw 0x4 .l (.among [(1, 9)])],
  -- TRES (R129): ESR, C
  rd 0x04C [fd 27 16 .ro 0x0 .l, fd 15 0 .ro 0x0 .l],
  -- TAGE (R130): MS
  rd 0x050 [fd 15 0 .ro 0xffff .l],
  -- TCMD (R129): RUN
  rd 0x054 [fd 0 0 .wo 0x0 .l]]

/-- Page RES. -/
def pageRES : PageDesc :=
  { base := 0x50008000, num := 0x02, bas := false, xpa := false, grd := false, en1 := true, np := true, bounds := [],
    ctl := [],
    sta := [fd 12 12 .ro 0 .l, fd 11 11 .ro 0 .l, fd 10 10 .ro 0 .l, fd 9 9 .ro 0 .l, fd 8 8 .ro 0 .l],
    ist := [fd 9 9 .w1c 0 .l, fd 8 8 .w1c 0 .l],
    regs := regsRES }

/-- Registers of page LGR (R135, chapter 04). -/
def regsLGR : List RegDesc := [
  -- LDEC (R142): FBIN, STATUS
  rd 0x040 [fd 19 8 .ro 0x0 .l, fd 7 0 .ro 0x0 .l],
  -- LITM (R142): ID
  rd 0x044 [fd 31 0 .ro 0x0 .l],
  -- RFC (R142): PATH, STORE, HEAT, ENERGY
  rd 0x048 [fd 31 24 .ro 0x0 .l, fd 23 16 .ro 0x0 .l, fd 15 8 .ro 0x0 .l, fd 7 0 .ro 0x0 .l],
  -- PEAK (R135): PEFF, PK
  rd 0x04C [fd 25 16 .ro 0x0 .l, fd 9 0 .ro 0x0 .l],
  -- TMIN (R138): T
  rd 0x050 [fd 11 0 .ro 0x0 .l],
  -- XBYP (R144): HEAT, STORE
  rd 0x054 [fd 1 1 .rw 0x0 .s, fd 0 0 .rw 0x0 .s],
  -- PLIM (R127): W
  rd 0x600 [fd 9 0 .rwg 0x50 (.b .document) (.among [(20, 800)])],
  -- MRG (R135): W
  rd 0x604 [fd 7 0 .rw 0x8 (.b .document) (.among [(0, 80)])],
  -- BASE (R135): W
  rd 0x608 [fd 9 0 .rw 0x28 (.b .document) (.among [(0, 800)])],
  -- SCHED (R142): PGAP, DEFER, DPER, LEAD
  rd 0x60C [fd 31 24 .rw 0x1e (.b .document) (.among [(0, 200)]), fd 23 16 .rw 0x0 (.b .document) (.among [(0, 250)]), fd 15 8 .rw 0xa (.b .document) (.among [(1, 100)]), fd 7 0 .rw 0x2 (.b .document) (.among [(1, 20)])],
  -- HEAT (R137): BHI, BLO
  rd 0x610 [fd 15 8 .rw 0x1e (.b .document), fd 7 0 .rw 0x14 (.b .document)],
  -- THM (R138): RTH, CTH
  rd 0x614 [fd 31 16 .rw 0x258 (.b .document) (.among [(10, 5000)]), fd 15 0 .rw 0x78 (.b .document) (.among [(10, 5000)])],
  -- THM2 (R138): TAMB, HEFF
  rd 0x618 [fd 15 8 .rw 0x28 (.b .document) (.among [(0, 70)]), fd 7 0 .rw 0x5f (.b .document) (.among [(50, 100)])],
  -- HTR (R138): PHMAX, RH
  rd 0x61C [fd 23 16 .rw 0x96 (.b .document) (.among [(0, 150)]), fd 15 0 .rw 0x1e0 (.b .document) (.among [(50, 10000)])],
  -- LDT (R136): MEDIA, MARK, TRAN, PICK
  rds 0x640 16 0x4 1 [fd 31 24 .rw 0x0 (.b .document), fd 23 16 .rw 0x0 (.b .document), fd 15 8 .rw 0x0 (.b .document), fd 7 0 .rw 0x0 (.b .document)]]

/-- Page LGR. -/
def pageLGR : PageDesc :=
  { base := 0x40054000, num := 0x15, bas := true, xpa := true, grd := true, en1 := false, np := false, bounds := [.document],
    ctl := [],
    sta := [],
    ist := [],
    regs := regsLGR }

/-- Registers of page MER (R172, chapter 05). -/
def regsMER : List RegDesc := [
  -- GEO (R172): EDGE, BDSRC, IDXE, NFAC
  rd 0x040 [fd 5 5 .rw 0x0 .s, fd 4 4 .rw 0x0 .s, fd 3 3 .rw 0x0 .s, fd 1 0 .rw 0x1 .s (.among [(0, 2)])],
  -- TFP (R146): P
  rd 0x044 [fd 21 0 .rw 0x0 (.b .document)],
  -- BDF (R172): MISS, WIN, WMIN
  rd 0x048 [fd 19 16 .rw 0x2 .s (.among [(1, 8)]), fd 15 8 .rw 0x5 .s (.among [(1, 64)]), fd 7 0 .rw 0x10 .s (.among [(2, 255)])],
  -- LCK (R151): TOL, N
  rd 0x04C [fd 23 16 .rw 0x5 .s (.among [(1, 100)]), fd 15 0 .rw 0x100 .s (.among [(16, 65535)])],
  -- FPM (R148): P
  rd 0x050 [fd 21 0 .ro 0x0 .l],
  -- FST (R150): REJ, FLYC, FACET
  rd 0x054 [fd 31 16 .ro 0x0 .l, fd 15 8 .ro 0x0 .l, fd 2 0 .ro 0x0 .l],
  -- LCNT (R151): CNT
  rd 0x058 [fd 31 0 .ro 0x0 .l],
  -- PPR (R153): INT, FRAC
  rd 0x05C [fd 31 16 .rw 0x35 (.b .line), fd 15 0 .rw 0x0 (.b .line)],
  -- PPW (R153): INT, FRAC
  rd 0x060 [fd 31 16 .rw 0x35 (.b .line), fd 15 0 .rw 0x0 (.b .line)],
  -- OFS (R160): FSK, T
  rds 0x064 3 0x4 1 [fd 31 29 .rw 0x0 (.b .line), fd 21 0 .rw 0x0 (.b .line)],
  -- NPX (R160): N
  rds 0x070 3 0x4 1 [fd 11 0 .rw 0x0 (.b .line)],
  -- SLT (R164): SORD, EN
  rd 0x07C [fd 4 4 .rw 0x0 (.b .line), fd 3 0 .rw 0xf (.b .line)],
  -- SLEN (R164): DARK, UVX, IR, VIS
  rd 0x080 [fd 29 24 .rw 0x8 (.b .line), fd 21 16 .rw 0x8 (.b .line), fd 13 8 .rw 0x8 (.b .line), fd 5 0 .rw 0x8 (.b .line)],
  -- STB (R165): SSMP, BLANK
  rd 0x084 [fd 15 8 .rw 0x6 (.b .line), fd 7 0 .rw 0x4 (.b .line)],
  -- SSC (R157): DTRM, TAU, MODE
  rd 0x088 [fd 23 16 .rw 0x0 .s, fd 15 8 .rw 0x20 .s, fd 1 0 .rw 0x2 .s (.among [(0, 2)])],
  -- RQR (R161): RPIX, RES
  rd 0x08C [fd 27 16 .ro 0x0 .l, fd 15 0 .ro 0x0 .l],
  -- FCOR (R154): C
  rds 0x090 8 0x4 1 [fd 15 0 .rw 0x0 (.b .line)],
  -- BPOL (R169): NFAC, RPM
  rd 0x600 [fd 17 16 .rw 0x1 (.b .document) (.among [(0, 2)]), fd 15 0 .rw 0x0 (.b .document) (.among [(0, 0), (6000, 48000)])],
  -- BSPD (R169): V
  rd 0x604 [fd 23 0 .rw 0x0 (.b .document)],
  -- BDPI (R169): WR, RD
  rd 0x608 [fd 25 16 .rw 0x258 (.b .document) (.among [(75, 600)]), fd 9 0 .rw 0x258 (.b .document) (.among [(75, 600)])],
  -- BWID (R169): W
  rds 0x60C 3 0x4 1 [fd 13 0 .rw 0x0 (.b .document) (.among [(0, 12800)])],
  -- BOFS (R169): FSK, D
  rds 0x618 3 0x4 1 [fd 31 29 .rw 0x0 (.b .document), fd 23 0 .rw 0x0 (.b .document)],
  -- BSLT (R169): SORD, EN
  rd 0x624 [fd 4 4 .rw 0x0 (.b .document), fd 3 0 .rw 0xf (.b .document)]]

/-- Page MER. -/
def pageMER : PageDesc :=
  { base := 0x40028000, num := 0x0A, bas := true, xpa := true, grd := false, en1 := false, np := false, bounds := [.line, .document],
    ctl := [fd 10 8 .rw 0 .s],
    sta := [fd 12 12 .ro 0 .l, fd 11 11 .ro 0 .l, fd 10 10 .ro 0 .l, fd 9 9 .ro 0 .l, fd 8 8 .ro 0 .l],
    ist := [fd 14 14 .w1c 0 .l, fd 13 13 .w1c 0 .l, fd 12 12 .w1c 0 .l, fd 11 11 .w1c 0 .l, fd 10 10 .w1c 0 .l, fd 9 9 .w1c 0 .l, fd 8 8 .w1c 0 .l],
    regs := regsMER }

/-- Registers of page IMG (R195, chapter 06). -/
def regsIMG : List RegDesc := [
  -- LTRG (R195): BKLG, DIR, AXIS
  rd 0x040 [fd 6 4 .rw 0x2 (.b .document) (.among [(1, 4)]), fd 2 2 .rw 0x0 (.b .document), fd 1 0 .rw 0x0 (.b .document) (.among [(0, 1)])],
  -- PITCH (R180): P
  rd 0x044 [fd 31 0 .rw 0x0 .l],
  -- LOFS (R180): D
  rds 0x048 2 0x4 1 [fd 31 0 .rw 0x0 .l],
  -- HYS (R182): C
  rd 0x050 [fd 15 0 .rw 0x1 .l (.among [(1, 65535)])],
  -- RVMX (R183): C
  rd 0x054 [fd 23 0 .rw 0x0 .l],
  -- RING (R187): RING1, RING0
  rd 0x058 [fd 13 8 .rw 0x1 .s, fd 5 0 .rw 0x0 .s],
  -- PROC (R176): SHD, DSUB
  rd 0x05C [fd 1 1 .rw 0x1 (.b .document), fd 0 0 .rw 0x1 (.b .document)],
  -- AFE (R173): DARK, UVX, IR, VIS
  rds 0x060 2 0x4 1 [fd 11 9 .rw 0x2 (.b .document) (.among [(0, 5)]), fd 8 6 .rw 0x2 (.b .document) (.among [(0, 5)]), fd 5 3 .rw 0x2 (.b .document) (.among [(0, 5)]), fd 2 0 .rw 0x2 (.b .document) (.among [(0, 5)])],
  -- OFD (R174): DARK, UVX, IR, VIS
  rds 0x068 2 0x4 1 [fd 31 24 .rw 0x40 (.b .document), fd 23 16 .rw 0x40 (.b .document), fd 15 8 .rw 0x40 (.b .document), fd 7 0 .rw 0x40 (.b .document)],
  -- QMSK (R186): M
  rd 0x070 [fd 11 0 .rw 0x0 (.b .document)],
  -- TST (R195): ST, BKL
  rds 0x074 2 0x4 1 [fd 9 8 .ro 0x0 .l, fd 3 0 .ro 0x0 .l],
  -- HWM (R182): P
  rds 0x07C 2 0x4 1 [fd 31 0 .ro 0x0 .l],
  -- NLN (R181): NLMAX, NEXT
  rds 0x084 2 0x4 1 [fd 31 16 .ro 0x0 .l, fd 15 0 .ro 0x0 .l],
  -- DROP (R181): SDROP, LDROP
  rd 0x08C [fd 31 16 .ro 0x0 .l, fd 15 0 .ro 0x0 .l],
  -- BLPI (R193): L
  rd 0x600 [fd 9 0 .rw 0xc8 (.b .document) (.among [(75, 600)])],
  -- BLOF (R193): D
  rds 0x604 2 0x4 1 [fd 31 0 .rw 0x0 (.b .document)],
  -- BHYS (R193): D
  rd 0x60C [fd 9 0 .rw 0x64 (.b .document) (.among [(0, 1000)])],
  -- BRVM (R193): D
  rd 0x610 [fd 6 0 .rw 0x14 (.b .document) (.among [(1, 100)])],
  -- BGN (R193): DARK, UVX, IR, VIS
  rds 0x614 2 0x4 1 [fd 11 9 .rw 0x2 (.b .document) (.among [(0, 5)]), fd 8 6 .rw 0x2 (.b .document) (.among [(0, 5)]), fd 5 3 .rw 0x2 (.b .document) (.among [(0, 5)]), fd 2 0 .rw 0x2 (.b .document) (.among [(0, 5)])],
  -- BOF (R193): DARK, UVX, IR, VIS
  rds 0x61C 2 0x4 1 [fd 31 24 .rw 0x40 (.b .document), fd 23 16 .rw 0x40 (.b .document), fd 15 8 .rw 0x40 (.b .document), fd 7 0 .rw 0x40 (.b .document)],
  -- BPROC (R193): SHD, DSUB
  rd 0x624 [fd 1 1 .rw 0x1 (.b .document), fd 0 0 .rw 0x1 (.b .document)]]

/-- Page IMG. -/
def pageIMG : PageDesc :=
  { base := 0x4002C000, num := 0x0B, bas := true, xpa := true, grd := false, en1 := false, np := false, bounds := [.document],
    ctl := [],
    sta := [fd 10 10 .ro 0 .l, fd 9 9 .ro 0 .l, fd 8 8 .ro 0 .l],
    ist := [fd 15 15 .w1c 0 .l, fd 14 14 .w1c 0 .l, fd 13 13 .w1c 0 .l, fd 12 12 .w1c 0 .l, fd 11 11 .w1c 0 .l, fd 10 10 .w1c 0 .l, fd 9 9 .w1c 0 .l, fd 8 8 .w1c 0 .l],
    regs := regsIMG }

/-- Registers of page CAL (R195, chapter 06). -/
def regsCAL : List RegDesc := [
  -- CMD (R179): NAVG, SMSK, STN, KIND
  rd 0x040 [fd 14 12 .wo 0x0 .l (.among [(0, 4)]), fd 11 8 .wo 0x0 .l, fd 5 4 .wo 0x0 .l, fd 1 0 .wo 0x0 .l (.among [(1, 3)])],
  -- CFG (R179): TGT, WMIN, BADMAX
  rd 0x044 [fd 31 20 .rw 0xf00 .l, fd 19 8 .rw 0x100 .l, fd 7 0 .rw 0x8 .l],
  -- CRS (R179): BADC, RSLT
  rd 0x048 [fd 31 16 .ro 0x0 .l, fd 15 8 .ro 0x0 .l],
  -- SEQ (R178): N
  rd 0x04C [fd 31 0 .ro 0x0 .l],
  -- TAD (R178): I
  rd 0x050 [fd 14 0 .rw 0x0 .l (.among [(0, 24191)])],
  -- TDA (R178): G, D
  rd 0x054 [fd 31 16 .rw 0x0 .l, fd 11 0 .rw 0x0 .l]]

/-- Page CAL. -/
def pageCAL : PageDesc :=
  { base := 0x40030000, num := 0x0C, bas := false, xpa := false, grd := false, en1 := false, np := false, bounds := [],
    ctl := [],
    sta := [fd 8 8 .ro 0 .l],
    ist := [fd 9 9 .w1c 0 .l, fd 8 8 .w1c 0 .l],
    regs := regsCAL }

/-- Registers of page MRK (R220, chapter 07). -/
def regsMRK : List RegDesc := [
  -- GEO (R220): RVC, AXIS
  rd 0x040 [fd 11 8 .rw 0x2 (.b .document) (.among [(1, 15)]), fd 1 0 .rw 0x0 .s (.among [(0, 1)])],
  -- WPIT (R201): P
  rd 0x044 [fd 31 0 .rw 0x0 (.b .document)],
  -- TNP (R196): C
  rd 0x048 [fd 23 0 .rw 0x0 (.b .document)],
  -- FNP (R196): C
  rd 0x04C [fd 23 0 .rw 0x0 (.b .document)],
  -- DWT (R201): C
  rd 0x050 [fd 23 0 .rw 0x0 (.b .document)],
  -- HSEQ (R204): RMP, TRL
  rd 0x054 [fd 31 24 .rw 0xf (.b .document) (.among [(1, 100)]), fd 15 0 .rw 0x0 (.b .document)],
  -- HVS (R203): C
  rds 0x058 4 0x4 1 [fd 11 0 .rw 0x0 (.b .band)],
  -- APC (R213): C
  rds 0x068 3 0x4 1 [fd 11 0 .rw 0x0 (.b .document)],
  -- FSET (R207): T
  rd 0x074 [fd 11 0 .rw 0x708 (.b .document)],
  -- HFT (R211): MS
  rd 0x078 [fd 7 0 .rw 0x32 (.b .document) (.among [(10, 250)])],
  -- RING (R197): PR
  rd 0x07C [fd 5 0 .rw 0x2 .s],
  -- PRB (R197): A
  rd 0x080 [fd 31 16 .rw 0x8200 .s],
  -- PRS (R197): N
  rd 0x084 [fd 7 0 .rw 0x40 .s (.among [(1, 255)])],
  -- BST (R220): PH, BAND, LINE
  rd 0x088 [fd 26 24 .ro 0x0 .l, fd 23 16 .ro 0x0 .l, fd 15 0 .ro 0x0 .l],
  -- UNDR (R202): N
  rd 0x08C [fd 15 0 .ro 0x0 .l],
  -- JDEL (R220): H
  rd 0x090 [fd 31 0 .wo 0x0 .l],
  -- JHND (R220): H
  rds 0x0A0 16 0x4 1 [fd 31 0 .ro 0x0 .l],
  -- JSTA (R220): NB, CLID, ST
  rds 0x0E0 16 0x4 1 [fd 22 16 .ro 0x0 .l, fd 15 8 .ro 0x0 .l, fd 2 0 .ro 0x0 .l],
  -- BWLPI (R218): L
  rd 0x600 [fd 9 0 .rw 0x12c (.b .document) (.among [(75, 600)])],
  -- BTNP (R218): D
  rd 0x604 [fd 23 0 .rw 0x0 (.b .document)],
  -- BFNP (R218): D
  rd 0x608 [fd 23 0 .rw 0x0 (.b .document)],
  -- BDWT (R218): D
  rd 0x60C [fd 23 0 .rw 0x0 (.b .document)],
  -- BRMP (R218): T
  rd 0x610 [fd 7 0 .rw 0xf (.b .document) (.among [(1, 100)])],
  -- BTRL (R218): D
  rd 0x614 [fd 15 0 .rw 0x2710 (.b .document)],
  -- BHV (R218): V
  rds 0x618 4 0x4 1 [fd 15 0 .rw 0x0 (.b .document)],
  -- BHS (R218): S
  rds 0x628 4 0x4 1 [fd 15 0 .rw 0x64 (.b .document)],
  -- BFUS (R218): T
  rd 0x638 [fd 11 0 .rw 0x708 (.b .document) (.among [(1000, 2300)])],
  -- BHFT (R218): MS
  rd 0x63C [fd 7 0 .rw 0x32 (.b .document)],
  -- BAPC (R218): C
  rds 0x640 3 0x4 1 [fd 10 0 .rw 0x0 (.b .document) (.among [(0, 1023)])]]

/-- Page MRK. -/
def pageMRK : PageDesc :=
  { base := 0x4004C000, num := 0x13, bas := true, xpa := true, grd := false, en1 := false, np := false, bounds := [.band, .document],
    ctl := [],
    sta := [fd 12 12 .ro 0 .l, fd 11 11 .ro 0 .l, fd 10 10 .ro 0 .l, fd 9 9 .ro 0 .l, fd 8 8 .ro 0 .l],
    ist := [fd 15 15 .w1c 0 .l, fd 14 14 .w1c 0 .l, fd 13 13 .w1c 0 .l, fd 12 12 .w1c 0 .l, fd 11 11 .w1c 0 .l, fd 10 10 .w1c 0 .l, fd 9 9 .w1c 0 .l, fd 8 8 .w1c 0 .l],
    regs := regsMRK }

/-- Registers of page HVD (R220, chapter 07). -/
def regsHVD : List RegDesc := [
  -- FRQ (R220): F, DT, SLP
  rds 0x040 4 0x4 1 [fd 17 8 .rw 0x32 .s (.among [(20, 200)]), fd 7 4 .rw 0x5 .s, fd 1 0 .rw 0x0 .s],
  -- CEIL (R203): C
  rds 0x050 4 0x4 1 [fd 11 0 .rwg 0x0 (.b .document)],
  -- DMAX (R203): D
  rds 0x060 4 0x4 1 [fd 9 0 .rwg 0x0 (.b .document) (.among [(0, 950)])],
  -- HVF (R203): C
  rds 0x070 4 0x4 1 [fd 11 0 .ro 0x0 .l],
  -- DTY (R203): D
  rds 0x080 4 0x4 1 [fd 9 0 .ro 0x0 .l]]

/-- Page HVD. -/
def pageHVD : PageDesc :=
  { base := 0x5001C000, num := 0x07, bas := false, xpa := false, grd := true, en1 := false, np := true, bounds := [.document],
    ctl := [],
    sta := [fd 15 12 .ro 0 .l, fd 11 8 .ro 0 .l],
    ist := [fd 8 8 .w1c 0 .l, fd 9 9 .w1c 0 .l, fd 10 10 .w1c 0 .l, fd 11 11 .w1c 0 .l],
    regs := regsHVD }

/-- Registers of page FUS (R220, chapter 07). -/
def regsFUS : List RegDesc := [
  -- TH (R210): ST, T
  rds 0x040 2 0x4 1 [fd 31 30 .ro 0x0 .l, fd 11 0 .ro 0x0 .l],
  -- TCEIL (R207): T
  rd 0x048 [fd 11 0 .rwg 0x7d0 (.b .document) (.among [(1000, 2300)])],
  -- TCUT (R208): T
  rd 0x04C [fd 11 0 .rwg 0x992 .l (.among [(1500, 2500)])],
  -- GATE (R220): F
  rd 0x050 [fd 13 0 .rw 0x3e8 .s (.among [(100, 10000)])],
  -- DTY (R207): D
  rd 0x054 [fd 9 0 .ro 0x0 .l],
  -- TDIF (R209): T
  rd 0x058 [fd 7 0 .rw 0x19 .l (.among [(5, 100)])]]

/-- Page FUS. -/
def pageFUS : PageDesc :=
  { base := 0x50020000, num := 0x08, bas := false, xpa := false, grd := true, en1 := false, np := true, bounds := [.document],
    ctl := [],
    sta := [fd 10 10 .ro 0 .l, fd 9 9 .ro 0 .l, fd 8 8 .ro 0 .l],
    ist := [fd 10 10 .w1c 0 .l, fd 9 9 .w1c 0 .l, fd 8 8 .w1c 0 .l],
    regs := regsFUS }

/-- Registers of page LDR (R220, chapter 07). -/
def regsLDR : List RegDesc := [
  -- BIAS (R212): I
  rds 0x040 3 0x4 1 [fd 7 0 .rw 0x0 (.b .document)],
  -- MODI (R213): I
  rds 0x04C 3 0x4 1 [fd 11 0 .rw 0x0 .l],
  -- CEIL (R212): I
  rds 0x058 3 0x4 1 [fd 7 0 .rwg 0x0 (.b .document) (.among [(0, 200)])],
  -- BDI (R212): I
  rds 0x064 3 0x4 1 [fd 7 0 .rw 0x0 (.b .document)],
  -- MODA (R213): I
  rds 0x070 3 0x4 1 [fd 11 0 .ro 0x0 .l],
  -- MON (R213): VLD, C
  rds 0x07C 3 0x4 1 [fd 15 15 .ro 0x0 .l, fd 11 0 .ro 0x0 .l],
  -- APCM (R213): MINL
  rd 0x088 [fd 15 0 .rw 0x7d0 .s (.among [(100, 50000)])]]

/-- Page LDR. -/
def pageLDR : PageDesc :=
  { base := 0x50014000, num := 0x05, bas := false, xpa := false, grd := true, en1 := false, np := true, bounds := [.document],
    ctl := [],
    sta := [fd 13 11 .ro 0 .l, fd 10 8 .ro 0 .l],
    ist := [fd 8 8 .w1c 0 .l, fd 9 9 .w1c 0 .l, fd 10 10 .w1c 0 .l, fd 11 11 .w1c 0 .l, fd 12 12 .w1c 0 .l, fd 13 13 .w1c 0 .l],
    regs := regsLDR }

/-- Registers of page MOT (R245, chapter 08). -/
def regsMOT : List RegDesc := [
  -- AX (R235): MS, DIR, PAR, TYPE
  rds 0x040 2 0x4 1 [fd 11 8 .rw 0x4 .s (.among [(0, 6)]), fd 3 3 .rw 0x0 .s, fd 2 2 .rw 0x0 .s, fd 1 0 .rw 0x0 .s (.among [(0, 2)])],
  -- STL (R241): V
  rd 0x048 [fd 15 0 .rw 0x64 (.b .document)],
  -- CM (R240): SPD, MODE
  rds 0x04C 2 0x4 1 [fd 31 8 .ro 0x0 .l, fd 2 0 .ro 0x0 .l],
  -- JST (R240): SENS, CAUSE
  rd 0x054 [fd 15 8 .ro 0x0 .l, fd 1 0 .ro 0x0 .l],
  -- JITM (R240): ID
  rd 0x058 [fd 31 0 .ro 0x0 .l],
  -- PROFA (R223): VRET, V
  rds 0x600 16 0x18 1 [fd 31 16 .rw 0x0 (.b .document) (.among [(0, 400)]), fd 15 0 .rw 0x0 (.b .document) (.among [(0, 400)])],
  -- PROFB (R223): CARR, AXIS, K
  rds 0x604 16 0x18 1 [fd 26 26 .rw 0x0 (.b .document), fd 25 24 .rw 0x0 (.b .document) (.among [(0, 1)]), fd 23 0 .rw 0x0 (.b .document)],
  -- PROFC (R224): PSOL, PKW, TPICK
  rds 0x608 16 0x18 1 [fd 29 24 .rw 0x0 (.b .document), fd 23 16 .rw 0x1e (.b .document) (.among [(0, 200)]), fd 15 0 .rw 0x0 (.b .document) (.among [(1, 5000)])],
  -- PROFD (R230): JWIN, JLMAX
  rds 0x60C 16 0x18 1 [fd 31 16 .rw 0xbb8 (.b .document) (.among [(500, 20000)]), fd 15 0 .rw 0x9c4 (.b .document) (.among [(600, 3000)])],
  -- PROFE (R232): CSTART, STALLT
  rds 0x610 16 0x18 1 [fd 31 16 .rw 0x0 (.b .document), fd 15 0 .rw 0x14 (.b .document) (.among [(5, 1000)])],
  -- PROFF (R231): DFL, ACC
  rds 0x614 16 0x18 1 [fd 31 16 .rw 0x2710 (.b .document), fd 15 0 .rw 0x12c (.b .document) (.among [(10, 5000)])],
  -- BHOME (R232): V
  rd 0x780 [fd 15 0 .rw 0x14 (.b .document) (.among [(1, 100)])],
  -- BZS (R225): X
  rds 0x7A0 8 0x4 1 [fd 31 0 .rw 0x0 (.b .document)],
  -- BZE (R225): X
  rds 0x7C0 8 0x4 1 [fd 31 0 .rw 0x0 (.b .document)]]

/-- Page MOT. -/
def pageMOT : PageDesc :=
  { base := 0x40040000, num := 0x10, bas := true, xpa := true, grd := false, en1 := false, np := false, bounds := [.document],
    ctl := [],
    sta := [fd 9 9 .ro 0 .l, fd 8 8 .ro 0 .l],
    ist := [fd 12 12 .w1c 0 .l, fd 11 11 .w1c 0 .l, fd 10 10 .w1c 0 .l, fd 9 9 .w1c 0 .l, fd 8 8 .w1c 0 .l],
    regs := regsMOT }

/-- Registers of page ENC (R245, chapter 08). -/
def regsENC : List RegDesc := [
  -- CFG (R234): ERRMAX, FLT, INV, IDXE
  rds 0x040 2 0x4 1 [fd 15 8 .rw 0x4 .s, fd 7 4 .rw 0x4 .s, fd 2 2 .rw 0x0 .s, fd 1 1 .rw 0x0 .s],
  -- POS (R234): P
  rds 0x048 2 0x4 1 [fd 31 0 .rw 0x0 .l],
  -- IDX (R234): P
  rds 0x050 2 0x4 1 [fd 31 0 .ro 0x0 .l],
  -- ERR (R234): B, A
  rd 0x058 [fd 15 8 .ro 0x0 .l, fd 7 0 .ro 0x0 .l],
  -- OLS (R236): S
  rds 0x05C 2 0x4 1 [fd 31 0 .rw 0x10000 .s]]

/-- Page ENC. -/
def pageENC : PageDesc :=
  { base := 0x40044000, num := 0x11, bas := false, xpa := false, grd := false, en1 := false, np := false, bounds := [],
    ctl := [],
    sta := [fd 11 10 .ro 0 .l, fd 9 8 .ro 0 .l],
    ist := [fd 8 8 .w1c 0 .l, fd 9 9 .w1c 0 .l, fd 10 10 .w1c 0 .l, fd 11 11 .w1c 0 .l],
    regs := regsENC }

/-- Registers of page SNS (R245, chapter 08). -/
def regsSNS : List RegDesc := [
  -- SCFG (R226): THHI, THLO, TH, ATH, POL, ROLE
  rds 0x040 6 0x4 1 [fd 31 24 .rw 0xe0 (.b .document), fd 23 16 .rw 0x20 (.b .document), fd 15 8 .rw 0x80 .l, fd 4 4 .rw 0x0 .s, fd 3 3 .rw 0x0 .s, fd 2 0 .rw 0x0 .s],
  -- FLT (R226): US
  rd 0x058 [fd 9 0 .rw 0x64 (.b .document) (.among [(10, 1000)])],
  -- LVL (R226): COV
  rd 0x05C [fd 5 0 .ro 0x0 .l],
  -- MON (R228): LO, LC, V
  rds 0x060 6 0x4 1 [fd 29 20 .ro 0x0 .l, fd 19 10 .ro 0x0 .l, fd 9 0 .ro 0x0 .l],
  -- ATHC (R228): N
  rd 0x078 [fd 15 0 .rw 0x40 (.b .document) (.among [(1, 65535)])],
  -- EPOS (R226): P
  rds 0x080 6 0x4 1 [fd 31 0 .ro 0x0 .l],
  -- BPOS (R222): X
  rds 0x600 6 0x4 1 [fd 31 0 .rw 0x0 (.b .document)]]

/-- Page SNS. -/
def pageSNS : PageDesc :=
  { base := 0x40048000, num := 0x12, bas := true, xpa := true, grd := false, en1 := false, np := false, bounds := [.document],
    ctl := [],
    sta := [fd 13 8 .ro 0 .l],
    ist := [fd 15 15 .w1c 0 .l, fd 8 8 .w1c 0 .l, fd 9 9 .w1c 0 .l, fd 10 10 .w1c 0 .l, fd 11 11 .w1c 0 .l, fd 12 12 .w1c 0 .l, fd 13 13 .w1c 0 .l],
    regs := regsSNS }

/-- Registers of page MDR (R245, chapter 08). -/
def regsMDR : List RegDesc := [
  -- PGEO (R237): PALN, PALI, PP
  rd 0x040 [fd 23 16 .rw 0xc8 .s, fd 15 8 .rw 0x32 .s, fd 3 0 .rw 0x2 .s (.among [(1, 8)])],
  -- PRMP (R237): PRMP, PHOV
  rd 0x044 [fd 31 16 .rw 0x320 .s (.among [(100, 5000)]), fd 15 0 .rw 0x5dc .s (.among [(500, 6000)])],
  -- PSTA (R237): RPM, ST
  rd 0x048 [fd 31 16 .ro 0x0 .l, fd 2 0 .ro 0x0 .l],
  -- PICL (R238): I
  rd 0x04C [fd 7 0 .rwg 0x0 (.b .document) (.among [(0, 150)])],
  -- HPWM (R235): DT, SLP, F
  rd 0x050 [fd 19 16 .rw 0x5 .s, fd 13 12 .rw 0x0 .s, fd 9 0 .rw 0x28 .s (.among [(20, 100)])],
  -- HICL (R235): I
  rds 0x054 4 0x4 1 [fd 7 0 .rwg 0x0 (.b .document) (.among [(0, 200)])],
  -- HCUR (R235): I
  rds 0x064 4 0x4 1 [fd 15 0 .ro 0x0 .l],
  -- POVS (R238): RPM
  rd 0x074 [fd 15 0 .rw 0xcb20 .s (.among [(6000, 52000)])]]

/-- Page MDR. -/
def pageMDR : PageDesc :=
  { base := 0x50024000, num := 0x09, bas := false, xpa := false, grd := true, en1 := false, np := false, bounds := [.document],
    ctl := [],
    sta := [fd 15 12 .ro 0 .l, fd 10 8 .ro 0 .l],
    ist := [fd 15 15 .w1c 0 .l, fd 14 14 .w1c 0 .l, fd 13 13 .w1c 0 .l, fd 12 12 .w1c 0 .l, fd 11 11 .w1c 0 .l, fd 10 10 .w1c 0 .l, fd 9 9 .w1c 0 .l],
    regs := regsMDR }

/-- Registers of page SOL (R245, chapter 08). -/
def regsSOL : List RegDesc := [
  -- SPH (R239): HDTY, TPK
  rds 0x040 6 0x4 1 [fd 17 8 .rw 0x12c .l, fd 7 0 .rw 0x1e .l],
  -- SPWM (R239): F
  rd 0x058 [fd 6 0 .rw 0x14 .s (.among [(10, 50)])],
  -- SON (R239): ON
  rd 0x05C [fd 5 0 .ro 0x0 .l]]

/-- Page SOL. -/
def pageSOL : PageDesc :=
  { base := 0x50028000, num := 0x0A, bas := false, xpa := false, grd := false, en1 := false, np := false, bounds := [],
    ctl := [],
    sta := [fd 13 8 .ro 0 .l],
    ist := [fd 8 8 .w1c 0 .l, fd 9 9 .w1c 0 .l, fd 10 10 .w1c 0 .l, fd 11 11 .w1c 0 .l, fd 12 12 .w1c 0 .l, fd 13 13 .w1c 0 .l, fd 14 14 .w1c 0 .l, fd 15 15 .w1c 0 .l, fd 16 16 .w1c 0 .l, fd 17 17 .w1c 0 .l, fd 18 18 .w1c 0 .l, fd 19 19 .w1c 0 .l],
    regs := regsSOL }

/-- Registers of page HEL (R266, chapter 09). -/
def regsHEL : List RegDesc := [
  -- RUN (R266): S
  rd 0x040 [fd 11 0 .ro 0x0 .l],
  -- PIN (R263): S
  rd 0x044 [fd 11 0 .ro 0x0 .l],
  -- LOSS (R260): S
  rd 0x048 [fd 11 0 .ro 0x0 .l],
  -- FLGS (R252): S
  rd 0x04C [fd 11 0 .ro 0x0 .l],
  -- MCMD (R250): MODE, SLOT
  rd 0x050 [fd 26 24 .wo 0x0 .l (.among [(0, 5)]), fd 3 0 .wo 0x0 .l (.among [(0, 11)])],
  -- FRM (R266): N
  rd 0x054 [fd 31 0 .ro 0x0 .l],
  -- CYC (R249): C
  rd 0x058 [fd 9 0 .ro 0x0 .l]]

/-- Page HEL. -/
def pageHEL : PageDesc :=
  { base := 0x40034000, num := 0x0D, bas := false, xpa := false, grd := false, en1 := false, np := false, bounds := [],
    ctl := [],
    sta := [fd 8 8 .ro 0 .l],
    ist := [fd 11 11 .w1c 0 .l, fd 10 10 .w1c 0 .l, fd 9 9 .w1c 0 .l, fd 8 8 .w1c 0 .l],
    regs := regsHEL }

/-- Registers of page HLP (R267, chapter 09). -/
def regsHLP : List RegDesc := [
  -- CFG (R267): SIDX, ACT, SRC, RSRC, TRIG, PER
  rds 0x040 12 0x70 1 [fd 31 28 .rw 0x0 .s, fd 27 24 .rw 0x0 .s (.among [(0, 12)]), fd 19 16 .rw 0x0 .s (.among [(0, 14)]), fd 14 14 .rw 0x0 .s, fd 13 12 .rw 0x0 .s (.among [(0, 1)]), fd 9 0 .rw 0x0 .s (.among [(2, 1000)])],
  -- KP (R267): K
  rds 0x044 12 0x70 1 [fd 31 0 .rw 0x0 (.b .sample)],
  -- KI (R267): K
  rds 0x048 12 0x70 1 [fd 31 0 .rw 0x0 (.b .sample)],
  -- KD (R267): K
  rds 0x04C 12 0x70 1 [fd 31 0 .rw 0x0 (.b .sample)],
  -- KF (R267): K
  rds 0x050 12 0x70 1 [fd 31 0 .rw 0x0 (.b .sample)],
  -- SHF (R267): SF, SD, SI, SP
  rds 0x054 12 0x70 1 [fd 28 24 .rw 0x0 (.b .sample), fd 20 16 .rw 0x0 (.b .sample), fd 12 8 .rw 0x0 (.b .sample), fd 4 0 .rw 0x0 (.b .sample)],
  -- RMAX (R267): R
  rds 0x058 12 0x70 1 [fd 30 0 .rw 0x0 (.b .sample)],
  -- OMIN (R267): U
  rds 0x05C 12 0x70 1 [fd 31 0 .rw 0x80000000 (.b .sample)],
  -- OMAX (R267): U
  rds 0x060 12 0x70 1 [fd 31 0 .rw 0x7fffffff (.b .sample)],
  -- YMIN (R267): Y
  rds 0x064 12 0x70 1 [fd 31 0 .rw 0x80000000 (.b .sample)],
  -- YMAX (R267): Y
  rds 0x068 12 0x70 1 [fd 31 0 .rw 0x7fffffff (.b .sample)],
  -- DYM (R267): D
  rds 0x06C 12 0x70 1 [fd 30 0 .rw 0x0 (.b .sample)],
  -- FRZ (R267): FRZD, FRZN
  rds 0x070 12 0x70 1 [fd 31 24 .rw 0x0 (.b .sample), fd 15 0 .rw 0x0 (.b .sample) (.among [(0, 0), (2, 65535)])],
  -- GRD (R267): PINN, FRN
  rds 0x074 12 0x70 1 [fd 23 8 .rw 0x40 (.b .sample) (.among [(1, 65535)]), fd 7 0 .rw 0x3 (.b .sample) (.among [(1, 255)])],
  -- TABC (R267): FE, CE, DFS, TSF, TSC
  rds 0x078 12 0x70 1 [fd 25 25 .rw 0x0 .s, fd 24 24 .rw 0x0 .s, fd 20 16 .rw 0x0 .s, fd 12 8 .rw 0x0 .s (.among [(0, 16)]), fd 4 0 .rw 0x0 .s (.among [(0, 16)])],
  -- TSCL (R267): S
  rds 0x07C 12 0x70 1 [fd 31 0 .rw 0x0 .s],
  -- TPH (R267): P
  rds 0x080 12 0x70 1 [fd 31 0 .rw 0x0 (.b .sample)],
  -- REF (R267): R
  rds 0x084 12 0x70 1 [fd 31 0 .ro 0x0 .l],
  -- FB (R267): Y
  rds 0x088 12 0x70 1 [fd 31 0 .ro 0x0 .l],
  -- OUT (R267): U
  rds 0x08C 12 0x70 1 [fd 31 0 .ro 0x0 .l],
  -- IACC (R267): I
  rds 0x090 12 0x70 1 [fd 31 0 .ro 0x0 .l],
  -- HLO (R267): U
  rds 0x094 12 0x70 1 [fd 31 0 .ro 0x0 .l],
  -- HHI (R267): U
  rds 0x098 12 0x70 1 [fd 31 0 .ro 0x0 .l],
  -- ST (R267): MODE, PIN, LOSS, LCAU, NMIN, DZ, OVM, SATO, SATI, SATP
  rds 0x09C 12 0x70 1 [fd 26 24 .ro 0x0 .l, fd 19 19 .ro 0x0 .l, fd 18 18 .ro 0x0 .l, fd 17 16 .ro 0x0 .l, fd 5 5 .w1c 0x0 .l, fd 4 4 .w1c 0x0 .l, fd 3 3 .w1c 0x0 .l, fd 2 2 .w1c 0x0 .l, fd 1 1 .w1c 0x0 .l, fd 0 0 .w1c 0x0 .l],
  -- CNT (R267): N
  rds 0x0A0 12 0x70 1 [fd 31 0 .ro 0x0 .l],
  -- TGT (R267): T
  rds 0x0A4 12 0x70 1 [fd 31 0 .rw 0x0 (.b .sample)],
  -- AUX (R267): IRUN, IHLD
  rds 0x0A8 12 0x70 1 [fd 15 8 .rw 0x0 (.b .sample) (.among [(0, 200)]), fd 7 0 .rw 0x0 (.b .sample) (.among [(0, 200)])],
  -- BOB (R264): BHI, BLO
  rds 0x600 12 0x8 1 [fd 31 16 .rw 0x0 (.b .sample), fd 15 0 .rw 0x0 (.b .sample)],
  -- BPN (R264): PINN
  rds 0x604 12 0x8 1 [fd 15 0 .rw 0x40 (.b .sample) (.among [(1, 65535)])]]

/-- Page HLP. -/
def pageHLP : PageDesc :=
  { base := 0x40038000, num := 0x0E, bas := true, xpa := true, grd := false, en1 := false, np := false, bounds := [.sample, .document],
    ctl := [],
    sta := [],
    ist := [],
    regs := regsHLP }

/-- Registers of page HTB (R268, chapter 09). -/
def regsHTB : List RegDesc := [
  -- TAD (R268): I
  rd 0x040 [fd 10 0 .rw 0x0 .l],
  -- TDA (R268): V
  rd 0x044 [fd 15 0 .rw 0x0 .l]]

/-- Page HTB. -/
def pageHTB : PageDesc :=
  { base := 0x4003C000, num := 0x0F, bas := false, xpa := false, grd := false, en1 := false, np := false, bounds := [],
    ctl := [],
    sta := [],
    ist := [],
    regs := regsHTB }

/-- Registers of page ORR (R296, chapter 10). -/
def regsORR : List RegDesc := [
  -- SWP (R291): DIS, ARM
  rd 0x040 [fd 1 1 .wo 0x0 .l, fd 0 0 .wo 0x0 .l],
  -- SWPC (R291): N
  rd 0x044 [fd 15 0 .ro 0x0 .l],
  -- ECE (R290): CE, ADDR
  rd 0x048 [fd 31 16 .ro 0x0 .l, fd 11 0 .ro 0x0 .l],
  -- CYC (R269): N
  rd 0x04C [fd 31 0 .ro 0x0 .l],
  -- V (R271): V
  rds 0x050 8 0x4 1 [fd 31 0 .ro 0x0 .l]]

/-- Page ORR. -/
def pageORR : PageDesc :=
  { base := 0x40020000, num := 0x08, bas := false, xpa := false, grd := false, en1 := false, np := false, bounds := [.document],
    ctl := [],
    sta := [fd 15 12 .ro 0 .l, fd 10 10 .ro 0 .l, fd 9 9 .ro 0 .l, fd 8 8 .ro 0 .l],
    ist := [fd 15 15 .w1c 0 .l, fd 14 14 .w1c 0 .l, fd 13 13 .w1c 0 .l, fd 12 12 .w1c 0 .l, fd 11 11 .w1c 0 .l, fd 10 10 .w1c 0 .l, fd 9 9 .w1c 0 .l, fd 8 8 .w1c 0 .l],
    regs := regsORR }

/-- Registers of page ORC (R296, chapter 10). -/
def regsORC : List RegDesc := [
  -- ENT (R292): A
  rds 0x040 4 0x80 1 [fd 11 0 .rw 0x0 (.b .document)],
  -- CFG (R273): LOCK
  rds 0x044 4 0x80 1 [fd 8 8 .rw 0x0 .s],
  -- ST (R272): SP, LJIT, LOCK, STATE, PC
  rds 0x048 4 0x80 1 [fd 27 24 .ro 0x0 .l, fd 21 21 .ro 0x0 .l, fd 20 20 .ro 0x0 .l, fd 18 16 .ro 0x0 .l, fd 11 0 .ro 0x0 .l],
  -- FLG (R271): TMOX, V, C, N, Z
  rds 0x04C 4 0x80 1 [fd 4 4 .ro 0x0 .l, fd 3 3 .ro 0x0 .l, fd 2 2 .ro 0x0 .l, fd 1 1 .ro 0x0 .l, fd 0 0 .ro 0x0 .l],
  -- DSP (R278): EN, PRE, KIND, COND, VEC
  rds 0x050 4 0x80 8 [fd 31 31 .rw 0x0 .s, fd 30 30 .rw 0x0 .s, fd 29 29 .rw 0x0 .s, fd 22 16 .rw 0x0 .s, fd 11 0 .rw 0x0 .s],
  -- PEND (R278): INSV, PND
  rds 0x070 4 0x80 1 [fd 15 8 .ro 0x0 .l, fd 7 0 .ro 0x0 .l],
  -- TMXC (R276): N
  rds 0x074 4 0x80 1 [fd 15 0 .ro 0x0 .l],
  -- WDG (R284): US
  rds 0x078 4 0x80 1 [fd 15 0 .rw 0x0 .l],
  -- W (R271): W
  rds 0x080 4 0x80 16 [fd 31 0 .ro 0x0 .l],
  -- CMD (R296): OP, CTX
  rd 0x400 [fd 9 8 .wo 0x0 .l (.among [(1, 2)]), fd 1 0 .wo 0x0 .l]]

/-- Page ORC. -/
def pageORC : PageDesc :=
  { base := 0x40024000, num := 0x09, bas := false, xpa := false, grd := false, en1 := true, np := false, bounds := [.document],
    ctl := [],
    sta := [],
    ist := [],
    regs := regsORC }

/-- Registers of page CST (R343, chapter 12). -/
def regsCST : List RegDesc := [
  -- SYSR (R329): SZ, BASE
  rd 0x040 [fd 25 16 .rw 0x20 .s (.among [(1, 512)]), fd 9 0 .rw 0x0 .s],
  -- HSTR (R329): SZ, BASE
  rd 0x044 [fd 25 16 .rw 0x20 .s (.among [(1, 512)]), fd 9 0 .rw 0x20 .s],
  -- POOL (R329): FREE, LRUN
  rd 0x048 [fd 25 16 .ro 0x380 .l, fd 9 0 .ro 0x1c0 .l],
  -- ARB (R334): DBG, ALM, ORR, TUN, HOST
  rd 0x04C [fd 19 16 .rw 0x1 .l, fd 15 12 .rw 0x1 .l, fd 11 8 .rw 0x4 .l, fd 7 4 .rw 0x2 .l, fd 3 0 .rw 0x8 .l],
  -- ECC (R332): CE, UE
  rd 0x050 [fd 31 16 .ro 0x0 .l, fd 15 0 .ro 0x0 .l],
  -- UEA (R332): A
  rd 0x054 [fd 31 0 .ro 0x0 .l],
  -- SCRB (R333): PER
  rd 0x058 [fd 15 0 .rw 0x258 .l (.among [(0, 0), (60, 65535)])],
  -- BADG (R333): N
  rd 0x05C [fd 9 0 .ro 0x0 .l],
  -- RSVI (R337): ITEM
  rds 0x080 8 0x10 1 [fd 31 0 .ro 0x0 .l],
  -- RSVF (R337): G, BASE
  rds 0x084 8 0x10 1 [fd 25 16 .ro 0x0 .l, fd 9 0 .ro 0x0 .l],
  -- RSVR (R337): G, BASE
  rds 0x088 8 0x10 1 [fd 25 16 .ro 0x0 .l, fd 9 0 .ro 0x0 .l],
  -- RSVE (R337): ER, EF
  rds 0x08C 8 0x10 1 [fd 31 16 .ro 0x0 .l, fd 15 0 .ro 0x0 .l]]

/-- Page CST. -/
def pageCST : PageDesc :=
  { base := 0x40018000, num := 0x06, bas := false, xpa := false, grd := false, en1 := false, np := false, bounds := [],
    ctl := [],
    sta := [fd 10 10 .ro 0 .l, fd 9 9 .ro 0 .l, fd 8 8 .ro 0 .l],
    ist := [fd 12 12 .w1c 0 .l, fd 11 11 .w1c 0 .l, fd 10 10 .w1c 0 .l, fd 9 9 .w1c 0 .l, fd 8 8 .w1c 0 .l],
    regs := regsCST }

/-- Registers of page RNG (R343, chapter 12). -/
def regsRNG : List RegDesc := [
  -- HSEL (R343): RING
  rd 0x040 [fd 5 0 .rw 0x0 .l],
  -- HPSH (R324): E
  rd 0x044 [fd 31 0 .wo 0x0 .l],
  -- HPOP (R323): E
  rd 0x048 [fd 31 0 .ro 0xffffffff .l],
  -- HDONE (R325): DONE
  rd 0x04C [fd 0 0 .wo 0x0 .l],
  -- HSTA (R322): EMP
  rd 0x050 [fd 8 8 .ro 0x0 .l],
  -- RCFG (R320): EN, PRD, CNS, USE, CAPC
  rds 0x100 64 0x10 1 [fd 31 31 .rw 0x0 .l, fd 28 26 .rw 0x0 .s (.among [(0, 6)]), fd 25 23 .rw 0x0 .s (.among [(0, 3), (5, 6)]), fd 21 21 .rw 0x0 .s, fd 20 16 .rw 0x0 .s (.among [(1, 16)])],
  -- RBAS (R320): A
  rds 0x104 64 0x10 1 [fd 25 2 .rw 0x0 .s],
  -- RDEP (R320): D
  rds 0x108 64 0x10 1 [fd 16 0 .ro 0x0 .l],
  -- STAT (R324): STL, DSC, REF
  rds 0x10C 64 0x10 1 [fd 31 20 .ro 0x0 .l, fd 19 8 .ro 0x0 .l, fd 7 0 .ro 0x0 .l]]

/-- Page RNG. -/
def pageRNG : PageDesc :=
  { base := 0x4001C000, num := 0x07, bas := false, xpa := false, grd := false, en1 := false, np := false, bounds := [],
    ctl := [],
    sta := [],
    ist := [fd 10 10 .w1c 0 .l, fd 9 9 .w1c 0 .l, fd 8 8 .w1c 0 .l],
    regs := regsRNG }

/-- Registers of page BRG (R345, chapter 13). -/
def regsBRG : List RegDesc := [
  -- IFC (R375): PRTIF, IMGIF, SPIE, USBE
  rd 0x040 [fd 5 5 .rw 0x0 .s, fd 4 4 .rw 0x0 .s, fd 1 1 .rw 0x0 .l, fd 0 0 .rw 0x0 .l],
  -- USTA (R348): ADDR, RWE, HS, ST
  rd 0x044 [fd 14 8 .ro 0x0 .l, fd 5 5 .ro 0x0 .l, fd 4 4 .ro 0x0 .l, fd 2 0 .ro 0x0 .l],
  -- UVID (R345): PID, VID
  rd 0x048 [fd 31 16 .rw 0x0 .s, fd 15 0 .rw 0x0 .s],
  -- UREL (R345): BCD
  rd 0x04C [fd 15 0 .rw 0x0 .s],
  -- SCFG (R351): HMSK, HIEN, DMY, HPOL, ACKM, CRC
  rd 0x050 [fd 14 12 .rw 0x5 .s, fd 11 11 .rw 0x1 .s, fd 7 4 .rw 0x8 .s (.among [(2, 15)]), fd 2 2 .rw 0x0 .s, fd 1 1 .rw 0x0 .s, fd 0 0 .rw 0x0 .s],
  -- PERR (R364): ROVF, TDUP, MAL
  rd 0x054 [fd 31 24 .ro 0x0 .l, fd 23 16 .ro 0x0 .l, fd 15 0 .ro 0x0 .l]]

/-- Page BRG. -/
def pageBRG : PageDesc :=
  { base := 0x4000C000, num := 0x03, bas := false, xpa := false, grd := false, en1 := false, np := false, bounds := [],
    ctl := [],
    sta := [],
    ist := [fd 15 15 .w1c 0 .l, fd 14 14 .w1c 0 .l, fd 13 13 .w1c 0 .l, fd 12 12 .w1c 0 .l, fd 11 11 .w1c 0 .l, fd 10 10 .w1c 0 .l, fd 9 9 .w1c 0 .l, fd 8 8 .w1c 0 .l],
    regs := regsBRG }

/-- Registers of page CLI (R361, chapter 13). -/
def regsCLI : List RegDesc := [
  -- OPN (R361): ID
  rd 0x040 [fd 7 0 .wo 0x0 .l],
  -- CLS (R362): ID
  rd 0x044 [fd 7 0 .wo 0x0 .l],
  -- SEL (R361): ID
  rd 0x048 [fd 7 0 .rw 0x0 .l],
  -- CST (R361): OUTS, IF, OPEN
  rd 0x04C [fd 12 8 .ro 0x0 .l, fd 1 1 .ro 0x0 .l, fd 0 0 .ro 0x0 .l],
  -- CRT (R363): EVS, O, G, CRL
  rd 0x050 [fd 10 10 .rw 0x0 .l, fd 9 9 .rw 0x0 .l, fd 8 8 .rw 0x0 .l, fd 4 0 .rw 0x4 .l (.among [(1, 16)])],
  -- PRL (R81): P
  rd 0x054 [fd 27 0 .rw 0x0 .l],
  -- PRP (R81): P
  rd 0x058 [fd 22 0 .rw 0x0 .l],
  -- PWL (R81): P
  rd 0x05C [fd 27 0 .rw 0x0 .l],
  -- PWP (R81): P
  rd 0x060 [fd 22 0 .rw 0x0 .l],
  -- PXL (R81): P
  rd 0x064 [fd 27 0 .rw 0x0 .l],
  -- PXP (R81): P
  rd 0x068 [fd 22 0 .rw 0x0 .l],
  -- SEQ (R365): S
  rd 0x06C [fd 15 0 .ro 0x0 .l],
  -- POOL (R363): N
  rd 0x070 [fd 10 0 .ro 0x400 .l]]

/-- Page CLI. -/
def pageCLI : PageDesc :=
  { base := 0x40010000, num := 0x04, bas := false, xpa := false, grd := false, en1 := false, np := false, bounds := [],
    ctl := [],
    sta := [],
    ist := [],
    regs := regsCLI }

/-- Registers of page DBR (R376, chapter 13). -/
def regsDBR : List RegDesc := [
  -- LST (R570): TRND, UP
  rd 0x040 [fd 8 8 .ro 0x0 .l, fd 3 0 .ro 0x0 .l],
  -- RTE (R33): CRC, MISS
  rd 0x044 [fd 31 16 .ro 0x0 .l, fd 15 0 .ro 0x0 .l],
  -- REGT (R32): N
  rd 0x048 [fd 15 0 .ro 0x0 .l],
  -- TRN (R570): RUN
  rd 0x04C [fd 0 0 .wo 0x0 .l],
  -- MCFG (R376): RATE
  rd 0x050 [fd 13 0 .rw 0x3e8 .l (.among [(100, 10000)])],
  -- MSRC (R376): EN, WOFS
  rds 0x080 16 0x4 1 [fd 31 31 .rw 0x0 .l, fd 19 0 .rw 0x0 .l],
  -- MVAL (R376): V
  rds 0x0C0 16 0x4 1 [fd 31 0 .ro 0x0 .l],
  -- MAGE (R376): MS
  rds 0x100 16 0x4 1 [fd 15 0 .ro 0xffff .l]]

/-- Page DBR. -/
def pageDBR : PageDesc :=
  { base := 0x40014000, num := 0x05, bas := false, xpa := false, grd := false, en1 := false, np := false, bounds := [],
    ctl := [],
    sta := [],
    ist := [fd 10 10 .w1c 0 .l, fd 9 9 .w1c 0 .l, fd 8 8 .w1c 0 .l],
    regs := regsDBR }

/-- Registers of page UA0 (R404, chapter 14). -/
def regsUA0 : List RegDesc := [
  -- FMT (R378): STOP2, PAR, D7
  rd 0x040 [fd 3 3 .rw 0x0 .s, fd 2 1 .rw 0x0 .s (.among [(0, 2)]), fd 0 0 .rw 0x0 .s],
  -- BAUD (R379): CSRC, OVS8, DIV, FRAC
  rd 0x044 [fd 31 31 .rw 0x0 .s, fd 30 30 .rw 0x0 .s, fd 23 8 .rw 0x36 .s (.among [(1, 65535)]), fd 5 0 .rw 0x10 .s],
  -- FLOW (R383): XOFFC, XONC, XRX, XTX, XOTMO
  rd 0x048 [fd 31 24 .rw 0x13 .s, fd 23 16 .rw 0x11 .s, fd 9 9 .rw 0x0 .s, fd 8 8 .rw 0x0 .s, fd 7 0 .rw 0x0 .s],
  -- TUN (R385): MODE, IDLE, TERM, TERMEN, ESC, CLID
  rd 0x04C [fd 28 28 .rw 0x0 .s, fd 27 24 .rw 0x2 .s (.among [(1, 15)]), fd 23 16 .rw 0xd .s, fd 9 9 .rw 0x0 .s, fd 8 8 .rw 0x0 .s, fd 7 0 .rw 0x0 (.b .frame)],
  -- MAXF (R387): N
  rd 0x050 [fd 11 0 .rw 0x400 .s (.among [(1, 4094)])],
  -- WM (R384): RXHI, RXLO
  rd 0x054 [fd 21 16 .rw 0x30 .s, fd 5 0 .rw 0x10 .s],
  -- DATA (R382): EMPTY, D
  rd 0x058 [fd 8 8 .ro 0x1 .l, fd 7 0 .rw 0x0 .l],
  -- LVL (R382): TXL, RXL
  rd 0x05C [fd 22 16 .ro 0x0 .l, fd 6 0 .ro 0x0 .l],
  -- CNT (R385): TXF, RXF
  rd 0x060 [fd 31 16 .ro 0x0 .l, fd 15 0 .ro 0x0 .l],
  -- ERRC (R380): BRK, OE, FE, PE
  rd 0x064 [fd 31 24 .ro 0x0 .l, fd 23 16 .ro 0x0 .l, fd 15 8 .ro 0x0 .l, fd 7 0 .ro 0x0 .l]]

/-- Page UA0. -/
def pageUA0 : PageDesc :=
  { base := 0x4005C000, num := 0x17, bas := false, xpa := false, grd := false, en1 := false, np := false, bounds := [.frame],
    ctl := [],
    sta := [fd 15 15 .ro 0 .l, fd 14 14 .ro 0 .l, fd 13 13 .ro 0 .l, fd 12 12 .ro 0 .l, fd 11 11 .ro 0 .l, fd 10 10 .ro 0 .l, fd 9 9 .ro 0 .l, fd 8 8 .ro 0 .l],
    ist := [fd 14 14 .w1c 0 .l, fd 13 13 .w1c 0 .l, fd 12 12 .w1c 0 .l, fd 11 11 .w1c 0 .l, fd 10 10 .w1c 0 .l, fd 9 9 .w1c 0 .l],
    regs := regsUA0 }

/-- Registers of page UA1 (R404, chapter 14). -/
def regsUA1 : List RegDesc := [
  -- FMT (R378): STOP2, PAR, D7
  rd 0x040 [fd 3 3 .rw 0x0 .s, fd 2 1 .rw 0x0 .s (.among [(0, 2)]), fd 0 0 .rw 0x0 .s],
  -- BAUD (R379): CSRC, OVS8, DIV, FRAC
  rd 0x044 [fd 31 31 .rw 0x0 .s, fd 30 30 .rw 0x0 .s, fd 23 8 .rw 0x36 .s (.among [(1, 65535)]), fd 5 0 .rw 0x10 .s],
  -- FLOW (R383): XOFFC, XONC, XRX, XTX, XOTMO
  rd 0x048 [fd 31 24 .rw 0x13 .s, fd 23 16 .rw 0x11 .s, fd 9 9 .rw 0x0 .s, fd 8 8 .rw 0x0 .s, fd 7 0 .rw 0x0 .s],
  -- TUN (R385): MODE, IDLE, TERM, TERMEN, ESC, CLID
  rd 0x04C [fd 28 28 .rw 0x0 .s, fd 27 24 .rw 0x2 .s (.among [(1, 15)]), fd 23 16 .rw 0xd .s, fd 9 9 .rw 0x0 .s, fd 8 8 .rw 0x0 .s, fd 7 0 .rw 0x0 (.b .frame)],
  -- MAXF (R387): N
  rd 0x050 [fd 11 0 .rw 0x400 .s (.among [(1, 4094)])],
  -- WM (R384): RXHI, RXLO
  rd 0x054 [fd 21 16 .rw 0x30 .s, fd 5 0 .rw 0x10 .s],
  -- DATA (R382): EMPTY, D
  rd 0x058 [fd 8 8 .ro 0x1 .l, fd 7 0 .rw 0x0 .l],
  -- LVL (R382): TXL, RXL
  rd 0x05C [fd 22 16 .ro 0x0 .l, fd 6 0 .ro 0x0 .l],
  -- CNT (R385): TXF, RXF
  rd 0x060 [fd 31 16 .ro 0x0 .l, fd 15 0 .ro 0x0 .l],
  -- ERRC (R380): BRK, OE, FE, PE
  rd 0x064 [fd 31 24 .ro 0x0 .l, fd 23 16 .ro 0x0 .l, fd 15 8 .ro 0x0 .l, fd 7 0 .ro 0x0 .l]]

/-- Page UA1. -/
def pageUA1 : PageDesc :=
  { base := 0x40060000, num := 0x18, bas := false, xpa := false, grd := false, en1 := false, np := false, bounds := [.frame],
    ctl := [],
    sta := [fd 15 15 .ro 0 .l, fd 14 14 .ro 0 .l, fd 13 13 .ro 0 .l, fd 12 12 .ro 0 .l, fd 11 11 .ro 0 .l, fd 10 10 .ro 0 .l, fd 9 9 .ro 0 .l, fd 8 8 .ro 0 .l],
    ist := [fd 14 14 .w1c 0 .l, fd 13 13 .w1c 0 .l, fd 12 12 .w1c 0 .l, fd 11 11 .w1c 0 .l, fd 10 10 .w1c 0 .l, fd 9 9 .w1c 0 .l],
    regs := regsUA1 }

/-- Registers of page MLK (R404, chapter 14). -/
def regsMLK : List RegDesc := [
  -- ADDR (R392): MODE, ROLE, A
  rd 0x040 [fd 9 9 .rw 0x0 .s, fd 8 8 .rw 0x0 .s, fd 7 0 .rw 0x1 .s],
  -- FMT (R378): STOP2, PAR, D7
  rd 0x044 [fd 3 3 .rw 0x0 .s, fd 2 1 .rw 0x0 .s (.among [(0, 2)]), fd 0 0 .rw 0x0 .s],
  -- BAUD (R390): OVS8, DIV, FRAC
  rd 0x048 [fd 30 30 .rw 0x1 .s, fd 23 8 .rw 0x1 .s (.among [(1, 65535)]), fd 5 0 .rw 0x0 .s],
  -- TIM (R392): TTA, RTO, RTRY, IGAP, TLEAD, TLAG
  rd 0x04C [fd 31 24 .rw 0x4 .s (.among [(2, 255)]), fd 23 16 .rw 0x14 .s (.among [(1, 255)]), fd 14 12 .rw 0x2 .s, fd 11 8 .rw 0x3 .s (.among [(2, 15)]), fd 7 4 .rw 0x1 .s, fd 3 0 .rw 0x1 .s],
  -- TUN (R385): CLID
  rd 0x050 [fd 7 0 .rw 0x0 (.b .frame)],
  -- DATA (R382): EMPTY, D
  rd 0x054 [fd 8 8 .ro 0x1 .l, fd 7 0 .rw 0x0 .l],
  -- CNT (R385): TXF, RXF
  rd 0x058 [fd 31 16 .ro 0x0 .l, fd 15 0 .ro 0x0 .l],
  -- ERRC (R380): NORSP, COLL, CRCE, FE
  rd 0x05C [fd 31 24 .ro 0x0 .l, fd 23 16 .ro 0x0 .l, fd 15 8 .ro 0x0 .l, fd 7 0 .ro 0x0 .l]]

/-- Page MLK. -/
def pageMLK : PageDesc :=
  { base := 0x50054000, num := 0x15, bas := false, xpa := false, grd := false, en1 := false, np := false, bounds := [.frame],
    ctl := [],
    sta := [fd 15 15 .ro 0 .l, fd 14 14 .ro 0 .l, fd 12 12 .ro 0 .l, fd 11 11 .ro 0 .l, fd 10 10 .ro 0 .l, fd 9 9 .ro 0 .l, fd 8 8 .ro 0 .l],
    ist := [fd 15 15 .w1c 0 .l, fd 14 14 .w1c 0 .l, fd 13 13 .w1c 0 .l, fd 12 12 .w1c 0 .l, fd 11 11 .w1c 0 .l, fd 10 10 .w1c 0 .l, fd 9 9 .w1c 0 .l, fd 8 8 .w1c 0 .l],
    regs := regsMLK }

/-- Registers of page SYN (R404, chapter 14). -/
def regsSYN : List RegDesc := [
  -- CFG (R397): LOSSH, HIN, HOUT, FOUT, RING, HEAD
  rd 0x040 [fd 7 7 .rw 0x0 .s, fd 6 6 .rw 0x0 .s, fd 5 5 .rw 0x0 .s, fd 4 4 .rw 0x0 .s, fd 1 1 .rw 0x0 .s, fd 0 0 .rw 0x0 .s],
  -- PER (R399): US
  rd 0x044 [fd 9 0 .rw 0x64 .s (.among [(10, 1000)])],
  -- TIM (R402): CDLY, MISS
  rd 0x048 [fd 23 16 .rw 0x0 .s, fd 3 0 .rw 0x3 .s (.among [(2, 15)])],
  -- USRO (R399): U
  rd 0x04C [fd 7 0 .rw 0x0 .l],
  -- RXW (R399): W
  rd 0x050 [fd 31 0 .ro 0x0 .l],
  -- POS (R399): VLD, P
  rd 0x054 [fd 8 8 .ro 0x0 .l, fd 4 0 .ro 0x0 .l],
  -- ERRC (R399): CRCE
  rd 0x058 [fd 15 0 .ro 0x0 .l]]

/-- Page SYN. -/
def pageSYN : PageDesc :=
  { base := 0x40064000, num := 0x19, bas := false, xpa := false, grd := false, en1 := false, np := false, bounds := [],
    ctl := [],
    sta := [fd 10 10 .ro 0 .l, fd 9 9 .ro 0 .l, fd 8 8 .ro 0 .l],
    ist := [fd 12 12 .w1c 0 .l, fd 11 11 .w1c 0 .l, fd 10 10 .w1c 0 .l, fd 9 9 .w1c 0 .l, fd 8 8 .w1c 0 .l],
    regs := regsSYN }

/-- Registers of page NVM (R429, chapter 15). -/
def regsNVM : List RegDesc := [
  -- CMD (R408): OP
  rd 0x040 [fd 1 0 .wo 0x0 .l (.among [(1, 3)])],
  -- GST (R408): CLID, MST, NPG, ST
  rd 0x044 [fd 31 24 .ro 0x0 .l, fd 23 16 .ro 0x0 .l, fd 14 8 .ro 0x0 .l, fd 2 0 .ro 0x0 .l],
  -- TPA (R409): P
  rd 0x048 [fd 14 0 .rw 0x0 .l],
  -- TWI (R409): I
  rd 0x04C [fd 3 0 .rw 0x0 .l],
  -- TDA (R409): D
  rd 0x050 [fd 31 0 .rw 0x0 .l],
  -- GSEQ (R415): N
  rd 0x054 [fd 31 0 .ro 0x0 .l],
  -- GTO (R408): MS
  rd 0x058 [fd 6 0 .rw 0x5 .l (.among [(1, 100)])],
  -- BP (R427): BPL, BP
  rd 0x05C [fd 8 8 .rwg 0x0 .l, fd 1 0 .rwg 0x0 .l],
  -- ECC (R407): CE, UE
  rd 0x060 [fd 31 16 .ro 0x0 .l, fd 15 0 .ro 0x0 .l],
  -- UEA (R407): A
  rd 0x064 [fd 31 0 .ro 0x0 .l],
  -- RCV (R415): OUT, NPG
  rd 0x068 [fd 17 16 .ro 0x0 .l, fd 6 0 .ro 0x0 .l],
  -- CFG (R419): CFMAX
  rd 0x06C [fd 7 0 .rw 0x8 .l (.among [(1, 255)])],
  -- SLB (R418): SPX, ELN, SP1, SP0, RST
  rds 0x080 8 0x4 1 [fd 31 31 .ro 0x0 .l, fd 29 24 .ro 0x3f .l, fd 21 16 .ro 0x3f .l, fd 13 8 .ro 0x3f .l, fd 1 0 .ro 0x0 .l],
  -- CFT (R419): CNT, W
  rds 0x0A0 16 0x4 1 [fd 31 24 .ro 0x0 .l, fd 18 0 .ro 0x0 .l]]

/-- Page NVM. -/
def pageNVM : PageDesc :=
  { base := 0x50040000, num := 0x10, bas := false, xpa := false, grd := true, en1 := true, np := false, bounds := [],
    ctl := [],
    sta := [fd 12 12 .ro 0 .l, fd 11 11 .ro 0 .l, fd 10 10 .ro 0 .l, fd 9 9 .ro 0 .l, fd 8 8 .ro 0 .l],
    ist := [fd 14 14 .w1c 0 .l, fd 13 13 .w1c 0 .l, fd 12 12 .w1c 0 .l, fd 11 11 .w1c 0 .l, fd 10 10 .w1c 0 .l, fd 9 9 .w1c 0 .l, fd 8 8 .w1c 0 .l],
    regs := regsNVM }

/-- Registers of page NVS (R429, chapter 15). -/
def regsNVS : List RegDesc := [
  -- SEL (R426): ID
  rd 0x040 [fd 7 0 .rw 0x0 .l],
  -- VAL (R422): V
  rd 0x044 [fd 31 0 .rw 0x0 .l],
  -- ADD (R426): D
  rd 0x048 [fd 31 0 .wo 0x0 .l],
  -- VST (R422): VALID, VH, HOST, IDX, SEQ
  rd 0x04C [fd 31 31 .ro 0x0 .l, fd 30 30 .ro 0x0 .l, fd 29 29 .ro 0x0 .l, fd 21 16 .ro 0x0 .l, fd 15 0 .ro 0x0 .l],
  -- DCFG (R424): EN, VH, HOST, NSLT, BASE
  rd 0x050 [fd 31 31 .rw 0x0 .s, fd 30 30 .rw 0x0 .s, fd 29 29 .rw 0x0 .s, fd 22 16 .rw 0x0 .s (.among [(4, 64)]), fd 13 0 .rw 0x0 .s (.among [(128, 16383)])],
  -- VHP (R425): S
  rd 0x054 [fd 15 0 .rw 0x258 .l],
  -- SAVE (R425): ALL
  rd 0x058 [fd 0 0 .wo 0x0 .l]]

/-- Page NVS. -/
def pageNVS : PageDesc :=
  { base := 0x50044000, num := 0x11, bas := false, xpa := false, grd := false, en1 := true, np := false, bounds := [],
    ctl := [],
    sta := [fd 9 9 .ro 0 .l, fd 8 8 .ro 0 .l],
    ist := [fd 10 10 .w1c 0 .l, fd 9 9 .w1c 0 .l, fd 8 8 .w1c 0 .l],
    regs := regsNVS }

/-- Registers of page ALM (R460, chapter 16). -/
def regsALM : List RegDesc := [
  -- FWV (R460): V
  rd 0x040 [fd 31 0 .ro 0x0 .l],
  -- DEVL (R446): D
  rd 0x044 [fd 31 0 .ro 0x0 .l],
  -- DEVH (R446): D
  rd 0x048 [fd 31 0 .ro 0x0 .l],
  -- MSVC (R431): SVC
  rd 0x050 [fd 7 0 .rw 0x0 .l],
  -- MLEN (R431): N
  rd 0x054 [fd 10 0 .rw 0x0 .l (.among [(0, 1024)])],
  -- MDB (R431): GO
  rd 0x058 [fd 0 0 .wo 0x0 .l],
  -- MRS (R431): BUSY, DONE, STATUS, RLEN
  rd 0x05C [fd 31 31 .ro 0x0 .l, fd 30 30 .ro 0x0 .l, fd 23 16 .ro 0x0 .l, fd 10 0 .ro 0x0 .l],
  -- MBUF (R431): D
  rds 0x100 256 0x4 1 [fd 31 0 .rw 0x0 .l]]

/-- Page ALM. -/
def pageALM : PageDesc :=
  { base := 0x50034000, num := 0x0D, bas := false, xpa := false, grd := false, en1 := true, np := false, bounds := [],
    ctl := [],
    sta := [fd 9 9 .ro 0 .l, fd 8 8 .ro 0 .l],
    ist := [fd 8 8 .w1c 0 .l],
    regs := regsALM }

/-- Registers of page SEN (R460, chapter 16). -/
def regsSEN : List RegDesc := [
  -- SCAN (R433): EN, RATE
  rd 0x040 [fd 22 16 .rw 0x7f .l, fd 9 0 .rw 0x64 .l (.among [(1, 1000)])],
  -- TCFG (R434): EN, POL
  rd 0x060 [fd 9 8 .rw 0x0 .l, fd 1 0 .rw 0x0 .l],
  -- TCNT (R434): C1, C0
  rd 0x064 [fd 15 8 .ro 0x0 .l, fd 7 0 .ro 0x0 .l],
  -- VAL (R433): VLD, V
  rds 0x080 7 0x4 1 [fd 31 31 .ro 0x0 .l, fd 15 0 .ro 0x0 .l]]

/-- Page SEN. -/
def pageSEN : PageDesc :=
  { base := 0x50038000, num := 0x0E, bas := false, xpa := false, grd := false, en1 := true, np := false, bounds := [],
    ctl := [],
    sta := [fd 9 8 .ro 0 .l],
    ist := [fd 8 8 .w1c 0 .l],
    regs := regsSEN }

/-- Registers of page LOG (R460, chapter 16). -/
def regsLOG : List RegDesc := [
  -- NSEQ (R439): N
  rd 0x040 [fd 31 0 .ro 0x1 .l],
  -- TAKE (R438): N
  rd 0x044 [fd 31 0 .ro 0x1 .l],
  -- CFG (R439): NREC, BMS
  rd 0x048 [fd 23 16 .rw 0x10 .l (.among [(1, 32)]), fd 9 0 .rw 0x64 .l (.among [(10, 1000)])],
  -- GAP (R438): N
  rd 0x04C [fd 15 0 .ro 0x0 .l],
  -- DROP (R439): N
  rd 0x050 [fd 15 0 .ro 0x0 .l]]

/-- Page LOG. -/
def pageLOG : PageDesc :=
  { base := 0x5003C000, num := 0x0F, bas := false, xpa := false, grd := false, en1 := true, np := false, bounds := [],
    ctl := [],
    sta := [fd 8 8 .ro 0 .l],
    ist := [fd 9 9 .w1c 0 .l, fd 8 8 .w1c 0 .l],
    regs := regsLOG }

/-- Registers of page MSR (R460, chapter 16). -/
def regsMSR : List RegDesc := [
  -- MS (R443): D
  rds 0x040 48 0x4 1 [fd 31 0 .ro 0x0 .l],
  -- LOADC (R444): N
  rd 0x100 [fd 31 0 .ro 0x0 .l],
  -- FLG (R445): NLOG, LFULL, HOSTC
  rd 0x104 [fd 14 8 .ro 0x0 .l, fd 1 1 .ro 0x0 .l, fd 0 0 .ro 0x0 .l]]

/-- Page MSR. -/
def pageMSR : PageDesc :=
  { base := 0x50048000, num := 0x12, bas := false, xpa := false, grd := false, en1 := true, np := true, bounds := [],
    ctl := [],
    sta := [],
    ist := [],
    regs := regsMSR }

/-- Registers of page UPD (R460, chapter 16). -/
def regsUPD : List RegDesc := [
  -- CMD (R451): KIND, OP
  rd 0x040 [fd 9 8 .wo 0x0 .l, fd 3 0 .wo 0x0 .l (.among [(1, 6)])],
  -- LEN (R451): N
  rd 0x044 [fd 17 0 .rw 0x0 .l],
  -- DOFS (R451): N
  rd 0x048 [fd 17 0 .ro 0x0 .l],
  -- STA (R451): ERR, ENGOK, FWOK, ST
  rd 0x04C [fd 23 16 .ro 0x0 .l, fd 9 9 .ro 0x0 .l, fd 8 8 .ro 0x0 .l, fd 2 0 .ro 0x0 .l],
  -- SLOT (R452): TRIAL, ARMSLOT, ARMED, ACTIVE
  rd 0x050 [fd 3 3 .ro 0x0 .l, fd 2 2 .ro 0x0 .l, fd 1 1 .ro 0x0 .l, fd 0 0 .ro 0x0 .l],
  -- ARM (R452): EN, SLOT
  rd 0x054 [fd 8 8 .rwg 0x0 .l, fd 0 0 .rwg 0x0 .l],
  -- RBK (R452): N
  rd 0x058 [fd 31 0 .ro 0x0 .l],
  -- DWIN (R451): D
  rds 0x200 256 0x4 1 [fd 31 0 .rw 0x0 .l]]

/-- Page UPD. -/
def pageUPD : PageDesc :=
  { base := 0x5004C000, num := 0x13, bas := false, xpa := false, grd := true, en1 := true, np := true, bounds := [],
    ctl := [],
    sta := [fd 8 8 .ro 0 .l],
    ist := [fd 9 9 .w1c 0 .l, fd 8 8 .w1c 0 .l],
    regs := regsUPD }

/-- Registers of page NIM (R460, chapter 16). -/
def regsNIM : List RegDesc := [
  -- CFG (R454): FWI, MFR
  rd 0x040 [fd 23 20 .rw 0x8 .s (.among [(4, 10)]), fd 15 8 .rw 0x0 .s],
  -- UIDL (R454): U
  rd 0x044 [fd 31 0 .ro 0x0 .l],
  -- UIDH (R454): U
  rd 0x048 [fd 31 0 .ro 0x0 .l],
  -- ST (R460): S
  rd 0x04C [fd 2 0 .ro 0x0 .l],
  -- LSEQ (R457): S
  rd 0x050 [fd 15 0 .ro 0x0 .l],
  -- CNT (R460): WEN, APDU
  rd 0x054 [fd 31 16 .ro 0x0 .l, fd 15 0 .ro 0x0 .l]]

/-- Page NIM. -/
def pageNIM : PageDesc :=
  { base := 0x50050000, num := 0x14, bas := false, xpa := false, grd := false, en1 := false, np := false, bounds := [],
    ctl := [],
    sta := [fd 9 9 .ro 0 .l, fd 8 8 .ro 0 .l],
    ist := [fd 9 9 .w1c 0 .l, fd 8 8 .w1c 0 .l],
    regs := regsNIM }

/-- Registers of page TMP (R460, chapter 16). -/
def regsTMP : List RegDesc := [
  -- T (R435): VLD, T
  rds 0x040 4 0x4 1 [fd 31 31 .ro 0x0 .l, fd 11 0 .ro 0x0 .l],
  -- PKG (R435): T
  rd 0x050 [fd 11 0 .ro 0x0 .l],
  -- TWRN (R436): T
  rd 0x054 [fd 11 0 .rw 0x41a .l (.among [(700, 1200)])]]

/-- Page TMP. -/
def pageTMP : PageDesc :=
  { base := 0x50058000, num := 0x16, bas := false, xpa := false, grd := false, en1 := true, np := false, bounds := [],
    ctl := [],
    sta := [fd 10 10 .ro 0 .l, fd 9 9 .ro 0 .l, fd 8 8 .ro 0 .l],
    ist := [fd 9 9 .w1c 0 .l, fd 8 8 .w1c 0 .l],
    regs := regsTMP }

/-- Registers of page RET (R486, chapter 17). -/
def regsRET : List RegDesc := [
  -- REQ (R486): LVL
  rd 0x040 [fd 7 0 .rwg 0x1 .l (.among [(4, 4), (8, 8), (32, 32)])],
  -- CFG (R486): EDLY, AREL, AIDL
  rd 0x044 [fd 23 16 .rw 0x2 .l (.among [(1, 255)]), fd 9 9 .rw 0x0 .l, fd 8 8 .rw 0x1 .l],
  -- WSRC (R479): EN
  rd 0x048 [fd 8 0 .rw 0x1ff .l],
  -- WCAU (R479): C
  rd 0x04C [fd 8 0 .ro 0x0 .l],
  -- LVL (R472): PREV, CUR
  rd 0x050 [fd 15 8 .ro 0x1 .l, fd 7 0 .ro 0x1 .l],
  -- SAV (R481): CRC, N
  rd 0x054 [fd 31 16 .ro 0x0 .l, fd 15 0 .ro 0x0 .l]]

/-- Page RET. -/
def pageRET : PageDesc :=
  { base := 0x5000C000, num := 0x03, bas := false, xpa := false, grd := true, en1 := true, np := true, bounds := [],
    ctl := [],
    sta := [fd 10 10 .ro 0 .l, fd 9 9 .ro 0 .l, fd 8 8 .ro 0 .l],
    ist := [fd 10 10 .w1c 0 .l, fd 9 9 .w1c 0 .l, fd 8 8 .w1c 0 .l],
    regs := regsRET }

/-- Registers of page PPD (R486, chapter 17). -/
def regsPPD : List RegDesc := [
  -- REL (R483): REL
  rd 0x040 [fd 0 0 .rwg 0x0 .l] (zeroRead := true),
  -- SLW0 (R555): S
  rd 0x060 [fd 3 0 .rw 0x0 .s],
  -- SLW1 (R555): 
  rd 0x064 [],
  -- SLW2 (R555): 
  rd 0x068 [],
  -- SLW3 (R555): 
  rd 0x06C []]

/-- Page PPD. -/
def pagePPD : PageDesc :=
  { base := 0x50010000, num := 0x04, bas := false, xpa := false, grd := true, en1 := true, np := false, bounds := [],
    ctl := [],
    sta := [fd 8 8 .ro 0 .l],
    ist := [],
    regs := regsPPD }

/-- Registers of page HRV (R486, chapter 17). -/
def regsHRV : List RegDesc := [
  -- THT (R486): RUN, XMT, NVW, SNS
  rd 0x040 [fd 31 24 .rw 0x0 .l (.signed (-15) (15)), fd 23 16 .rw 0x0 .l (.signed (-15) (15)), fd 15 8 .rw 0x0 .l (.signed (-15) (15)), fd 7 0 .rw 0x0 .l (.signed (-15) (15))],
  -- MPPT (R463): EN, PER, K
  rd 0x044 [fd 16 16 .rw 0x1 .l, fd 15 8 .rw 0x10 .l (.among [(1, 255)]), fd 6 0 .rw 0x4e .l (.among [(50, 95)])],
  -- LDK (R466): S
  rd 0x048 [fd 16 0 .rw 0x384 .l (.among [(10, 86400)])],
  -- VMAX (R462): V
  rd 0x04C [fd 9 0 .rw 0x208 .l (.among [(400, 540)])],
  -- CSTO (R486): UF
  rd 0x050 [fd 13 0 .rw 0x1d6 .l (.among [(470, 10000)])],
  -- ITX (R486): I
  rd 0x054 [fd 7 0 .rw 0x0 .l],
  -- VOC (R463): VMPP, VOC
  rd 0x058 [fd 31 16 .ro 0x0 .l, fd 15 0 .ro 0x0 .l],
  -- DKT (R466): S
  rd 0x05C [fd 16 0 .ro 0x0 .l],
  -- VSC (R462): CHG
  rd 0x060 [fd 0 0 .rw 0x1 .l]]

/-- Page HRV. -/
def pageHRV : PageDesc :=
  { base := 0x5002C000, num := 0x0B, bas := false, xpa := false, grd := false, en1 := true, np := false, bounds := [],
    ctl := [],
    sta := [fd 17 16 .ro 0 .l, fd 15 12 .ro 0 .l, fd 10 10 .ro 0 .l, fd 9 9 .ro 0 .l, fd 8 8 .ro 0 .l],
    ist := [fd 12 12 .w1c 0 .l, fd 11 11 .w1c 0 .l, fd 10 10 .w1c 0 .l, fd 9 9 .w1c 0 .l, fd 8 8 .w1c 0 .l],
    regs := regsHRV }

/-- Registers of page RTC (R486, chapter 17). -/
def regsRTC : List RegDesc := [
  -- SEC (R484): S
  rd 0x040 [fd 31 0 .rw 0x0 .l],
  -- SUB (R484): T
  rd 0x044 [fd 14 0 .ro 0x0 .l],
  -- ALRM (R484): S
  rd 0x048 [fd 31 0 .rw 0xffffffff .l],
  -- TRIM (R484): P
  rd 0x04C [fd 15 0 .rw 0x0 .l (.signed (-2000) (2000))]]

/-- Page RTC. -/
def pageRTC : PageDesc :=
  { base := 0x50030000, num := 0x0C, bas := false, xpa := false, grd := false, en1 := true, np := false, bounds := [],
    ctl := [],
    sta := [fd 9 9 .ro 0 .l, fd 8 8 .ro 0 .l],
    ist := [fd 8 8 .w1c 0 .l],
    regs := regsRTC }

/-- Registers of page CLK (R503, chapter 18). -/
def regsCLK : List RegDesc := [
  -- SSC (R492): DEPTH
  rd 0x040 [fd 1 0 .rw 0x2 .l],
  -- GATE (R503): AGT
  rd 0x044 [fd 0 0 .rw 0x1 .l],
  -- CKO (R503): DIV, SRC
  rd 0x048 [fd 15 8 .rw 0x0 .s, fd 1 0 .rw 0x0 .s],
  -- TICK (R493): MEAN
  rd 0x04C [fd 0 0 .rw 0x1 .s],
  -- LKA (R490): AUTO
  rd 0x050 [fd 0 0 .rw 0x1 .l],
  -- FMW (R491): N, WIN
  rd 0x054 [fd 15 8 .rw 0x2 .l (.among [(1, 15)]), fd 7 0 .rw 0x64 .l (.among [(10, 255)])],
  -- FM (R491): LIM
  rds 0x058 7 0x4 1 [fd 15 0 .rw 0x32 .l (.among [(1, 2000)])],
  -- FM7 (R491): LIM
  rd 0x074 [fd 15 0 .rw 0x1f4 .l (.among [(1, 2000)])],
  -- FM8 (R491): LIM
  rd 0x078 [fd 15 0 .rw 0x12c .l (.among [(1, 2000)])],
  -- FM9 (R491): LIM
  rd 0x07C [fd 15 0 .rw 0x258 .l (.among [(1, 2000)])]]

/-- Page CLK. -/
def pageCLK : PageDesc :=
  { base := 0x40004000, num := 0x01, bas := false, xpa := false, grd := false, en1 := true, np := false, bounds := [],
    ctl := [],
    sta := [fd 12 12 .ro 0 .l, fd 11 10 .ro 0 .l, fd 9 9 .ro 0 .l, fd 8 8 .ro 0 .l],
    ist := [fd 11 11 .w1c 0 .l, fd 10 10 .w1c 0 .l, fd 9 9 .w1c 0 .l, fd 8 8 .w1c 0 .l],
    regs := regsCLK }

/-- Registers of page PAD (R503, chapter 18). -/
def regsPAD : List RegDesc := [
  -- SLW (R503): S
  rds 0x040 2 0x4 1 [fd 31 0 .rw 0x0 .l],
  -- SLW2 (R554): S
  rd 0x048 [fd 21 0 .rw 0x0 .l],
  -- SLW3 (R554): 
  rd 0x04C [],
  -- PUL0 (R552): P
  rd 0x050 [fd 31 0 .rw 0x55555555 .l],
  -- PUL1 (R552): P
  rd 0x054 [fd 31 0 .rw 0x65aaa1aa .l],
  -- PUL2 (R552): P
  rd 0x058 [fd 21 0 .rw 0x8a6ff .l],
  -- PUL3 (R554): 
  rd 0x05C [],
  -- DRV (R503): D
  rds 0x060 2 0x4 1 [fd 31 0 .rw 0x55555555 .l],
  -- DRV2 (R554): D
  rd 0x068 [fd 21 0 .rw 0x155555 .l],
  -- DRV3 (R554): 
  rd 0x06C [],
  -- GFL (R498): F
  rds 0x070 5 0x4 1 [fd 31 0 .rw 0x33333333 .l],
  -- GFL5 (R554): F
  rd 0x084 [fd 11 0 .rw 0x333 .l],
  -- GFL6 (R554): 
  rd 0x088 [],
  -- GFL7 (R554): 
  rd 0x08C [],
  -- ATO (R499): PAD, UNIT, CNT
  rds 0x090 16 0x4 1 [fd 29 24 .rw 0x0 .l (.among [(0, 15)]), fd 23 22 .rw 0x0 .l (.among [(0, 2)]), fd 15 0 .rw 0x0 .l (.among [(1, 65535)])],
  -- INE0 (R503): E
  rd 0x0D0 [fd 31 0 .rw 0xffffffff .l],
  -- INE1 (R554): E
  rd 0x0D4 [fd 10 0 .rw 0x7ff .l],
  -- ATEN (R499): E
  rd 0x0D8 [fd 15 0 .rw 0x0 .l],
  -- ATACT (R499): A
  rd 0x0DC [fd 31 0 .rw 0x0 .l],
  -- ATS (R499): X
  rd 0x0E0 [fd 15 0 .ro 0x0 .l]]

/-- Page PAD. -/
def pagePAD : PageDesc :=
  { base := 0x40008000, num := 0x02, bas := false, xpa := false, grd := false, en1 := true, np := false, bounds := [],
    ctl := [],
    sta := [],
    ist := [fd 23 8 .w1c 0 .l],
    regs := regsPAD }

/-- Registers of page GPI (R503, chapter 18). -/
def regsGPI : List RegDesc := [
  -- PCFG (R500): OD, INV, LINE, FUN
  rds 0x040 16 0x4 1 [fd 13 13 .rw 0x0 .s, fd 12 12 .rw 0x0 .s, fd 11 8 .rw 0x0 .s, fd 3 0 .rw 0x0 .s],
  -- RSEL (R501): EDGE, SRC
  rds 0x080 4 0x4 1 [fd 9 8 .rw 0x0 .s, fd 7 0 .rw 0x0 .s],
  -- ROSRC (R501): PW, SRC
  rds 0x090 16 0x4 1 [fd 15 8 .rw 0x0 .s, fd 7 0 .rw 0x0 .s],
  -- DOUT (R500): D
  rd 0x0D0 [fd 15 0 .rw 0x0 .l],
  -- DIN (R500): D
  rd 0x0E0 [fd 15 0 .ro 0x0 .l],
  -- ROUT (R501): O
  rd 0x0E4 [fd 15 0 .ro 0x0 .l]]

/-- Page GPI. -/
def pageGPI : PageDesc :=
  { base := 0x40068000, num := 0x1A, bas := false, xpa := false, grd := false, en1 := false, np := false, bounds := [],
    ctl := [],
    sta := [],
    ist := [],
    regs := regsGPI }

/-- Registers of page FLT (R528, chapter 19). -/
def regsFLT : List RegDesc := [
  -- CUR (R510): CODE, CLS, UNIT
  rd 0x040 [fd 31 16 .ro 0x0 .l, fd 10 8 .ro 0x0 .l, fd 7 0 .ro 0x0 .l],
  -- CURS (R510): LSEQ
  rd 0x044 [fd 31 0 .ro 0x0 .l],
  -- CITM (R510): ITEM
  rd 0x048 [fd 31 0 .ro 0x0 .l],
  -- DONE (R511): LSEQ
  rd 0x04C [fd 31 0 .wo 0x0 .l],
  -- QST (R510): DEPTH, HWM
  rd 0x050 [fd 20 16 .ro 0x0 .l, fd 12 8 .ro 0x0 .l],
  -- CNT1 (R528): ENG, ITM, WRN, NOT
  rd 0x054 [fd 31 24 .ro 0x0 .l, fd 23 16 .ro 0x0 .l, fd 15 8 .ro 0x0 .l, fd 7 0 .ro 0x0 .l],
  -- CNT2 (R528): STRM, QDROP, SAF
  rd 0x058 [fd 23 16 .ro 0x0 .l, fd 15 8 .ro 0x0 .l, fd 7 0 .ro 0x0 .l],
  -- SSTO (R528): US
  rd 0x05C [fd 12 0 .rwg 0xc8 .l (.among [(50, 5000)])],
  -- LAT (R528): T
  rd 0x060 [fd 15 0 .ro 0x0 .l],
  -- INJ (R528): UNIT, CODE
  rd 0x064 [fd 23 16 .wo 0x0 .l, fd 15 0 .wo 0x0 .l]]

/-- Page FLT. -/
def pageFLT : PageDesc :=
  { base := 0x40058000, num := 0x16, bas := false, xpa := false, grd := true, en1 := true, np := false, bounds := [],
    ctl := [],
    sta := [fd 10 10 .ro 0 .l, fd 9 9 .ro 0 .l, fd 8 8 .ro 0 .l],
    ist := [fd 11 11 .w1c 0 .l, fd 10 10 .w1c 0 .l, fd 9 9 .w1c 0 .l, fd 8 8 .w1c 0 .l],
    regs := regsFLT }

/-- Registers of page ILK (R529, chapter 19). -/
def regsILK : List RegDesc := [
  -- CFG (R527): DSC, POL
  rd 0x040 [fd 25 16 .rwg 0x32 .l (.among [(10, 1000)]), fd 1 0 .rwg 0x3 .l],
  -- IN (R529): FILT, RAW
  rd 0x044 [fd 9 8 .ro 0x0 .l, fd 1 0 .ro 0x0 .l],
  -- LLC (R517): C
  rd 0x048 [fd 12 0 .ro 0x0 .l],
  -- LLA (R517): A
  rd 0x04C [fd 12 0 .ro 0x0 .l],
  -- LLR (R519): REL
  rd 0x050 [fd 0 0 .rwg 0x0 .l] (zeroRead := true),
  -- FRC (R529): FORCE
  rd 0x054 [fd 0 0 .rwg 0x0 .l],
  -- TCNT (R529): N
  rd 0x058 [fd 15 0 .ro 0x0 .l]]

/-- Page ILK. -/
def pageILK : PageDesc :=
  { base := 0x50018000, num := 0x06, bas := false, xpa := false, grd := true, en1 := true, np := true, bounds := [],
    ctl := [],
    sta := [fd 11 11 .ro 0 .l, fd 10 10 .ro 0 .l, fd 9 8 .ro 0 .l],
    ist := [fd 10 10 .w1c 0 .l, fd 9 9 .w1c 0 .l, fd 8 8 .w1c 0 .l],
    regs := regsILK }

/-- Registers of page DBG (R550, chapter 20). -/
def regsDBG : List RegDesc := [
  -- RST (R530): CAUSE
  rd 0x040 [fd 7 0 .ro 0x0 .l],
  -- PSE (R534): LBAD, NOCAL, FIDX, FST, NREF
  rd 0x044 [fd 31 31 .ro 0x0 .l, fd 30 30 .ro 0x0 .l, fd 28 16 .ro 0x1fff .l, fd 15 8 .ro 0x0 .l, fd 7 0 .ro 0x0 .l],
  -- PKT (R538): TRD, TPK
  rd 0x048 [fd 31 16 .ro 0x0 .l, fd 15 0 .ro 0x0 .l],
  -- PKR (R538): MAX, MIN
  rd 0x04C [fd 31 16 .ro 0x0 .l, fd 15 0 .ro 0xffff .l],
  -- CMD (R538): PKCLR
  rd 0x050 [fd 0 0 .wo 0x0 .l],
  -- ULK (R545): EN
  rd 0x054 [fd 0 0 .rwg 0x0 .l],
  -- SRST (R548): GO
  rd 0x058 [fd 0 0 .rwg 0x0 .l] (zeroRead := true),
  -- IDC (R542): VER, PART, MFR, ONE
  rd 0x05C [fd 31 28 .ro 0x0 .l, fd 27 12 .ro 0x2440 .l, fd 11 1 .ro 0x0 .l, fd 0 0 .ro 0x1 .l]]

/-- Page DBG. -/
def pageDBG : PageDesc :=
  { base := 0x4006C000, num := 0x1B, bas := false, xpa := false, grd := true, en1 := true, np := false, bounds := [],
    ctl := [],
    sta := [fd 10 10 .ro 0 .l, fd 9 9 .ro 0 .l, fd 8 8 .ro 0 .l],
    ist := [fd 9 9 .w1c 0 .l, fd 8 8 .w1c 0 .l],
    regs := regsDBG }

/-- The L-die pages (R52). -/
def lPages : List PageDesc := [pageSYS, pageCLK, pagePAD, pageBRG, pageCLI, pageDBR, pageCST, pageRNG, pageORR, pageORC, pageMER, pageIMG, pageCAL, pageHEL, pageHLP, pageHTB, pageMOT, pageENC, pageSNS, pageMRK, pageDOC, pageLGR, pageFLT, pageUA0, pageUA1, pageSYN, pageGPI, pageDBG]

/-- The P-die pages (R53). -/
def pPages : List PageDesc := [pagePSY, pagePWR, pageRES, pageRET, pagePPD, pageLDR, pageILK, pageHVD, pageFUS, pageMDR, pageSOL, pageHRV, pageRTC, pageALM, pageSEN, pageLOG, pageNVM, pageNVS, pageMSR, pageUPD, pageNIM, pageMLK, pageTMP]

end Sys2Proof.Machine
end

