-- ==== Sys2Proof/Machine/State.lean ====
section
/-!
DEFINITION. The state of the SV-2440 as plain data. Registers stand in `regs` (one sparse map of words, see
RegTable.lean for what each register is and resets to); every piece of state that the manual gives the machine and that
is no register stands in a structure of its own below, with the rule that names it. `pending` is the queue of commands
that are waiting, first in, first out.
-/
namespace Sys2Proof.Machine

/-- Faults of a step. There is none: every failure the manual describes is an effect on the state (a status code, an error
register, a fault entry in the fault manager's queue), so no command ends a run. -/
inductive Fault
  deriving DecidableEq, Repr

/-- Refusals of a step. -/
inductive Refusal
  /-- The command has no meaning in this model yet. Raised by the arms of Dispatch.lean only. Safe: the run stops. -/
  | notModelled (mnemonic : String)
  deriving DecidableEq, Repr

/-! ### Register pages (chapter 2) -/

/-- An armed guard latch (R63): page base, register offset, value, arming master. One per page at most, and for a P-die page one
more in the L-side endpoint of the die bridge (`far`), which judges the pairs of L-die masters (R67). -/
structure GuardLatch where
  page : Nat
  off : Nat
  value : Word
  master : Master
  far : Bool := false
  deriving DecidableEq, Repr

/-- A pending shadow of a class-B field (R71), with the master whose write last filled it (R59). -/
structure Shadow where
  page : Nat
  addr : Nat
  lo : Nat
  w : Nat
  value : Nat
  bnd : Nat
  master : Master
  deriving DecidableEq, Repr

/-- A write that waits behind STA.ENA = 1 (R68, R87): raw page offset as written and value. `judged` marks the class-S write itself,
which has passed checks 1–5; a write that has arrived behind it is judged when its turn comes. `asked`: a host request waits for its status. -/
structure HeldWrite where
  page : Nat
  addr : Nat
  value : Word
  master : Master
  judged : Bool := true
  asked : Bool := false
  deriving DecidableEq, Repr

/-! ### Dies, domains, die bridge (chapter 1) -/

/-- A fault report (R507, R508). `cnt` is the count of coalesced repetitions its record carries. -/
structure Report where
  code : Nat
  cls : Nat
  unit : Nat
  sub : Nat
  val : Nat
  item : Nat
  cnt : Nat := 0
  mst : Nat := 0
  clid : Nat := 0
  deriving DecidableEq, Repr

/-- A write waiting in a master's 16-entry queue to the P-die (R31). `pair` marks a guarded pair, which crosses as one REG
transaction with the value to commit (R67). Writes beyond a master's 16th are those with which the master stalls. -/
structure PostedWrite where
  master : Master
  addr : Nat
  value : Word
  pair : Bool := false
  deriving DecidableEq, Repr

/-- A read of a P-die register that holds its master's port (R29). `dst` 0: its data goes to what waits for it there; 1: it was commanded by a row
of its own, and its data and status are shown only, with what a window read finds in the cells. -/
structure HeldRead where
  master : Master
  addr : Nat
  dst : Nat
  found : CellFault := .none
  deriving DecidableEq, Repr

/-- Actuator commands of an L-to-P RT frame (R28): per actuator code (R246, from 0 on) the commanded mode and output, and
the hold or run currents of axes A and B in 10 mA (R256, R267), the commanded solenoid switches and the sensor snapshots (R315). -/
structure DownFrame where
  modes : List Nat
  outs : List Word
  holds : List Nat
  sols : Nat
  snaps : Nat
  deriving DecidableEq, Repr

/-- Driver and sensor readings of a P-to-L RT frame (R28, R33, R126, R515): the readings, the drivers still energised
(laser, HV, heater, solenoid masks), the driver modes confirmed, PFAIL and an L-to-P loss report; the polygon's start state, SOL.SON, FUS.STA.CUT and NVM.STA.BUSY (R302); TH0 as converted with its state, and the
laser monitor samples with how many each has delivered (R247, R249). -/
structure UpFrame where
  meas : Readings
  th0 : Nat
  th0St : Nat
  mon : List Nat
  monN : List Nat
  on : Nat
  modes : List Nat
  pfail : Bool
  lossLP : Bool
  causes : Nat
  pst : Nat
  son : Nat
  cut : Bool
  nvBusy : Bool
  reports : List Report
  deriving DecidableEq, Repr

/-- The dies, their power domains (R22), the sideband lines (R34) and the die bridge (R28–R33, R570). -/
structure Fabric where
  pst : Bool
  aon : Bool
  fnv : Bool
  lco : Bool
  lio : Bool
  dst : Bool
  ldEn : Bool
  hvEn : Bool
  htrEn : Bool
  mtrEn : Bool
  wantLd : Bool
  wantHv : Bool
  wantHtr : Bool
  wantMtr : Bool
  llLine : Bool
  badLP : Nat
  badPL : Nat
  lossLP : Bool
  lossPL : Bool
  retraining : Bool
  standby : Bool
  downFlight : Option DownFrame
  upFlight : Option UpFrame
  down : DownFrame
  up : UpFrame
  posted : List PostedWrite
  reads : List HeldRead
  rdata : Word
  rstat : Status
  deriving DecidableEq, Repr

/-! ### Document engine (chapter 3) -/

/-- How an item ends: outcome (R116 OUT), reason (R107), status byte. -/
structure Ending where
  out : Nat
  reason : Nat
  status : Status
  deriving DecidableEq, Repr

/-- An item (R94–R97, R99, R113, R116): what START declared, its phase, and what its report will carry. -/
structure Item where
  id : Nat
  client : Byte
  flags : Nat
  prof : Nat
  href : Nat
  len : Nat
  hgt : Nat
  await : Nat
  slots : Nat
  sfmt : Nat
  bands : Nat
  mjob : Nat
  phase : Nat
  page : Nat
  tacc : Nat
  tadm : Nat
  refusal : Status
  reason : Option Nat
  fseq : Nat
  ending : Option Ending
  waitStop : Bool
  closing : Bool
  decided : Bool
  qual : Bool
  marked : Bool
  pmark : Bool
  strand : Bool
  rcv : Bool
  linF : Nat
  linR : Nat
  bndm : Nat
  mlen : Nat
  deriving DecidableEq, Repr

/-- What waits on a journal record commit (R111). -/
inductive CommitKind
  | open_ (h : Hdr)      -- OPEN/QUEUED before the START response
  | admission (t0 : Nat)    -- OPEN/ADMITTED before any actuator acts
  | phase (ph : Nat)     -- OPEN with a new phase, not waited for
  | close                -- CLOSED before the report
  | free (h : Hdr) (pages : List Nat)  -- records freed before the REPACK response
  deriving DecidableEq, Repr

/-- A journal record commit under way (R569). -/
structure Commit where
  kind : CommitKind
  item : Nat
  deriving DecidableEq, Repr

/-- The refusals of one client inside the 100 ms of R103 that its next log entry will count. -/
structure RefusalCount where
  client : Byte
  count : Nat
  at_ : Nat
  deriving DecidableEq, Repr

/-- A closing record held in always-on SRAM (R112): its item and the 64 bytes to commit. -/
structure HeldRec where
  item : Item
  bytes : List Byte
  deriving DecidableEq, Repr

/-- A START with AWAIT = 0 whose response waits for its single admission test (R104, R110). -/
structure Single where
  item : Nat
  hdr : Hdr
  deriving DecidableEq, Repr

/-- The document engine beyond the DOC page. `cand` are items a START has asked the journal for (R111), `held` closing records held
in always-on SRAM (R112), `ready` reports of decided outcomes that wait to be issued, in order (R118), `drainToOff` an OFF, EXIT or CLEAR
that waits until no item is open (R91, R120), `rcvs` the journal pages whose reports this start has issued (R114). -/
structure DocEngine where
  items : List Item
  cand : List Item
  commits : List Commit
  held : List HeldRec
  ready : List (Nat × List Byte)
  singles : List Single
  jseq : Nat
  drainToOff : Bool
  heatBand : Bool
  refused : List RefusalCount
  rcvs : List Nat
  deriving DecidableEq, Repr

/-! ### Supply, reserve, ledger (chapter 4) -/

/-- One power segment that an admitted item reserves (R136): from bin `lo` up to bin `hi`, in 0.25 W. -/
structure Seg where
  item : Nat
  lo : Nat
  hi : Nat
  w : Nat
  deriving DecidableEq, Repr

/-- One path-zone window that an admitted item reserves (R140), in bins. -/
structure ZoneWin where
  item : Nat
  zone : Nat
  lo : Nat
  hi : Nat
  deriving DecidableEq, Repr

/-- The bins in which an admitted MARK item is in the fuser nip, and its thermal load (R138). -/
structure NipWin where
  item : Nat
  mark : Bool
  lo : Nat
  hi : Nat
  media : Nat
  deriving DecidableEq, Repr

/-- Supply, hold-up reserve and Energy Ledger beyond their pages (R124–R145). `vinHist` lists VIN mirror values of the last 1 s
(time in ms, mV), `failRail` and `failMv` the last rail fault's rail and level, `decideDue` a decision point that waits for the journal writer (R142), `heaterCap` the duty in 0.1 % to which the limiter holds the heater
(R127). -/
structure Power where
  pfail : Bool
  safeStop : Bool
  vinReturn : Bool
  buckOn : Bool
  railsFailed : Bool
  failRail : Nat
  failMv : Nat
  chargerPaused : Bool
  heaterCap : Nat
  resSwitch : Bool
  resBleed : Bool
  bootFails : Nat
  passed : Bool
  vinHist : List (Nat × Nat)
  decideDue : Bool
  segs : List Seg
  zones : List ZoneWin
  nips : List NipWin
  deriving DecidableEq, Repr

/-! ### Meridian (chapter 5) -/

/-- A station sequencer (R159–R163): gate armed, sweep in progress, the flags its line will carry, the time of its pixel
0 in 2^-16 units of 625 ps (R154), and whether GCLR has stopped the emission of the sweep in progress (R312). -/
structure Station where
  armed : Bool
  sweeping : Bool
  fly : Bool
  inval : Bool
  nofc : Bool
  e0 : Int
  dark : Bool := false
  armNext : Bool := false
  deriving DecidableEq, Repr

/-- The edges of a slot in units of 625 ps: ADC strobe, source off, and source on with the line that carries it: 0 MOD0, 1 MOD1, 2 GP0; a DARK
slot lights no source (R165). -/
structure SlotEdges where
  slot : Nat
  source : Option (Nat × Int × Int)
  strobe : Int
  deriving DecidableEq, Repr

/-- The facet tracker, the stations and the modulation lines (R147–R163, R573). Times are in 625 ps units. `meas`: a period
has been measured, so that FPM.P predicts (R148); `zeroNext`: the next accepted facet is numbered 0 (R150). While a sweep runs `mod0` to `gp0` show
whether the line carries pulses of it, and `edges` holds those of pixel 0 of the read sweep that began last (R165, R166). The timebase of R156
and R157: the true time of the last stamp, what the accumulator has gained on true time by then in 2^-16 units, and the filter's spread. -/
structure Meridian where
  tracking : Bool
  pBd : Nat
  windowOpen : Bool
  accepted : Bool
  bdLaser : Bool
  inTol : Nat
  outTol : Nat
  meas : Bool
  zeroNext : Bool
  pixPending : Bool
  noPix : Nat
  s0 : Station
  s1 : Station
  s2 : Station
  mod0 : Bool
  mod1 : Bool
  mod2 : Bool
  gp0 : Bool
  edges : List SlotEdges
  tbAt : Nat
  tbOff : Int
  tbLag : Rat
  deriving DecidableEq, Repr

/-! ### Imaging path (chapter 6) -/

/-- A line that has become pending (R181): its index, the time at which it did, in 625 ps units, and the indices dropped just before it. -/
structure Pend where
  idx : Nat
  t : Nat
  gap : Nat := 0
  deriving DecidableEq, Repr

/-- The line that a trigger has fired for the facet in hand (R181, R189). -/
structure Fired where
  idx : Nat
  pos : Nat
  lcnt : Nat
  facet : Nat
  ovs : Nat
  gapn : Nat
  rvs : Bool
  qual : Bool
  last : Bool
  open_ : Bool
  deriving DecidableEq, Repr

/-- A read trigger Tn (R180–R185): the item it is armed for, the parameters latched at arming, the next line index, its
pending lines, the line that has fired, indices dropped since the last record, RVS for the next one, the position of the
last line fired, the last index of the window once it is known, and what its trailer will carry.
`stop` holds the REASON of a trailer that waits for the sweep in progress (R185), `lost` the indices that have been dropped while older
lines were pending, which BACK does not bring back (R181, R182). -/
structure Trigger where
  item : Nat
  p0 : Int
  pitch : Nat
  lofs : Int
  hys : Nat
  rvmx : Nat
  slots : Nat
  sfmt : Nat
  next : Nat
  nlmax : Nat
  pend : List Pend
  fired : Option Fired
  gap : Nat
  rvs : Bool
  hwm : Option Int
  lastIdx : Option Nat
  nline : Nat
  ndrop : Nat
  flagOr : Nat
  reversed : Bool
  stop : Option Nat
  lost : List Nat := []
  deriving DecidableEq, Repr

/-- A calibration run under way (R179): `left` facets are still to fire lines. -/
structure CalRun where
  kind : Nat
  stn : Nat
  smsk : Nat
  navg : Nat
  left : Nat
  deriving DecidableEq, Repr

/-- A record built and waiting for the record writer (R187): its station, item and bytes. -/
structure Rec where
  stn : Nat
  item : Nat
  bytes : List Byte
  deriving DecidableEq, Repr

/-- The imaging path beyond IMG and CAL. `w0` and `w1` are where the next record of a station goes, in 32-byte units (R338);
`shading` lists the shading RAM entries that differ from D = 0, G = 0x1000. -/
structure Imaging where
  t0 : Trigger
  t1 : Trigger
  w0 : Nat
  w1 : Nat
  recs : List Rec
  run : Option CalRun
  shading : List (Nat × Word)
  deriving DecidableEq, Repr

/-! ### Marking station (chapter 7) -/

/-- One band of a mark job in the print region (R199): line count, offset in µm, address of line 0. -/
structure Band where
  nline : Nat
  yofs : Nat
  addr : Nat
  deriving DecidableEq, Repr

/-- States of a job table entry (R197, R220 JSTA.ST). -/
inductive JobSt | free | loading | ready | bound | refused | error
  deriving DecidableEq, Repr

/-- An entry of the 16-entry job table (R197–R200). -/
structure Job where
  st : JobSt
  handle : Nat
  nband : Nat
  npx : Nat
  wlpi : Nat
  keep : Bool
  client : Nat
  item : Nat
  base : Nat
  len : Nat
  bands : List Band
  fetch : Nat := 0
  deriving DecidableEq, Repr

/-- What follows an item through the marking station (R196, R201–R205, R216), whether or not it bears a mark: where its leading and trailing edges were reported, the band and
line due next, pending lines and the line that has fired (band × 4,096 + line), whether that line is kept dark, whether the
present band's ramp-up has begun, the band whose transfer window comes next and whether its ramp has started, bands whose last
line has been emitted, the marking nip with the highest position in it, the item's length in counts until it has
been measured (R196), and whether the item has ended, so that the trigger only follows its sheet through the nips. -/
structure WriteTrig where
  item : Nat
  prof : Nat
  pe : Int
  pt : Option Int
  band : Nat
  line : Nat
  pend : List Pend
  fired : Option Nat
  dark : Bool
  ramped : Bool
  tband : Nat
  trn : Bool
  emitted : Nat
  inNip : Bool
  nipMax : Int
  reversed : Bool
  len : Int
  ended : Bool
  deriving DecidableEq, Repr

/-- What an HV channel is doing (R203–R206); `stale`: it stands at a target that has changed since and waits for its ramp (R219). -/
inductive HvSt | off | ramp | settled | down | stale
  deriving DecidableEq, Repr

/-- The marking station beyond MRK, HVD, FUS and LDR: the job table, bytes of the print stream still to skip, bytes taken from the
print ring and not yet used (`badData`: with an uncorrectable error among them, R332), the write triggers of the marked items on their way, the HV channels with the level from which the ramp in hand started (in 2^-16 codes) and its
age in RT frame periods (R204, R206). -/
structure Marking where
  jobs : List Job
  skip : Nat
  stream : List Byte
  badData : Bool
  wts : List WriteTrig
  hv0 : HvSt
  hv1 : HvSt
  hv2 : HvSt
  hv3 : HvSt
  hvFrom : Vector Nat 4
  hvAge : Vector Nat 4
  deriving DecidableEq, Repr

/-! ### Motion and transport (chapter 8) -/

/-- The raw axis and stall values of a mechanism profile (R243): speeds V and VRET and acceleration ACC in counts per second, STALLT in ms. -/
structure AxRaw where
  v : Nat
  vret : Nat
  acc : Nat
  stallt : Nat
  deriving DecidableEq, Repr

/-- What the window checker knows of an item on its way (R224, R230–R232): its profile, milliseconds since t0 (negative before
it), the position at PICKX, leading and trailing edges by sensor role, whether READ has been covered too long, whether
DOUBLE_FEED has been raised, the profile's values as copied at the admission, and for a carriage the position at which it turns and whether it
returns (R232). -/
structure Track where
  item : Nat
  prof : Nat
  feeder : Bool
  age : Int
  len : Nat
  pick : Option Int
  lead : List (Nat × Int)
  trail : List (Nat × Int)
  overStay : Bool
  wide : Bool
  raw : AxRaw
  far : Int
  ret : Bool
  deriving DecidableEq, Repr

/-- The commanded mode of an axis (R235, R240, R250). -/
inductive AxMode | off | run | brake | hold | coast
  deriving DecidableEq, Repr

/-- An axis (R232–R236, R247): commanded mode, HOME edge seen since it last moved, counting, open loop; what the velocity of its loops is measured
from: the time of its last encoder edge (in 625 ps units), the edges so far and the counts they made, and the latest velocity; the part of a count that open-loop microsteps
have accumulated (R236); the profile values in force with the ramp of its commanded speed (R229); and its encoder edges of the last 1,000 µs, newest
first, with the position before each (R226). -/
structure Axis where
  mode : AxMode
  homeSeen : Bool
  counting : Bool
  openLoop : Bool
  lastT : Nat
  edges : Nat
  cnt : Int
  vel : Int
  frac : Nat
  raw : AxRaw
  goal : Int
  start : Int
  age : Nat
  past : List (Nat × Int)
  deriving DecidableEq, Repr

/-- A solenoid switch (R239). -/
inductive SolSt | opened | peak | hold | latched
  deriving DecidableEq, Repr

/-- Motion beyond MOT, ENC, SNS, MDR and SOL: items on their way, axes, solenoid switches and their commands, failed polygon
starts, polygon driver commanded, what protections keep off until it is commanded off (bridges as a mask, the polygon driver), a jam
stop in progress, transport stopped, thresholds waiting (R228) with runs of unclamped
values outside the bounds, and the position at which the double-feed detector became covered; which item passed which sensor role, newest first
(R240); what the P-die drives: the current limits of the bridges and of the polygon in mA, the drive of each axis (R235, R237, R248); and the frames
until a failed polygon start is tried again (R237); and the sensor snapshots that the next frame commands (R315). -/
structure Motion where
  tracks : List Track
  axA : Axis
  axB : Axis
  sols : Vector SolSt 6
  solCmd : Nat
  polyFails : Nat
  polyOn : Bool
  polyTrip : Bool
  bridgeTrip : Nat
  jamStop : Bool
  stopped : Bool
  snsNext : Vector (Option Nat) 6
  pinRun : Vector Nat 6
  dfd : Option Int
  passed : List (Nat × Nat)
  hbMa : Vector Nat 4
  axDrive : Vector Int 2
  polyMa : Nat
  polyWait : Nat
  snaps : Nat
  deriving DecidableEq, Repr

/-! ### Heliostat (chapter 9) -/

/-- One loop slot beyond its HLP block (R249, R253–R263): derivative filter, previous reference and feedback, counters of the
freshness, freeze and pinning checks, the commanded mode that waits for the next window, the periods until it is due, and
the source sample and the lit sweep it last took note of; its velocity meter, which holds the time, the counts and the number of the last encoder
edge before the previous sample and the velocity found there (R247); and whether it stands in RUN but acts as HOLD (R256). -/
structure Slot where
  df : Int
  rPrev : Int
  yPrev : Int
  miss : Nat
  frz : Nat
  uMin : Int
  uMax : Int
  bind : Nat
  cmd : Option Nat
  wait : Nat
  seen : Nat
  opp : Nat
  refT : Option Nat
  refCnt : Int
  refEdges : Nat
  vel : Int
  held : Bool
  deriving DecidableEq, Repr

/-- The Heliostat beyond HEL and HLP. `tables` lists the table RAM entries that are not 0. `rtSeq`, `monSeq` and `mirSeq` count the
samples that P-to-L RT frames, the laser monitors and the sensor mirrors have delivered to the loops, `oppSeq` the sweeps lit for at
least LDR.APCM.MINL that their frames should have told of (R258); `monP` and `litSeq` count both as they happen on the P-die. -/
structure Heliostat where
  slots : Vector Slot 12
  tables : List (Nat × Nat)
  rtSeq : Nat
  monSeq : Vector Nat 3
  oppSeq : Vector Nat 3
  monP : Vector Nat 3
  litSeq : Vector Nat 3
  mirSeq : Vector Nat 16
  deriving DecidableEq, Repr

/-! ### Orrery (chapters 10 and 11) -/

/-- A return-stack entry (R280): address and the dispatch entry that pushed it, if one did. -/
structure Frame where
  addr : Nat
  entry : Option Nat
  deriving DecidableEq, Repr

/-- What a word reads at the start of its execute cycle (R299): branch condition, A operand (none: a MEM read that has to cross the bridge), B operand,
loop counter, flags, W13, and whether it consumes the event that its CND names. -/
structure Snap where
  t : Bool
  a : Option Word
  b : Word
  lc : Word
  fz : Bool
  fn : Bool
  fc : Bool
  fv : Bool
  w13 : Nat
  seen : Bool
  deriving DecidableEq, Repr

/-- A context beyond its ORC block (R271, R302, R309, R316): loop counter, return stack, latched event conditions, dispatch entries
whose level condition has been seen true (R278), the sticky and one-slot conditions, the slots spent in the wait in hand and
its limit, the word that is held (R274, R275) or in BUSW, the dispatch entry that the last slot's compare selected (R282), the
data of a MEM read that has returned (R287), what the word in BUSW read at the start of its cycle (R299), the watchdog counter in slots (R284), a stop that waits for BUSW to
end, a guarded P-die write that has still to be applied (R31), and the timers that run (their load, with 2^24 added for one in µs). -/
structure Ctx where
  lc : Word
  stack : List Frame
  evl : List Nat
  seen : Nat
  dz : Bool
  rref : Bool
  remp : Bool
  berr : Bool
  k : Nat
  limit : Nat
  word : Nat
  sel : Option Nat
  memData : Option Word
  saved : Option Snap
  wdg : Nat
  stopAfter : Bool
  pairHold : Bool
  t0 : Option Nat
  t1 : Option Nat
  t2 : Option Nat
  t3 : Option Nat
  deriving DecidableEq, Repr

/-- A control-store word as it stood before a CSW, for a fetch in the cycle of the write (R289). -/
structure Stale where
  cyc : Nat
  addr : Nat
  bytes : List Byte
  deriving DecidableEq, Repr

/-- The Orrery beyond ORR and ORC: contexts, words of the live and of the staging bank with two bits wrong (R290), the word that a CSW is replacing, the
gate that ACT0 UVOFF holds (R312), and events on their way through the event router (R277): the cycle in which each was raised and its condition
number. -/
structure Orrery where
  c0 : Ctx
  c1 : Ctx
  c2 : Ctx
  c3 : Ctx
  ecc : List Nat
  eccStage : List Nat
  stale : Option Stale
  uvOff : Bool
  evq : List (Nat × Nat)
  deriving DecidableEq, Repr

/-! ### Central store (chapter 12) -/

/-- A ring entry (R320, R325): its value, the item and the client its data belong to (0 and none where there is none). -/
structure Entry where
  val : Word
  item : Nat := 0
  client : Option Byte := none
  deriving DecidableEq, Repr

/-- A push that its producer holds behind another one, or with data that no block takes (R324, R572): the code of its class, the entry or the
data, and the master that wrote HPSH. -/
structure HeldPush where
  cls : Nat
  val : Word
  data : List Byte
  who : Option Master
  deriving DecidableEq, Repr

/-- A ring beyond its RNG block (R320, R324, R325, R340): stored entries oldest first, DATA entries popped and not yet complete,
the push that a stallable producer holds with the master that wrote it to HPSH, the pushes held behind it, the items whose
entries the ring engine discards, and the place in the entry array that the next entry takes. The spec does not say which place that is:
DESIGN CHOICE, the array is filled in order and wraps (log entry 166). -/
structure RingSt where
  ents : List Entry := []
  popped : List Entry := []
  stalled : Option Entry := none
  pusher : Option Master := none
  held : List HeldPush := []
  discard : List Nat := []
  tail : Nat := 0
  deriving DecidableEq, Repr

/-- The Central Store beyond CST and RNG: rings that are not empty, granules taken out (R333), store words with an uncorrectable error (R332), and refresh (R330). `trailed` lists the
items and stations whose trailer is pushed or whose report is issued (R339). -/
structure Store where
  rings : List (Nat × RingSt)
  bad : List Nat
  ue : List Nat
  postponed : Nat
  selfRefresh : Bool
  trailed : List (Nat × Nat)
  deriving DecidableEq, Repr

/-! ### Host bridge (chapter 13) -/

/-- An entry of the client table (R81, R361, R363, R365). `closing` is the tag of a close of the client's own whose response is still
to be delivered (R362). -/
structure Client where
  opened : Bool
  spi : Bool
  evs : Bool
  o : Bool
  g : Bool
  crl : Nat
  prl : Nat
  prp : Nat
  pwl : Nat
  pwp : Nat
  pxl : Nat
  pxp : Nat
  seqs : List Nat
  lastSeq : Nat
  tags : List Byte
  evt : Nat
  closing : Option Byte
  deriving DecidableEq, Repr

/-- One access of a host request (R357): read, write of a word, byte read or write of plain memory. -/
inductive Access
  | read (addr : Nat)
  | write (addr : Nat) (v : Word)
  | readByte (addr : Nat)
  | writeByte (addr : Nat) (b : Byte)
  deriving DecidableEq, Repr

/-- What an accepted request asks for (R357): accesses, a block that breaks R358 and so makes none, an engine command, a tunnel frame
or a quote. -/
inductive Work
  | accesses (block : Bool) (reads : Bool) (l : List Access)
  | badBlock (reads : Bool) (addr : Nat) (n : Nat)
  | command (bytes : List Byte)
  | tunnel (port : Nat) (frame : List Byte)
  | quote (nonce : List Byte)
  deriving DecidableEq, Repr

/-- An accepted request (R366, R370, R371) and how far it has run: index of the next access, the first access not yet issued to the
P-die, data gathered, first refused index and status, whether its data has an uncorrectable store error (R360), and whether it answers. `pside` is
the queue it runs from. -/
structure Req where
  hdr : Hdr
  op : Nat
  work : Work
  pside : Bool
  answers : Bool
  started : Bool
  idx : Nat
  sent : Nat
  data : List Byte
  firstBad : Option Nat
  status : Status
  ue : Bool := false
  deriving DecidableEq, Repr

/-- A response or refusal that waits for delivery (R357, R363, R366). `credit` marks one that returns a credit; `ring` is the ring
whose popped entry the bytes are, for ring data on its way over SPI (R354), and `val` that entry. -/
structure Rsp where
  clid : Byte
  tag : Byte
  bytes : List Byte
  credit : Bool
  ring : Option Nat := none
  val : Word := 0#32
  deriving DecidableEq, Repr

/-- The parts so far of a request whose packets carry MORE (R356): the header and op of the first, and the payload. -/
structure MorePart where
  hdr : Hdr
  op : Nat
  bytes : List Byte
  deriving DecidableEq, Repr

/-- The host bridge beyond BRG, CLI and DBR: client table entries that differ from reset, accepted requests in order, responses
and refusal queues per interface; USB line state (VBUS, when suspend began, the state before it, K driven, halted endpoints, test
mode) and EP0's last answer (none: STALL); the image ring whose turn it is (R374); what SPI channels 2–4 have taken to send, how much
of the head of each has been consumed and how much beyond that has been read (R354); print bytes short of a 32-byte unit; a request that waits
with a push on a full ring (R324); a NVM COMMIT whose non-posted answer waits for the group (R411); requests whose write waits behind
STA.ENA of a page (R68), with that page's base; what the last SPI instruction returned; requests of which more packets are to come (R356); and the
bytes of the entry last taken for a USB stream (R360, R374). -/
structure HostBridge where
  clients : List (Nat × Client)
  reqs : List Req
  rspUsb : List Rsp
  rspSpi : List Rsp
  refUsb : List Rsp
  refSpi : List Rsp
  vbus : Bool
  suspFrom : Nat
  preSusp : Nat
  wakeK : Bool
  turn : Nat
  halted : List Nat
  testMode : Nat
  q2 : List Rsp
  q3 : List Rsp
  q4 : List Rsp
  sent2 : Nat
  sent3 : Nat
  sent4 : Nat
  part2 : Nat
  part3 : Nat
  part4 : Nat
  jbuf : List Byte
  pushWait : Option (Nat × Req)
  commitWait : Bool
  heldWaits : List (Nat × Req)
  ep0 : Option (List Byte)
  spiOut : List Byte
  more : List MorePart := []
  usbOut : List Byte := []
  deriving DecidableEq, Repr

/-! ### Faults and safety (chapter 19) -/

/-- An entry of the fault queue (R510, R511): log sequence number, report, handling begun, and its LSEQ written to FLT.DONE while
safe-state entry still runs. -/
structure FaultEntry where
  lseq : Nat
  rep : Report
  begun : Bool
  done : Bool := false
  deriving DecidableEq, Repr

/-- A source of POLICY_PIN (R526): unit, time of its last record, further entries since. -/
structure PinSrc where
  unit : Nat
  at_ : Nat
  count : Nat
  deriving DecidableEq, Repr

/-- Fault manager, Last Line and interlock beyond FLT and ILK (R509–R521). The head of `queue` is in handling. `raisedLL` are
the Last Line causes raised since they latched, `bothOpen` that both channels have been open together for 10 ms, `disc` that the
discrepancy in hand has been raised. -/
structure Faults where
  queue : List FaultEntry
  pReports : List Report
  raisedLL : Nat
  pins : List PinSrc
  bothOpen : Bool
  disc : Bool
  deriving DecidableEq, Repr

/-! ### Ferroelectric store (chapter 15) -/

/-- The always-on SRAM copy of a slot-ring value (R422–R425): value, whether a valid slot holds one, its slot index and SEQ, and
whether the copy is newer than the slot. -/
structure NvsVal where
  v : Word
  valid : Bool
  idx : Nat
  seq : Nat
  dirty : Bool
  deriving DecidableEq, Repr

/-- The F-die beyond NVM and NVS: POISON words (addresses), the transaction buffer with its owner and selected page (R408, R409),
OPENs held, slot-ring values, safe-stop groups committed and VALID at PFAIL (R410),
remap pointers by bank and the lines by bank that are erasures (R418, R428), whether the commit in progress has been seen past its commit point
(R413), and directory words that wait for the group that is open (R408, R424). -/
structure FStore where
  poison : List Nat
  owner : Option Master
  pages : List (Nat × List Word)
  sel : Option Nat
  preload : Bool
  heldOpen : List Master
  vals : List (Nat × NvsVal)
  savedAt : Nat
  safeGroups : Nat
  validAtPfail : Bool
  remap : List (Nat × Nat)
  broken : List (Nat × Nat)
  passed : Bool := false
  heldDirs : List (Nat × Word) := []
  deriving DecidableEq, Repr

/-! ### Almanac (chapter 16) -/

/-- A staged log record (R437, R438). -/
structure LogRec where
  lseq : Nat
  cls : Nat
  bytes : List Byte
  deriving DecidableEq, Repr

/-- A reader's session at the Nimora port beyond NIM (R454–R457): cascade level reached, halted by HLTA, application selected, the
challenge not yet used, CID, the response kept for the last write, and the bytes last sent to the reader. -/
structure Nimora where
  level : Nat
  halted : Bool
  app : Bool
  challenge : List Byte
  cid : Nat
  kept : List Byte
  out : List Byte
  deriving DecidableEq, Repr

/-- A service request (R430): requester kind and ID as R447 codes them, whether it may write (R430), code and payload, the carrier's own number
(Le of an APDU, SEQ of a Turradar frame), the header of a host QUOTE, and whether it came as a broadcast, which is not answered (R392). -/
structure SvcReq where
  rqk : Nat
  rqid : Nat
  auth : Bool
  code : Nat
  req : List Byte
  aux : Nat
  hdr : Option Hdr
  mute : Bool := false
  deriving DecidableEq, Repr

/-- The Almanac beyond its pages: staged log records by rising LSEQ; LSEQs taken whose record has not arrived, with the time (R438);
the measurement log (R445); continuations by requester (R431: 256 × its kind, and the node address on the Turradar link); the
master whose mailbox request runs; UPD DATA bytes gathered and the KIND and slot that BEGIN named (R451, R453), a CLONE under way; requests that
wait for a commit group, a measurement or LOAD (R408, R448, R459); a log commit held for a group (R408); and the thermistor table that the last stage ALM read, empty for
none (R210); whether the slot that runs is a trial one not yet confirmed (R452); and the entries of the OEM set refused at stage ALM: how
many, and the lowest with its status (R534). -/
structure Almanac where
  staged : List LogRec
  taken : List (Nat × Nat)
  mlog : List (List Byte)
  conts : List (Nat × List Byte)
  mbox : Option Master
  gather : List Byte
  kind : Nat
  slot : Nat
  clone : Bool
  waits : List SvcReq
  logHeld : Bool
  nim : Nimora
  ttab : List Int
  tcut : Option Nat
  trialRun : Bool
  refusedN : Nat
  refusedAt : Option (Nat × Status)
  deriving DecidableEq, Repr

/-! ### Serial links (chapter 14) -/

/-- A received character, with what the receiver found of its parity and stop bits (R380), and what befell the port after it while it
waited, oldest first: 4 a loss (R388), 0 an IDLE cut, 8 a break (R387). -/
structure RxChar where
  c : Byte
  pe : Bool := false
  fe : Bool := false
  marks : List Nat := []
  deriving DecidableEq, Repr

/-- A UART beyond its page (R381–R388): RX and TX FIFO, the inbound frame in assembly with its flags and a pending 0x7D, and what
each master's last read of STA recorded; inbound TUN packets that their ring or the store has no room for wait, oldest first (R324, R572); the
characters of the last frame sent, as they stood on the line (R386, R391); and whether the character in progress at an XOFF may end a
frame (R383). -/
structure Port where
  wait : List (List Byte)
  rx : List RxChar
  tx : List Byte
  frame : List Byte
  flags : Nat
  esc : Bool
  recs : List (Master × Nat)
  line : List Byte
  ending : Bool
  deriving DecidableEq, Repr

/-- An answer of a Turradar responder (R392, R393): source, sequence, response frame. -/
structure Answer where
  src : Nat
  seq : Nat
  frame : List Byte
  deriving DecidableEq, Repr

/-- The Turradar engine (R392–R395): a controller's request on the line, its outstanding request (bytes 1 to 7 + LEN) and the repeats; a
responder's last applied sequence per source, last response, and the answer that waits for its turnaround. -/
structure Link where
  sending : Option (List Byte)
  outst : Option (List Byte)
  tries : Nat
  last : List (Nat × Nat)
  cache : Option Answer
  pend : Option Answer
  deriving DecidableEq, Repr

/-- The sync chain beyond SYN (R398–R402): epoch, last word sent, and the HALT and FLT flags last received. -/
structure Sync where
  epoch : Nat
  sent : Nat
  halt : Bool
  flt : Bool
  deriving DecidableEq, Repr

/-- The serial links. -/
structure Serial where
  a0 : Port
  a1 : Port
  ml : Port
  link : Link
  sync : Sync
  deriving DecidableEq, Repr

/-! ### Retention and clocks (chapters 17 and 18) -/

/-- The retention controller, the supply selector and the clocks beyond their pages: a request accepted whose entry has not started
(R474), the save image of HIBERNATE with the rights of clients 0–63 (R481), whether a wake from HIBERNATE is re-entering the boot
(R47, R480), windows in a row out of limits by frequency monitor
(R491), the time of the last RC calibration (R484), VIN present, and a shutdown of the AON domain for want of supply that its next
start reports (R466); the cause of the boot in hand (R530), SHIP in force (R477), and the wake sources seen between a request and the end of
its entry (R485). -/
structure Retention where
  req : Option Nat
  image : Option (List (Nat × Word))
  rights : List (Nat × Client)
  waking : Bool
  fm : Vector Nat 10
  rcAt : Nat
  vin : Bool
  brown : Bool
  cause : Nat
  ship : Bool
  early : Nat
  deriving DecidableEq, Repr

/-! ### Debug (chapter 20) -/

/-- The JTAG TAP and the debug port beyond DBG (R542–R550): EXTEST in force, the DBGACC register's last outcome (its DATA and STS, R547),
the OTP bit DBGDIS (R544), a reset that SRST has scheduled, and an UPD.REBOOT that waits. -/
structure Debug where
  extest : Bool
  accData : Word
  accSts : Nat
  disabled : Bool
  srst : Bool
  reboot : Bool
  deriving DecidableEq, Repr

/-- Everything of the SV-2440 but the queue of waiting commands. `regs` lists the registers whose word is not the reset
word, `mem` the bytes of memory that are not 0, both by rising address; `free` counts the free values drawn. -/
structure Chip where
  regs : List (Nat × Word)
  mem : List Host.Cell
  free : Nat
  guards : List GuardLatch
  shadows : List Shadow
  held : List HeldWrite
  fab : Fabric
  doc : DocEngine
  pow : Power
  mer : Meridian
  img : Imaging
  mrk : Marking
  mot : Motion
  hel : Heliostat
  orr : Orrery
  cst : Store
  hb : HostBridge
  flt : Faults
  alm : Almanac
  fst : FStore
  dbg : Debug
  ser : Serial
  ret : Retention
  deriving DecidableEq, Repr

/-- The machine: the block and the commands that are waiting, first in, first out. -/
structure State where
  chip : Chip
  pending : List Instr
  deriving DecidableEq, Repr

/-! ### Reset -/

/-- No command and no reading in the RT frames. -/
def Readings.zero : Readings :=
  { vin := 0#16, iin := 0#16, pin := 0#16, vres := 0#16, th0 := 0#12, th1 := 0#12, hvf0 := 0#12, hvf1 := 0#12, hvf2 := 0#12,
    hvf3 := 0#12, hcur0 := 0#16, hcur1 := 0#16, hcur2 := 0#16, hcur3 := 0#16, rpm := 0#16 }

/-- Dies and bridge at a POR of the AON domain that VIN has brought about (R22, R43): of the six domains PST, AON and FNV are on; every sideband line is low. -/
def Fabric.reset : Fabric :=
  { pst := true, aon := true, fnv := true, lco := false, lio := false, dst := false, ldEn := false, hvEn := false, htrEn := false,
    mtrEn := false, wantLd := false, wantHv := false, wantHtr := false, wantMtr := false, llLine := false, badLP := 0, badPL := 0,
    lossLP := false, lossPL := false, retraining := false, standby := false, downFlight := none, upFlight := none,
    down := { modes := List.replicate 12 0, outs := List.replicate 12 0#32, holds := [0, 0], sols := 0, snaps := 0 },
    up := { meas := Readings.zero, th0 := 0, th0St := 0, mon := [0, 0, 0], monN := [0, 0, 0], on := 0, modes := List.replicate 12 0, pfail := false, lossLP := false, causes := 0, pst := 0, son := 0, cut := false, nvBusy := false, reports := [] },
    posted := [], reads := [], rdata := 0#32, rstat := 0#8 }

/-- The document engine with no item. -/
def DocEngine.reset : DocEngine :=
  { items := [], cand := [], commits := [], held := [], ready := [], singles := [], jseq := 0, drainToOff := false, heatBand := false,
    refused := [], rcvs := [] }

/-- Supply, reserve and ledger with nothing held. -/
def Power.reset : Power :=
  { pfail := false, safeStop := false, vinReturn := false, buckOn := false, railsFailed := false, failRail := 0, failMv := 0, chargerPaused := false,
    heaterCap := 1000, resSwitch := false, resBleed := false, bootFails := 0, passed := false, vinHist := [],
    decideDue := false, segs := [], zones := [], nips := [] }

/-- A station at rest. -/
def Station.reset : Station := { armed := false, sweeping := false, fly := false, inval := false, nofc := false, e0 := 0 }

/-- Meridian not tracking. -/
def Meridian.reset : Meridian :=
  { tracking := false, pBd := 0, windowOpen := false, accepted := false, bdLaser := false, inTol := 0, outTol := 0, meas := false,
    zeroNext := false, pixPending := false, noPix := 0, s0 := Station.reset, s1 := Station.reset, s2 := Station.reset, mod0 := false,
    mod1 := false, mod2 := false, gp0 := false, edges := [], tbAt := 0, tbOff := 0, tbLag := 0 }

/-- An idle read trigger. -/
def Trigger.reset : Trigger :=
  { item := 0, p0 := 0, pitch := 0, lofs := 0, hys := 0, rvmx := 0, slots := 0, sfmt := 0, next := 0, nlmax := 0, pend := [],
    fired := none, gap := 0, rvs := false, hwm := none, lastIdx := none, nline := 0, ndrop := 0, flagOr := 0, reversed := false,
    stop := none }

/-- The imaging path with both triggers idle. -/
def Imaging.reset : Imaging :=
  { t0 := Trigger.reset, t1 := Trigger.reset, w0 := 0, w1 := 0, recs := [], run := none, shading := [] }

/-- A free job entry. -/
def Job.reset : Job :=
  { st := .free, handle := 0, nband := 0, npx := 0, wlpi := 0, keep := false, client := 0, item := 0, base := 0, len := 0, bands := [] }

/-- The marking station with a free job table and HV off. -/
def Marking.reset : Marking :=
  { jobs := List.replicate 16 Job.reset, skip := 0, stream := [], badData := false, wts := [], hv0 := .off, hv1 := .off, hv2 := .off,
    hv3 := .off, hvFrom := Vector.replicate 4 0, hvAge := Vector.replicate 4 0 }

/-- An axis at rest. -/
def Axis.reset : Axis :=
  { mode := .off, homeSeen := false, counting := false, openLoop := false, lastT := 0, edges := 0, cnt := 0, vel := 0, frac := 0, past := [],
    raw := { v := 0, vret := 0, acc := 0, stallt := 0 }, goal := 0, start := 0, age := 0 }

/-- Motion at rest. -/
def Motion.reset : Motion :=
  { tracks := [], axA := Axis.reset, axB := Axis.reset, sols := Vector.replicate 6 .opened, solCmd := 0, polyFails := 0, polyOn := false, polyTrip := false, bridgeTrip := 0,
    jamStop := false, stopped := true, snsNext := Vector.replicate 6 none, pinRun := Vector.replicate 6 0, dfd := none, passed := [],
    hbMa := Vector.replicate 4 0, axDrive := Vector.replicate 2 0, polyMa := 0, polyWait := 0, snaps := 0 }

/-- A slot that has computed nothing. -/
def Slot.reset : Slot :=
  { df := 0, rPrev := 0, yPrev := 0, miss := 0, frz := 0, uMin := 0, uMax := 0, bind := 0, cmd := none, wait := 0, seen := 0, opp := 0,
    refT := none, refCnt := 0, refEdges := 0, vel := 0, held := false }

/-- Heliostat with every slot at rest. -/
def Heliostat.reset : Heliostat :=
  { slots := Vector.replicate 12 Slot.reset, tables := [], rtSeq := 0, monSeq := Vector.replicate 3 0, oppSeq := Vector.replicate 3 0,
    monP := Vector.replicate 3 0, litSeq := Vector.replicate 3 0, mirSeq := Vector.replicate 16 0 }

/-- A stopped context. -/
def Ctx.reset : Ctx :=
  { lc := 0#32, stack := [], evl := [], seen := 0, dz := false, rref := false, remp := false, berr := false, k := 0, limit := 0,
    word := 0, sel := none, memData := none, saved := none, wdg := 0, stopAfter := false, pairHold := false, t0 := none, t1 := none, t2 := none, t3 := none }

/-- The Orrery with every context stopped. -/
def Orrery.reset : Orrery :=
  { c0 := Ctx.reset, c1 := Ctx.reset, c2 := Ctx.reset, c3 := Ctx.reset, ecc := [], eccStage := [], stale := none, uvOff := false, evq := [] }

/-- Empty rings. -/
def Store.reset : Store := { rings := [], bad := [], ue := [], postponed := 0, selfRefresh := false, trailed := [] }

/-- No client, no request. -/
def HostBridge.reset : HostBridge :=
  { clients := [], reqs := [], rspUsb := [], rspSpi := [], refUsb := [], refSpi := [], vbus := false, suspFrom := 0, preSusp := 0,
    wakeK := false, turn := 0, halted := [], testMode := 0, q2 := [], q3 := [], q4 := [], sent2 := 0, sent3 := 0, sent4 := 0, part2 := 0, part3 := 0, part4 := 0, jbuf := [], pushWait := none, commitWait := false, heldWaits := [],
    ep0 := some [], spiOut := [] }

/-- An empty fault queue. -/
def Faults.reset : Faults := { queue := [], pReports := [], raisedLL := 0, pins := [], bothOpen := false, disc := false }

/-- The F-die's controller idle. -/
def FStore.reset : FStore :=
  { poison := [], owner := none, pages := [], sel := none, preload := false, heldOpen := [], vals := [], savedAt := 0,
    safeGroups := 0, validAtPfail := false, remap := [], broken := [] }

/-- No session at the Nimora port. -/
def Nimora.reset : Nimora := { level := 0, halted := false, app := false, challenge := [], cid := 0, kept := [], out := [] }

/-- Almanac with nothing staged and no request. -/
def Almanac.reset : Almanac :=
  { staged := [], taken := [], mlog := [], conts := [], mbox := none, gather := [], kind := 0, slot := 0, clone := false, waits := [],
    logHeld := false, nim := Nimora.reset, ttab := [], tcut := none, trialRun := false, refusedN := 0, refusedAt := none }

/-- A UART with empty FIFOs. -/
def Port.reset : Port :=
  { wait := [], rx := [], tx := [], frame := [], flags := 0, esc := false, recs := [], line := [], ending := false }

/-- Links with nothing outstanding. -/
def Link.reset : Link := { sending := none, outst := none, tries := 0, last := [], cache := none, pend := none }
def Sync.reset : Sync := { epoch := 0, sent := 0, halt := false, flt := false }
def Serial.reset : Serial :=
  { a0 := Port.reset, a1 := Port.reset, ml := Port.reset, link := Link.reset, sync := Sync.reset }

/-- No retention entry, no image. -/
def Retention.reset : Retention :=
  { req := none, image := none, rights := [], waking := false, fm := Vector.replicate 10 0, rcAt := 0, vin := true, brown := false,
    cause := 1, ship := false, early := 0 }

/-- The debug port idle. -/
def Debug.reset : Debug :=
  { extest := false, accData := 0#32, accSts := 0, disabled := false, srst := false, reboot := false }

/-- The chip at POR of the AON domain (R43, R465): every register at its reset word, memory with nothing listed. -/
def Chip.reset : Chip :=
  { regs := [], mem := [], free := 0, guards := [], shadows := [], held := [], fab := Fabric.reset, doc := DocEngine.reset,
    pow := Power.reset, mer := Meridian.reset, img := Imaging.reset, mrk := Marking.reset, mot := Motion.reset, hel := Heliostat.reset,
    orr := Orrery.reset, cst := Store.reset, hb := HostBridge.reset, flt := Faults.reset, alm := Almanac.reset, fst := FStore.reset,
    dbg := Debug.reset, ser := Serial.reset, ret := Retention.reset }

/-- The machine right after reset: the chip at POR of the AON domain, and no command waiting. -/
def State.reset : State := { chip := Chip.reset, pending := [] }

end Sys2Proof.Machine
end

