-- ==== Sys2Proof/Machine/Regs.lean ====
section
/-!
DEFINITION. Reading and writing registers and fields: every meaning goes through these. A register that no entry of
`Chip.regs` names holds its reset word.
-/
namespace Sys2Proof.Machine

/-- The page that holds an address of the register regions (R52, R53), aliases and twins included. -/
def pageAt (a : Nat) : Option PageDesc :=
  if 0x40000000 ≤ a && a < 0x40070000 then lPages[(a - 0x40000000) / 0x4000]?
  else if 0x50000000 ≤ a && a < 0x5005C000 then pPages[(a - 0x50000000) / 0x4000]?
  else none

/-- Is the address on the P-die? -/
def onPDie (a : Nat) : Bool := 0x50000000 ≤ a && a < 0x70000000

/-- The class-B boundaries a page uses, as CAP.BNDM codes them (R58). -/
def bndBit : Bnd → Nat
  | .sample => 8
  | .line => 9
  | .band => 10
  | .document => 11
  | .packet => 12
  | .frame => 13

/-- The fields of the nine common registers of a page (R58). -/
def hdrFields (p : PageDesc) (o : Nat) : Option (List FieldDesc) :=
  match o with
  | 0x000 => some []
  | 0x004 => some []
  | 0x008 => some ([fd 0 0 (if p.en1 then .ro else .rw) (if p.en1 then 1 else 0) .l,
      fd 1 1 .rw 0 .s (if p.xpa then .any else .among [(0, 0)]),
      fd 7 4 .rw 0 .l (.among [(0, 0), (4, 4), (15, 15)])] ++ p.ctl)
  | 0x00C => some ([fd 0 0 .ro (if p.en1 then 1 else 0) .l, fd 1 1 .ro 0 .l] ++ p.sta)
  | 0x010 => some (([1, 2, 3] ++ (if p.num == 0 then [0] else [])).map (fun b => fd b b .w1c 0 .l) ++ p.ist)
  | 0x014 => some (([1, 2, 3] ++ (if p.num == 0 then [0] else [])).map (fun b => fd b b .rw 0 .l)
      ++ p.ist.map (fun f => { f with acc := .rw }))
  | 0x018 => some [fd 31 31 .w1c 0 .l, fd 23 16 .ro 0 .l, fd 15 8 .ro 0 .l, fd 7 0 .ro 0 .l]
  | 0x01C => some [fd 15 8 .ro 0 .l, fd 4 4 .ro 0 .l, fd 3 3 .wo 0 .l, fd 2 2 .ro 0 .l, fd 1 1 .w1c 0 .l, fd 0 0 .w1c 0 .l]
  | 0x020 => some [fd 9 9 .rw 0 .l, fd 8 8 .rw 0 .l, fd 7 0 .rw 0 .l]
  | _ => none

/-- PID and CAP of a page (R58), fixed in silicon. -/
def hdrFixed (p : PageDesc) (o : Nat) : Nat :=
  if o = 0 then (if p.base < 0x50000000 then 0 else 0x01000000) + p.num * 0x10000 + 0x0100
  else (p.bounds.foldl (fun n b => n ||| 2 ^ bndBit b) 0) + (if p.grd then 4 else 0) + (if p.xpa then 2 else 0)
    + (if p.bas then 1 else 0)

/-- The block register that holds a page offset. -/
def blockReg (p : PageDesc) (o : Nat) : Option RegDesc := p.regs.find? (·.holds o)

/-- The fields of the register at offset `o` of a page. -/
def fieldsAt (p : PageDesc) (o : Nat) : Option (List FieldDesc) :=
  if o < 0x40 then hdrFields p o else (blockReg p o).map (·.fields)

/-- The word that fields' reset values make. -/
def resetOf (fs : List FieldDesc) : Word :=
  fs.foldl (fun n f => n ||| (BitVec.ofNat 32 (f.reset % 2 ^ f.w)) <<< f.lo) 0#32

/-- The word a register resets to: as its table says, or, where the table says "see text", as RegReset.lean names it. -/
def resetWord (a : Nat) : Word :=
  match resetText a with
  | some w => w
  | none =>
    match pageAt a with
    | none => 0#32
    | some p =>
      if a - p.base < 8 then BitVec.ofNat 32 (hdrFixed p (a - p.base))
      else match fieldsAt p (a - p.base) with
        | some fs => resetOf fs
        | none => 0#32

/-- The word listed for an address in a sparse register map. -/
def regFind (l : List (Nat × Word)) (a : Nat) : Option Word :=
  match l with
  | [] => none
  | (k, w) :: r => if k = a then some w else regFind r a

/-- List `w` for address `a`, keeping the addresses rising. -/
def regInsert (l : List (Nat × Word)) (a : Nat) (w : Word) : List (Nat × Word) :=
  match l with
  | [] => [(a, w)]
  | (k, v) :: r => if a < k then (a, w) :: (k, v) :: r else if k = a then (a, w) :: r else (k, v) :: regInsert r a w

/-- Remove address `a` from the list. -/
def regErase (l : List (Nat × Word)) (a : Nat) : List (Nat × Word) := l.filter fun c => c.1 != a

/-- The word of the register at address `a`. -/
def Chip.rd (s : Chip) (a : Nat) : Word := (regFind s.regs a).getD (resetWord a)

/-- Give the register at address `a` the word `w`. The map stays canonical: a word equal to the reset word is not listed. -/
def Chip.wr (s : Chip) (a : Nat) (w : Word) : Chip :=
  { s with regs := if w = resetWord a then regErase s.regs a else regInsert s.regs a w }

/-- `w` with the `n` low bits of `v` at bit `lo`. -/
def setField (w : Word) (lo n v : Nat) : Word :=
  (w &&& ~~~((BitVec.ofNat 32 (2 ^ n - 1)) <<< lo)) ||| ((BitVec.ofNat 32 (v % 2 ^ n)) <<< lo)

/-- The value of a field. -/
def Chip.get (s : Chip) (f : Field) : Nat := bitsOf (s.rd f.addr).toNat f.lo f.w

/-- Is a one-bit field 1? -/
def Chip.on (s : Chip) (f : Field) : Bool := s.get f != 0

/-- A field read as a two's-complement number. -/
def Chip.getS (s : Chip) (f : Field) : Int := signedOf (s.get f) f.w

/-- Give a field a value (its low bits); the other fields of the register are unchanged. -/
def Chip.put (s : Chip) (f : Field) (v : Nat) : Chip := s.wr f.addr (setField (s.rd f.addr) f.lo f.w v)

/-- Set a one-bit field. -/
def Chip.set (s : Chip) (f : Field) : Chip := s.put f 1

/-- Clear a field. -/
def Chip.clr (s : Chip) (f : Field) : Chip := s.put f 0

/-- Give a one-bit field a truth value. -/
def Chip.putB (s : Chip) (f : Field) (b : Bool) : Chip := s.put f (if b then 1 else 0)

/-- Give a field a two's-complement number. -/
def Chip.putS (s : Chip) (f : Field) (x : Int) : Chip := s.put f (codeOf x f.w)

/-- Increment a counter field, saturating at its largest value. -/
def Chip.bump (s : Chip) (f : Field) : Chip := s.put f (satInc (s.get f) f.w)

/-- Increment a counter field modulo its width. -/
def Chip.inc (s : Chip) (f : Field) : Chip := s.put f (s.get f + 1)

/-- Update if a condition holds. -/
def Chip.iff (s : Chip) (c : Bool) (f : Chip → Chip) : Chip := if c then f s else s

/-- RTC time in 1/32,768 s (R476): the only clock the state carries. -/
def Chip.now (s : Chip) : Nat := s.get Fld.RTC_SEC_S * 32768 + s.get Fld.RTC_SUB_T

/-- RTC time in ms. -/
def Chip.nowMs (s : Chip) : Nat := s.now * 1000 / 32768

end Sys2Proof.Machine
end

