-- ==== Sys2Proof/Machine/Mem.lean ====
section
/-!
DEFINITION. Memory of the address map (R37) that is no register: the control store and its staging bank, the scratch SRAM,
the F-die, the Central Store. One list of (address, byte), addresses rising, no byte 0 listed: an address that is not
listed reads 0 (notes/assumptions/4.md). The boot ROM is read-only and its contents are free (Config.bootRom).
-/
namespace Sys2Proof.Machine

/-- The byte listed for an address; 0 where none is. -/
def memFind (m : List Host.Cell) (a : Nat) : Byte :=
  match m with
  | [] => 0#8
  | (k, b) :: r => if k = a then b else memFind r a

/-- Put byte `b` at address `a` into a rising list. -/
def memInsert (m : List Host.Cell) (a : Nat) (b : Byte) : List Host.Cell :=
  match m with
  | [] => [(a, b)]
  | (k, c) :: r => if a < k then (a, b) :: (k, c) :: r else if k = a then (a, b) :: r else (k, c) :: memInsert r a b

/-- Remove address `a`. -/
def memErase (m : List Host.Cell) (a : Nat) : List Host.Cell := m.filter fun c => c.1 != a

/-- Write one byte, keeping the canonical form. -/
def memWrite (m : List Host.Cell) (a : Nat) (b : Byte) : List Host.Cell :=
  if b = 0#8 then memErase m a else memInsert m a b

/-- Write consecutive bytes. -/
def memWrites (m : List Host.Cell) (a : Nat) : List Byte → List Host.Cell
  | [] => m
  | b :: bs => memWrites (memWrite m a b) (a + 1) bs

/-- Forget every byte of `lo … hi - 1` (contents lost, or a granule swept to zero). -/
def memClear (m : List Host.Cell) (lo hi : Nat) : List Host.Cell := m.filter fun c => c.1 < lo || hi ≤ c.1

/-- The canonical form: addresses strictly rising from `lo` on, no byte 0. -/
def memWfFrom (lo : Nat) : List Host.Cell → Bool
  | [] => true
  | (k, b) :: r => lo ≤ k && b != 0#8 && memWfFrom (k + 1) r

/-- Is memory in its canonical form? -/
def Memory.wf (m : List Host.Cell) : Bool := memWfFrom 0 m

/-- The byte at an address. The boot ROM's contents are fixed in silicon and not given. -/
def Chip.byte (s : Chip) (a : Nat) : Byte := if a < 0x8000 then Config.bootRom a else memFind s.mem a

/-- Write one byte. -/
def Chip.setByte (s : Chip) (a : Nat) (b : Byte) : Chip := { s with mem := memWrite s.mem a b }

/-- `n` bytes from address `a` on. -/
def Chip.bytes (s : Chip) (a : Nat) : Nat → List Byte
  | 0 => []
  | n + 1 => s.byte a :: s.bytes (a + 1) n

/-- Write bytes from address `a` on. -/
def Chip.setBytes (s : Chip) (a : Nat) (bs : List Byte) : Chip := { s with mem := memWrites s.mem a bs }

/-- A little-endian number of `n` bytes at address `a` (R6). -/
def Chip.num (s : Chip) (a n : Nat) : Nat := ofLeBytes (s.bytes a n)

/-- The 32-bit word at address `a`. -/
def Chip.word (s : Chip) (a : Nat) : Word := BitVec.ofNat 32 (s.num a 4)

/-- Write a 32-bit word. -/
def Chip.setWord (s : Chip) (a : Nat) (w : Word) : Chip := s.setBytes a (leBytes 4 w.toNat)

/-- Forget a range of memory. -/
def Chip.clearMem (s : Chip) (lo hi : Nat) : Chip := { s with mem := memClear s.mem lo hi }

/-- Exchange the bytes of two disjoint ranges of length `n` at `a < b` (R290 bank swap): every listed byte of either range
moves to the same place in the other. -/
def Chip.swapRanges (s : Chip) (a b n : Nat) : Chip :=
  let at_ (x : Nat) := s.mem.filter fun c => x ≤ c.1 && c.1 < x + n
  let rest := s.mem.filter fun c => !(a ≤ c.1 && c.1 < a + n) && !(b ≤ c.1 && c.1 < b + n)
  let s1 := { s with mem := rest }
  let s2 := (at_ a).foldl (fun t c => t.setByte (c.1 - a + b) c.2) s1
  (at_ b).foldl (fun t c => t.setByte (c.1 - b + a) c.2) s2

/-- Copy `n` bytes from `a` to `b`; the two ranges are disjoint. -/
def Chip.copyRange (s : Chip) (a b n : Nat) : Chip :=
  let moved := s.mem.filter fun c => a ≤ c.1 && c.1 < a + n
  moved.foldl (fun t c => t.setByte (c.1 - a + b) c.2) (s.clearMem b (b + n))

/-- Draw a fresh free word: a value the manual leaves open. -/
def Chip.freeWord (s : Chip) : Word := Config.freeWord s.free

/-- Count a free value as drawn. -/
def Chip.drawn (s : Chip) : Chip := { s with free := s.free + 1 }

/-! Places in the address map (R37, R329, R404). -/
def ctlStore : Nat := 0x10000000
def staging : Nat := 0x14000000
def scratch : Nat := 0x20000000
def fDie : Nat := 0x60000000
def store : Nat := 0x80000000

end Sys2Proof.Machine
end

