-- ==== Sys2Proof/Machine/Rings.lean ====
section
/-!
DEFINITION. The ring engine, the allocator and the drain tracker of the Central Store (R320–R342): push, pop, completion
and discard of entries, placement of data in the HOST region (R572), and release of an item's space and entries (R339).
-/
namespace Sys2Proof.Machine

/-- Producer and consumer classes (R323). -/
inductive RCls | none | host | tun | orr | img | mrk | alm
  deriving DecidableEq, Repr

/-- The code of a class in RNG.RCFGn. -/
def RCls.code : RCls → Nat
  | .none => 0
  | .host => 1
  | .tun => 2
  | .orr => 3
  | .img => 4
  | .mrk => 5
  | .alm => 6

/-- A ring with nothing in it. -/
def noEntries : RingSt := { ents := [] }

/-- Ring `n` beyond its block. -/
def Chip.ring (s : Chip) (n : Nat) : RingSt :=
  match s.cst.rings.find? (·.1 == n) with
  | some r => r.2
  | none => noEntries

/-- Put ring `n` back, with RDEPn its depth (R320); rings with nothing in them are not listed. -/
def Chip.setRing (s : Chip) (n : Nat) (r : RingSt) : Chip :=
  let rest := s.cst.rings.filter (·.1 != n)
  let rings := if r = noEntries then rest
    else rest.takeWhile (fun x => decide (x.1 < n)) ++ (n, r) :: rest.dropWhile (fun x => decide (x.1 < n))
  let s := { s with cst := { s.cst with rings := rings } }
  s.put (Fld.RNG_RDEP_D n) r.ents.length

/-- Is ring `n` open for pushes and pops (R327, R342)? -/
def Chip.ringOpen (s : Chip) (n : Nat) : Bool := s.on (Fld.RNG_RCFG_EN n) && s.on Fld.CST_CTL_EN

/-- Capacity of ring `n` (R320). -/
def Chip.ringCap (s : Chip) (n : Nat) : Nat := 2 ^ s.get (Fld.RNG_RCFG_CAPC n)

/-- Does ring `n` carry DATA entries (R320)? -/
def Chip.ringData (s : Chip) (n : Nat) : Bool := s.on (Fld.RNG_RCFG_USE n)

/-- The parts of a DATA entry (R325): start in 32-byte units and length in units. -/
def Entry.ofs (e : Entry) : Nat := bitsOf e.val.toNat 0 21
def Entry.rlen (e : Entry) : Nat := bitsOf e.val.toNat 21 10

/-- The entry for `units` 32-byte units of data at unit `ofs` (R325). -/
def dataEntry (ofs units : Nat) : Word := BitVec.ofNat 32 (units * 2 ^ 21 + ofs)

/-- The data of a DATA entry. -/
def Chip.entryBytes (s : Chip) (e : Entry) : List Byte := s.bytes (store + 32 * e.ofs) (32 * e.rlen)

/-! ### Regions, granules and reservations (R329, R336–R339) -/

/-- First granule and count of the PRINT region (MRK.PRB holds address bits [31:16], MRK.PRS granules). A base below the store lies past its last
granule, so that no check takes it (R329). -/
def Chip.printRegion (s : Chip) : Nat × Nat :=
  let a := s.get Fld.MRK_PRB_A
  (if 0x8000 ≤ a then a - 0x8000 else 0x10000, s.get Fld.MRK_PRS_N)

/-- Is granule `g` inside a region of `n` granules from `b` on? -/
def inRegion (g b n : Nat) : Bool := b ≤ g && g < b + n

/-- Does granule `g` belong to the allocation pool (R329)? -/
def Chip.inPool (s : Chip) (g : Nat) : Bool :=
  g < 1024 && !inRegion g (s.get Fld.CST_SYSR_BASE) (s.get Fld.CST_SYSR_SZ) &&
    !inRegion g (s.get Fld.CST_HSTR_BASE) (s.get Fld.CST_HSTR_SZ) &&
    !inRegion g s.printRegion.1 s.printRegion.2

/-- Is granule `g` held by a reservation (R337)? -/
def Chip.granuleHeld (s : Chip) (g : Nat) : Bool :=
  (List.range 8).any fun i =>
    inRegion g (s.get (Fld.CST_RSVF_BASE i)) (s.get (Fld.CST_RSVF_G i)) ||
    inRegion g (s.get (Fld.CST_RSVR_BASE i)) (s.get (Fld.CST_RSVR_G i))

/-- Is granule `g` free for allocation (R329, R333, R337)? -/
def Chip.granuleFree (s : Chip) (g : Nat) : Bool :=
  s.inPool g && !s.granuleHeld g && !s.cst.bad.contains g

/-- The runs of `true` in a list of flags, as (start, length), from index `i` on; `run` is the run in hand. -/
def runsOf (i run : Nat) : List Bool → List (Nat × Nat)
  | [] => if run = 0 then [] else [(i - run, run)]
  | b :: bs => if b then runsOf (i + 1) (run + 1) bs
      else if run = 0 then runsOf (i + 1) 0 bs else (i - run, run) :: runsOf (i + 1) 0 bs

/-- The runs of free pool granules. -/
def Chip.freeRuns (s : Chip) : List (Nat × Nat) := runsOf 0 0 ((List.range 1024).map s.granuleFree)

/-- CST.POOL shows the free granules and the largest run (R343). -/
def Chip.syncPool (s : Chip) : Chip :=
  let rs := s.freeRuns
  (s.put Fld.CST_POOL_FREE (rs.foldl (fun n r => n + r.2) 0)).put Fld.CST_POOL_LRUN (rs.foldl (fun n r => max n r.2) 0)

/-- The reservation entry of an item, if it holds one. -/
def Chip.rsvOf (s : Chip) (item : Nat) : Option Nat :=
  (List.range 8).find? fun i => s.get (Fld.CST_RSVI_ITEM i) == item && item != 0

/-- The run of a station of reservation `i`: granules held and first granule. -/
def Chip.runOf (s : Chip) (i stn : Nat) : Nat × Nat :=
  if stn = 0 then (s.get (Fld.CST_RSVF_G i), s.get (Fld.CST_RSVF_BASE i))
  else (s.get (Fld.CST_RSVR_G i), s.get (Fld.CST_RSVR_BASE i))

/-- Give a station's run its granules and first granule. -/
def Chip.setRun (s : Chip) (i stn g base : Nat) : Chip :=
  if stn = 0 then (s.put (Fld.CST_RSVF_G i) g).put (Fld.CST_RSVF_BASE i) base
  else (s.put (Fld.CST_RSVR_G i) g).put (Fld.CST_RSVR_BASE i) base

/-- Ring entries a station of reservation `i` still holds. -/
def Chip.entriesHeld (s : Chip) (i stn : Nat) : Nat :=
  if stn = 0 then s.get (Fld.CST_RSVE_EF i) else s.get (Fld.CST_RSVE_ER i)

/-- Set them. -/
def Chip.setEntries (s : Chip) (i stn n : Nat) : Chip :=
  if stn = 0 then s.put (Fld.CST_RSVE_EF i) n else s.put (Fld.CST_RSVE_ER i) n

/-- The image ring of a read station (IMG.RING). -/
def Chip.imgRing (s : Chip) (stn : Nat) : Nat :=
  if stn = 0 then s.get Fld.IMG_RING_RING0 else s.get Fld.IMG_RING_RING1

/-- Entries of ring `n` that admitted items hold reserved (R337). -/
def Chip.reservedOn (s : Chip) (n : Nat) : Nat :=
  (List.range 8).foldl (fun k i =>
    k + (if s.imgRing 0 = n then s.entriesHeld i 0 else 0) + (if s.imgRing 1 = n then s.entriesHeld i 1 else 0)) 0

/-- A reservation entry with nothing left is free again (R337). -/
def Chip.freeRsv (s : Chip) (i : Nat) : Chip :=
  if (s.runOf i 0).1 = 0 && (s.runOf i 1).1 = 0 && s.entriesHeld i 0 = 0 && s.entriesHeld i 1 = 0 then
    { s.put (Fld.CST_RSVI_ITEM i) 0 with
        cst := { s.cst with trailed := s.cst.trailed.filter (·.1 != s.get (Fld.CST_RSVI_ITEM i)) } }
  else s

/-- Space is given back: clean the table entry and the pool figures. -/
def Chip.released (s : Chip) (i : Nat) : Chip := (s.freeRsv i).syncPool

/-- Entries of an item on a ring that are not yet consumed, oldest first. -/
def RingSt.unconsumed (r : RingSt) (item : Nat) : List Entry :=
  (r.popped ++ r.ents).filter (·.item == item)

/-- A DATA entry on the ring of station `stn` has been consumed (R339): granules wholly below the oldest entry not yet consumed return, or with
none left those that the consumed data fills; after the last entry of a station whose trailer is written, the rest of the run. -/
def Chip.consumedStn (s : Chip) (e : Entry) (stn : Nat) : Chip :=
  match s.rsvOf e.item with
  | none => s
  | some i =>
    let left := (s.ring (s.imgRing stn)).unconsumed e.item
    if left = [] && s.cst.trailed.contains (e.item, stn) then (s.setRun i stn 0 0).released i
    else
      let gr := (left.head?.elim (32 * (e.ofs + e.rlen)) fun f => 32 * f.ofs) / 65536
      let r := s.runOf i stn
      if r.2 < gr && gr ≤ r.2 + r.1 then (s.setRun i stn (r.2 + r.1 - gr) gr).released i else s

/-- An entry of ring `n` has been consumed (R325, R339). -/
def Chip.consumed (s : Chip) (n : Nat) (e : Entry) : Chip :=
  let s := if n = s.imgRing 0 then s.consumedStn e 0 else s
  if n = s.imgRing 1 then s.consumedStn e 1 else s

/-- The trailer of a station has been pushed, or its item reported (R339): granules above the last byte written return,
and the entries not used. -/
def Chip.trimRun (s : Chip) (item stn : Nat) : Chip :=
  match s.rsvOf item with
  | none => s
  | some i =>
    let r := s.runOf i stn
    let s := { s with cst := { s.cst with trailed := (item, stn) :: s.cst.trailed.filter (· != (item, stn)) } }
    let s := s.setEntries i stn 0
    match ((s.ring (s.imgRing stn)).unconsumed item).getLast? with
    | none => (s.setRun i stn 0 0).released i
    | some e =>
      let top := (32 * (e.ofs + e.rlen) - 1) / 65536 + 1
      if r.2 < top && top < r.2 + r.1 then (s.setRun i stn (top - r.2) r.2).released i else s.released i

/-! ### The HOST region (R572) -/

/-- First and last-plus-one 32-byte unit of the half of the HOST region that serves a producer class. -/
def Chip.hostHalf (s : Chip) (upper : Bool) : Nat × Nat :=
  let b := s.get Fld.CST_HSTR_BASE * 2048
  let n := s.get Fld.CST_HSTR_SZ * 2048
  if upper then (b + n / 2, b + n) else (b, b + n / 2)

/-- The blocks in use: the data of every DATA entry that is not yet consumed (R572). -/
def Chip.blocks (s : Chip) : List (Nat × Nat) :=
  s.cst.rings.flatMap fun r =>
    if s.ringData r.1 then
      (r.2.popped ++ r.2.ents ++ r.2.stalled.toList).map fun e => (e.ofs, e.rlen)
    else []

/-- The lowest unit at or above `p` where `units` fit below `hi`, moving past each block in the way. -/
def fitFrom (blocks : List (Nat × Nat)) (units hi p : Nat) : Nat → Option Nat
  | 0 => none
  | fuel + 1 =>
    if hi < p + units then none
    else match blocks.find? (fun b => b.1 < p + units && p < b.1 + b.2) with
      | none => some p
      | some b => fitFrom blocks units hi (b.1 + b.2) fuel

/-- First fit in a half of the HOST region. -/
def Chip.hostFit (s : Chip) (upper : Bool) (units : Nat) : Option Nat :=
  let bs := s.blocks
  fitFrom bs units (s.hostHalf upper).2 (s.hostHalf upper).1 (bs.length + 1)

/-! ### Push (R321–R324) -/

/-- How a push ended. -/
inductive PushRes | stored | full | wrongClass | disabled
  deriving DecidableEq, Repr

/-- Is the class a stallable producer (R323)? -/
def RCls.stallable : RCls → Bool
  | .host => true
  | .tun => true
  | .mrk => true
  | .alm => true
  | _ => false

/-- Store an entry in its ring's next place (R320). -/
def Chip.storeEntry (s : Chip) (n : Nat) (e : Entry) : Chip :=
  let r := s.ring n
  let k := r.tail % s.ringCap n
  (s.setWord (store + 4 * s.get (Fld.RNG_RBAS_A n) + 4 * k) e.val).setRing n
    { r with ents := r.ents ++ [e], tail := (k + 1) % s.ringCap n }

/-- Refused push, counted (R324). -/
def Chip.refusedPush (s : Chip) (n : Nat) : Chip := (s.bump (Fld.RNG_STAT_REF n)).set Fld.RNG_IST_REF

/-- Push entry `e` onto ring `n` as class `c` (R321, R323, R324, R327). A stallable producer that finds the ring full
holds its entry, unless it holds one already. -/
def Chip.push (s : Chip) (n : Nat) (c : RCls) (e : Entry) : PushRes × Chip :=
  let r := s.ring n
  if s.get (Fld.RNG_RCFG_PRD n) ≠ c.code then (.wrongClass, s)
  else if !s.ringOpen n then
    (.disabled, if c = .orr then s else s.refusedPush n)
  else if r.ents.length < s.ringCap n && r.stalled.isNone then
    (.stored, s.storeEntry n e)
  else if c.stallable then
    (.full, ((if r.stalled.isNone then s.setRing n { r with stalled := some e } else s).bump
      (Fld.RNG_STAT_STL n)).set Fld.RNG_IST_STALL)
  else (.full, s.refusedPush n)

/-- Store the entry that a producer holds, once there is room (R324). -/
def Chip.retryPush (s : Chip) (n : Nat) : Chip :=
  let r := s.ring n
  match r.stalled with
  | none => s
  | some e =>
    if r.ents.length < s.ringCap n && s.ringOpen n then
      (s.setRing n { r with stalled := none }).storeEntry n e
    else s

/-- Write data into the store: each whole 64-bit word written gets fresh check bits (R328, R332). -/
def Chip.storeBytes (s : Chip) (a : Nat) (bs : List Byte) : Chip :=
  let t := s.setBytes a bs
  { t with cst := { t.cst with ue := t.cst.ue.filter fun w => !(decide (a ≤ w) && decide (w + 8 ≤ a + bs.length)) } }

/-- Put data into the HOST region and push its DATA entry (R325, R572). With no block large enough the push counts as
refused; a stallable producer's data then waits outside the store. -/
def Chip.pushData (s : Chip) (n : Nat) (c : RCls) (bytes : List Byte) (item : Nat) (client : Option Byte) :
    PushRes × Chip :=
  let units := (bytes.length + 31) / 32
  if s.get (Fld.RNG_RCFG_PRD n) ≠ c.code then (.wrongClass, s)
  else if !s.ringOpen n then (.disabled, s.refusedPush n)
  else match s.hostFit (c == .orr) units with
    | none => (.full, if c.stallable then (s.bump (Fld.RNG_STAT_STL n)).set Fld.RNG_IST_STALL else s.refusedPush n)
    | some u => (s.storeBytes (store + 32 * u) (bytes ++ List.replicate (32 * units - bytes.length) 0#8)).push n c
        { val := dataEntry u units, item := item, client := client }

/-- The class of a code (R323). -/
def rclsOf (n : Nat) : RCls :=
  match n with
  | 1 => .host
  | 2 => .tun
  | 3 => .orr
  | 4 => .img
  | 5 => .mrk
  | 6 => .alm
  | _ => .none

/-- A push of a stallable producer that may have to wait: behind one that waits already, or for a block for its data (R324, R572). `who` is the
master that wrote it to HPSH. -/
def Chip.pushOrHold (s : Chip) (n : Nat) (c : RCls) (v : Word) (data : List Byte) (who : Option Master) : PushRes × Chip :=
  let r := s.ring n
  let hold (t : Chip) : Chip :=
    t.setRing n { t.ring n with held := (t.ring n).held ++ [{ cls := c.code, val := v, data := data, who := who }] }
  if s.get (Fld.RNG_RCFG_PRD n) = c.code && s.ringOpen n && c.stallable && (r.stalled.isSome || !r.held.isEmpty) then
    (.full, hold ((s.bump (Fld.RNG_STAT_STL n)).set Fld.RNG_IST_STALL))
  else if data.isEmpty then
    match s.push n c { val := v } with
    | (.full, t) => (.full, if c.stallable then t.setRing n { t.ring n with pusher := who } else t)
    | x => x
  else match s.pushData n c data 0 none with
    | (.full, t) => (.full, if c.stallable && (t.ring n).stalled.isNone then hold t else t)
    | x => x

/-- The pushes held on ring `n` go on, oldest first, while they find room (R324, R572). -/
def Chip.retryHeld (s : Chip) (n : Nat) : Nat → Chip
  | 0 => s
  | fuel + 1 =>
    match (s.ring n).held with
    | [] => s
    | h :: l =>
      if (s.ring n).stalled.isSome || !s.ringOpen n || (!h.data.isEmpty && (s.hostFit (h.cls = 3) ((h.data.length + 31) / 32)).isNone) then s
      else ((s.setRing n { s.ring n with held := l }).pushOrHold n (rclsOf h.cls) h.val h.data h.who).2.retryHeld n fuel

/-- Every ring with held pushes. -/
def Chip.retryAllHeld (s : Chip) : Chip :=
  s.cst.rings.foldl (fun t r => if r.2.held.isEmpty then t else (t.retryPush r.1).retryHeld r.1 r.2.held.length) s

/-- The oldest push that a producer of ring `n` holds is given up: who wrote it (R324). -/
def Chip.dropPush (s : Chip) (n : Nat) : Option Master × Chip :=
  let r := s.ring n
  match r.stalled, r.held with
  | some _, _ => (r.pusher, s.setRing n { r with stalled := none, pusher := none })
  | none, h :: l => (h.who, s.setRing n { r with held := l })
  | none, [] => (none, s)

/-- A held HPSH is answered: its writer sees the status (R324, R342). -/
def Chip.answerPush (s : Chip) (who : Option Master) (st : Status) : Chip :=
  if who.isSome then { s with fab := { s.fab with rstat := st } } else s

/-! ### Pop, completion, discard (R321, R325, R340) -/

/-- How a pop ended. -/
inductive PopRes
  | entry (e : Entry)
  | empty
  | wrongClass
  | disabled
  deriving DecidableEq, Repr

/-- Drop the entries at the head of ring `n` whose item is being discarded (R340), counting them. -/
def Chip.dropDiscarded (s : Chip) (n : Nat) : Nat → Chip
  | 0 => s
  | fuel + 1 =>
    let r := s.ring n
    match r.ents with
    | e :: es =>
      if e.item != 0 && r.discard.contains e.item then
        (((s.setRing n { r with ents := es }).bump (Fld.RNG_STAT_DSC n)).consumed n e).dropDiscarded n fuel
      else s
    | [] => s

/-- Pop ring `n` as class `c` (R321, R323, R325, R327). ALM and ORR consumers complete a DATA entry at the pop. -/
def Chip.pop (s : Chip) (n : Nat) (c : RCls) : PopRes × Chip :=
  if s.get (Fld.RNG_RCFG_CNS n) ≠ c.code then (.wrongClass, s)
  else if !s.ringOpen n then (.disabled, s)
  else
    let s := s.dropDiscarded n (s.ring n).ents.length
    let r := s.ring n
    match r.ents with
    | [] => (.empty, s)
    | e :: es =>
      let t := if s.ringData n && !(c == .orr || c == .alm) then
          (s.setRing n { r with ents := es, popped := r.popped ++ [e] }).retryPush n
        else ((s.setRing n { r with ents := es }).consumed n e).retryPush n
      -- entries of a discarded item that now reach the head go at once (R340)
      (.entry e, if r.discard.isEmpty then t else t.dropDiscarded n es.length)

/-- Is a popped entry of ring `n` on its way over SPI? -/
def Chip.spiHolds (s : Chip) (n : Nat) (e : Entry) : Bool :=
  (s.hb.q2 ++ s.hb.q3 ++ s.hb.q4).any fun r => r.ring == some n && r.val == e.val

/-- Complete the oldest popped entry of ring `n` that `p` names (R325). -/
def Chip.completeIf (s : Chip) (n : Nat) (p : Entry → Bool) : Chip :=
  let r := s.ring n
  match r.popped.find? p with
  | none => s
  | some e => ((s.setRing n { r with popped := eraseFirst p r.popped }).consumed n e).retryPush n

/-- Complete the oldest popped entry of ring `n` (R325); those on their way over SPI complete there (R354). -/
def Chip.complete (s : Chip) (n : Nat) : Chip := s.completeIf n fun e => !s.spiHolds n e

/-- Return popped entries that `p` names to the head of the ring, to be delivered again (R349, R355). -/
def Chip.unpop (s : Chip) (n : Nat) (p : Entry → Bool) : Chip :=
  let r := s.ring n
  s.setRing n { r with ents := r.popped.filter p ++ r.ents, popped := r.popped.filter fun e => !p e }

/-- Clearing a ring's EN (R327): every entry is discarded as if consumed; a push that waits is refused, with 0x21 for the host, and is dropped
and counted for other producers (R342). -/
def Chip.emptyRing (s : Chip) (n : Nat) : Chip :=
  let r := s.ring n
  let s1 := s.setRing n noEntries
  let s2 := (r.popped ++ r.ents).foldl (fun t e => t.consumed n e) s1
  if s.get (Fld.RNG_RCFG_PRD n) = RCls.host.code then
    -- a request that waits with its push gets its own answer
    (if s.hb.pushWait.any (fun w => w.1 == n) then s2 else s2.answerPush ((r.held.map (·.who)).foldl (·.or ·) r.pusher) St.state)
  else (List.range ((if r.stalled.isSome then 1 else 0) + r.held.length)).foldl (fun t _ => t.refusedPush n) s2

/-- Discard what an item has left on its rings (R339, R340). -/
def Chip.discardItem (s : Chip) (item : Nat) : Chip :=
  [0, 1].foldl (fun t stn =>
    let n := t.imgRing stn
    let r := t.ring n
    if r.ents.any (·.item == item) then
      (t.setRing n { r with discard := r.discard.filter (· != item) ++ [item] }).dropDiscarded n r.ents.length
    else t) ((s.trimRun item 0).trimRun item 1)

end Sys2Proof.Machine
end

