-- ==== Sys2Proof/Machine/Clients.lean ====
section
/-!
DEFINITION. The client table of the host bridge (R81, R361) and the EVT packets sent to clients (R359).
-/
namespace Sys2Proof.Machine

/-- An entry of the client table after reset (R81, R363): CLOSED, limit 4; client 0 holds every right, the others R. -/
def resetClient (id : Nat) : Client :=
  { opened := false, spi := false, evs := false, o := id == 0, g := id == 0, crl := 4,
    prl := 2 ^ 28 - 1, prp := 2 ^ 23 - 1,
    pwl := if id = 0 then 2 ^ 28 - 1 else 0, pwp := if id = 0 then 2 ^ 23 - 1 else 0,
    pxl := if id = 0 then 2 ^ 28 - 1 else 0, pxp := if id = 0 then 2 ^ 23 - 1 else 0,
    seqs := [], lastSeq := 0, tags := [], evt := 0, closing := none }

/-- The table entry of client `id`. -/
def Chip.client (s : Chip) (id : Nat) : Client :=
  match s.hb.clients.find? (fun c => c.1 == id) with
  | some c => c.2
  | none => resetClient id

/-- CLI.CST, CRT, PRL–PXP and SEQ show the entry that SEL selects. -/
def Chip.showClient (s : Chip) : Chip :=
  let c := s.client (s.get Fld.CLI_SEL_ID)
  let s := ((s.put Fld.CLI_CST_OUTS c.tags.length).putB Fld.CLI_CST_IF c.spi).putB Fld.CLI_CST_OPEN c.opened
  let s := (((s.putB Fld.CLI_CRT_EVS c.evs).putB Fld.CLI_CRT_O c.o).putB Fld.CLI_CRT_G c.g).put Fld.CLI_CRT_CRL c.crl
  let s := (((s.put Fld.CLI_PRL_P c.prl).put Fld.CLI_PRP_P c.prp).put Fld.CLI_PWL_P c.pwl).put Fld.CLI_PWP_P c.pwp
  ((s.put Fld.CLI_PXL_P c.pxl).put Fld.CLI_PXP_P c.pxp).put Fld.CLI_SEQ_S c.lastSeq

/-- Change a table entry, apart from what CLI shows; entries equal to the reset entry are not listed. -/
def Chip.putClient (s : Chip) (id : Nat) (c : Client) : Chip :=
  let rest := s.hb.clients.filter (fun x => x.1 != id)
  let l := if c = resetClient id then rest
    else rest.takeWhile (fun x => decide (x.1 < id)) ++ (id, c) :: rest.dropWhile (fun x => decide (x.1 < id))
  { s with hb := { s.hb with clients := l } }

/-- Change a table entry. -/
def Chip.setClient (s : Chip) (id : Nat) (c : Client) : Chip :=
  let s := s.putClient id c
  if id = s.get Fld.CLI_SEL_ID then s.showClient else s

/-- The clients that are open, by rising ID. -/
def Chip.openClients (s : Chip) : List Nat := (s.hb.clients.filter (·.2.opened)).map (·.1)

/-- A page right of a client (R81), given the two words of the right. -/
def rightOn (l p : Nat) (addr : Nat) : Bool :=
  if onPDie addr then bitsOf p ((addr - 0x50000000) / 0x4000) 1 == 1
  else bitsOf l ((addr - 0x40000000) / 0x4000) 1 == 1

/-- Right R of client `id` on the page at `addr`. -/
def Chip.mayR (s : Chip) (id addr : Nat) : Bool := rightOn (s.client id).prl (s.client id).prp addr
/-- Right W. -/
def Chip.mayW (s : Chip) (id addr : Nat) : Bool := rightOn (s.client id).pwl (s.client id).pwp addr
/-- Right X. -/
def Chip.mayX (s : Chip) (id addr : Nat) : Bool := rightOn (s.client id).pxl (s.client id).pxp addr

/-- A device-to-host packet (R356). -/
def devPacket (clid tag op flags seq : Nat) (payload : List Byte) : List Byte :=
  leBytes 1 clid ++ leBytes 1 tag ++ leBytes 1 op ++ leBytes 1 flags ++ leBytes 2 payload.length ++ leBytes 2 seq ++ payload

/-- Send an EVT to one client (R359): discarded when it is CLOSED; otherwise its event count advances and the packet enters
ring 6 as the Orrery's push. A push that ring 6 refuses is lost there (R286). -/
def Chip.sendEvt (s : Chip) (id : Nat) (code : Nat) (data : List Byte) : Chip :=
  let c := s.client id
  if !c.opened then s
  else
    let n := (c.evt + 1) % 65536
    ((s.setClient id { c with evt := n }).pushData 6 .orr
      (devPacket id 0 0x08 0 n (leBytes 1 code ++ data)) 0 (some (BitVec.ofNat 8 id))).2

/-- The answer of a request (R357, R363): an RSP for its client's interface, unless the client has closed meanwhile; the request is no
longer among those that run. -/
def Chip.respondFlags (s : Chip) (h : Hdr) (fl : Nat) (st : Status) (data : List Byte) : Chip :=
  let mine (r : Req) : Bool := r.started && r.hdr.clid == h.clid && r.hdr.tag == h.tag
  let gone := match s.hb.reqs.find? mine with
    | some r => !r.answers
    | none => !(s.client h.clid.toNat).opened
  let s := { s with hb := { s.hb with reqs := eraseFirst mine s.hb.reqs } }
  let r : Rsp := { clid := h.clid, tag := h.tag, credit := true,
                   bytes := devPacket h.clid.toNat h.tag.toNat 0x09 fl h.seq.toNat (st :: data) }
  if gone then s
  else if h.spi then { s with hb := { s.hb with rspSpi := s.hb.rspSpi ++ [r] } }
  else { s with hb := { s.hb with rspUsb := s.hb.rspUsb ++ [r] } }

/-- The same with no flag set. -/
def Chip.respond (s : Chip) (h : Hdr) (st : Status) (data : List Byte) : Chip := s.respondFlags h 0 st data

/-- A long answer, continued in RSP packets of at most 1,024 payload bytes with MORE in every one but the last (R448); only the last
returns the credit. -/
def Chip.respondParts (s : Chip) (h : Hdr) (payload : List Byte) : Nat → Chip
  | 0 => s
  | n + 1 =>
    if payload.length ≤ 1024 then s.respond h (payload.headD 0#8) (payload.drop 1)
    else
      let r : Rsp := { clid := h.clid, tag := h.tag, credit := false,
                       bytes := devPacket h.clid.toNat h.tag.toNat 0x09 4 h.seq.toNat (payload.take 1024) }
      let s := if !(s.client h.clid.toNat).opened then s
        else if h.spi then { s with hb := { s.hb with rspSpi := s.hb.rspSpi ++ [r] } }
        else { s with hb := { s.hb with rspUsb := s.hb.rspUsb ++ [r] } }
      s.respondParts h (payload.drop 1024) n

/-- Send an EVT to every open client that subscribes to events (R359). -/
def Chip.sendEvs (s : Chip) (code : Nat) (data : List Byte) : Chip :=
  s.openClients.foldl (fun t id => if (t.client id).evs then t.sendEvt id code data else t) s

end Sys2Proof.Machine
end

