-- ==== Sys2Proof/Machine/Log.lean ====
section
/-!
DEFINITION. Log records (R437) and their staging (R438, R439).
-/
namespace Sys2Proof.Machine

/-- Next LSEQ after `n` (R439): 0 is never assigned. -/
def nextLseq (n : Nat) : Nat := if n = 0xFFFFFFFF then 1 else n + 1

/-- Take the next LSEQ (R438): LOG.NSEQ advances, and LOG.TAKE shows the same number. -/
def Chip.takeLseq (s : Chip) : Nat × Chip :=
  let n := s.get Fld.LOG_NSEQ_N
  (n, (s.put Fld.LOG_NSEQ_N (nextLseq n)).put Fld.LOG_TAKE_N (nextLseq n))

/-- What the writer of a log record gives (R437). -/
structure LogBody where
  kind : Nat
  cls : Nat
  code : Nat
  cnt : Nat := 0
  item : Nat := 0
  data : List Byte := []
  mst : Nat := 0
  clid : Nat := 0
  deriving DecidableEq, Repr

/-- The 32 bytes of a log record (R437). -/
def Chip.logBytes (s : Chip) (lseq : Nat) (b : LogBody) : List Byte :=
  let body := leBytes 4 lseq ++ leBytes 4 (s.get Fld.RTC_SEC_S) ++ leBytes 2 (s.get Fld.RTC_SUB_T * 1000 / 32768) ++
    leBytes 1 b.kind ++ leBytes 1 b.cls ++ leBytes 2 b.code ++ leBytes 1 (min b.cnt 255) ++
    leBytes 1 (s.get Fld.HRV_STA_SRC) ++ leBytes 4 b.item ++
    (b.data ++ List.replicate 8 0#8).take 8 ++ leBytes 1 b.clid ++ leBytes 1 b.mst
  body ++ leBytes 2 (crc16 body).toNat

/-- Put a record among the staged ones by rising LSEQ. -/
def logInsert (r : LogRec) : List LogRec → List LogRec
  | [] => [r]
  | x :: xs => if r.lseq < x.lseq then r :: x :: xs else x :: logInsert r xs

/-- A record arrives at Almanac firmware (R439): at most 128 are staged; when full the oldest NOTE is dropped, or the oldest
record when there is no NOTE. -/
def Chip.logArrive (s : Chip) (r : LogRec) : Chip :=
  let st := s.alm.staged
  let full := 128 ≤ st.length
  let st' := if full then (if st.any (·.cls == 1) then eraseFirst (·.cls == 1) st else st.tail) else st
  let s := { s with alm := { s.alm with staged := logInsert r st', taken := s.alm.taken.filter (·.1 != r.lseq) } }
  let s := s.set Fld.LOG_STA_HELD
  if full then (s.bump Fld.LOG_DROP_N).set Fld.LOG_IST_DROP else s

/-- The PWRLOSS record is staged beside what staging holds (R571): none is dropped for it. -/
def Chip.stageLoss (s : Chip) (b : LogBody) : Chip :=
  let (n, s) := s.takeLseq
  ({ s with alm := { s.alm with staged := logInsert { lseq := n, cls := b.cls, bytes := s.logBytes n b } s.alm.staged } }).set Fld.LOG_STA_HELD

/-- Number and stage a log record (R438); answers its LSEQ. -/
def Chip.stageLog (s : Chip) (b : LogBody) : Nat × Chip :=
  let (n, s) := s.takeLseq
  (n, s.logArrive { lseq := n, cls := b.cls, bytes := s.logBytes n b })

end Sys2Proof.Machine
end

