-- ==== Sys2Proof/Machine/Ops.lean ====
section
/-!
DEFINITION. Shared operations of the engine: events to the Orrery (R278, R302), mode commands and drivers, Last Line
(R517, R518), engine state (R92), items and how they end (R105–R116), image trailers of items that end early (R185),
the abort-mark sequence (R214) and the jam stop (R240).
-/
namespace Sys2Proof.Machine

/-! ### Events (R278, R302, R303) -/

/-- Context `c` of the Orrery. -/
def Chip.ctx (s : Chip) (c : Nat) : Ctx :=
  match c with
  | 0 => s.orr.c0
  | 1 => s.orr.c1
  | 2 => s.orr.c2
  | _ => s.orr.c3

/-- Put context `c` back. -/
def Chip.setCtx (s : Chip) (c : Nat) (x : Ctx) : Chip :=
  { s with orr := match c with
    | 0 => { s.orr with c0 := x }
    | 1 => { s.orr with c1 := x }
    | 2 => { s.orr with c2 := x }
    | _ => { s.orr with c3 := x } }

/-- Event condition `k` becomes visible to context `c` (R302): its latch is set, and so is the pending latch of every
enabled dispatch entry that names it (R278). -/
def Chip.eventTo (s : Chip) (c k : Nat) : Chip :=
  let x := s.ctx c
  let s := if x.evl.contains k then s else s.setCtx c { x with evl := k :: x.evl }
  (List.range 8).foldl (fun t n =>
    if t.on (Fld.ORC_DSP_EN c n) && t.get (Fld.ORC_DSP_COND c n) == k then
      t.put (Fld.ORC_PEND_PND c) (t.get (Fld.ORC_PEND_PND c) ||| 2 ^ n) else t) s

/-- Event condition `k` becomes visible to every context; the latches of one that is stopped collect too (R279). -/
def Chip.eventAll (s : Chip) (k : Nat) : Chip := (((s.eventTo 0 k).eventTo 1 k).eventTo 2 k).eventTo 3 k

/-- Event condition `k` is raised in the cycle that the Orrery has reached. It passes the event router and becomes visible two cycles later (R277).
With no context running the two cycles are not told apart. -/
def Chip.eventIn (s : Chip) (k : Nat) : Chip :=
  if !s.on Fld.ORR_CTL_EN then s.eventAll k
  else
    let e := (s.get Fld.ORR_CYC_N, k)
    if s.orr.evq.contains e then s else { s with orr := { s.orr with evq := s.orr.evq ++ [e] } }

/-- A pulse of an event router source reaches the input lines that name it (R501). -/
def Chip.route (s : Chip) (src : Nat) : Chip :=
  if s.on Fld.GPI_CTL_EN then
    [0, 1, 2, 3].foldl (fun t m =>
      if t.get (Fld.GPI_RSEL_SRC m) = src && t.get (Fld.GPI_RSEL_EDGE m) != 0 then t.eventIn (0x75 + m) else t) s
  else s

/-- The router source that an event condition is, if it is one (R501): BD, UNLOCK, fault notice. -/
def routeSrc (k : Nat) : Nat := if k = 0x21 then 0x22 else if k = 0x2D then 0x23 else if k = 0x12 then 0x25 else 0

/-- An event is raised: it reaches every context and the event router. -/
def Chip.event (s : Chip) (k : Nat) : Chip := if routeSrc k = 0 then s.eventIn k else (s.eventIn k).route (routeSrc k)

/-! Event condition codes (R303). -/
namespace Ev
abbrev halt : Nat := 0x06
abbrev jam : Nat := 0x10
abbrev stall : Nat := 0x11
abbrev fltn : Nat := 0x12
abbrev cmd : Nat := 0x13
abbrev admitted : Nat := 0x14
abbrev abrtmk : Nat := 0x15
abbrev dbnd : Nat := 0x16
abbrev bd : Nat := 0x21
abbrev unlock : Nat := 0x2D
abbrev bdone : Nat := 0x54
abbrev jobch : Nat := 0x55
abbrev v7new : Nat := 0x6D
abbrev tick : Nat := 0x74
end Ev

/-! ### Drivers (R250, R256, R312, R315) -/

/-- A slot as reset leaves it. -/
def idleSlot : Slot :=
  { df := 0, rPrev := 0, yPrev := 0, miss := 0, frz := 0, uMin := 0, uMax := 0, bind := 0, cmd := none, wait := 0, seen := 0,
    opp := 0, refT := none, refCnt := 0, refEdges := 0, vel := 0, held := false }

/-- Slot `n` of Heliostat beyond its block. -/
def Chip.slot (s : Chip) (n : Nat) : Slot := (s.hel.slots[n]?).getD idleSlot

/-- Put slot `n` back. -/
def Chip.setSlot (s : Chip) (n : Nat) (x : Slot) : Chip :=
  if h : n < 12 then { s with hel := { s.hel with slots := s.hel.slots.set n x h } } else s

/-- A mode command reaches slot `n` and waits for the next computation window (R250). -/
def Chip.helCmd (s : Chip) (n mode : Nat) : Chip := s.setSlot n { s.slot n with cmd := some mode }

/-! Heliostat modes (R256). -/
namespace Mode
abbrev off : Nat := 0
abbrev run : Nat := 1
abbrev hold : Nat := 2
abbrev brake : Nat := 3
abbrev coast : Nat := 4
abbrev open_ : Nat := 5
end Mode

/-- The mode that stops an axis (R240, R515): BRAKE for a DC axis, HOLD for a stepper. -/
def Chip.stopMode (s : Chip) (axis : Nat) : Nat :=
  if s.get (Fld.MOT_AX_TYPE axis) = 1 then Mode.hold else Mode.brake

/-- Axis `a` (0 A, 1 B). -/
def Chip.axis (s : Chip) (a : Nat) : Axis := if a = 0 then s.mot.axA else s.mot.axB

/-- Put it back. -/
def Chip.setAxis (s : Chip) (a : Nat) (x : Axis) : Chip :=
  { s with mot := if a = 0 then { s.mot with axA := x } else { s.mot with axB := x } }

/-- An axis is commanded no speed, and its ramp ends. -/
def Chip.endRamp (s : Chip) (a : Nat) : Chip :=
  (s.setAxis a { s.axis a with goal := 0, start := 0, age := 0 }).put (Fld.MOT_CM_SPD a) 0

/-- An axis is commanded to stop: brake (DC) or hold (stepper). -/
def Chip.stopAxis (s : Chip) (a : Nat) : Chip :=
  if s.get (Fld.MOT_AX_TYPE a) = 0 then s
  else ((s.endRamp a).helCmd (1 + a) (s.stopMode a)).put (Fld.MOT_CM_MODE a) (if s.stopMode a = Mode.hold then 3 else 2)

/-- Every transport axis that is fitted is commanded to stop (R240). -/
def Chip.stopAxes (s : Chip) : Chip := (s.stopAxis 0).stopAxis 1

/-- Command solenoid switches off (R315). -/
def Chip.solOff (s : Chip) (mask : Nat) : Chip :=
  { s with mot := { s.mot with solCmd := s.mot.solCmd &&& (0x3F - bitsOf mask 0 6 % 64) } }

/-- Close every beam gate and force MOD0–MOD2 and GP0 low; lines of sweeps in progress are marked INVAL (ACT0 GCLR, R312). -/
def Chip.gclr (s : Chip) : Chip :=
  let g (x : Station) : Station := { x with armed := false, armNext := false, inval := x.inval || x.sweeping, dark := x.dark || x.sweeping }
  { s with mer := { s.mer with s0 := g s.mer.s0, s1 := g s.mer.s1, s2 := g s.mer.s2,
                               mod0 := false, mod1 := false, mod2 := false, gp0 := false } }

/-! ### Driver gating (R34, R35) -/

/-- Is the actuator (codes of R246, 1–11) commanded to drive by the latest RT frame? -/
def Chip.actOn (s : Chip) (a : Nat) : Bool :=
  match s.fab.down.modes[a]? with
  | some m => m != 0 && m != 4
  | none => false

/-- Are the bridges of axis `a` switching? BRAKE and OFF short the windings through the low-side switches, which is their reset state (R256). -/
def Chip.axisOn (s : Chip) (a : Nat) : Bool :=
  match s.fab.down.modes[2 + a]? with
  | some m => m == Mode.run || m == Mode.hold || m == Mode.open_
  | none => false

/-- A mask of `n` bits from a predicate. -/
def maskOf (n : Nat) (p : Nat → Bool) : Nat := (List.range n).foldl (fun m i => if p i then m + 2 ^ i else m) 0

/-- A signed fraction of full scale, where 0x7FFF_FFFF is +FS, in units of which the full scale has `fs` (R248). DESIGN CHOICE (log entry 164):
the part of a unit is dropped. -/
def ofFull (u : Int) (fs : Nat) : Int := (u * fs).tdiv 2147483647

/-- What the latest RT frame commands of actuator `a` as output. -/
def Chip.downOut (s : Chip) (a : Nat) : Int := ((s.fab.down.outs[a]?).getD 0#32).toInt

/-- The current limit of the polygon driver, in mA (R237, R238, R248): PALI in align, else what the loop commands, none for u < 0; at most PICL, and
none while the driver is off. -/
def Chip.polyCurrent (s : Chip) : Nat :=
  if !s.mot.polyOn then 0
  else min (if s.get Fld.MDR_PSTA_ST = 1 then 10 * s.get Fld.MDR_PGEO_PALI else (ofFull (max 0 (s.downOut 1)) 1500).toNat) (10 * s.get Fld.MDR_PICL_I)

/-- The P-die drives the polygon with that limit. -/
def Chip.syncPoly (s : Chip) : Chip := { s with mot := { s.mot with polyMa := s.polyCurrent } }

/-- Show the polygon's start state (MDR.PSTA and its copy). -/
def Chip.polyState (s : Chip) (st : Nat) : Chip := ((s.put Fld.MDR_PSTA_ST st).put Fld.MDR_STA_PST st).syncPoly

/-- The current limit of bridge `b` in mA (R235): none while it is off; the run or hold current that the frame carries for a stepper, whose windings
share it, and never above HICLn; HICLn for a DC axis. -/
def Chip.bridgeLimit (s : Chip) (b : Nat) : Nat :=
  if bitsOf (s.get Fld.MDR_STA_HON) b 1 = 0 then 0
  else
    let top := 10 * s.get (Fld.MDR_HICL_I b)
    if s.get (Fld.MOT_AX_TYPE (b / 2)) = 1 then min top (10 * (s.fab.down.holds[b / 2]?).getD 0) else top

/-- What the bridges of axis `a` drive (R235, R248): signed duty in 0.1 % of a DC axis; of a stepper the signed speed in 1/64 full step per second,
as the frame's microsteps of 1/2^MS full step make it. -/
def Chip.axisDrive (s : Chip) (a : Nat) : Int :=
  if bitsOf (s.get Fld.MDR_STA_HON) (2 * a) 1 = 0 then 0
  else match s.get (Fld.MOT_AX_TYPE a) with
    | 1 => ofFull (s.downOut (2 + a)) 262144 * (2 ^ (6 - s.get (Fld.MOT_AX_MS a)) : Nat)
    | 2 => ofFull (s.downOut (2 + a)) 1000
    | _ => 0

/-- The bridges drive as the latest frame, AXn and the ceilings have it. -/
def Chip.syncBridges (s : Chip) : Chip :=
  { s with mot := { s.mot with hbMa := Vector.ofFn fun b => s.bridgeLimit b.val, axDrive := Vector.ofFn fun a => s.axisDrive a.val } }

/-- The polygon driver is on or lets the polygon coast, which is never braked (R35, R238): back-EMF commutation and a start end at
once; a polygon that does not turn is stopped. -/
def Chip.polyDrive (s : Chip) (on : Bool) : Chip :=
  if on then ({ s with mot := { s.mot with polyOn := true } }).syncPoly
  else
    let s := { s with mot := { s.mot with polyOn := false, polyFails := 0, polyWait := 0 } }
    if s.get Fld.MDR_PSTA_RPM = 0 || s.get Fld.MDR_PSTA_ST = 0 then s.polyState 0 else s.polyState 4

/-- Does the axis of bridge `i` use it (R235): a stepper both of its bridges, a DC axis the first alone or, with PAR, both? -/
def Chip.bridgeUsed (s : Chip) (i : Nat) : Bool :=
  match s.get (Fld.MOT_AX_TYPE (i / 2)) with
  | 1 => true
  | 2 => i % 2 == 0 || s.on (Fld.MOT_AX_PAR (i / 2))
  | _ => false

/-- SOL.SON shows what the latest RT frame commands, SOL.STA.ON which switches conduct (R245). -/
def Chip.showSols (s : Chip) : Chip :=
  (s.put Fld.SOL_SON_ON (bitsOf s.fab.down.sols 0 6)).put Fld.SOL_STA_ON (maskOf 6 fun i => match s.mot.sols[i]? with
    | some .peak => true
    | some .hold => true
    | _ => false)

/-- Are the lasers that station `n` needs able to emit (R35, R163)? LD0 for VIS, LD1 for IR, LD2 for the write station. -/
def Chip.sourcesLit (s : Chip) (n : Nat) : Bool :=
  let on (k : Nat) : Bool := bitsOf (s.get Fld.LDR_STA_ON) k 1 == 1
  let slot (c : Nat) : Bool := bitsOf (s.get Fld.MER_SLT_EN) c 1 == 1
  let uvx := s.on Fld.GPI_CTL_EN && s.get (Fld.GPI_PCFG_FUN 0) == 4 && !s.orr.uvOff
  if n = 2 then on 2 else (!slot 0 || on 0) && (!slot 1 || on 1) && (!slot 2 || uvx)

/-- A sweep during any part of which one of its sources is held off is marked INVAL (R162, R171). -/
def Chip.markUnlit (s : Chip) : Chip :=
  let g (n : Nat) (x : Station) : Station := { x with inval := x.inval || (x.sweeping && !s.sourcesLit n) }
  { s with mer := { s.mer with s0 := g 0 s.mer.s0, s1 := g 1 s.mer.s1, s2 := g 2 s.mer.s2 } }

/-- The outputs of the P-die drivers follow from the sideband lines, CTL.EN of their pages, the latest RT frame and Last
Line (R35): the ON bits of LDR, HVD, FUS, MDR and SOL show them. A ceiling of 0 keeps a laser, an HV channel and the polygon driver off
(R220, R245). DESIGN CHOICE (log entry 140): what overcurrent or overspeed has turned off (R235, R238) comes on again only after it
has been commanded off, the rule that R239 states for the solenoid switches. -/
def Chip.gateDrivers (s : Chip) : Chip :=
  let ll := s.on Fld.ILK_STA_LL
  let ld := s.fab.ldEn && s.on Fld.LDR_CTL_EN && !ll
  let hv := s.fab.hvEn && s.on Fld.HVD_CTL_EN && !ll
  let ht := s.fab.htrEn && s.on Fld.FUS_CTL_EN && !ll && !s.on Fld.FUS_STA_CUT && s.get (Fld.FUS_TH_ST 0) != 3
  let mt := s.fab.mtrEn && s.on Fld.MDR_CTL_EN && !ll
  let so := s.fab.mtrEn && s.on Fld.SOL_CTL_EN && !ll
  let s := s.put Fld.LDR_STA_ON (maskOf 3 fun i => ld && s.actOn (5 + i) && s.get (Fld.LDR_CEIL_I i) != 0)
  let s := s.put Fld.HVD_STA_ON (maskOf 4 fun i => hv && s.actOn (8 + i) && s.get (Fld.HVD_CEIL_C i) != 0)
  let s := s.putB Fld.FUS_STA_HTON (ht && s.actOn 4)
  let s := { s with mot := { s.mot with
    bridgeTrip := maskOf 4 fun i => bitsOf s.mot.bridgeTrip i 1 == 1 && s.actOn (2 + i / 2), polyTrip := s.mot.polyTrip && s.actOn 1 } }
  let s := s.put Fld.MDR_STA_HON (maskOf 4 fun i => mt && s.axisOn (i / 2) && s.bridgeUsed i && bitsOf s.mot.bridgeTrip i 1 == 0)
  let sols := Vector.ofFn (n := 6) fun i =>
    let want := so && bitsOf s.fab.down.sols i.val 1 == 1
    match s.mot.sols[i] with
    | .latched => if bitsOf s.fab.down.sols i.val 1 == 0 then SolSt.opened else SolSt.latched
    | .opened => if want then .peak else .opened
    | .peak => if want then .peak else .opened
    | .hold => if want then .hold else .opened
  let s := { s with mot := { s.mot with sols := sols } }
  (((s.polyDrive (mt && s.actOn 1 && !s.mot.polyTrip && s.get Fld.MDR_PICL_I != 0)).showSols).markUnlit).syncBridges

/-- The L-die drives the sideband lines (R34); the drivers follow (R35). -/
def Chip.driveLines (s : Chip) (ld hv htr mtr : Bool) : Chip :=
  ({ s with fab := { s.fab with ldEn := ld, hvEn := hv, htrEn := htr, mtrEn := mtr } }).gateDrivers

/-- The engine program commands the sideband lines. While the lanes are retrained the L-die holds them low, and they take the
commanded levels afterwards (R570). -/
def Chip.sidebands (s : Chip) (ld hv htr mtr : Bool) : Chip :=
  if s.fab.retraining then { s with fab := { s.fab with wantLd := ld, wantHv := hv, wantHtr := htr, wantMtr := mtr } }
  else s.driveLines ld hv htr mtr

/-! ### Last Line (R517, R518) -/

/-- Every driver goes to its Last Line state (R518): lasers, HV and heater off, solenoids open, bridges in brake, polygon
coasting; every slot whose actuator is cut goes OFF (R265). -/
def Chip.cutDrivers (s : Chip) : Chip :=
  let s := ((s.put Fld.LDR_STA_ON 0).put Fld.HVD_STA_ON 0).put Fld.FUS_STA_HTON 0
  -- a switch that overcurrent has opened stays latched (R239)
  let s := { s with mot := { s.mot with sols := s.mot.sols.map fun x => if x = SolSt.latched then x else .opened } }
  let s := (((s.showSols).polyDrive false).put Fld.MDR_STA_HON 0).markUnlit
  (List.range 12).foldl (fun t n =>
    if t.get (Fld.HLP_CFG_ACT n) = 0 || t.get (Fld.HLP_CFG_ACT n) = 12 then t else t.helCmd n Mode.off) s

/-- Trip Last Line by trigger `b` (R517): the cause latches, and the drivers are cut. -/
def Chip.tripLL (s : Chip) (b : Nat) : Chip :=
  let first := !s.on Fld.ILK_STA_LL
  let s := s.put Fld.ILK_LLC_C (s.get Fld.ILK_LLC_C ||| 2 ^ b)
  let s := if first then ((s.set Fld.ILK_STA_LL).set Fld.ILK_IST_LL).bump Fld.ILK_TCNT_N else s
  s.cutDrivers

/-- Trigger `b` is active now, or no longer (ILK.LLA). -/
def Chip.llActive (s : Chip) (b : Nat) (on : Bool) : Chip :=
  let a := s.get Fld.ILK_LLA_A
  s.put Fld.ILK_LLA_A (if on then a ||| 2 ^ b else a - (if bitsOf a b 1 = 1 then 2 ^ b else 0))

/-! ### Engine state (R91, R92) -/

/-! State codes (R91). -/
namespace Eng
abbrev off : Nat := 0
abbrev waking : Nat := 1
abbrev warmup : Nat := 2
abbrev ready : Nat := 3
abbrev run : Nat := 4
abbrev drain : Nat := 5
abbrev halt : Nat := 6
abbrev fault : Nat := 7
abbrev service : Nat := 8
end Eng

/-- The engine state. -/
def Chip.engine (s : Chip) : Nat := s.get Fld.DOC_ST_ST

/-- May the debug port be unlocked in an engine state (R544)? -/
def Chip.permit (s : Chip) (st : Nat) : Bool := !s.dbg.disabled && (st == Eng.off || st == Eng.fault || st == Eng.service)

/-- Move the engine to a state (R92): PREV, CAUSE, IST.STCH, and a STATE event (R359). An OFF that still waits for items ends with OFF, HALT,
FAULT and SERVICE, and so do the tracks of items on their way. -/
def Chip.goto (s : Chip) (st cause : Nat) : Chip :=
  let old := s.engine
  let ends := [Eng.off, Eng.halt, Eng.fault, Eng.service].contains st
  -- the window checker holds no windows in these states (R244), and an item whose sheet stops in the path has none left (R240)
  let s := { s with doc := { s.doc with drainToOff := s.doc.drainToOff && !ends }
                    mot := { s.mot with tracks := if ends then [] else s.mot.tracks, dfd := if ends then none else s.mot.dfd } }
  let s := ((s.put Fld.DOC_ST_ST st).put Fld.DOC_ST_PREV old).put Fld.DOC_ST_CAUSE cause
  let s := ((s.put Fld.DOC_STA_ST st).set Fld.DOC_IST_STCH).route 0x24
  let s := s.putB Fld.DBG_STA_PERMIT (s.permit st)
  s.sendEvs 0x02 (leBytes 4 (s.rd Reg.DOC_ST).toNat)

/-! ### Items (R94–R97, R105–R116) -/

/-- The open item with an ID. -/
def Chip.item (s : Chip) (id : Nat) : Option Item := s.doc.items.find? (fun x => x.id == id)

/-- Change one item. -/
def Chip.updItem (s : Chip) (id : Nat) (f : Item → Item) : Chip :=
  { s with doc := { s.doc with items := updFirst (fun x => x.id == id) f s.doc.items } }

/-- Is an item queued: accepted and neither admitted nor ended (R95)? -/
def Item.queued (x : Item) : Bool := x.phase == 1
/-- Is it admitted and not yet reported (R95)? -/
def Item.admitted (x : Item) : Bool := 2 ≤ x.phase
/-- Has its end been fixed, DONE or otherwise (R105)? -/
def Item.settled (x : Item) : Bool := x.ending.isSome

/-- May an event still end the item (R105, R120)? Until its closing record commits, an item that meets the conditions of DONE is FAILED by what
meets it. DEDUCED (log entry 142): of several events that end an item, the first one stands, as R120 has it for faults. -/
def Item.open_ (x : Item) : Bool :=
  match x.ending with
  | none => true
  | some e => e.out == 1 && !x.decided

/-- Show the counts of queued and admitted items (DOC.STA). -/
def Chip.syncItems (s : Chip) : Chip :=
  (s.put Fld.DOC_STA_NQUE (s.doc.items.countP (fun x => x.queued))).put Fld.DOC_STA_NADM
    (s.doc.items.countP (fun x => x.admitted))

/-- Is no item admitted (R73, R80)? -/
def Chip.noneAdmitted (s : Chip) : Bool := s.doc.items.all fun x => !x.admitted

/-! Outcomes (R116) and reasons (R107). -/
namespace Out
abbrev done : Nat := 1
abbrev failed : Nat := 2
abbrev withdrawn : Nat := 3
end Out

namespace Rsn
abbrev none : Nat := 0
abbrev power : Nat := 1
abbrev jam : Nat := 2
abbrev stall : Nat := 3
abbrev reverse : Nat := 4
abbrev markReverse : Nat := 5
abbrev storeOvf : Nat := 6
abbrev feedback : Nat := 7
abbrev safety : Nat := 8
abbrev aborted : Nat := 9
abbrev heat : Nat := 10
abbrev doubleFeed : Nat := 11
abbrev size : Nat := 12
abbrev hostDrain : Nat := 13
end Rsn

/-! ### Image triggers of an item that ends (R185, R191, R194) -/

/-- Trigger `n`. -/
def Chip.trig (s : Chip) (n : Nat) : Trigger := if n = 0 then s.img.t0 else s.img.t1

/-- Put trigger `n` back. -/
def Chip.setTrig (s : Chip) (n : Nat) (t : Trigger) : Chip :=
  { s with img := if n = 0 then { s.img with t0 := t } else { s.img with t1 := t } }

/-- The idle trigger. -/
def idleTrigger : Trigger :=
  { item := 0, p0 := 0, pitch := 0, lofs := 0, hys := 0, rvmx := 0, slots := 0, sfmt := 0, next := 0, nlmax := 0, pend := [],
    fired := none, gap := 0, rvs := false, hwm := none, lastIdx := none, nline := 0, ndrop := 0, flagOr := 0,
    reversed := false, stop := none }

/-- The image trailer of trigger `n` (R191). DESIGN CHOICE (log entry 189): before any line of the item has fired HWM is 0. -/
def Chip.trailer (s : Chip) (n endCode reason : Nat) : List Byte :=
  let t := s.trig n
  let b := leBytes 1 0x03 ++ leBytes 1 n ++ leBytes 2 1 ++ leBytes 4 t.item ++ leBytes 2 t.nline ++ leBytes 2 t.flagOr ++
    leBytes 1 endCode ++ leBytes 1 reason ++ leBytes 2 (min t.ndrop 65535) ++ leBytes 4 (codeOf (t.hwm.getD 0) 32) ++
    List.replicate 10 0#8
  b ++ leBytes 2 (crc16 b).toNat

/-- Build the trailer of trigger `n`, hand it to the record writer, and return the trigger to IDLE (R185). -/
def Chip.closeTrig (s : Chip) (n endCode reason : Nat) : Chip :=
  let t := s.trig n
  let r : Rec := { stn := n, item := t.item, bytes := s.trailer n endCode reason }
  let s := { s with img := { s.img with recs := s.img.recs ++ [r] } }
  let s := s.setTrig n idleTrigger
  let s := ((if n = 0 then s.clr Fld.IMG_STA_ARM0 else s.clr Fld.IMG_STA_ARM1).put (Fld.IMG_TST_ST n) 0).put
    (Fld.IMG_TST_BKL n) 0
  s.putB Fld.IMG_STA_BACK (s.get (Fld.IMG_TST_ST 0) == 2 || s.get (Fld.IMG_TST_ST 1) == 2)

/-- Has the line that trigger `n` fired a sweep to come or in progress? With its gate closed by GCLR (R312), or with a station that is not enabled
or has no pixels to emit (R159), it has none. -/
def Chip.firedLives (s : Chip) (n : Nat) : Bool :=
  let x := if n = 0 then s.mer.s0 else s.mer.s1
  let canSweep := bitsOf (s.get Fld.MER_CTL_SEN) n 1 == 1 && s.get (Fld.MER_NPX_N n) != 0
  (s.trig n).fired.isSome && (x.sweeping || (x.armed && canSweep))

/-- Item `id` ends early with a reason: its triggers cancel what is pending; the trailer follows at once, or after the
sweep in progress (R185, R194). -/
def Chip.imgEnd (s : Chip) (id reason : Nat) : Chip :=
  [0, 1].foldl (fun u n =>
    let t := u.trig n
    if t.item = id && id ≠ 0 && t.stop.isNone then
      match (if u.firedLives n then t.fired else none) with
      | some _ => u.setTrig n { t with pend := [], stop := some reason }
      | none => (u.setTrig n { t with pend := [] }).closeTrig n 1 reason
    else u) s

/-! ### HV channels and the abort-mark sequence (R203–R206, R214) -/

/-- State of HV channel `n` (CHG, DEVDC, DEVAC, TRN). -/
def Chip.hv (s : Chip) (n : Nat) : HvSt :=
  match n with
  | 0 => s.mrk.hv0
  | 1 => s.mrk.hv1
  | 2 => s.mrk.hv2
  | _ => s.mrk.hv3

/-- Put it back. -/
def Chip.setHv (s : Chip) (n : Nat) (x : HvSt) : Chip :=
  { s with mrk := match n with
    | 0 => { s.mrk with hv0 := x }
    | 1 => { s.mrk with hv1 := x }
    | 2 => { s.mrk with hv2 := x }
    | _ => { s.mrk with hv3 := x } }

/-- The target in force of an HV channel (R203): min(HVSn, floor(0.98 × CEILn)). -/
def Chip.hvTarget (s : Chip) (k : Nat) : Nat := min (s.get (Fld.MRK_HVS_C k)) (s.get (Fld.HVD_CEIL_C k) * 98 / 100)

/-- How far a ramp of channel `n` from one level to another has come: linear over RMP, in RT frame periods of 10 µs (R204, R206). -/
def Chip.hvRamp (s : Chip) (n a b : Nat) : Nat :=
  let whole := max 1 (100 * s.get Fld.MRK_HSEQ_RMP)
  let k := min whole ((s.mrk.hvAge[n]?).getD 0)
  (a * (whole - k) + b * k) / whole

/-- The level that channel `n` is commanded to, in 2^-16 codes (R204–R206). -/
def Chip.hvLevel (s : Chip) (n : Nat) : Nat :=
  let start := (s.mrk.hvFrom[n]?).getD 0
  match s.hv n with
  | .off => 0
  | .ramp => s.hvRamp n start (s.hvTarget n * 65536)
  | .settled => s.hvTarget n * 65536
  | .down => s.hvRamp n start 0
  | .stale => start

/-- Channel `n` starts a ramp from the level it has, or is marked to wait for one there. -/
def Chip.startHv (s : Chip) (n : Nat) (x : HvSt) (level : Nat) : Chip :=
  ({ s with mrk := { s.mrk with hvFrom := s.mrk.hvFrom.setIfInBounds n level, hvAge := s.mrk.hvAge.setIfInBounds n 0 } }).setHv n x

/-- An RT frame period passes for the ramps in hand. -/
def Chip.hvTick (s : Chip) : Chip :=
  let moves (n : Nat) : Bool := s.hv n == .ramp || s.hv n == .down
  { s with mrk := { s.mrk with hvAge := s.mrk.hvAge.mapIdx fun n k => if moves n then k + 1 else k } }

/-- Every HV channel is off at once. -/
def Chip.hvAllOff (s : Chip) : Chip := { s with mrk := { s.mrk with hv0 := .off, hv1 := .off, hv2 := .off, hv3 := .off } }

/-- The ramp-down of the first channel of DEVAC, DEVDC, CHG that is up (R206); with none up, nothing is left to do. -/
def Chip.hvDown (s : Chip) : Chip :=
  match [2, 1, 0].find? (fun n => s.hv n != .off) with
  | some n => if s.hv n = .down then s else s.startHv n .down (s.hvLevel n)
  | none => (((s.clr Fld.MRK_STA_ABRT).clr Fld.MRK_STA_BUSY).clr Fld.MRK_STA_HVRDY).put Fld.MRK_BST_PH 0

/-- TRN to 0 with no ramp (R214). -/
def Chip.trnOff (s : Chip) : Chip := ((s.setHv 3 .off).helCmd 10 Mode.off).clr Fld.MRK_STA_TRNON

/-- The abort-mark sequence (R214): TRN off, S2 gate closed and MOD2 low, LD2 off, then DEVAC, DEVDC and CHG down. The lines fetched for the item
are dropped with it, those of other items stay. -/
def Chip.abortMark (s : Chip) : Chip :=
  let s := ((s.set Fld.MRK_STA_ABRT).put Fld.MRK_BST_PH 4).event Ev.abrtmk
  let s := s.trnOff
  let s2 := { s.mer.s2 with armed := false, inval := s.mer.s2.inval || s.mer.s2.sweeping }
  let s := { s with mer := { s.mer with s2 := s2, mod2 := false } }
  ((s.helCmd 6 Mode.off).clr Fld.MRK_STA_HVRDY).hvDown

/-- STA.NIP: some item is in its marking nip. -/
def Chip.syncNip (s : Chip) : Chip := s.putB Fld.MRK_STA_NIP (s.mrk.wts.any (·.inNip))

/-- The lines fetched for an item are dropped from ring 3. -/
def Chip.dropFetched (s : Chip) (id : Nat) : Chip :=
  let r := s.ring 3
  (r.ents.filter (·.item == id)).foldl (fun t e => t.consumed 3 e) (s.setRing 3 { r with ents := r.ents.filter (·.item != id) })

/-- An item has ended: its sheet is followed until it has left the nips (R196; DEDUCED, log entry 173). -/
def Chip.retireWt (s : Chip) (id : Nat) : Chip :=
  let keep (w : WriteTrig) : WriteTrig :=
    if w.item != id then w else { w with ended := true, pend := [], fired := none }
  ({ s with mrk := { s.mrk with wts := s.mrk.wts.map keep } }).syncNip

/-- An item ends other than DONE: its write trigger is released with the lines fetched for it, and the abort-mark sequence runs where R214
asks for it, that is in phase MARKING or with a ramp-up begun, and not once every band is marked (R219). -/
def Chip.markEnd (s : Chip) (x : Item) : Chip :=
  match s.mrk.wts.find? (·.item == x.id) with
  | some w =>
    if w.ended then s
    else
      let s := (s.retireWt x.id).dropFetched x.id
      if bitsOf x.flags 2 1 == 1 && !x.marked && (x.phase == 4 || w.ramped || w.band ≠ 0 || w.trn) then s.abortMark else s
  | none => s

/-! ### How items end (R105–R112) -/

/-- Take back a closing commit that has not been reported complete: the item ends otherwise (R120). -/
def Chip.dropClosing (s : Chip) (id : Nat) : Chip :=
  { s with doc := { s.doc with commits := s.doc.commits.filter fun c => !(c.kind == .close && c.item == id) } }

/-- Fix how an item ends, unless it is fixed already. `wait`: its report waits until the transport has stopped (R108). -/
def Chip.endItem (s : Chip) (id out reason : Nat) (status : Status) (fseq : Nat) (wait : Bool) : Chip :=
  match s.item id with
  | none => s
  | some x =>
    if !x.open_ || (x.settled && out == Out.done) then s
    else
      let s := (s.dropClosing id).updItem id fun x => { x with
        ending := some { out := out, reason := reason, status := status }, fseq := if x.fseq = 0 then fseq else x.fseq,
        waitStop := wait, closing := false }
      if out = Out.done then s else (s.imgEnd id reason).markEnd x

/-- End a queued item WITHDRAWN and an admitted one FAILED, with a reason (R108); the waits are for the report. -/
def Chip.endAs (s : Chip) (id reason fseq : Nat) (waitQ wait : Bool) : Chip :=
  match s.item id with
  | none => s
  | some x =>
    if x.queued then s.endItem id Out.withdrawn reason St.ok fseq waitQ
    else s.endItem id Out.failed (x.reason.getD reason) St.ok fseq wait

/-- Items whose first record is under way end WITHDRAWN with the queued ones, once it has committed (R108, R111). -/
def Chip.endCands (s : Chip) (reason fseq : Nat) (wait : Bool) : Chip :=
  let f (x : Item) : Item :=
    if x.settled then x
    else { x with ending := some { out := Out.withdrawn, reason := reason, status := St.ok }, fseq := fseq, waitStop := wait }
  { s with doc := { s.doc with cand := s.doc.cand.map f } }

/-- End every item (R108). -/
def Chip.endAll (s : Chip) (reason fseq : Nat) (waitQ wait : Bool) : Chip :=
  ((s.doc.items.map (·.id)).foldl (fun t id => t.endAs id reason fseq waitQ wait) s).endCands reason fseq waitQ

/-- Withdraw every queued item (R108). -/
def Chip.withdrawQueued (s : Chip) : Chip :=
  (((s.doc.items.filter (·.queued)).map (·.id)).foldl (fun t id =>
    t.endItem id Out.withdrawn Rsn.aborted St.ok 0 false) s).endCands Rsn.aborted 0 false

/-- Start the closing commit of every item whose end is fixed and, where it must, no longer waits (R105, R111). Items of
one event close in ascending ID (R118). -/
def Chip.startClosings (s : Chip) : Chip :=
  let ready (x : Item) : Bool := x.settled && !x.waitStop && !x.closing
  let ids := (s.doc.items.filter ready).map (·.id)
  { s with doc := { s.doc with
      items := s.doc.items.map (fun x => if ready x then { x with closing := true } else x)
      commits := s.doc.commits ++ ids.map (fun id => { kind := .close, item := id }) } }

/-- Once no axis has counted for 2 ms and no safe-state entry runs, the reports that waited for it proceed (R108, R515). -/
def Chip.releaseWaits (s : Chip) : Chip :=
  if s.mot.stopped && !s.on Fld.FLT_STA_ENTRY then
    let free (x : Item) : Item := { x with waitStop := false }
    { s with doc := { s.doc with items := s.doc.items.map free, cand := s.doc.cand.map free } }.startClosings
  else s.startClosings

/-- Have all image records of an item been drained by the host (R106)? -/
def Chip.drained (s : Chip) (id : Nat) : Bool :=
  !(s.img.recs.any (·.item == id)) && s.img.t0.item != id && s.img.t1.item != id &&
  [0, 1].all fun n => ((s.ring (s.imgRing n)).unconsumed id).isEmpty

/-- An item that meets R106 is DONE. -/
def Chip.tryDone (s : Chip) (id : Nat) : Chip :=
  match s.item id with
  | none => s
  | some x =>
    if x.phase == 5 && s.drained id && (bitsOf x.flags 2 1 == 0 || x.marked) && x.reason.isNone && !x.settled then
      (s.endItem id Out.done Rsn.none St.ok 0 false).startClosings
    else s

/-- Try every item. -/
def Chip.tryDoneAll (s : Chip) : Chip := (s.doc.items.map (·.id)).foldl (fun t id => t.tryDone id) s

/-- Queue the journal commit of a new phase, which nobody waits for (R111). -/
def Chip.phaseCommit (s : Chip) (id ph : Nat) : Chip :=
  { s with doc := { s.doc with commits := s.doc.commits ++ [{ kind := .phase ph, item := id }] } }

/-- An admitted item reaches a later phase (R95). -/
def Chip.reachPhase (s : Chip) (id ph : Nat) : Chip :=
  match s.item id with
  | none => s
  | some x => if x.admitted && x.phase < ph then (s.updItem id fun x => { x with phase := ph }).phaseCommit id ph else s

/-! ### Jam stop (R240) -/

/-- Write beam and HV off (R91 HALT, R206), unless the abort-mark sequence is ramping HV down. -/
def Chip.beamOff (s : Chip) : Chip :=
  let s := (s.helCmd 6 Mode.off).trnOff
  if s.on Fld.MRK_STA_ABRT then s
  else
    let s := s.hvAllOff
    ([7, 8, 9].foldl (fun t n => t.helCmd n Mode.off) s).clr Fld.MRK_STA_HVRDY

/-- The jam stop: JST and JITM, transport braked, solenoids open, abort-mark for items that R214 covers, engine to HALT
with CAUSE 0x08, items ended: the jammed one JAM, the others ABORTED. One jam stop runs at a time (R244). -/
def Chip.jamStop (s : Chip) (cause sensor item fseq : Nat) : Chip :=
  if s.mot.jamStop then s else
  let s := ((s.put Fld.MOT_JST_CAUSE cause).put Fld.MOT_JST_SENS sensor).put Fld.MOT_JITM_ID item
  let s := (((s.set Fld.MOT_STA_JAMST).set Fld.MOT_IST_JAM).stopAxes).solOff 0x3F
  let s := { s with mot := { s.mot with jamStop := true } }
  let s := if s.engine = Eng.run || s.engine = Eng.drain then s.goto Eng.halt 0x08 else s
  let s := s.endAs item Rsn.jam fseq false true
  ((s.endAll Rsn.aborted 0 true true).beamOff).releaseWaits

end Sys2Proof.Machine
end

