-- ==== Sys2Proof/Machine/Faults.lean ====
section
/-!
DEFINITION. Raising a fault (R506–R509), the fault queue (R510–R513), FAULT events (R514) and safe-state entry (R515, R516).
-/
namespace Sys2Proof.Machine

/-! Fault classes (R506). -/
namespace FC
abbrev note : Nat := 1
abbrev warn : Nat := 2
abbrev item : Nat := 3
abbrev engine : Nat := 4
abbrev safety : Nat := 5
end FC

/-- Class of a fault code (R508); 0 for reserved codes. CLK_FREQ and GUARD_ACT take theirs from where they are raised. -/
def faultClass (code : Nat) : Nat :=
  if [0x0101, 0x0102, 0x0103, 0x0201, 0x0203, 0x0204, 0x0206, 0x0207, 0x0208, 0x0209, 0x020A].contains code then FC.safety
  else if [0x0105, 0x0107, 0x0202, 0x0306, 0x0307, 0x0308, 0x0309, 0x030A, 0x0505, 0x0506, 0x0601, 0x0701, 0x0702, 0x0703,
    0x0704, 0x0803, 0x0903, 0x0B03, 0x0B04, 0x0B05].contains code then FC.engine
  else if [0x0301, 0x0302, 0x0303, 0x0304, 0x0305, 0x0401, 0x0501, 0x0502, 0x0503, 0x0504, 0x0801, 0x0802].contains code
    then FC.item
  else if [0x0104, 0x0106, 0x0205, 0x030B, 0x0602, 0x0804, 0x0901, 0x0A01, 0x0A02, 0x0A03, 0x0B02, 0x0B06, 0x0B07].contains
    code then FC.warn
  else if [0x0603, 0x0902, 0x0B01].contains code then FC.note
  else 0

/-- Item reason of a fault code (R508), none where the table shows "—". -/
def faultReason (code sub : Nat) : Option Nat :=
  match code with
  | 0x0101 => some Rsn.power
  | 0x0105 => some Rsn.power
  | 0x0301 => some Rsn.jam
  | 0x0302 => some Rsn.jam
  | 0x0303 => some Rsn.jam
  | 0x0304 => some Rsn.doubleFeed
  | 0x0305 => some Rsn.size
  | 0x0306 => some Rsn.stall
  | 0x0401 => some Rsn.reverse
  | 0x0501 => some Rsn.markReverse
  | 0x0502 => some Rsn.heat
  | 0x0503 => some (if sub = 0 then Rsn.storeOvf else Rsn.feedback)
  | 0x0504 => some Rsn.feedback
  | 0x0601 => some Rsn.feedback
  | 0x0801 => some Rsn.storeOvf
  | 0x0802 => some Rsn.storeOvf
  | 0x0803 => some Rsn.storeOvf
  | _ => none

/-- A report with the class of its code. -/
def report (code unit : Nat) (sub : Nat := 0) (val : Nat := 0) (item : Nat := 0) : Report :=
  { code := code, cls := faultClass code, unit := unit, sub := sub, val := val, item := item }

/-- Last Line trigger bits of a fault code with action LL (R508, R517). -/
def faultLL (r : Report) : List Nat :=
  match r.code with
  | 0x0101 => [4]
  | 0x0102 => [2]
  | 0x0103 => [3]
  | 0x0201 => (if bitsOf r.unit 0 1 = 1 then [0] else []) ++ (if bitsOf r.unit 1 1 = 1 then [1] else [])
  | 0x0203 => [5]
  | 0x0204 => [6]
  | 0x0206 => [7]
  | 0x0207 => [8]
  | 0x0208 => [9]
  | 0x0209 => [10]
  | 0x020A => [11]
  | _ => []

/-- The log record of a fault (R507). -/
def Report.body (r : Report) : LogBody :=
  { kind := 1, cls := r.cls, code := r.code, item := r.item, cnt := r.cnt, mst := r.mst, clid := r.clid,
    data := leBytes 1 r.unit ++ leBytes 1 r.sub ++ leBytes 4 r.val ++ [0#8, 0#8] }

/-- The class counters of FLT (R509). -/
def Chip.countFault (s : Chip) (cls : Nat) : Chip :=
  match cls with
  | 1 => s.bump Fld.FLT_CNT1_NOT
  | 2 => s.bump Fld.FLT_CNT1_WRN
  | 3 => s.bump Fld.FLT_CNT1_ITM
  | 4 => s.bump Fld.FLT_CNT1_ENG
  | _ => s.bump Fld.FLT_CNT2_SAF

/-- The action at raise (R508): Last Line, or the jam stop. Driver actions are those of the raising rule. -/
def Chip.atRaise (s : Chip) (r : Report) (lseq : Nat) : Chip :=
  let s := (faultLL r).foldl (fun t b => { t.tripLL b with flt := { t.flt with raisedLL := t.flt.raisedLL ||| 2 ^ b } }) s
  if r.code = 0x0301 then s.jamStop 1 r.unit r.item lseq
  else if r.code = 0x0302 then s.jamStop 2 r.unit r.item lseq
  else s

/-- Latch the fault's reason for the item it names (R509, R120); a queued item is not affected (R108). -/
def Chip.latchReason (s : Chip) (r : Report) (lseq : Nat) : Chip :=
  match faultReason r.code r.sub with
  | none => s
  | some rs => s.updItem r.item fun x =>
      if !x.open_ || x.queued || x.reason.isSome then x else { x with reason := some rs, fseq := lseq }

/-- Show the queue (R510, R528). -/
def Chip.syncQueue (s : Chip) : Chip :=
  let n := s.flt.queue.length
  let s := (s.put Fld.FLT_QST_DEPTH n).put Fld.FLT_QST_HWM (max n (s.get Fld.FLT_QST_HWM))
  match s.flt.queue with
  | [] => (((((s.put Fld.FLT_CUR_CODE 0).put Fld.FLT_CUR_CLS 0).put Fld.FLT_CUR_UNIT 0).put Fld.FLT_CURS_LSEQ 0).put
      Fld.FLT_CITM_ITEM 0).clr Fld.FLT_STA_STORM
  | h :: _ => ((((s.put Fld.FLT_CUR_CODE h.rep.code).put Fld.FLT_CUR_CLS h.rep.cls).put Fld.FLT_CUR_UNIT h.rep.unit).put
      Fld.FLT_CURS_LSEQ h.lseq).put Fld.FLT_CITM_ITEM h.rep.item

/-- Safe-state entry starts (R515, steps 1 and 2). DESIGN CHOICE (log entry 151): with DOC.CTL.EN at 0, where R122 holds the engine in OFF, a fault
still takes it to FAULT, as R92 has it for every other state. -/
def Chip.startEntry (s : Chip) (h : FaultEntry) : Chip :=
  let s := if s.engine = Eng.fault then s else s.goto Eng.fault 0x07
  let s := (s.gclr).sidebands false false false s.fab.mtrEn
  let s := { s with fab := { s.fab with wantLd := false, wantHv := false, wantHtr := false } }
  let s := (s.set Fld.FLT_STA_ENTRY).clr Fld.FLT_STA_SAFE
  let s := (((s.helCmd 0 Mode.coast).helCmd 1 (s.stopMode 0)).helCmd 2 (s.stopMode 1))
  let s := ((List.range 9).foldl (fun t n => t.helCmd (3 + n) Mode.off) s).solOff 0x3F
  let s := s.hvAllOff
  let s := (s.clr Fld.MRK_STA_TRNON).clr Fld.MRK_STA_HVRDY
  s.endAll ((faultReason h.rep.code h.rep.sub).getD Rsn.safety) h.lseq true true

/-- Begin the handling of the entry at the head (R510–R512); entries that need recording only leave the queue. -/
def Chip.pump (s : Chip) : Nat → Chip
  | 0 => s.syncQueue
  | fuel + 1 =>
    match s.flt.queue with
    | [] => s.syncQueue
    | h :: rest =>
      if h.begun then s.syncQueue
      else
        let s := s.event Ev.fltn
        let gone := { s with flt := { s.flt with queue := rest } }
        let kept := { s with flt := { s.flt with queue := { h with begun := true } :: rest } }
        if h.rep.cls ≤ FC.warn then gone.pump fuel
        else if h.rep.cls = FC.item then
          match s.item h.rep.item with
          | none => gone.pump fuel
          | some x =>
            if !x.open_ || x.queued then gone.pump fuel
            else ((kept.endItem h.rep.item Out.failed
              (x.reason.getD ((faultReason h.rep.code h.rep.sub).getD Rsn.safety)) St.ok h.lseq false).startClosings).syncQueue
        else
        -- a CLEAR that still waits for items does not outlast a new cause (R92)
        let kept := { kept with doc := { kept.doc with drainToOff := false } }
        if s.engine = Eng.fault && s.on Fld.FLT_STA_SAFE then
          (kept.endAll ((faultReason h.rep.code h.rep.sub).getD Rsn.safety) h.lseq true true).releaseWaits.syncQueue
        else if s.on Fld.FLT_STA_ENTRY then kept.syncQueue
        else (kept.startEntry h).syncQueue

/-- Run the queue from its head. -/
def Chip.runQueue (s : Chip) : Chip := s.pump (s.flt.queue.length + 1)

/-- Place an entry by class, behind its equals (R510). -/
def faultInsert (e : FaultEntry) : List FaultEntry → List FaultEntry
  | [] => [e]
  | x :: xs => if x.rep.cls < e.rep.cls then e :: x :: xs else x :: faultInsert e xs

/-- The newest entry of the lowest class that is not in handling (R513), by its position from the head. -/
def stormVictim (q : List FaultEntry) : Option Nat :=
  let c := (q.tail.map (·.rep.cls)).foldl min 255
  ((List.range q.length).filter fun i => 0 < i && ((q[i]?).map (fun e => e.rep.cls)) == some c).getLast?

/-- Add 1 to FAULT_STORM's VAL. -/
def stormCount (q : List FaultEntry) : List FaultEntry :=
  updFirst (fun e => e.rep.code == 0x0B04) (fun e => { e with rep := { e.rep with val := e.rep.val + 1 } }) q

/-- Queue an entry (R510, R511): an entry in handling that it passes is preempted. -/
def Chip.enqueue (s : Chip) (e : FaultEntry) : Chip :=
  let q := s.flt.queue
  let pre := match q with
    | h :: _ => h.begun && h.rep.cls < e.rep.cls
    | [] => false
  let s := { s with flt := { s.flt with queue := faultInsert e q } }
  let s := s.set Fld.FLT_IST_NEW
  if pre then s.set Fld.FLT_IST_PRE else s

/-- What raising does before queueing (R509): log record, action, counter, latched reason. Answers the LSEQ. -/
def Chip.recordFault (s : Chip) (r : Report) : Nat × Chip :=
  let (n, s) := s.stageLog r.body
  (n, (((s.latchReason r n).countFault r.cls).atRaise r n))

/-- The FAULT event of a report (R514). -/
def Chip.faultEvt (s : Chip) (r : Report) (n : Nat) : Chip :=
  if FC.warn ≤ r.cls || r.code = 0x0603 then
    let behind := match s.flt.queue with
      | h :: _ => h.lseq != n && r.cls < h.rep.cls
      | [] => false
    s.sendEvs 0x03 (leBytes 4 n ++ leBytes 2 r.code ++ leBytes 1 r.cls ++ leBytes 1 r.unit ++ leBytes 4 r.item ++
      leBytes 1 r.sub ++ leBytes 1 s.engine ++
      leBytes 1 ((if s.on Fld.ILK_STA_LL then 1 else 0) + (if behind then 2 else 0) +
        (if s.on Fld.FLT_STA_STORM then 4 else 0)) ++ [0#8])
  else s

/-- Queue a recorded fault, or count it when the queue is full (R513). -/
def Chip.queueFault (s : Chip) (r : Report) (n : Nat) : Chip :=
  if s.flt.queue.length < 16 then (s.enqueue { lseq := n, rep := r, begun := false }).runQueue
  else if s.on Fld.FLT_STA_STORM then
    ({ s with flt := { s.flt with queue := stormCount s.flt.queue } }).bump Fld.FLT_CNT2_QDROP
  else
    let storm := report 0x0B04 0 0 1
    let (m, s) := s.recordFault storm
    let q := match stormVictim s.flt.queue with
      | some i => s.flt.queue.eraseIdx i
      | none => s.flt.queue
    let s := { s with flt := { s.flt with queue := q } }
    let s := (((s.bump Fld.FLT_CNT2_QDROP).bump Fld.FLT_CNT2_STRM).set Fld.FLT_STA_STORM).set Fld.FLT_IST_STORM
    ((s.enqueue { lseq := m, rep := storm, begun := false }).runQueue).faultEvt storm m

/-- Raise a fault that does not count as intruding (R516). -/
def Chip.raise1 (s : Chip) (r : Report) : Chip :=
  let (n, s) := s.recordFault r
  (s.queueFault r n).faultEvt r n

/-- Raise a fault (R509, R513, R516): a fault of class WARN or higher while safe-state entry runs also trips Last Line and
raises LL_ENTRY. -/
def Chip.raise (s : Chip) (r : Report) : Chip :=
  let intrudes := s.on Fld.FLT_STA_ENTRY && FC.warn ≤ r.cls && r.code != 0x0208 && r.code != 0x0209
  let s := s.raise1 r
  if intrudes then s.raise1 (report 0x0208 r.cls 0 r.code) else s

/-- A fault detected on the P-die (R509): it reaches the fault manager in the next P-to-L RT frame; while the L-die is off
or in STANDBY Almanac firmware records it. Its Last Line action has been taken where it was detected. -/
def Chip.raiseP (s : Chip) (r : Report) : Chip :=
  let s := (faultLL r).foldl (fun t b => t.tripLL b) s
  if s.fab.lco && !s.fab.standby && !s.fab.lossPL then
    { s with flt := { s.flt with pReports := s.flt.pReports ++ [r] } }
  else (s.stageLog r.body).2

/-- POLICY_PIN of a source (R526): a further entry within 100 ms of the source's last record only counts. -/
def Chip.raisePin (s : Chip) (unit bound val : Nat) : Chip :=
  let old := s.flt.pins.find? (fun p => p.unit == unit)
  let others := s.flt.pins.filter (fun p => p.unit != unit)
  match old with
  | some p =>
    if s.nowMs < p.at_ + 100 then
      { s with flt := { s.flt with pins := { p with count := p.count + 1 } :: others } }
    else
      ({ s with flt := { s.flt with pins := { unit := unit, at_ := s.nowMs, count := 0 } :: others } }).raise
        { report 0x0603 unit bound val with cnt := p.count }
  | none =>
    ({ s with flt := { s.flt with pins := { unit := unit, at_ := s.nowMs, count := 0 } :: others } }).raise
      (report 0x0603 unit bound val)

/-- Safe-state entry is complete (R515 step 3): SAFE, the entry time in 0.1 µs, and the reports that waited proceed. Entries whose
DONE has been written leave the queue (R510). -/
def Chip.entryDone (s : Chip) (t : Nat) : Chip :=
  let s := ((((s.clr Fld.FLT_STA_ENTRY).set Fld.FLT_STA_SAFE).set Fld.FLT_IST_SAFE).put Fld.FLT_LAT_T (min t 65535)).releaseWaits
  ({ s with flt := { s.flt with queue := s.flt.queue.filter (fun e => !e.done) } }).runQueue

/-- A write of `n` to FLT.DONE (R510, R511): the entry with that LSEQ leaves the queue, an ENGINE or SAFETY entry not before safe-state
entry is complete; with no such entry the write is refused. -/
def Chip.faultDone (s : Chip) (n : Nat) : Status × Chip :=
  match s.flt.queue.find? (·.lseq == n) with
  | none => (St.badArg, s)
  | some e =>
    if FC.engine ≤ e.rep.cls && s.on Fld.FLT_STA_ENTRY then
      (St.ok, { s with flt := { s.flt with queue := updFirst (·.lseq == n) (fun e => { e with done := true }) s.flt.queue } })
    else (St.ok, ({ s with flt := { s.flt with queue := eraseFirst (·.lseq == n) s.flt.queue } }).runQueue)

/-- An internal failure with status 0x7F and no fault code of its own (R508). -/
def Chip.internal (s : Chip) (page addr : Nat) : Chip := s.raise (report 0x0B05 page 0 addr)

/-! ### Errors in the store (R332) -/

/-- Does a store range hold a word with an uncorrectable error (R332)? -/
def Chip.storeBad (s : Chip) (a n : Nat) : Bool := s.cst.ue.any fun w => a < w + 8 && w < a + n

/-- An uncorrectable error is counted (R332). -/
def Chip.countStoreUe (s : Chip) (a : Nat) : Chip :=
  ((s.bump Fld.CST_ECC_UE).put Fld.CST_UEA_A (a / 8 * 8)).set Fld.CST_IST_UE

/-- Every word with an uncorrectable error among `n` bytes that are read is counted. -/
def Chip.countErrors (s : Chip) (a n : Nat) : Chip :=
  (s.cst.ue.filter fun w => decide (a < w + 8) && decide (w < a + n)).foldl (fun t w => t.countStoreUe w) s

/-- Where the oldest entry of a ring stands in its entry array. -/
def Chip.headAddr (s : Chip) (n : Nat) : Nat :=
  let r := s.ring n
  store + 4 * s.get (Fld.RNG_RBAS_A n) + 4 * ((r.tail + s.ringCap n - r.ents.length) % s.ringCap n)

/-- The ring engine reads an entry with an uncorrectable error (R332): it is counted, the ring's EN is cleared and the fault names it. -/
def Chip.ringError (s : Chip) (n : Nat) : Chip :=
  let a := s.headAddr n
  (((((s.countStoreUe a).emptyRing n).clr (Fld.RNG_RCFG_EN n)).set Fld.CST_IST_RING)).raise (report 0x0803 n 0 a)

/-- A pop, with the entry read under ECC (R321, R332): the class and EN are judged first (R323, R327). -/
def Chip.popRing (s : Chip) (n : Nat) (c : RCls) : PopRes × Chip :=
  if s.get (Fld.RNG_RCFG_CNS n) = c.code && s.ringOpen n && !(s.ring n).ents.isEmpty && s.storeBad (s.headAddr n) 4 then
    (.empty, s.ringError n)
  else s.pop n c

end Sys2Proof.Machine
end

