-- ==== Sys2Proof/Machine/Access.lean ====
section
/-!
DEFINITION. Register accesses (chapter 2): where an address lies, bus errors (R32, R55), ERC (R59), aliases (R60–R62),
guarded sequences (R63–R67), configuration classes and boundaries (R68–R76), levels (R77), rights and ownership (R81–R83)
and the order of checks (R84, R85). What single blocks add to the checks, and what their commands then do, comes in
through `Hooks`.
-/
namespace Sys2Proof.Machine

/-- The code of a master (SYS.BES.MST, R54). -/
def mCode : Master → Nat
  | .orr c => c.val
  | .hel => 0x04
  | .host _ => 0x08
  | .debug => 0x09
  | .alm => 0x10

/-- The client ID that ERC and BES show (R58): 0 for masters other than the host bridge. -/
def mClid : Master → Nat
  | .host c => c.toNat
  | _ => 0

/-- Is the master a host client? -/
def mHost : Master → Bool
  | .host _ => true
  | _ => false

/-! Kinds of bus error (R54). -/
namespace Kind
abbrev unmapped : Nat := 0
abbrev width : Nat := 1
abbrev timeout : Nat := 2
abbrev refused : Nat := 3
end Kind

/-- Capture a bus error (R55): the first fills BEA and BES, later ones only count. The Almanac core's are captured in PSY, all
others in SYS. -/
def Chip.busError (s : Chip) (m : Master) (addr kind : Nat) : Chip :=
  if m = .alm then
    if s.on Fld.PSY_BES_VLD then s.bump Fld.PSY_BES_CNT
    else (((((((s.put Fld.PSY_BEA_ADDR addr).put Fld.PSY_BES_MST (mCode m)).put Fld.PSY_BES_CLID (mClid m)).put
      Fld.PSY_BES_KIND kind).put Fld.PSY_BES_CNT 1).set Fld.PSY_BES_VLD).set Fld.PSY_IST_BERR)
  else
    if s.on Fld.SYS_BES_VLD then s.bump Fld.SYS_BES_CNT
    else (((((((s.put Fld.SYS_BEA_ADDR addr).put Fld.SYS_BES_MST (mCode m)).put Fld.SYS_BES_CLID (mClid m)).put
      Fld.SYS_BES_KIND kind).put Fld.SYS_BES_CNT 1).set Fld.SYS_BES_VLD).set Fld.SYS_IST_BERR)

/-! Fields of the common header of the page at `b` (R58). -/
def hEN (b : Nat) : Field := ⟨b + 8, 0, 1⟩
def hXP (b : Nat) : Field := ⟨b + 8, 1, 1⟩
def hBND (b : Nat) : Field := ⟨b + 8, 4, 4⟩
def hENA (b : Nat) : Field := ⟨b + 0xC, 0, 1⟩
def hXPS (b : Nat) : Field := ⟨b + 0xC, 1, 1⟩
def hERR (b : Nat) : Field := ⟨b + 0x10, 1, 1⟩
def hGERR (b : Nat) : Field := ⟨b + 0x10, 2, 1⟩
def hAPL (b : Nat) : Field := ⟨b + 0x10, 3, 1⟩
def hIGN (b : Nat) : Field := ⟨b + 0x1C, 0, 1⟩
def hCGERR (b : Nat) : Field := ⟨b + 0x1C, 1, 1⟩
def hPEND (b : Nat) : Field := ⟨b + 0x1C, 2, 1⟩
def hHOLD (b : Nat) : Field := ⟨b + 0x1C, 4, 1⟩
def hAPPLIED (b : Nat) : Field := ⟨b + 0x1C, 8, 8⟩
def hOCLID (b : Nat) : Field := ⟨b + 0x20, 0, 8⟩
def hOVLD (b : Nat) : Field := ⟨b + 0x20, 8, 1⟩
def hOSHR (b : Nat) : Field := ⟨b + 0x20, 9, 1⟩

/-- ERC takes a code with the master and client; IST.ERR is set (R59). -/
def Chip.erc (s : Chip) (b : Nat) (m : Master) (code : Status) : Chip :=
  (s.wr (b + 0x18) (BitVec.ofNat 32 (2 ^ 31 + mClid m * 65536 + mCode m * 256 + code.toNat))).set (hERR b)

/-- Refuse a write with a status (R59, R84). -/
def Chip.refuse (s : Chip) (b : Nat) (m : Master) (code : Status) : Status × Chip := (code, s.erc b m code)

/-! ### Shadows (R71–R76) -/

/-- CFS.PEND and CFS.HOLD of a page (R58). -/
def Chip.syncShadow (s : Chip) (b : Nat) : Chip :=
  let p := s.shadows.any (·.page == b)
  (s.putB (hPEND b) p).putB (hHOLD b) (p && s.get (hBND b) == 0xF)

/-- Put a value into a field's shadow; a second write before the boundary replaces it (R71). -/
def Chip.shade (s : Chip) (sh : Shadow) : Chip :=
  let same (x : Shadow) : Bool := x.addr == sh.addr && x.lo == sh.lo
  ({ s with shadows := s.shadows.filter (fun x => !same x) ++ [sh] }).syncShadow sh.page

/-- What a page's consistency is judged for (R170, R175, R265, R329): a direct write of a register, with CTL.EN as it stood; an apply event, with the
registers it writes; or the rewriting of the raw registers when CTL.EN is set. -/
inductive Change
  | write (addr : Nat) (en : Bool)
  | apply (addrs : List Nat)
  | enable

/-- What single blocks add to register accesses. `pre` judges checks 2 and 3 (0x00 passes), `resv` names the fields (by lowest
bit) that check 7 refuses because of other state, `derive` rewrites the raw registers of a page from its BPB as the
engine program does at basic level, `valid` tells whether a page is consistent after a change and which IST bit reports that it is not,
`applied` is what follows an apply event, `post` what a written value then does, `onRead` what a read does besides.
`sOpen` tells whether the class-S fields of a register may change now by a master where the page's CTL.EN does not decide it (R266, R295, R327), `gate`
on which other page's EN and ENA those of a page are judged (R296), and
`atOnce` which shadows apply at the end of their write though EN = 1 (R266); `settle` is what the apply events of one write bring about
together (R142). -/
structure Hooks where
  pre : Master → Nat → Word → Chip → Status
  resv : Nat → Word → Chip → List Nat
  derive : Nat → Chip → Chip
  valid : Nat → Change → Chip → List Field
  applied : Nat → Chip → Chip
  post : Master → Nat → Word → Word → Chip → Status × Chip
  onRead : Master → Nat → Word → Chip → (Word × Status) × Chip
  sOpen : Master → Nat → Chip → Option Bool
  gate : Nat → Option Nat
  atOnce : Shadow → Chip → Bool
  settle : Chip → Chip

/-- Set the bits of a list. -/
def Chip.setAll (s : Chip) (l : List Field) : Chip := l.foldl Chip.set s

/-- The page with shadows in force (R71); at basic level the raw registers follow the BPB. -/
def Chip.inForce (h : Hooks) (s : Chip) (b : Nat) (l : List Shadow) : Chip :=
  let raw := l.foldl (fun t x => t.put ⟨x.addr, x.lo, x.w⟩ x.value) s
  if l.any (fun x => b + 0x600 ≤ x.addr) && !s.on (hXP b) then h.derive b raw else raw

/-- Apply the shadows of page `b` that `p` selects, as one apply event (R71, R76); an event that would leave the page
inconsistent is refused whole (R59, R170, R265). -/
def Chip.applyShadows (h : Hooks) (s : Chip) (b : Nat) (p : Shadow → Bool) : Chip :=
  let sel (x : Shadow) : Bool := x.page == b && p x
  match (s.shadows.filter sel).getLast? with
  | none => s
  | some last =>
    let left := { s with shadows := s.shadows.filter (fun x => !sel x) }
    let done := Chip.inForce h left b (s.shadows.filter sel)
    match h.valid b (.apply ((s.shadows.filter sel).map (·.addr))) done with
    | [] => h.applied b (((done.inc (hAPPLIED b)).set (hAPL b)).syncShadow b)
    | ist => ((left.setAll ist).erc b last.master St.badArg).syncShadow b

/-- The boundary at which a shadow applies under CTL.BND (R72), as a bit of CAP.BNDM; HOLD applies none. -/
def Chip.boundOf (s : Chip) (x : Shadow) : Option Nat :=
  match s.get (hBND x.page) with
  | 0x0 => some x.bnd
  | 0x4 => some (bndBit .document)
  | _ => none

/-- The pages that have shadows pending. -/
def Chip.shadePages (s : Chip) : List Nat := (s.shadows.map (·.page)).eraseDups

/-- A boundary event: every page applies its shadows of that boundary that `p` selects (R71–R73). -/
def Chip.boundary (h : Hooks) (s : Chip) (bnd : Nat) (p : Shadow → Bool) : Chip :=
  s.shadePages.foldl (fun t b => t.applyShadows h b (fun x => s.boundOf x == some bnd && p x)) s

/-- A document boundary (R73), visible to the Orrery as DBND. An axis that runs open-loop stops at it (R236, R260). -/
def Chip.docBoundary (h : Hooks) (s : Chip) : Chip :=
  let s := [1, 2, 11].foldl (fun t n => if t.get (Fld.HLP_ST_MODE n) = Mode.open_ then t.helCmd n Mode.off else t) s
  (s.boundary h (bndBit .document) (fun _ => true)).event Ev.dbnd

/-! ### Guard latch (R63–R67) -/

/-- The armed latch of a page, or with `far` the one that the die bridge's L-side endpoint holds for it (R67). -/
def Chip.latch (s : Chip) (b : Nat) (far : Bool := false) : Option GuardLatch := s.guards.find? fun g => g.page == b && g.far == far

/-- Clear it. -/
def Chip.unlatch (s : Chip) (b : Nat) (far : Bool := false) : Chip :=
  { s with guards := s.guards.filter fun g => !(g.page == b && g.far == far) }

/-- A guarded sequence fails (R63): the latch is cleared, GERR set in CFS and IST, ERC 0x32. -/
def Chip.guardFail (s : Chip) (b : Nat) (m : Master) (far : Bool := false) : Chip :=
  (((s.unlatch b far).set (hCGERR b)).set (hGERR b)).erc b m St.guard

/-! ### Where an address lies (R56) -/

/-- A register address: page, offset 0x000–0xFFF, alias (0 normal, 1 SET, 2 CLR, 3 TOG). -/
structure Loc where
  page : PageDesc
  off : Nat
  alias_ : Nat

/-- Find the page of an address. -/
def locate (a : Nat) : Option Loc :=
  (pageAt a).map fun p => { page := p, off := (a - p.base) % 0x1000, alias_ := (a - p.base) / 0x1000 }

/-- Is the register at offset `o` of a page guarded (R63)? -/
def guardedAt (p : PageDesc) (o : Nat) : Bool :=
  match blockReg p o with
  | some r => r.guarded
  | none => false

/-! ### Rights and levels (R77–R83) -/

/-- Check 2 of R84 for a write whose resulting value is `v`, at offset `o` (twins: their register's). -/
def Chip.permits (s : Chip) (m : Master) (p : PageDesc) (o : Nat) (v : Word) : Bool :=
  match m with
  | .host c =>
    let id := c.toNat
    let b := p.base
    let owned := s.on (hOVLD b) && !s.on (hOSHR b) && s.get (hOCLID b) != id
    let raw := 0x40 ≤ o && o < 0x600
    let old := s.rd (b + 8)
    let exCtl := o = 8 && bitsOf v.toNat 0 2 != bitsOf old.toNat 0 2 && !p.en1
    s.mayW id b && !owned && !(raw && p.bas && !s.on (hXP b)) && !(raw && p.bas && !s.mayX id b) &&
      !(exCtl && !s.mayX id b)
  | .debug => s.on Fld.DBG_STA_UNL
  | _ => true

/-- OWN rules for clients (R82). -/
def Chip.ownOk (s : Chip) (m : Master) (b : Nat) (v : Word) : Bool :=
  match m with
  | .host c =>
    let id := c.toNat
    if s.on (hOVLD b) then
      s.get (hOCLID b) == id && (bitsOf v.toNat 8 1 == 0 || bitsOf v.toNat 0 8 == id)
    else (s.client id).o && bitsOf v.toNat 8 1 == 1 && bitsOf v.toNat 0 8 == id
  | _ => true

/-- Check 3 of R84 that every page shares: the BPB at expert level (R77), and clearing CTL.EN under R80. -/
def Chip.stateOk (s : Chip) (m : Master) (p : PageDesc) (o : Nat) (v : Word) : Bool :=
  let b := p.base
  let bpb := mHost m && p.bas && s.on (hXP b) && 0x600 ≤ o && o < 0x800
  let clear := mHost m && o = 8 && (p.bas || p.xpa) && p.num != 0 && s.on (hEN b) && bitsOf v.toNat 0 1 == 0 &&
    !s.noneAdmitted
  !bpb && !clear

/-! ### The value an alias write gives (R60, R61) -/

/-- One field under an alias: RW bits change where `v` has 1, all others stay. -/
def aliasWord (k : Nat) (old v : Word) : Word :=
  match k with
  | 1 => old ||| v
  | 2 => old &&& ~~~v
  | 3 => old ^^^ v
  | _ => v

/-- Does an alias write with value `v` touch a field? -/
def touches (f : FieldDesc) (v : Word) : Bool := bitsOf v.toNat f.lo f.w != 0

/-! ### Field by field (R84 checks 6 and 7) -/

/-- Progress of a write through the fields of its register: state, check 6 failed, check 7 failed, a class-S change must wait
(R68), a class-B field applied at once. -/
structure Judged where
  s : Chip
  ign : Bool
  bad : Bool
  applied : Bool

/-- May class-S fields of the page change now? Pages whose CTL.EN reads 1 name their own condition in `pre`/`resv` (R68). -/
def Chip.sOpen (s : Chip) (p : PageDesc) : Bool := p.en1 || !s.on (hEN p.base)

/-- SNS.SCFGn.TH is class L only while ATH = 0; with ATH = 1 it waits for the document boundary (R245). -/
def Chip.lateTh (s : Chip) (a : Nat) (f : FieldDesc) : Bool :=
  (List.range 6).any fun n => a == Reg.SNS_SCFG n && f.lo == 8 && s.on (Fld.SNS_SCFG_ATH n)

/-- Write one field. `w` is the whole value written (after the alias), `raw` the value on the bus. -/
def writeField (p : PageDesc) (a : Nat) (m : Master) (alias_ : Nat) (w raw : Word) (resv : List Nat) (sOpen : Bool)
    (j : Judged) (f : FieldDesc) : Judged :=
  let nv := bitsOf w.toNat f.lo f.w
  let old := j.s.get ⟨a, f.lo, f.w⟩
  let fld : Field := ⟨a, f.lo, f.w⟩
  match f.acc with
  | .ro => j
  | .wo => if alias_ = 0 && (!f.legal.ok nv f.w || resv.contains f.lo) then { j with bad := true } else j
  | .w1c => if alias_ = 0 then { j with s := j.s.put fld (bitsOf (old - (old &&& nv)) 0 f.w) } else j
  | _ =>
    if alias_ ≠ 0 && !touches f raw then j
    else
      let bad := !f.legal.ok nv f.w || resv.contains f.lo
      match f.cls with
      | .s =>
        if nv = old then j
        else if bad then { j with bad := true, ign := j.ign || !sOpen }
        else if !sOpen then { j with ign := true }
        else { j with s := j.s.put fld nv }
      | .l => if bad then { j with bad := true }
        else if j.s.lateTh a f then { j with s := j.s.shade { page := p.base, addr := a, lo := f.lo, w := f.w, value := nv, bnd := bndBit .document, master := m }
                                             applied := true }
        else { j with s := j.s.put fld nv }
      | .b bnd =>
        if bad then { j with bad := true }
        else { j with
          s := j.s.shade { page := p.base, addr := a, lo := f.lo, w := f.w, value := nv, bnd := bndBit bnd, master := m }
          applied := true }

/-- CTL is written: XP judged against EN as it was (R69), then EN. STA.XPS shows the level (R77), and ENA rises with the raw registers
rewritten from the BPB at basic level (R79); clearing EN applies the shadows unless HOLD (R75). -/
def Chip.afterCtl (h : Hooks) (s : Chip) (p : PageDesc) (wasEn : Bool) : Chip :=
  let b := p.base
  let en := s.on (hEN b)
  let raw := if s.on (hXP b) then s else match h.valid b .enable (h.derive b s) with
    | [] => h.derive b s
    | ist => s.setAll ist
  let s := (if en && !wasEn then raw.set (hENA b) else s).putB (hXPS b) (s.on (hXP b))
  let s := if wasEn && !en && s.get (hBND b) != 0xF then s.applyShadows h b (fun _ => true) else s
  s.syncShadow b

/-- Is the register at offset `o` one that reads 0 whatever is written (its table says "reads 0")? -/
def readsZero (p : PageDesc) (o : Nat) : Bool := 0x40 ≤ o && (blockReg p o).any (·.zeroRead)

/-- May ERC.CODE hold a status (R86)? -/
def ercCode (st : Status) : Bool :=
  [St.busy, St.badArg, St.state, St.perm, St.exclUnsup, St.timeout, St.cfgIgnored, St.guard, St.internal].contains st

/-- Does an access touch a field that it can change: under an alias only RW fields take part (R60)? -/
def actsOn (alias_ : Nat) (raw : Word) (fs : List FieldDesc) : Bool := alias_ = 0 || fs.any fun f => f.acc == .rw && touches f raw

/-- What a written value asks of the block: under an alias, W1C and WO fields take no part (R60). -/
def askedOf (alias_ : Nat) (w : Word) (fs : List FieldDesc) : Word :=
  if alias_ = 0 then w else fs.foldl (fun v f => if f.acc == .wo || f.acc == .w1c then setField v f.lo f.w 0 else v) w

/-- Checks 2 and 3 of the block on what a write asks of it; an alias write of a register that has no RW field is ignored without an error (R60). -/
def Hooks.judge (h : Hooks) (alias_ : Nat) (m : Master) (a : Nat) (w : Word) (fs : List FieldDesc) (s : Chip) : Status :=
  if alias_ ≠ 0 && fs.all (fun f => f.acc == .wo || f.acc == .w1c || f.acc == .ro) then St.ok else h.pre m a (askedOf alias_ w fs) s

/-- Commit a judged write field by field: checks 6 and 7, then what the value does. Class-B fields apply at the end of the
write while EN = 0 (R75) or at a document boundary (R73), unless held. -/
def Chip.commit (h : Hooks) (s : Chip) (m : Master) (p : PageDesc) (o alias_ : Nat) (raw : Word) : Status × Chip :=
  let b := p.base
  let a := b + o
  match fieldsAt p o with
  | none => (St.ok, s)
  | some fs =>
    let old := s.rd a
    let w := aliasWord alias_ old raw
    let wasEn := s.on (hEN b)
    let sOpen := (h.sOpen m a s).getD (s.sOpen p)
    let gate := (h.gate b).getD b
    let changesS := fs.any fun f => f.cls == .s && (f.acc == .rw || f.acc == .rwg) &&
      bitsOf w.toNat f.lo f.w != bitsOf old.toNat f.lo f.w && (alias_ == 0 || touches f raw)
    if (!p.en1 || gate != b) && !s.on (hEN gate) && s.on (hENA gate) && changesS then
      (St.ok, { s with held := s.held ++ [{ page := b, addr := a + alias_ * 0x1000, value := raw, master := m }] })
    else
      let j := fs.foldl (writeField p a m alias_ w raw (h.resv a w s) sOpen)
        { s := s, ign := false, bad := false, applied := false }
      -- an apply event at the end of the write, or a direct change, that would leave the page inconsistent is refused whole (R170, R265)
      let now := j.applied && !wasEn && s.get (hBND b) != 0xF
      let mine := j.s.shadows.filter (·.page == b)
      let after := if now then Chip.inForce h j.s b mine else j.s
      let broken := if p.en1 then []
        else if now then h.valid b (.apply (mine.map (·.addr))) after
        else if (o = 8 || 0x40 ≤ o) && after.regs != s.regs then h.valid b (.write a wasEn) after
        else []
      if broken ≠ [] then (St.badArg, (s.setAll broken).erc b m St.badArg)
      else
      let s := if j.ign then j.s.set (hIGN b) else j.s
      let s := if o = 8 then s.afterCtl h p wasEn else s
      let s := if j.applied && !s.on (hEN b) && s.get (hBND b) != 0xF then s.applyShadows h b (fun _ => true) else s
      let s := s.applyShadows h b (fun x => x.addr == a && s.get (hBND b) != 0xF && h.atOnce x s)
      let s := if o = 0x18 && bitsOf raw.toNat 31 1 = 1 && alias_ = 0 then s.wr a 0#32 else s
      let s := if o = 0x1C && bitsOf raw.toNat 3 1 = 1 && alias_ = 0 then
          ({ s with shadows := s.shadows.filter (·.page != b) }).syncShadow b else s
      let (st, s) := if j.bad then (St.badArg, s.erc b m St.badArg)
        else if j.ign then (St.cfgIgnored, s.erc b m St.cfgIgnored) else (St.ok, s)
      -- a command or guarded value with a reserved encoding acts on nothing
      let void := j.bad && fs.any fun f => f.acc == .wo || f.acc == .rwg
      let (st2, s) := if void || !actsOn alias_ raw fs then (St.ok, s) else h.post m a old (askedOf alias_ w fs) s
      let s := if st2 = St.ok then s else if ercCode st2 then (s.wr a old).erc b m st2 else s.wr a old
      let s := if readsZero p o then s.wr a 0#32 else s
      let s := h.settle (if s.noneAdmitted then s.docBoundary h else s)
      (if st2 = St.ok then st else st2, s)

/-- Judge a write to a register page (R84, checks 2–5), then commit it. -/
def Chip.writeReg (h : Hooks) (s : Chip) (m : Master) (l : Loc) (v : Word) : Status × Chip :=
  let p := l.page
  let b := p.base
  let twin := 0x800 ≤ l.off
  let o := if twin then l.off - 0x800 else l.off
  let g := guardedAt p o
  let armed := s.latch b
  let old := s.rd (b + o)
  let w := if twin then ~~~v else aliasWord l.alias_ old v
  -- a write other than the matching twin ends an armed sequence (R64)
  let matching := match armed with
    | some x => twin && l.alias_ = 0 && x.off = o && x.value = ~~~v && decide (x.master = m)
    | none => false
  let hadOwn := match armed with
    | some _ => true
    | none => false
  if s.held.any (·.page == b) then
    -- a write that arrives while a class-S write of the page is held waits behind it, a guarded value too (R87)
    (St.ok, { s with held := s.held ++ [{ page := b, addr := b + l.alias_ * 0x1000 + l.off, value := v, master := m, judged := false }] })
  else
  -- the matching twin completes the sequence, whatever the other checks then say of the value (R65)
  let s := match armed with
    | some x => if matching then s.unlatch b else s.guardFail b (if twin then m else x.master)
    | none => s
  if (fieldsAt p o).isNone || (twin && !g) then (St.ok, s)
  else if !s.permits m p o w || (o = 0x20 && !s.ownOk m b w) then s.refuse b m St.perm
  -- a value write arms the latch; what else would refuse the pair is judged at its twin (R66, R474)
  else if g && !twin && l.alias_ = 0 then
    (St.ok, { s with guards := s.guards ++ [{ page := b, off := o, value := v, master := m }] })
  else
  let pre := h.judge l.alias_ m (b + o) w ((fieldsAt p o).getD []) s
  if pre = St.perm then s.refuse b m St.perm
  else if !s.stateOk m p o w || pre = St.state then s.refuse b m St.state
  else if pre ≠ St.ok then s.refuse b m pre
  else if twin then
    let gRight := match m with
      | .host c => (s.client c.toNat).g
      | _ => true
    if l.alias_ ≠ 0 then (St.guard, s.guardFail b m)
    else if !matching then (if hadOwn then (St.guard, s) else s.refuse b m St.guard)
    else if !gRight then (St.guard, s.guardFail b m)
    else s.commit h m p o 0 (~~~v)
  else if g then (St.guard, s.guardFail b m)
  else if l.alias_ ≠ 0 && o = 0x20 then s.refuse b m St.perm
  else s.commit h m p o l.alias_ v

/-- Is the domain that holds a region off (R42)? The spec gives the bus error that such an access ends in no KIND and no status of its own:
DESIGN CHOICE, KIND 0b10 and status 0x30, those of an access that gets no answer (log entry 138). -/
def Chip.deadRegion (s : Chip) (a : Nat) : Bool :=
  (0x50000000 ≤ a && a < 0x70000000 && !s.fab.aon) ||
  (0x10000000 ≤ a && a < 0x50000000 && !s.fab.lco) || (0x80000000 ≤ a && a < 0x84000000 && !(s.fab.lco && s.fab.dst))

/-- Judge a 32-bit write at any address of the map (R37, R38, R41, R42, R84). -/
def Chip.write32 (h : Hooks) (s : Chip) (m : Master) (a : Nat) (v : Word) : Status × Chip :=
  if s.deadRegion a then (St.timeout, s.busError m a Kind.timeout)
  else if a % 4 ≠ 0 then (St.badArg, s.busError m a Kind.width)
  else match locate a with
    | some l => s.writeReg h m l v
    | none =>
      if a < 0x8000 || (0x60000000 ≤ a && a < 0x60200000) then (St.perm, s.busError m a Kind.refused)
      else if 0x10000000 ≤ a && a < 0x10010000 then
        if s.on Fld.ORR_CTL_EN then (St.state, s.busError m a Kind.refused)
        else (St.ok, { s.setWord a v with orr := { s.orr with ecc := s.orr.ecc.filter (· != (a - 0x10000000) / 16) } })
      else if (0x14000000 ≤ a && a < 0x14010000) || (0x20000000 ≤ a && a < 0x20040000) ||
          (0x80000000 ≤ a && a < 0x84000000) then h.post m a (s.word a) v (s.setWord a v)
      else (St.badArg, s.busError m a Kind.unmapped)

/-- A byte or half-word write: only the scratch SRAM and the Central Store take one (R38). -/
def Chip.writeBytes (s : Chip) (m : Master) (a : Nat) (bs : List Byte) : Status × Chip :=
  if s.deadRegion a then (St.timeout, s.busError m a Kind.timeout)
  else if a % bs.length = 0 && ((0x20000000 ≤ a && a < 0x20040000) || (0x80000000 ≤ a && a < 0x84000000)) then
    (St.ok, s.setBytes a bs)
  else (St.badArg, s.busError m a Kind.width)

/-- What a register address reads as (R57): aliases as the normal address, twins of guarded registers as the complement,
unused offsets 0 (R40). Write-only fields and registers that read 0 show 0. -/
def Chip.readReg (s : Chip) (l : Loc) : Word :=
  let p := l.page
  if 0x800 ≤ l.off then
    (if guardedAt p (l.off - 0x800) then ~~~(s.rd (p.base + l.off - 0x800)) else 0#32)
  else if (fieldsAt p l.off).isNone then 0#32
  else s.rd (p.base + l.off)

/-- Judge a 32-bit read (R37, R84): data and status, with nothing read by a refused one; then what the read does (`onRead`). -/
def Chip.read32 (h : Hooks) (s : Chip) (m : Master) (a : Nat) : (Word × Status) × Chip :=
  if s.deadRegion a then ((0#32, St.timeout), s.busError m a Kind.timeout)
  else if a % 4 ≠ 0 then ((0#32, St.badArg), s.busError m a Kind.width)
  else match locate a with
    | some l =>
      let ok := match m with
        | .host c => s.mayR c.toNat l.page.base
        | .debug => s.on Fld.DBG_STA_UNL
        | _ => true
      if ok then h.onRead m a (s.readReg l) s else ((0#32, St.perm), s.erc l.page.base m St.perm)
    | none =>
      if a < 0x8000 || (0x10000000 ≤ a && a < 0x10010000) || (0x14000000 ≤ a && a < 0x14010000) ||
          (0x20000000 ≤ a && a < 0x20040000) || (0x60000000 ≤ a && a < 0x60200000) ||
          (0x80000000 ≤ a && a < 0x84000000) then h.onRead m a (s.word a) s
      else ((0#32, St.badArg), s.busError m a Kind.unmapped)

end Sys2Proof.Machine
end

