-- ==== Sys2Proof/Machine/Ledger.lean ====
section
/-!
DEFINITION. The Energy Ledger (R135–R145): an item's load profile, zone and nip windows (R136, R140, R224, R225, R232), the
store test and reservation (R336–R341), the heat model (R138), the admission test (R141) and decision points (R142).
Times are exact fractions of 1 ms; a window covers every bin it touches.
-/
namespace Sys2Proof.Machine

/-- The input with a sensor role, if one is assigned (R227). -/
def Chip.roleInput (s : Chip) (role : Nat) : Option Nat :=
  (List.range 6).find? fun n => s.get (Fld.SNS_SCFG_ROLE n) == role

/-- Path coordinate, in µm, of the sensor with a role (R222); 0 where none is assigned. -/
def Chip.roleX (s : Chip) (role : Nat) : Int :=
  match s.roleInput role with
  | some n => s.getS (Fld.SNS_BPOS_X n)
  | none => 0

/-! Sensor roles (R227). -/
namespace Role
abbrev entry : Nat := 1
abbrev pickx : Nat := 2
abbrev read : Nat := 3
abbrev mid : Nat := 4
abbrev exit : Nat := 5
abbrev dfd : Nat := 6
abbrev home : Nat := 7
end Role

/-- Is the item in carriage handling (START FLAGS bit 3, R99)? -/
def Item.carriage (x : Item) : Bool := bitsOf x.flags 3 1 == 1
/-- MARK (bit 2). -/
def Item.mark (x : Item) : Bool := bitsOf x.flags 2 1 == 1
/-- FRONT (bit 0) and REAR (bit 1) scan. -/
def Item.scans (x : Item) (stn : Nat) : Bool := bitsOf x.flags stn 1 == 1

/-- Reserved length in µm: (LEN + BSZT) × 0.1 mm (R224). -/
def Chip.resLen (s : Chip) (x : Item) : Nat := (x.len + s.get Fld.DOC_BSZT_T) * 100

/-- `a / b` as an exact fraction, 0 when `b` is 0. -/
def frac (a : Int) (b : Nat) : Rat := if b = 0 then 0 else (a : Rat) / (b : Rat)

/-- Time in ms after t0 at which the leading edge reaches path coordinate `x` (R224). -/
def Chip.leadAt (s : Chip) (p : Nat) (x : Int) : Rat :=
  (s.get (Fld.MOT_PROFC_TPICK p) : Rat) + frac (x - s.roleX Role.pickx) (s.get (Fld.MOT_PROFA_V p))

/-- Time the item's length takes at speed V. -/
def Chip.lenTime (s : Chip) (x : Item) : Rat := frac (s.resLen x) (s.get (Fld.MOT_PROFA_V x.prof))

/-- The trip in ms (R224, R232). -/
def Chip.trip (s : Chip) (x : Item) : Rat :=
  if x.carriage then
    (s.get (Fld.MOT_PROFC_TPICK x.prof) : Rat) + s.lenTime x +
      frac (s.get (Fld.MOT_PROFE_CSTART x.prof) * 10 + s.resLen x) (s.get (Fld.MOT_PROFA_VRET x.prof))
  else s.leadAt x.prof (s.roleX Role.exit) + s.lenTime x

/-- Counts as time in ms at the profile's speed: counts × 256 / (K × V) mm⁻¹ (R224). -/
def Chip.countTime (s : Chip) (p : Nat) (c : Rat) : Rat :=
  let kv := s.get (Fld.MOT_PROFB_K p) * s.get (Fld.MOT_PROFA_V p)
  if kv = 0 then 0 else c * 256000 / (kv : Rat)

/-- Round half up. -/
def roundHalfUp (x : Rat) : Int := (x + 1 / 2).floor

/-- Counts of a length in µm under a profile's scale: round(k × µm / 1,000). -/
def Chip.countsOf (s : Chip) (p : Nat) (um : Int) : Int :=
  roundHalfUp ((s.get (Fld.MOT_PROFB_K p) : Rat) * (um : Rat) / 256000)

/-- First bin of a time, and the first bin after it, counted from bin `t0`. -/
def binLo (t0 : Nat) (t : Rat) : Nat := t0 + (max t 0).floor.toNat
def binHi (t0 : Nat) (t : Rat) : Nat := t0 + (max t 0).ceil.toNat

/-- The job of a handle: the one that can be used or is in use, else any entry that names it. -/
def Chip.jobOf (s : Chip) (h : Nat) : Option Job :=
  match s.mrk.jobs.find? (fun j => j.handle == h && (j.st == .ready || j.st == .bound)) with
  | some j => some j
  | none => s.mrk.jobs.find? fun j => j.handle == h && j.st != .free

/-- The marking windows of an item (R136, R201): for each band its bins at the write line. -/
def Chip.bandWindows (s : Chip) (x : Item) (t0 : Nat) : List (Nat × Nat) :=
  match s.jobOf x.mjob with
  | none => []
  | some j => j.bands.map fun b =>
      let c0 : Int := (s.get Fld.MRK_TNP_C : Int) - (s.get Fld.MRK_DWT_C : Int) + s.countsOf x.prof b.yofs
      let base := s.leadAt x.prof (s.roleX Role.read)
      let pit : Rat := (s.get Fld.MRK_WPIT_P : Rat) / 65536
      (binLo t0 (base + s.countTime x.prof c0), binHi t0 (base + s.countTime x.prof ((c0 : Rat) + b.nline * pit)))

/-- The load segments of a candidate from bin `t0` (R136), in 0.25 W. -/
def Chip.loadSegs (s : Chip) (x : Item) (t0 : Nat) : List Seg :=
  let p := x.prof
  let sg (lo hi w : Nat) : Seg := { item := x.id, lo := lo, hi := hi, w := w }
  [sg t0 (t0 + s.get (Fld.MOT_PROFC_TPICK p)) (s.get (Fld.LGR_LDT_PICK p)),
   sg t0 (binHi t0 (s.trip x)) (s.get (Fld.LGR_LDT_TRAN p))] ++
  (if x.mark then (s.bandWindows x t0).map fun b => sg b.1 b.2 (s.get (Fld.LGR_LDT_MARK p)) else [])

/-- The bins in which an item is in the fuser nip (R136, R138): leading edge at FNP to trailing edge out. -/
def Chip.nipWin (s : Chip) (x : Item) (t0 : Nat) : NipWin :=
  let a := s.leadAt x.prof (s.roleX Role.read) + s.countTime x.prof (s.get Fld.MRK_FNP_C)
  { item := x.id, mark := x.mark, lo := binLo t0 a, hi := binHi t0 (a + s.lenTime x), media := s.get (Fld.LGR_LDT_MEDIA x.prof) }

/-- The zone windows of an item (R225). -/
def Chip.zoneWins (s : Chip) (x : Item) (t0 : Nat) : List ZoneWin :=
  if x.carriage then [{ item := x.id, zone := 7, lo := t0, hi := binHi t0 (s.trip x) }]
  else
    ((List.range 8).filter fun z => s.getS (Fld.MOT_BZS_X z) < s.getS (Fld.MOT_BZE_X z)).map fun z =>
      let bs := s.getS (Fld.MOT_BZS_X z)
      let be := s.getS (Fld.MOT_BZE_X z)
      { item := x.id, zone := z,
        lo := if bs ≤ s.roleX Role.pickx then t0 else binLo t0 (s.leadAt x.prof bs),
        hi := binHi t0 (s.leadAt x.prof be + s.lenTime x) }

/-! ### Power (R135) -/

/-- PEFF in 0.25 W (R135): min(PLIM, VINMIN × ILIM × 0.95), rounded down. VINMIN is the lowest VIN mirror value in the last
1 s, or the present one. -/
def Chip.peff (s : Chip) : Nat :=
  let vins := (s.pow.vinHist.filter fun v => s.nowMs ≤ v.1 + 1000).map (·.2)
  let vmin := vins.foldl min (s.get (Fld.DBR_MVAL_V 0) % 65536)
  min (s.get Fld.LGR_PLIM_W) (vmin * s.get Fld.PWR_ILIM_A * 95 * 4 / 1000000)

/-- BASE in 0.25 W (R135): LGR.BASE, plus VRES × ICHG / 0.85 while the charger charges (R128), rounded up. -/
def Chip.baseLoad (s : Chip) : Nat :=
  let chrg := bitsOf (s.get (Fld.DBR_MVAL_V 5)) 9 1 == 1
  let vres := s.get (Fld.DBR_MVAL_V 4) % 65536
  s.get Fld.LGR_BASE_W + (if chrg then (vres * s.get Fld.RES_CHG_ICHG * 400 + 84999999) / 85000000 else 0)

/-- Committed power of a bin. -/
def loadAt (segs : List Seg) (b : Nat) : Nat :=
  segs.foldl (fun n g => if g.lo ≤ b && b < g.hi then n + g.w else n) 0

/-- The first bin of `lo … lo + n - 1` that fails `ok`. -/
def firstBad (ok : Nat → Bool) (lo : Nat) : Nat → Option Nat
  | 0 => none
  | n + 1 => if ok lo then firstBad ok (lo + 1) n else some lo

/-! ### Heat (R137, R138) -/

/-- The fuser setpoint in force, TSET = min(MRK.FSET.T, FUS.TCEIL), in 0.1 °C (R207). -/
def Chip.tset (s : Chip) : Nat := min (s.get Fld.MRK_FSET_T) (s.get Fld.FUS_TCEIL_T)

/-- Step the thermal model (R138) from bin `b` over `n` bins; answers the lowest temperature met in nip bins of MARK items
and the first bin below TSET − BLO. Temperatures in °C, powers in W. -/
def heatRun (ph : Nat → Rat → Rat) (media : Nat → Rat) (nip : Nat → Bool) (heff tamb rth cth floor : Rat) (b : Nat)
    (t : Rat) (low : Option Rat) : Nat → Option Rat × Option Nat
  | 0 => (low, none)
  | n + 1 =>
    if nip b && t < floor then (some t, some b)
    else
      let low' := if nip b then (match low with
        | some l => some (min l t)
        | none => some t) else low
      let t' := t + (heff * ph b t - (t - tamb) / rth - media b) / 1000 / cth
      heatRun ph media nip heff tamb rth cth floor (b + 1) t' low' n

/-- The heat test of a candidate (R138): lowest nip temperature predicted, and the first bin that fails. -/
def Chip.heatTest (s : Chip) (x : Item) (t0 : Nat) : Option Rat × Option Nat :=
  let cand := s.loadSegs x t0
  let nips := s.nipWin x t0 :: s.pow.nips
  let tset : Rat := (s.tset : Rat) / 10
  let vin : Rat := (s.get (Fld.DBR_MVAL_V 0) % 65536 : Nat)
  let rh : Rat := (s.get Fld.LGR_HTR_RH : Rat) / 100
  let left (b : Nat) : Rat :=
    (((s.peff : Int) - s.get Fld.LGR_MRG_W - s.baseLoad - loadAt s.pow.segs b - loadAt cand b : Int) : Rat) / 4
  let ph (b : Nat) (t : Rat) : Rat :=
    if tset ≤ t then 0
    else max 0 (min (min (vin * vin / 1000000 / rh) (s.get Fld.LGR_HTR_PHMAX : Rat)) (left b))
  let inNip (n : NipWin) (b : Nat) : Bool := n.lo ≤ b && b < n.hi
  let media (b : Nat) : Rat := nips.foldl (fun a n => if inNip n b then a + (n.media : Rat) else a) 0
  let markNip (b : Nat) : Bool := nips.any fun n => n.mark && inNip n b
  heatRun ph media markNip ((s.get Fld.LGR_THM2_HEFF : Rat) / 100) (s.get Fld.LGR_THM2_TAMB : Rat)
    ((s.get Fld.LGR_THM_RTH : Rat) / 100) ((s.get Fld.LGR_THM_CTH : Rat) / 10)
    (tset - (s.get Fld.LGR_HEAT_BLO : Rat) / 2) 0 ((bitsOf (s.get (Fld.DBR_MVAL_V 6)) 0 12 : Nat) / 10 : Rat) none
    (binHi t0 (s.trip x))

/-! ### Store (R336–R341) -/

/-- The line pitch that an item will be armed with (R180): at basic level the engine program writes it from the BPB and the item's
profile before the arming (R193). -/
def Chip.linePitch (s : Chip) (x : Item) : Nat :=
  let lpi := s.get Fld.IMG_BLPI_L
  if s.on Fld.IMG_CTL_XP || lpi = 0 then s.get Fld.IMG_PITCH_P
  else (2 * 65536 * s.get (Fld.MOT_PROFB_K x.prof) * 254 + 2560 * lpi) / (2 * 2560 * lpi)

/-- NLMAX of an item for the line pitch in force (R180, R336). -/
def Chip.nlmax (s : Chip) (x : Item) : Nat :=
  let pitch := s.linePitch x
  let k := s.get (Fld.MOT_PROFB_K x.prof)
  if pitch = 0 then 0
  else (frac ((x.len + s.get Fld.DOC_BSZT_T) * k * 65536 : Nat) (2560 * pitch)).ceil.toNat

/-- Bytes of a line record of station `stn` (R336). -/
def Chip.recBytes (s : Chip) (x : Item) (stn : Nat) : Nat :=
  let m := (List.range 4).countP fun i => bitsOf x.slots i 1 == 1
  let b := if x.sfmt = 0 then 1 else 2
  32 * (1 + (s.get (Fld.MER_NPX_N stn) * m * b + 31) / 32)

/-- Granules and ring entries that station `stn` needs (R336). -/
def Chip.storeNeed (s : Chip) (x : Item) (stn : Nat) : Nat × Nat :=
  let nl := s.nlmax x
  ((64 + nl * s.recBytes x stn + 32 + 65535) / 65536, nl + 2)

/-- First fit of `g` granules in a list of free runs; the run that is left is shortened (R337). -/
def takeRun (g : Nat) : List (Nat × Nat) → Option (Nat × List (Nat × Nat))
  | [] => none
  | (b, n) :: rs =>
    if g ≤ n then some (b, (b + g, n - g) :: rs)
    else match takeRun g rs with
      | some (p, rs') => some (p, (b, n) :: rs')
      | none => none

/-- Free entries of a station's ring (R337). -/
def Chip.freeEntries (s : Chip) (stn : Nat) : Nat :=
  let n := s.imgRing stn
  s.ringCap n - (s.ring n).ents.length - s.reservedOn n

/-- A reservation found: front base, granules, entries; rear base, granules, entries. -/
structure Reserve where
  fb : Nat
  fg : Nat
  fe : Nat
  rb : Nat
  rg : Nat
  re : Nat
  deriving DecidableEq, Repr

/-- No run and no entry. -/
def noReserve : Reserve := { fb := 0, fg := 0, fe := 0, rb := 0, rg := 0, re := 0 }

/-- The station parts of store_fits (R337), front first. -/
def Chip.findReserve (s : Chip) (x : Item) : Option Reserve :=
  let runs := s.freeRuns
  let front := if x.scans 0 then
      match takeRun (s.storeNeed x 0).1 runs with
      | some (b, rs) => if (s.storeNeed x 0).2 ≤ s.freeEntries 0 then
          some ({ noReserve with fb := b, fg := (s.storeNeed x 0).1, fe := (s.storeNeed x 0).2 }, rs) else none
      | none => none
    else some (noReserve, runs)
  match front with
  | none => none
  | some (r, rs) =>
    if x.scans 1 then
      match takeRun (s.storeNeed x 1).1 rs with
      | some (b, _) => if (s.storeNeed x 1).2 ≤ s.freeEntries 1 then
          some { r with rb := b, rg := (s.storeNeed x 1).1, re := (s.storeNeed x 1).2 } else none
      | none => none
    else some r

/-- What an item gets with the store test bypassed (R341): as much as there is. -/
def Chip.bypassReserve (s : Chip) (x : Item) : Reserve :=
  let best (rs : List (Nat × Nat)) : Nat × Nat := rs.foldl (fun a r => if a.2 < r.2 then r else a) (0, 0)
  let f := best s.freeRuns
  let fg := if x.scans 0 then min (s.storeNeed x 0).1 f.2 else 0
  let rs := s.freeRuns.map fun r => if r.1 = f.1 then (r.1 + fg, r.2 - fg) else r
  let r := best rs
  { fb := f.1, fg := fg, fe := if x.scans 0 then min (s.storeNeed x 0).2 (s.freeEntries 0) else 0,
    rb := r.1, rg := if x.scans 1 then min (s.storeNeed x 1).1 r.2 else 0,
    re := if x.scans 1 then min (s.storeNeed x 1).2 (s.freeEntries 1) else 0 }

/-- A free entry of the reservation table (R337). -/
def Chip.freeRsvEntry (s : Chip) : Option Nat := (List.range 8).find? fun i => s.get (Fld.CST_RSVI_ITEM i) == 0

/-- Is the item's mark job BOUND (R337)? -/
def Chip.jobBound (s : Chip) (x : Item) : Bool :=
  match s.jobOf x.mjob with
  | some j => j.st == .bound && j.item == x.id
  | none => false

/-- store_fits (R337). -/
def Chip.storeFits (s : Chip) (x : Item) : Bool :=
  s.on Fld.CST_CTL_EN && (!(x.scans 0 || x.scans 1) || s.freeRsvEntry.isSome) && (s.findReserve x).isSome &&
    (!x.mark || s.jobBound x)

/-- Record a reservation in CST.RSV (R337, R342). DEDUCED (log entry 195): with all eight entries held an item admitted with the store test bypassed
gets nothing, because no entry can hold it. -/
def Chip.reserve (s : Chip) (x : Item) : Chip :=
  if !(x.scans 0 || x.scans 1) then s
  else match s.freeRsvEntry with
    | none => s
    | some i =>
      let r := (s.findReserve x).getD (s.bypassReserve x)
      let s := s.put (Fld.CST_RSVI_ITEM i) x.id
      (((s.setRun i 0 r.fg r.fb).setRun i 1 r.rg r.rb).setEntries i 0 r.fe).setEntries i 1 r.re |>.syncPool

/-! ### Path (R140, R225) -/

/-- Is the input with a role covered? -/
def Chip.covered (s : Chip) (role : Nat) : Bool :=
  match s.roleInput role with
  | some n => bitsOf (s.get Fld.SNS_LVL_COV) n 1 == 1
  | none => false

/-- Does a profile's axis run open-loop, or is its encoder lost (R260)? -/
def Chip.axisOpen (s : Chip) (p : Nat) : Bool :=
  let a := s.get (Fld.MOT_PROFB_AXIS p)
  (if a = 0 then s.mot.axA.openLoop else s.mot.axB.openLoop) || bitsOf (s.get Fld.ENC_STA_LOST) a 1 == 1

/-- The path test (R140, R179, R225, R232, R260). -/
def Chip.pathFree (s : Chip) (x : Item) (t0 : Nat) : Bool :=
  let gap := s.get Fld.LGR_SCHED_PGAP
  let clash (a b : ZoneWin) : Bool := a.zone == b.zone && a.lo < b.hi + gap && b.lo < a.hi + gap
  let zonesOk := (s.zoneWins x t0).all fun w => s.pow.zones.all fun z => !clash w z
  if s.on Fld.CAL_STA_BUSY then false
  else if x.carriage then zonesOk && s.covered Role.home && !s.axisOpen x.prof
  else zonesOk && !s.axisOpen x.prof && ((s.roleInput Role.entry).isNone || s.get Fld.DOC_BCFG_MODE = 1 || s.covered Role.entry)

/-! ### The admission test (R141) -/

/-- Result of a test: status, the number of the check it reached, the first failing bin, and the nip minimum predicted. -/
structure TestRes where
  status : Status
  stage : Nat
  fbin : Nat
  tmin : Option Rat

/-- BCFG.MAXADM, with 0 meaning 8. -/
def Chip.maxAdm (s : Chip) : Nat := if s.get Fld.DOC_BCFG_MAXADM = 0 then 8 else s.get Fld.DOC_BCFG_MAXADM

/-- Items granted: admitted, or with their ADMITTED commit under way. -/
def Chip.granted (s : Chip) : Nat :=
  s.doc.items.countP fun x => x.admitted || s.doc.commits.any fun c => match c.kind with
    | .admission _ => c.item == x.id
    | _ => false

/-- The admission test of a candidate at start bin `t0` (R141). -/
def Chip.admTest (s : Chip) (x : Item) (t0 : Nat) : TestRes :=
  let span := (s.trip x).ceil.toNat
  let cand := s.loadSegs x t0
  let valid := bitsOf (s.get (Fld.DBR_MVAL_V 5)) 8 1 == 1
  let bw := bitsOf (s.get (Fld.DBR_MVAL_V 3)) 11 1 == 1
  let fits (b : Nat) : Bool :=
    s.baseLoad + loadAt s.pow.segs b + loadAt cand b + s.get Fld.LGR_MRG_W ≤ s.peff
  let heat := s.heatTest x t0
  let bypass := s.on Fld.LGR_XBYP_HEAT && s.on Fld.LGR_CTL_XP
  if s.maxAdm ≤ s.granted then { status := St.admitPath, stage := 1, fbin := t0, tmin := none }
  else if !valid || bw then { status := St.admitEnergy, stage := 2, fbin := t0, tmin := none }
  else if 4096 < t0 + span then { status := St.admitPath, stage := 3, fbin := t0, tmin := none }
  else match firstBad fits t0 span with
    | some b => { status := St.admitEnergy, stage := 4, fbin := b, tmin := none }
    | none =>
      if s.on Fld.DOC_BCFG_MARK && !s.doc.heatBand then { status := St.admitHeat, stage := 5, fbin := t0, tmin := none }
      else if s.on Fld.DOC_BCFG_MARK && !bypass && heat.2.isSome then
        { status := St.admitHeat, stage := 6, fbin := heat.2.getD t0, tmin := none }
      else if !(s.on Fld.LGR_XBYP_STORE && s.on Fld.LGR_CTL_XP) && !s.storeFits x then
        { status := St.admitStore, stage := 7, fbin := t0, tmin := none }
      else if !s.pathFree x t0 then { status := St.admitPath, stage := 8, fbin := t0, tmin := none }
      else { status := St.ok, stage := 9, fbin := 0, tmin := heat.1 }

/-- Try the offsets of R142; of refusals keep the one that reached the latest check, the earliest offset when several tie. -/
def Chip.tryOffsets (s : Chip) (x : Item) (t0 : Nat) (best : Option TestRes) : Nat → TestRes × Option Nat
  | 0 => (best.getD { status := St.admitPath, stage := 0, fbin := t0, tmin := none }, none)
  | n + 1 =>
    let r := s.admTest x t0
    if r.status = St.ok then (r, some t0)
    else
      let keep := match best with
        | some b => if b.stage < r.stage then r else b
        | none => r
      s.tryOffsets x (t0 + 5) (some keep) n

/-- Grant an admission (R142): reservations enter the timeline, and the ADMITTED record's commit starts. DESIGN CHOICE
(log entry 180): the reservations enter before the commit, so that R143 has some to release when it fails. DESIGN CHOICE (log entry 150): a grant
that predicts no nip bin of a MARK item has no minimum to give, and LGR.TMIN keeps its value. -/
def Chip.grant (s : Chip) (x : Item) (t0 : Nat) (r : TestRes) : Chip :=
  let s := (s.put Fld.LGR_LDEC_STATUS 0).put Fld.LGR_LDEC_FBIN 0 |>.put Fld.LGR_LITM_ID x.id
  let segs := s.pow.segs ++ s.loadSegs x t0
  let nips := if s.on Fld.DOC_BCFG_MARK then s.pow.nips ++ [s.nipWin x t0] else s.pow.nips
  let zones := s.pow.zones ++ s.zoneWins x t0
  let s := s.reserve x
  let s := { s with pow := { s.pow with segs := segs, nips := nips, zones := zones },
                    doc := { s.doc with commits := s.doc.commits ++ [(⟨.admission t0, x.id⟩ : Commit)] } }
  let peak := (segs.map fun g => loadAt segs g.lo).foldl max 0
  let s := (s.put Fld.LGR_PEAK_PK (s.baseLoad + peak)).put Fld.LGR_PEAK_PEFF s.peff
  match r.tmin with
  | some t => s.put Fld.LGR_TMIN_T (roundHalfUp (t * 10)).toNat
  | none => s

/-- Record a refusal (R142): LDEC, LITM, RFC and the item's last refused status. -/
def Chip.recordRefusal (s : Chip) (x : Item) (r : TestRes) : Chip :=
  let s := (s.put Fld.LGR_LDEC_STATUS r.status.toNat).put Fld.LGR_LDEC_FBIN r.fbin |>.put Fld.LGR_LITM_ID x.id
  let s := if r.status = St.admitEnergy then s.bump Fld.LGR_RFC_ENERGY
    else if r.status = St.admitHeat then s.bump Fld.LGR_RFC_HEAT
    else if r.status = St.admitStore then s.bump Fld.LGR_RFC_STORE else s.bump Fld.LGR_RFC_PATH
  s.updItem x.id fun x => { x with refusal := r.status }

/-- One queued item at a decision point. -/
def Chip.decideItem (s : Chip) (id : Nat) : Chip :=
  match s.item id with
  | none => s
  | some x =>
    if !x.queued || x.settled then s
    else
      let r := s.tryOffsets x (s.get Fld.LGR_SCHED_LEAD) none (s.get Fld.LGR_SCHED_DEFER / 5 + 1)
      match r.2 with
      | some t0 => s.grant x t0 r.1
      | none => s.recordRefusal x r.1

/-- A decision point (R142): queued items in ascending ID. With the journal writer busy it waits; the ledger admits only in
READY and RUN (R92), and no more once PFAIL has reached the L-die (R132). -/
def Chip.decidePoint (s : Chip) : Chip :=
  if (s.engine = Eng.ready || s.engine = Eng.run) && !s.fab.up.pfail then
    if s.doc.commits.isEmpty then
      ((s.doc.items.map (·.id)).foldl (fun t id => t.decideItem id)
        { s with pow := { s.pow with decideDue := false } })
    else { s with pow := { s.pow with decideDue := true } }
  else { s with pow := { s.pow with decideDue := false } }

/-- Everything an item still reserves in the timeline is released (R143). -/
def Chip.releaseLedger (s : Chip) (id : Nat) : Chip :=
  { s with pow := { s.pow with segs := s.pow.segs.filter (·.item != id), zones := s.pow.zones.filter (·.item != id),
                               nips := s.pow.nips.filter (·.item != id) } }

/-- Release everything an item reserves, store space included, because its ADMITTED commit failed (R143). -/
def Chip.releaseAll (s : Chip) (id : Nat) : Chip := ((s.releaseLedger id).trimRun id 0).trimRun id 1

end Sys2Proof.Machine
end

