-- ==== Sys2Proof/Machine/Fdie.lean ====
section
/-!
DEFINITION. The ferroelectric store (chapter 15): window reads (R407), the supply check (R410), commit groups (R408–R413), torn
writes and recovery (R414–R416), sense lines and cell faults (R417–R420), slot rings (R421–R426) and block protect (R427).
-/
namespace Sys2Proof.Machine

/-- Address of F-die page `p` (R405). -/
def pageAddr (p : Nat) : Nat := fDie + 64 * p

/-- The 16 words of page `p`. -/
def Chip.pageWords (s : Chip) (p : Nat) : List Word := (List.range 16).map fun i => s.word (pageAddr p + 4 * i)

/-- A word write to the array; fresh check bits end a POISON (R414). -/
def Chip.fWrite (s : Chip) (a : Nat) (w : Word) : Chip :=
  { s.setWord a w with fst := { s.fst with poison := s.fst.poison.filter (· != a) } }

/-- Word writes in order. -/
def Chip.fWrites (s : Chip) (l : List (Nat × Word)) : Chip := l.foldl (fun t x => t.fWrite x.1 x.2) s

/-- Words of a byte string, little-endian. -/
def wordsOf : List Byte → List Word
  | a :: b :: c :: d :: r => BitVec.ofNat 32 (ofLeBytes [a, b, c, d]) :: wordsOf r
  | _ => []

/-- The word writes of a page. -/
def pageWrites (base : Nat) (ws : List Word) : List (Nat × Word) :=
  (List.range ws.length).map fun i => (base + 4 * i, (ws[i]?).getD 0#32)

/-! ### Supply check and protection (R410, R427) -/

/-- The supply check of R410: the status with which a commit is refused, or 0x00. `safe` marks a group of the safe stop. -/
def Chip.supplyCheck (s : Chip) (safe : Bool) : Status :=
  match s.get Fld.HRV_STA_SRC with
  | 0 =>
    if s.on Fld.PWR_IST_PFAIL || s.pow.pfail then
      if safe && s.fst.validAtPfail && s.fst.safeGroups < 2 then St.ok else St.busy
    else if s.on Fld.RES_STA_VALID then St.ok else St.busy
  | 1 => if bitsOf (s.get Fld.HRV_STA_ABV) 1 1 = 1 then St.ok else St.waitEnergy
  | _ => if 2500 ≤ s.get (Fld.SEN_VAL_V 1) then St.ok else St.waitEnergy

/-- Is F-die page `p` protected (R427)? -/
def Chip.protected_ (s : Chip) (p : Nat) : Bool :=
  match s.get Fld.NVM_BP_BP with
  | 0 => false
  | 1 => 0x180000 ≤ 64 * p
  | 2 => 0x100000 ≤ 64 * p
  | _ => true

/-- May a master stage page `p` (R406)? -/
def Chip.mayStage (s : Chip) (m : Master) (p : Nat) : Bool :=
  let o := 64 * p
  let oem := (0x0A0000 ≤ o && o < 0x100000) || (0x180000 ≤ o && o < 0x1A0000)
  match m with
  | .host c => oem && s.mayX c.toNat Pg.NVM
  | .alm => (0x4000 ≤ o && o < 0x80000) || (0x0A0000 ≤ o && o < 0x1E0000)
  | .debug => (0x4000 ≤ o && o < 0x80000) || (0x0A0000 ≤ o && o < 0x1E0000)
  | _ => false

/-! ### Commit groups (R408–R413) -/

/-- Group states (NVM.GST.ST). -/
def Chip.gst (s : Chip) : Nat := s.get Fld.NVM_GST_ST

/-- Show group state, owner and pages. -/
def Chip.showGroup (s : Chip) (st : Nat) : Chip :=
  let s := (s.put Fld.NVM_GST_ST st).put Fld.NVM_GST_NPG s.fst.pages.length
  let s := match s.fst.owner with
    | some m => (s.put Fld.NVM_GST_MST (mCode m)).put Fld.NVM_GST_CLID (mClid m)
    | none => (s.put Fld.NVM_GST_MST 0).put Fld.NVM_GST_CLID 0
  (s.putB Fld.NVM_STA_OPEN (st = 1)).putB Fld.NVM_STA_BUSY (st = 2)

/-- Open a group for a master (R408). -/
def Chip.openGroup (s : Chip) (m : Master) : Chip :=
  ({ s with fst := { s.fst with owner := some m, pages := [], sel := none, preload := false } }).showGroup 1

/-- The group returns to IDLE; the next OPEN that was held proceeds (R408). -/
def Chip.closeGroup (s : Chip) : Chip :=
  let s := ({ s with fst := { s.fst with owner := none, pages := [], sel := none, preload := false } }).showGroup 0
  match s.fst.heldOpen with
  | [] => s
  | m :: r => ({ s with fst := { s.fst with heldOpen := r } }).openGroup m

/-- NVM.CMD OPEN (R408): in IDLE it opens; otherwise a client gets 0x10 and Almanac firmware is held; in RECOVER everybody is. -/
def Chip.nvmOpen (s : Chip) (m : Master) : Status × Chip :=
  match s.gst with
  | 0 => (St.ok, s.openGroup m)
  | 3 => (St.ok, { s with fst := { s.fst with heldOpen := s.fst.heldOpen ++ [m] } })
  | _ => if m = .alm then (St.ok, { s with fst := { s.fst with heldOpen := s.fst.heldOpen ++ [m] } }) else (St.busy, s)

/-- Is the master (and client) the group's owner? -/
def Chip.ownsGroup (s : Chip) (m : Master) : Bool := s.fst.owner == some m

/-- NVM.CMD COMMIT (R408, R410, R411, R427). -/
def Chip.nvmCommit (s : Chip) (m : Master) : Status × Chip :=
  if s.gst = 0 || s.gst = 3 then (St.state, s)
  else if !s.ownsGroup m then (St.perm, s)
  else if s.gst = 2 then (St.state, s)
  else if s.fst.pages.any (fun p => s.protected_ p.1) then (St.perm, s)
  else if s.supplyCheck false ≠ St.ok then (s.supplyCheck false, s)
  else if s.fst.pages.isEmpty then (St.ok, s.closeGroup)
  else (St.ok, ({ s with fst := { s.fst with passed := false } }).showGroup 2)

/-- The commit in progress passes its commit point (R413). -/
def Chip.passPoint (s : Chip) : Chip := if s.gst = 2 then { s with fst := { s.fst with passed := true } } else s

/-- NVM.CMD DISCARD (R408). -/
def Chip.nvmDiscard (s : Chip) (m : Master) : Status × Chip :=
  if s.gst = 0 || s.gst = 3 then (St.state, s)
  else if !s.ownsGroup m then (St.perm, s)
  else if s.gst = 2 then (St.state, s)
  else (St.ok, s.closeGroup)

/-- The descriptor's words before CWORD and from the page list on (R412). -/
def descWrites (gseq : Nat) (pl : List Nat) : List (Nat × Word) :=
  let head := leBytes 4 gseq ++ leBytes 2 pl.length
  let list := (pl ++ List.replicate (64 - pl.length) 0xFFFF).flatMap (leBytes 2)
  let crc := leBytes 2 (crc16 (head ++ list)).toNat
  pageWrites (pageAddr 128) (wordsOf (head ++ crc)) ++ pageWrites (pageAddr 129) (wordsOf list)

/-- CWORD and DWORD (R412). -/
def cword : Nat := pageAddr 128 + 8
def dword : Nat := pageAddr 128 + 12

/-- Put a page into ascending page order. -/
def pageInsert (p : Nat × List Word) : List (Nat × List Word) → List (Nat × List Word)
  | [] => [p]
  | x :: xs => if p.1 < x.1 then p :: x :: xs else if p.1 = x.1 then p :: xs else x :: pageInsert p xs

/-- Every word write of a commit, in the order of R411: redo pages, descriptor, CWORD, home pages, DWORD. -/
def commitWrites (gseq : Nat) (pages : List (Nat × List Word)) : List (Nat × Word) :=
  let ps := pages.foldl (fun l p => pageInsert p l) []
  let n := BitVec.ofNat 32 gseq
  ((List.range ps.length).flatMap fun i => pageWrites (pageAddr (131 + i)) (((ps[i]?).map (·.2)).getD [])) ++
    descWrites gseq (ps.map (·.1)) ++ [(cword, n)] ++ (ps.flatMap fun p => pageWrites (pageAddr p.1) p.2) ++ [(dword, n)]

/-- How many of them the commit point ends: those up to CWORD (R411, R413). -/
def toCommitPoint (gseq : Nat) (pages : List (Nat × List Word)) : Nat :=
  ((commitWrites gseq pages).takeWhile fun x => x.1 != cword).length + 1

/-- The next group sequence. -/
def Chip.nextGseq (s : Chip) : Nat := (s.get Fld.NVM_GSEQ_N + 1) % 2 ^ 32

/-- Write a whole group of pages and number it (R411). -/
def Chip.writeGroup (s : Chip) (pages : List (Nat × List Word)) : Chip :=
  let n := s.nextGseq
  ((s.fWrites (commitWrites n pages)).put Fld.NVM_GSEQ_N n).set Fld.NVM_IST_CMTD

/-- NVM_COMMIT_DONE: the group in COMMIT is written whole and returns to IDLE (R411). -/
def Chip.commitDone (s : Chip) : Chip := if s.gst = 2 then (s.writeGroup s.fst.pages).closeGroup else s

/-- A group that Almanac firmware or the journal writer commits on its own: refused while another group is open, a page is
protected (R408, R427) or the supply check has given `supply`. -/
def Chip.groupIf (s : Chip) (supply : Status) (pages : List (Nat × List Byte)) : Status × Chip :=
  let ps := pages.map fun p => (p.1, wordsOf p.2)
  if s.gst ≠ 0 then (St.busy, s)
  else if ps.any (fun p => s.protected_ p.1) then (St.perm, s)
  else if supply ≠ St.ok then (supply, s)
  else (St.ok, s.writeGroup ps)

/-- Such a group with its supply check (R410). -/
def Chip.ownGroup (s : Chip) (safe : Bool) (pages : List (Nat × List Byte)) : Status × Chip :=
  s.groupIf (s.supplyCheck safe) pages

/-- Bytes `bs` at F-die offset `o` as whole pages: the pages that hold them, with the rest of each page as it stands. -/
def Chip.patchPages (s : Chip) (o : Nat) (bs : List Byte) : List (Nat × List Byte) :=
  if bs.isEmpty then []
  else (List.range ((o + bs.length - 1) / 64 - o / 64 + 1)).map fun i =>
    let p := o / 64 + i
    (p, (List.range 64).map fun j =>
      if o ≤ 64 * p + j && 64 * p + j < o + bs.length then (bs[64 * p + j - o]?).getD 0#8 else s.byte (fDie + 64 * p + j))

/-- Count a word that cannot be corrected (R407). -/
def Chip.countUE (s : Chip) (a : Nat) : Chip := ((s.bump Fld.NVM_ECC_UE).put Fld.NVM_UEA_A a).set Fld.NVM_IST_UE

/-- The preload of the page staged last ends: the POISON words that it met are counted (R409). -/
def Chip.preloadDone (s : Chip) : Chip :=
  if s.fst.preload then
    (s.fst.poison.filter fun a => (s.fst.pages.getLast?).any fun p => decide (pageAddr p.1 ≤ a) && decide (a < pageAddr p.1 + 64)).foldl
      (fun t a => t.countUE a) { s with fst := { s.fst with preload := false } }
  else s

/-- TPA write (R409): judged by group state, owner, partition, protection and room; the page is preloaded. -/
def Chip.tpaSelect (s : Chip) (m : Master) (p : Nat) : Status × Chip :=
  if s.gst = 0 then (St.state, s)
  else if !s.ownsGroup m then (St.perm, s)
  else if s.gst = 2 then (St.busy, s)
  else if !s.mayStage m p || s.protected_ p then (St.perm, s)
  else if s.fst.pages.any (·.1 == p) then
    (St.ok, ({ s with fst := { s.fst with sel := some p } }).put Fld.NVM_TWI_I 0 |>.put Fld.NVM_TPA_P p)
  else if 64 ≤ s.fst.pages.length then (St.badArg, s)
  else
    let s := s.preloadDone
    let s := { s with fst := { s.fst with sel := some p, preload := true, pages := s.fst.pages ++ [(p, s.pageWords p)] } }
    (St.ok, (s.showGroup 1).put Fld.NVM_TWI_I 0 |>.put Fld.NVM_TPA_P p)

/-- A TWI write, judged by the group's state and owner (R409). -/
def Chip.twiWrite (s : Chip) (m : Master) : Status :=
  if s.gst = 0 then St.state else if !s.ownsGroup m then St.perm else if s.gst = 2 then St.busy else St.ok

/-- A TDA access on the selected page (R409): reads or writes word TWI, which then advances modulo 16. -/
def Chip.tdaAccess (s : Chip) (m : Master) (w : Option Word) : (Word × Status) × Chip :=
  if s.gst = 0 then ((0#32, St.state), s)
  else if !s.ownsGroup m then ((0#32, St.perm), s)
  else if s.gst = 2 then ((0#32, St.busy), s)
  else match s.fst.sel with
    | none => ((0#32, St.state), s)
    | some p =>
      let i := s.get Fld.NVM_TWI_I
      let ws := ((s.fst.pages.find? (·.1 == p)).map (·.2)).getD []
      let old := (ws[i]?).getD 0#32
      let s := match w with
        | some v => { s with fst := { s.fst with pages := updFirst (·.1 == p) (fun x => (x.1, x.2.set i v)) s.fst.pages } }
        | none => s
      (((match w with
        | some v => v
        | none => old), St.ok), (s.put Fld.NVM_TWI_I ((i + 1) % 16)).put Fld.NVM_TDA_D
          ((match w with
            | some v => v
            | none => old).toNat))

/-! ### Torn writes and recovery (R414–R416) -/

/-- The FNV supply fails after `k` word writes of the commit in hand (R414): the words before are new, the next reads old, new or
POISON, in which case each bit is old or new; none of this is predictable. A commit seen past its commit point has written that far. -/
def Chip.tearCommit (s : Chip) (k : Nat) : Chip :=
  if s.gst ≠ 2 then s
  else
    let ws := commitWrites s.nextGseq s.fst.pages
    let k := if s.fst.passed then max k (toCommitPoint s.nextGseq s.fst.pages) else k
    let s := s.fWrites (ws.take k)
    match ws[k]? with
    | none => s
    | some (a, w) =>
      let pick := s.freeWord.toNat % 3
      let s := s.drawn
      let mask := s.freeWord
      let s := s.drawn
      if pick = 0 then s
      else if pick = 1 then s.fWrite a w
      else
        let old := s.word a
        let t := s.setWord a ((old &&& mask) ||| (w &&& ~~~mask))
        { t with fst := { t.fst with poison := a :: t.fst.poison.filter (· != a) } }

/-- Does any of these words read POISON? -/
def Chip.anyPoison (s : Chip) (l : List Nat) : Bool := l.any s.fst.poison.contains

/-- Recovery at FNV power-up (R415): clean, replayed or rolled back, and GSEQ. DESIGN CHOICE (log entry 169): it is over within the command
that powers the F-die up. -/
def Chip.recover (s : Chip) : Chip :=
  let g := s.num (pageAddr 128) 4
  let n := s.num (pageAddr 128 + 4) 2
  let crc := s.num (pageAddr 128 + 6) 2
  let c := s.num cword 4
  let d := s.num dword 4
  let desc := (List.range 48).map fun i => pageAddr 128 + 4 * i
  let body := s.bytes (pageAddr 128) 6 ++ s.bytes (pageAddr 129) 128
  let good := decide (c = g) && decide ((crc16 body).toNat = crc) && !s.anyPoison desc
  let s := { s with fst := { s.fst with owner := none, pages := [], sel := none, preload := false, heldOpen := [] } }
  let s := s.showGroup 0
  let s := s.clr Fld.NVM_STA_RCVR
  if d = g && !s.anyPoison desc then
    ((s.put Fld.NVM_RCV_OUT 0).put Fld.NVM_RCV_NPG 0).put Fld.NVM_GSEQ_N d
  else if good then
    let s := (List.range n).foldl (fun t i =>
      t.fWrites (pageWrites (pageAddr (t.num (pageAddr 129 + 2 * i) 2)) (t.pageWords (131 + i)))) s
    ((((s.fWrite dword (BitVec.ofNat 32 g)).put Fld.NVM_RCV_OUT 1).put Fld.NVM_RCV_NPG n).put Fld.NVM_GSEQ_N g).set
      Fld.NVM_IST_RCV
  else (((s.put Fld.NVM_RCV_OUT 2).put Fld.NVM_RCV_NPG 0).put Fld.NVM_GSEQ_N d).set Fld.NVM_IST_RCV

/-! ### Slot rings (R421–R426) -/

/-- The directory word of a value (R421). -/
def dirAddr (id : Nat) : Nat := 0x60080000 + 4 * id

/-- Parts of a directory word, laid out as NVS.DCFG (R429). -/
def dirEN (w : Word) : Bool := bitsOf w.toNat 31 1 == 1
def dirVH (w : Word) : Bool := bitsOf w.toNat 30 1 == 1
def dirHOST (w : Word) : Bool := bitsOf w.toNat 29 1 == 1
def dirNSLT (w : Word) : Nat := bitsOf w.toNat 16 7
def dirBASE (w : Word) : Nat := bitsOf w.toNat 0 14

/-- Is a directory word in itself in range (R421)? -/
def dirOk (w : Word) : Bool :=
  dirEN w && 4 ≤ dirNSLT w && dirNSLT w ≤ 64 && 128 ≤ dirBASE w && dirBASE w + dirNSLT w ≤ 16384

/-- Do two rings overlap? -/
def dirOverlap (v w : Word) : Bool :=
  dirBASE v < dirBASE w + dirNSLT w && dirBASE w < dirBASE v + dirNSLT v

/-- The valid entries of IDs below `n`, lowest first (R421). -/
def Chip.validDirs (s : Chip) : Nat → List Word
  | 0 => []
  | n + 1 =>
    let l := s.validDirs n
    let w := s.word (dirAddr n)
    if dirOk w && !s.fst.poison.contains (dirAddr n) && !(l.any (dirOverlap w)) then l ++ [w] else l

/-- The directory word of value `id` if its entry is valid (R421). -/
def Chip.dirOf (s : Chip) (id : Nat) : Option Word :=
  let w := s.word (dirAddr id)
  if dirOk w && !s.fst.poison.contains (dirAddr id) && !((s.validDirs id).any (dirOverlap w)) then some w else none

/-- Address of slot `j` of a ring (R421). -/
def slotAddr (w : Word) (j : Nat) : Nat := 0x60080000 + 8 * (dirBASE w + j)

/-- The bytes of a slot (R421). -/
def slotBytes (v seq : Nat) : List Byte :=
  let b := leBytes 4 v ++ leBytes 2 seq
  b ++ leBytes 2 (crc16 b).toNat

/-- The value and SEQ of a slot that is valid (R422). -/
def Chip.slotVal (s : Chip) (a : Nat) : Option (Nat × Nat) :=
  let seq := s.num (a + 4) 2
  if decide ((crc16 (s.bytes a 6)).toNat = s.num (a + 6) 2) && seq != 0 && !s.fst.poison.contains a &&
    !s.fst.poison.contains (a + 4) then some (s.num a 4, seq) else none

/-- A value's SRAM copy. -/
def Chip.nvs (s : Chip) (id : Nat) : NvsVal :=
  match s.fst.vals.find? (·.1 == id) with
  | some v => v.2
  | none => { v := 0#32, valid := false, idx := 0, seq := 0, dirty := false }

/-- A value as it reads: one whose entry counts as disabled reads 0, not valid (R421). -/
def Chip.nvsOn (s : Chip) (id : Nat) : NvsVal := if (s.dirOf id).isSome then s.nvs id else { v := 0#32, valid := false, idx := 0, seq := 0, dirty := false }

/-- Put it back. -/
def Chip.setNvs (s : Chip) (id : Nat) (v : NvsVal) : Chip :=
  let rest := s.fst.vals.filter (fun x => x.1 != id)
  let vals := rest.takeWhile (fun x => decide (x.1 < id)) ++ (id, v) :: rest.dropWhile (fun x => decide (x.1 < id))
  { s with fst := { s.fst with vals := vals } }

/-- Show the selected value (NVS.VAL, VST, DCFG). -/
def Chip.showNvs (s : Chip) : Chip :=
  let id := s.get Fld.NVS_SEL_ID
  let v := s.nvsOn id
  let w := s.word (dirAddr id)
  let s := (s.wr Reg.NVS_DCFG w).put Fld.NVS_VAL_V v.v.toNat
  let s := ((s.putB Fld.NVS_VST_VALID v.valid).putB Fld.NVS_VST_VH (dirVH w)).putB Fld.NVS_VST_HOST (dirHOST w)
  (s.put Fld.NVS_VST_IDX v.idx).put Fld.NVS_VST_SEQ v.seq

/-- Write a value's next slot (R422): slot after the current one and SEQ + 1, or slot 0 with SEQ 1; block protect stops it
(R427). -/
def Chip.slotWrite (s : Chip) (id : Nat) (v : Word) : Chip :=
  match s.dirOf id with
  | none => s
  | some w =>
    let old := s.nvs id
    let idx := if old.valid then (old.idx + 1) % dirNSLT w else 0
    let seq := if old.valid then (if old.seq = 65535 then 1 else old.seq + 1) else 1
    let a := slotAddr w idx
    if s.protected_ ((a - fDie) / 64) then s
    else
      ((s.fWrites (pageWrites a (wordsOf (slotBytes v.toNat seq)))).setNvs id
        { v := v, valid := true, idx := idx, seq := seq, dirty := false }).showNvs

/-- Store a new value (R422, R425): in its next slot, or in SRAM only when it is volatile-held. -/
def Chip.nvsStore (s : Chip) (id : Nat) (v : Word) : Chip :=
  match s.dirOf id with
  | none => s
  | some w =>
    if dirVH w then (s.setNvs id { s.nvs id with v := v, dirty := true }).showNvs else s.slotWrite id v

/-- Count a value up by 1, saturating (R424 values 2–8). -/
def Chip.nvsCount (s : Chip) (id : Nat) : Chip := s.nvsStore id (BitVec.ofNat 32 (min 0xFFFFFFFF ((s.nvs id).v.toNat + 1)))

/-- Save every volatile-held value in ascending ID (R425). -/
def Chip.saveHeld (s : Chip) : Chip :=
  let s := ((List.range 256).filter fun id => dirEN (s.word (dirAddr id)) && dirVH (s.word (dirAddr id))).foldl (fun t id => t.slotWrite id (t.nvs id).v) s
  ({ s with fst := { s.fst with savedAt := s.now } }).set Fld.NVS_IST_SAVED

/-- The newest of the valid slots of a ring (R422): its SEQ minus every other's, modulo 65,536, is below 32,768. -/
def newestSlot (l : List (Nat × Nat × Nat)) : Option (Nat × Nat × Nat) :=
  l.find? fun x => l.all fun y => y.1 == x.1 || (x.2.2 + 65536 - y.2.2) % 65536 < 32768

/-- Scan one value's ring (R423). -/
def Chip.scanValue (s : Chip) (id : Nat) : Chip :=
  match s.dirOf id with
  | none => s
  | some w =>
    let slots := (List.range (dirNSLT w)).filterMap fun j => (s.slotVal (slotAddr w j)).map fun v => (j, v.1, v.2)
    match newestSlot slots with
    | none => (s.setNvs id { v := 0#32, valid := false, idx := 0, seq := 0, dirty := false }).set Fld.NVS_IST_EMPTYV
    | some (j, v, q) =>
      let nxt := slotAddr w ((j + 1) % dirNSLT w)
      let torn := (s.slotVal nxt).isNone && (s.bytes nxt 8).any (· != 0#8)
      let s := s.setNvs id { v := BitVec.ofNat 32 v, valid := true, idx := j, seq := q, dirty := false }
      if torn then s.set Fld.NVS_IST_TORN else s

/-- The slot-ring scan (R423). -/
def Chip.scanRings (s : Chip) : Chip :=
  (((List.range 256).foldl (fun (t : Chip) id => t.scanValue id) { s with fst := { s.fst with vals := [] } }).clr Fld.NVS_STA_SCAN).showNvs

/-- May a master write VAL or ADD of the selected value (R426)? -/
def Chip.nvsMay (s : Chip) (m : Master) : Status :=
  let id := s.get Fld.NVS_SEL_ID
  let w := s.word (dirAddr id)
  if mHost m && !dirHOST w then St.perm
  else if (s.dirOf id).isNone then St.state
  else St.ok

/-- NVS.ADD (R426): a signed amount, saturating at 0 and 0xFFFF_FFFF. -/
def Chip.nvsAdd (s : Chip) (d : Word) : Chip :=
  let id := s.get Fld.NVS_SEL_ID
  s.nvsStore id (BitVec.ofNat 32 (clampInt 0 0xFFFFFFFF ((s.nvs id).v.toNat + d.toInt)).toNat)

/-- A directory write by Almanac firmware (R424, R426): refused with 0x20 when it would leave an entry enabled but invalid; a ring
that is new or moved starts blank, and one that is enabled again has the current value of its slots. While a group is open the write is held (R408). -/
def Chip.dirWrite (s : Chip) (id : Nat) (w : Word) : Status × Chip :=
  let old := s.word (dirAddr id)
  let was := (s.dirOf id).isSome
  if dirEN w && (!dirOk w || (s.validDirs id).any (dirOverlap w)) then (St.badArg, s)
  else if old = w && !s.fst.poison.contains (dirAddr id) then (St.ok, s)
  else if s.gst ≠ 0 then (St.ok, { s with fst := { s.fst with heldDirs := s.fst.heldDirs ++ [(id, w)] } })
  else
    let moved := dirBASE old != dirBASE w || dirNSLT old != dirNSLT w
    let blank := if moved && dirEN w then s.patchPages (slotAddr w 0 - fDie) (List.replicate (8 * dirNSLT w) 0#8) else []
    -- at stage LOAD the reserve has had no test yet: R424 has these writes made there all the same
    let supply := if s.get Fld.PSY_BST_STG = 7 then St.ok else s.supplyCheck false
    let (st, t) := s.groupIf supply ((s.patchPages (dirAddr id - fDie) (leBytes 4 w.toNat)) ++ blank)
    if st = St.ok then
      (st, (if moved then t.setNvs id { v := 0#32, valid := false, idx := 0, seq := 0, dirty := false }
        else if was then t else t.scanValue id).showNvs)
    else (st, t)

/-- Directory writes that were held go on once the group is IDLE (R408). -/
def Chip.dirRetry (s : Chip) : Chip :=
  if s.fst.heldDirs.isEmpty || s.gst ≠ 0 then s
  else s.fst.heldDirs.foldl (fun (t : Chip) x => (t.dirWrite x.1 x.2).2) { s with fst := { s.fst with heldDirs := [] } }

/-! ### Window reads, sense lines, cell faults (R407, R417–R420) -/

/-- Bank of an address (R405). -/
def bankOf (a : Nat) : Nat := bitsOf (a - fDie) 18 3

/-- A corrected error (R407). -/
def Chip.countCE (s : Chip) : Chip := (s.bump Fld.NVM_ECC_CE).set Fld.NVM_IST_CE

/-- A read finds line `b` of bank `k` broken (R418, R420): erasure, remap pending, or no spare left. Two lines of one bank can be erasures at
once (R428): SLB.ELN shows the one to be mapped first. DESIGN CHOICE (log entry 175): the one found first. -/
def Chip.brokenLine (s : Chip) (k b : Nat) : Chip :=
  let s := { s with fst := { s.fst with broken := s.fst.broken ++ [(k, b)] } }
  let s := if s.get (Fld.NVM_SLB_ELN k) = 0x3F then s.put (Fld.NVM_SLB_ELN k) b else s
  let s := (s.set Fld.NVM_IST_LINE).raiseP (report 0x0901 k b)
  if s.get (Fld.NVM_SLB_SP0 k) != 0x3F && s.get (Fld.NVM_SLB_SP1 k) != 0x3F then
    ((s.set (Fld.NVM_SLB_SPX k)).set Fld.NVM_STA_SPX).raiseP (report 0x0903 k b)
  else if s.get (Fld.NVM_SLB_RST k) = 2 then s
  else s.put (Fld.NVM_SLB_RST k) 1

/-- The CFT entry for a word (R419): its own, a free one, or the one with the lowest count. -/
def Chip.cftEntry (s : Chip) (wn : Nat) : Nat :=
  match (List.range 16).find? (fun i => s.get (Fld.NVM_CFT_CNT i) != 0 && s.get (Fld.NVM_CFT_W i) == wn) with
  | some i => i
  | none => match (List.range 16).find? (fun i => s.get (Fld.NVM_CFT_CNT i) == 0) with
    | some i => i
    | none => (List.range 16).foldl (fun b i => if s.get (Fld.NVM_CFT_CNT i) < s.get (Fld.NVM_CFT_CNT b) then i else b) 0

/-- A cell fault at an address (R419): corrected, written back and counted per word. -/
def Chip.cellFault (s : Chip) (a : Nat) : Chip :=
  let wn := (a - fDie) / 4
  let i := s.cftEntry wn
  let was := if s.get (Fld.NVM_CFT_W i) = wn then s.get (Fld.NVM_CFT_CNT i) else 0
  let n := satInc was 8
  let s := ((s.countCE).put (Fld.NVM_CFT_W i) wn).put (Fld.NVM_CFT_CNT i) n
  if n ≠ was && n = s.get Fld.NVM_CFG_CFMAX then (s.set Fld.NVM_IST_CELL).raiseP (report 0x0902 0 0 wn) else s

/-- The word that a group in COMMIT past its commit point holds for an address (R413). -/
def Chip.newWord (s : Chip) (a : Nat) : Option Word :=
  if s.gst = 2 && s.fst.passed then (s.fst.pages.find? (·.1 == (a - fDie) / 64)).bind fun p => p.2[(a - fDie) % 64 / 4]? else none

/-- A window read (R407): KEYS reads 0 with 0x22; a POISON word returns its stored bits with 0x7F. From the commit point of a group on, its pages read
their new data (R413). -/
def Chip.windowRead (s : Chip) (a : Nat) : (Word × Status) × Chip :=
  if 0x601E0000 ≤ a then ((0#32, St.perm), s)
  else if (s.newWord a).isSome then (((s.newWord a).getD 0#32, St.ok), s)
  else if s.fst.poison.contains a then ((s.word a, St.internal), s.countUE a)
  else ((s.word a, St.ok), s)

/-- One block of 1,024 words of a remap (R418): only in idle, in a bank that is not protected (R427), after a supply check; the pointer is saved in NVS value 13. -/
def Chip.remapBlock (s : Chip) (k : Nat) : Chip :=
  let st := s.get (Fld.NVM_SLB_RST k)
  if s.gst ≠ 0 || (st ≠ 1 && st ≠ 2) || s.supplyCheck false ≠ St.ok || s.protected_ (4096 * k) then s
  else
    let b := s.get (Fld.NVM_SLB_ELN k)
    let s := if st = 1 then
        (if s.get (Fld.NVM_SLB_SP0 k) = 0x3F then s.put (Fld.NVM_SLB_SP0 k) b else s.put (Fld.NVM_SLB_SP1 k) b).put
          (Fld.NVM_SLB_RST k) 2
      else s
    let p := (((s.fst.remap.find? (·.1 == k)).map (·.2)).getD 0) + 1024
    let others := s.fst.remap.filter (·.1 != k)
    let s := s.slotWrite 13 (BitVec.ofNat 32 (k * 2 ^ 24 + b * 2 ^ 17 + p))
    if 65536 ≤ p then
      let s := ({ s with fst := { s.fst with remap := others, broken := s.fst.broken.filter (· != (k, b)) } }).clr Fld.NVM_STA_REMAP
      match s.fst.broken.find? (·.1 == k) with
      | none => (s.put (Fld.NVM_SLB_RST k) 3).put (Fld.NVM_SLB_ELN k) 0x3F
      | some x =>
        (s.put (Fld.NVM_SLB_RST k)
          (if s.get (Fld.NVM_SLB_SP0 k) != 0x3F && s.get (Fld.NVM_SLB_SP1 k) != 0x3F then 3 else 1)).put (Fld.NVM_SLB_ELN k) x.2
    else ({ s with fst := { s.fst with remap := (k, p) :: others } }).set Fld.NVM_STA_REMAP

/-- What a window read that was served finds in the cells (R418–R420): a cell fault is corrected, unless it falls into a bank that has no
spare left for its broken line, where the word reads POISON; a line found broken is marked once, and each word read through it counts as
corrected until its spare has taken over. -/
def Chip.cellsRead (s : Chip) (a : Nat) (f : CellFault) : Chip :=
  let k := bankOf a
  if s.fab.rstat ≠ St.ok && s.fab.rstat ≠ St.internal then s
  else match f with
    | .none => s
    | .cell =>
      if s.fab.rstat ≠ St.ok then s
      else if s.on (Fld.NVM_SLB_SPX k) then
        let t := (s.countUE a).drawn
        { t with fab := { t.fab with rdata := Config.freeWord s.free, rstat := St.internal } }
      else s.cellFault a
    | .line b =>
      if s.fst.broken.contains (k, b.val) then s.iff (s.fab.rstat = St.ok) Chip.countCE
      else if s.get (Fld.NVM_SLB_SP0 k) = b.val || s.get (Fld.NVM_SLB_SP1 k) = b.val then s
      else (s.iff (s.fab.rstat = St.ok) Chip.countCE).brokenLine k b.val

end Sys2Proof.Machine
end

