-- ==== Sys2Proof/Machine/Meridian.lean ====
section
/-!
DEFINITION. Meridian (chapter 5): the facet tracker (R147–R152), pixel 0 of each station (R154, R161), the station gates and
sweeps (R162), the basic level (R169), the consistency checks (R170, R175) and the stop of the whole block (R573). Times
are in units of 625 ps on the compensated timebase of R157.
-/
namespace Sys2Proof.Machine

/-- `a / b` rounded half up (R169). -/
def rdiv (a b : Nat) : Nat := if b = 0 then 0 else (2 * a + b) / (2 * b)

/-- Facets of a GEO.NFAC code (R172). -/
def facetsOf (code : Nat) : Nat :=
  match code with
  | 0 => 4
  | 1 => 6
  | _ => 8

/-- Facets of the polygon. -/
def Chip.nfac (s : Chip) : Nat := facetsOf (s.get Fld.MER_GEO_NFAC)

/-- A grid period, PPR or PPW, in 2^-16 units of 625 ps (R153). -/
def Chip.pper (s : Chip) (write : Bool) : Nat := (s.rd (if write then Reg.MER_PPW else Reg.MER_PPR)).toNat

/-- Station `n`. -/
def Chip.stn (s : Chip) (n : Nat) : Station :=
  match n with
  | 0 => s.mer.s0
  | 1 => s.mer.s1
  | _ => s.mer.s2

/-- Put station `n` back. -/
def Chip.setStn (s : Chip) (n : Nat) (x : Station) : Chip :=
  { s with mer := match n with
    | 0 => { s.mer with s0 := x }
    | 1 => { s.mer with s1 := x }
    | _ => { s.mer with s2 := x } }

/-- Is station `n` enabled (R159)? -/
def Chip.stnOn (s : Chip) (n : Nat) : Bool := bitsOf (s.get Fld.MER_CTL_SEN) n 1 == 1

/-- Has station `n` pixels to emit (R159, R170)? -/
def Chip.stnEmits (s : Chip) (n : Nat) : Bool := s.stnOn n && s.get (Fld.MER_NPX_N n) != 0

/-! ### Consistency (R146, R153, R160, R164, R165, R170, R175) -/

/-- Length of slot `c` (0 VIS, 1 IR, 2 UVX, 3 DARK) in 1/32 pixel. -/
def Chip.slotLen (s : Chip) (c : Nat) : Nat := bitsOf (s.rd Reg.MER_SLEN).toNat (8 * c) 6

/-- Is slot `c` enabled? -/
def Chip.slotOn (s : Chip) (c : Nat) : Bool := bitsOf (s.get Fld.MER_SLT_EN) c 1 == 1

/-- The enabled slots. -/
def Chip.slotsOn (s : Chip) : List Nat := [0, 1, 2, 3].filter s.slotOn

/-- R160 for one station, judged while TFP.P ≠ 0 (R170): the sweep ends before the next window opens, is at most 100 µs and 3,024 pixels
long, and the facet skew is below the number of facets. -/
def Chip.sweepFits (s : Chip) (n : Nat) : Bool :=
  let p := s.pper (n == 2)
  let px := s.get (Fld.MER_NPX_N n)
  let tfp := s.get Fld.MER_TFP_P
  tfp = 0 ||
    ((s.get (Fld.MER_OFS_T n) * 65536 + px * p) * 1024 + 64 * 65536 * 1024 ≤ tfp * (1024 - s.get Fld.MER_BDF_WIN) * 65536 &&
      px * p ≤ 160000 * 65536 && px ≤ 3024 && s.get (Fld.MER_OFS_FSK n) < s.nfac)

/-- R164 and R165: slots present, adding up to 32, each at least 13.344 units, strobes inside the shortest. -/
def Chip.slotsFit (s : Chip) : Bool :=
  let p := s.pper false
  let ls := s.slotsOn.map s.slotLen
  let shortest := ls.foldl min 63
  !ls.isEmpty && ls.foldl (· + ·) 0 = 32 && 13344 * 32 * 65536 ≤ 1000 * p * shortest &&
    s.get Fld.MER_STB_BLANK < s.get Fld.MER_STB_SSMP && s.get Fld.MER_STB_SSMP * 32 * 65536 < p * shortest

/-- Settling time of a gain code in 0.1 ns (R173). -/
def settle (code : Nat) : Nat :=
  match code with
  | 0 => 50
  | 1 => 50
  | 2 => 50
  | 3 => 70
  | 4 => 110
  | _ => 180

/-- Gain code of slot `c` of read station `n`. -/
def Chip.gain (s : Chip) (n c : Nat) : Nat := bitsOf (s.rd (Reg.IMG_AFE n)).toNat (3 * c) 3

/-- R175 for one read station: slot − SSMP − 3.1 ns is at least the settling time of its gain code. -/
def Chip.settles (s : Chip) (n : Nat) : Bool :=
  s.slotsOn.all fun c =>
    (settle (s.gain n c) + 31) * 32 * 65536 * 4 + s.get Fld.MER_STB_SSMP * 25 * 32 * 65536 ≤ s.pper false * s.slotLen c * 25

/-- Do the registers of MER fit together (R170)? -/
def Chip.merOk (s : Chip) : Bool :=
  let tfp := s.get Fld.MER_TFP_P
  let reads := [0, 1].filter s.stnEmits
  let inRange (p : Nat) : Bool := 0x34CCCD ≤ p && p ≤ 0xC800000
  (tfp = 0 || (250000 ≤ tfp && tfp ≤ 4000000)) && (reads.isEmpty || inRange (s.pper false)) &&
    (!s.stnEmits 2 || inRange (s.pper true)) && (([0, 1, 2].filter s.stnEmits).all s.sweepFits) &&
    (reads.isEmpty || s.slotsFit) && reads.all s.settles

/-! ### The basic level (R169) -/

/-- Slot lengths of R169: 32 parts split equally, the remainder to the slots that come first in time. -/
def slotSplit (en : Nat) (sord : Bool) (c : Nat) : Nat :=
  let order := (if sord then [3, 0, 1, 2] else [0, 1, 2, 3]).filter fun i => bitsOf en i 1 == 1
  if order.isEmpty then 8
  else match order.idxOf? c with
    | some k => 32 / order.length + (if k < 32 % order.length then 1 else 0)
    | none => 8

/-- The raw registers of MER from its BPB (R169). DESIGN CHOICE (log entries 155 and 156): a computed value beyond its field is written as the
field's largest value, which R170 then judges like any other; SLT.SORD, which the lengths of SLEN presume, takes BSLT.SORD. -/
def Chip.merDerive (s : Chip) : Chip :=
  let v := s.get Fld.MER_BSPD_V
  let rpm := s.get Fld.MER_BPOL_RPM
  let nf := s.get Fld.MER_BPOL_NFAC
  let pper (dpi : Nat) : Nat := if v = 0 then 0x00350000 else min 0xFFFFFFFF (rdiv (65536 * 40640000000) (dpi * v))
  let s := s.put Fld.MER_GEO_NFAC nf
  let s := s.put Fld.MER_TFP_P (if rpm = 0 then 0 else rdiv 96000000000 (rpm * facetsOf nf))
  let s := s.wr Reg.MER_PPR (BitVec.ofNat 32 (pper (s.get Fld.MER_BDPI_RD)))
  let s := s.wr Reg.MER_PPW (BitVec.ofNat 32 (pper (s.get Fld.MER_BDPI_WR)))
  let s := [0, 1, 2].foldl (fun t n =>
    let dpi := if n = 2 then t.get Fld.MER_BDPI_WR else t.get Fld.MER_BDPI_RD
    let t := t.put (Fld.MER_NPX_N n) (if v = 0 then 0 else min 4095 (t.get (Fld.MER_BWID_W n) * dpi / 2540))
    let t := t.put (Fld.MER_OFS_T n) (if v = 0 then 0 else min 0x3FFFFF (rdiv (t.get (Fld.MER_BOFS_D n) * 1600000) v))
    t.put (Fld.MER_OFS_FSK n) (t.get (Fld.MER_BOFS_FSK n))) s
  let en := s.get Fld.MER_BSLT_EN
  let sord := s.on Fld.MER_BSLT_SORD
  let s := (s.put Fld.MER_SLT_EN en).putB Fld.MER_SLT_SORD sord
  [0, 1, 2, 3].foldl (fun t c => t.put ⟨Reg.MER_SLEN, 8 * c, 6⟩ (slotSplit en sord c)) s

/-- Is page MER consistent (R170)? -/
def Chip.merValid (s : Chip) : Bool := s.merOk

/-! ### The second read station (R161) -/

/-- The grid origin's station: the enabled read station with the smaller OFS.T, S0 on a tie. -/
def Chip.gridOrigin (s : Chip) : Nat :=
  if s.stnOn 0 && s.stnOn 1 then (if s.get (Fld.MER_OFS_T 0) ≤ s.get (Fld.MER_OFS_T 1) then 0 else 1)
  else if s.stnOn 1 then 1 else 0

/-- RQR is recomputed when OFS.T, PPR or SEN change (R161); STA.SSCA follows the mode, and STA.FCA the index (R150). DESIGN CHOICE (log entries
184 and 185): an index beyond RPIX's 12 bits keeps its low bits, and with fewer than two read stations enabled RQR reads 0. -/
def Chip.merSync (s : Chip) : Chip :=
  let p := s.pper false
  let o := s.gridOrigin
  let d := s.get (Fld.MER_OFS_T (1 - o)) - s.get (Fld.MER_OFS_T o)
  let k := rdiv (d * 65536) p
  let two := s.stnOn 0 && s.stnOn 1
  let res : Int := ((2 * k * p + 65536) / 131072 : Nat) - (d : Int)
  let s := (s.put Fld.MER_RQR_RPIX (if two then k else 0)).putS Fld.MER_RQR_RES (if two then res else 0)
  let s := s.putB Fld.MER_STA_SSCA (s.get Fld.MER_SSC_MODE == 2)
  s.putB Fld.MER_STA_FCA (s.on Fld.MER_STA_ENA && s.on Fld.MER_GEO_IDXE && s.on Fld.MER_STA_IDXOK)

/-! ### Facet tracker (R147–R152) -/

/-- Half-width of the acceptance window in units, times 1,024 (R148). -/
def Chip.halfWin1024 (s : Chip) : Nat :=
  s.get Fld.MER_BDF_WIN * (if s.get Fld.MER_TFP_P = 0 then s.get Fld.MER_FPM_P else s.get Fld.MER_TFP_P)

/-- The predicted time of the next BD (R148). -/
def Chip.predBd (s : Chip) : Nat := s.mer.pBd + s.get Fld.MER_FPM_P

/-- Does time `t` lie in the acceptance window (R148)? -/
def Chip.inWindow (s : Chip) (t : Nat) : Bool :=
  s.predBd * 1024 ≤ t * 1024 + s.halfWin1024 && t * 1024 ≤ s.predBd * 1024 + s.halfWin1024

/-! ### The timebase (R156, R157) -/

/-- The PLL's modelled spread one CLK_SEQ cycle on: a first-order lag of TAU cycles behind the modulator's commanded spread (R157). -/
def lagStep (prev target : Rat) (tau : Nat) : Rat := if tau = 0 then target else prev + (target - prev) / (tau : Rat)

/-- The increment of both accumulators for one CLK_SEQ cycle in mode FULL, in 2^-16 of 625 ps: truncated, never rounded (R157). -/
def incOf (spread : Rat) (dtrm : Int) : Int := (524288 / (1 - spread * (1 + (dtrm : Rat) / 1000))).floor

/-- SSC.TAU and SSC.DTRM hold the device's trim (R157). DESIGN CHOICE (log entry 154): the trim is the nominal pair. -/
def Chip.trimmed (s : Chip) : Bool := s.get Fld.MER_SSC_TAU == 32 && s.get Fld.MER_SSC_DTRM == 0

/-- The filter after `n` cycles under one commanded spread. After 64 TAU what is left is far below one unit of the increment. -/
def lagAfter (prev target : Rat) (tau n : Nat) : Rat :=
  if tau = 0 || 64 * tau ≤ n then target else n.repeat (fun x => lagStep x target tau) prev

/-- The spread depth in force, in 0.5 % (R156): none while the modulator is held. -/
def Chip.depth (s : Chip) : Nat := if s.on Fld.CLK_STA_HOLD then 0 else s.get Fld.CLK_STA_SSD

/-- The timebase goes on to the true time `t` (R156, R157). CLK_SEQ runs slower than nominal by the mean of the spread, and every cycle adds the
increment of the mode. DESIGN CHOICE (log entry 186): a change of depth or mode counts from the last stamp before it. -/
def Chip.timeTo (s : Chip) (t : Nat) : Chip :=
  let d : Int := (t : Int) - s.mer.tbAt
  let mean : Rat := (s.depth : Rat) / 400
  let lag := lagAfter s.mer.tbLag mean (s.get Fld.MER_SSC_TAU) (d.toNat / 8)
  let inc : Int := match s.get Fld.MER_SSC_MODE with
    | 1 => incOf mean 0
    | 2 => incOf lag (s.getS Fld.MER_SSC_DTRM)
    | _ => 524288
  let gained := ((d : Rat) * 65536 * (1 - mean) * (inc : Rat) / 524288).floor - d * 65536
  { s with mer := { s.mer with tbAt := t, tbOff := s.mer.tbOff + gained, tbLag := lag } }

/-- The timebase's reading of a leading edge at the true time `t` (R156, R157). In mode FULL with the trim it follows the modulator within R158's
bound; otherwise the phase of the modulator adds a free value within the ±30 ns at 1.5 % of R158 (log entry 160). -/
def Chip.bdStamp (s : Chip) (t : Nat) : Nat × Chip :=
  let s := s.timeTo t
  let at_ := ((t : Int) + s.mer.tbOff / 65536).toNat
  if s.depth = 0 || (s.get Fld.MER_SSC_MODE = 2 && s.trimmed) then (at_, s)
  else (at_ + s.freeWord.toNat % (32 * s.depth + 1) - 16 * s.depth, s.drawn)

/-- How a BD pulse is judged. -/
inductive BdJudge | short | outside | accepted
  deriving DecidableEq, Repr

/-- Judge a BD pulse of active width `w` whose leading edge came at `t` (R147, R148). Before the first acceptance and after a loss, a
qualifying pulse is accepted whatever its time. DEDUCED (log entry 157): so is the one after the very first, because no facet period has been
measured yet that could predict it. -/
def Chip.bdJudge (s : Chip) (t w : Nat) : BdJudge :=
  if w < s.get Fld.MER_BDF_WMIN then .short
  else if !s.mer.tracking || !s.mer.meas || s.inWindow t then .accepted
  else .outside

/-- A rejected pulse (R147, R148). -/
def Chip.bdReject (s : Chip) : Chip := (s.bump Fld.MER_FST_REJ).set Fld.MER_IST_BDREJ

/-- Is the measured facet period within the lock tolerance (R151)? -/
def Chip.inTol (s : Chip) : Bool :=
  let p := s.get Fld.MER_FPM_P
  let tfp := s.get Fld.MER_TFP_P
  tfp != 0 && ((p - tfp) + (tfp - p)) * 10000 ≤ tfp * s.get Fld.MER_LCK_TOL

/-- Facet number and index tracking at an accepted or synthesised BD (R150), and LCNT (R151). -/
def Chip.nextFacet (s : Chip) (accepted : Bool) : Chip :=
  let idxe := s.on Fld.MER_GEO_IDXE
  let next := (s.get Fld.MER_FST_FACET + 1) % s.nfac
  let zero := accepted && ((idxe && s.mer.pixPending) || (!idxe && s.mer.zeroNext))
  let s := s.put Fld.MER_FST_FACET (if zero then 0 else next)
  let s := s.put Fld.MER_LCNT_CNT (s.get Fld.MER_LCNT_CNT + 1)
  { s with mer := { s.mer with pixPending := s.mer.pixPending && !accepted, zeroNext := s.mer.zeroNext && !accepted,
                               noPix := s.mer.noPix + 1 } }

/-- Every sweep in progress is marked invalid (R149, R162). -/
def Chip.invalSweeps (s : Chip) : Chip :=
  let g (x : Station) : Station := { x with inval := x.inval || x.sweeping }
  { s with mer := { s.mer with s0 := g s.mer.s0, s1 := g s.mer.s1, s2 := g s.mer.s2 } }

/-- A loss of lock ends a calibration run, with RSLT 0x02 and the tables unchanged (R179). -/
def Chip.calLost (s : Chip) : Chip :=
  match s.img.run with
  | none => s
  | some _ => (({ s with img := { s.img with run := none } }).clr Fld.CAL_STA_BUSY).put Fld.CAL_CRS_RSLT 2

/-- Lock falls (R149, R151). -/
def Chip.unlock (s : Chip) : Chip :=
  (((((s.clr Fld.MER_STA_LOCK).set Fld.MER_IST_UNLOCK).event Ev.unlock)).invalSweeps).calLost

/-- Lock rises (R151): LCNT 0, FST.REJ cleared (R172). -/
def Chip.lockUp (s : Chip) : Chip :=
  let s := (((s.set Fld.MER_STA_LOCK).set Fld.MER_IST_LOCK).put Fld.MER_LCNT_CNT 0).put Fld.MER_FST_REJ 0
  { s with mer := { s.mer with zeroNext := true } }

/-- What an accepted period does to the lock (R151). The pulse with which lock falls out of tolerance counts towards the next lock (R171). -/
def Chip.judgeLock (s : Chip) : Chip :=
  let good := s.inTol
  let s := { s with mer := { s.mer with inTol := if good then s.mer.inTol + 1 else 0,
                                        outTol := if good then 0 else s.mer.outTol + 1 } }
  if s.on Fld.MER_STA_LOCK then
    (if 16 ≤ s.mer.outTol then (let t := s.unlock; { t with mer := { t.mer with inTol := 1, outTol := 0 } }) else s)
  else if s.get Fld.MER_LCK_N ≤ s.mer.inTol then s.lockUp else s

/-- The time of pixel 0 of station `n` for a BD at `t` (R154, R161). -/
def Chip.pixel0 (s : Chip) (t n : Nat) : Int :=
  let own (k : Nat) : Int :=
    let f := (s.get Fld.MER_FST_FACET + s.nfac - s.get (Fld.MER_OFS_FSK k)) % s.nfac
    ((t + s.get (Fld.MER_OFS_T k) : Nat) : Int) + (if s.on Fld.MER_STA_FCA then s.getS (Fld.MER_FCOR_C f) else 0)
  if n = 2 || n = s.gridOrigin || !(s.stnOn 0 && s.stnOn 1) then own n * 65536
  else own s.gridOrigin * 65536 + (s.get Fld.MER_RQR_RPIX * s.pper false : Nat)

/-- Every station begins a line afresh at a BD (R154): pixel 0 and the flags its line will carry (R162). -/
def Chip.newLine (s : Chip) (t : Nat) (fly : Bool) : Chip :=
  let nofc := s.on Fld.MER_GEO_IDXE && !s.on Fld.MER_STA_FCA
  [0, 1, 2].foldl (fun u n =>
    let x := u.stn n
    u.setStn n { x with armed := x.armed || x.armNext, armNext := false, e0 := u.pixel0 t n, fly := fly, nofc := nofc, inval := x.inval && x.sweeping, dark := x.dark && x.sweeping }) s

/-- A BD is accepted at `t` (R148–R151): facet period, counters, facet number, lock. Its line starts with `newLine`. -/
def Chip.bdAccept (s : Chip) (t : Nat) : Chip :=
  let measured := s.mer.tracking && s.get Fld.MER_FST_FLYC == 0
  let s := if measured then s.put Fld.MER_FPM_P (t - s.mer.pBd) else s
  let s := (s.put Fld.MER_FST_FLYC 0).clr Fld.MER_STA_FLY
  let s := { s with mer := { s.mer with tracking := true, meas := s.mer.meas || measured, pBd := t, windowOpen := false,
                                        accepted := true, bdLaser := false } }
  let s := s.nextFacet true
  let s := if measured then s.judgeLock else s
  s.event Ev.bd

/-- A BD is synthesised at its predicted time (R149). -/
def Chip.bdSynth (s : Chip) : Chip :=
  let t := s.predBd
  let s := ((s.bump Fld.MER_FST_FLYC).set Fld.MER_STA_FLY).set Fld.MER_IST_FLY
  let s := { s with mer := { s.mer with pBd := t, windowOpen := false, accepted := false, bdLaser := false, inTol := 0 } }
  (s.nextFacet false).event Ev.bd

/-- The BD input counts as lost (R149). -/
def Chip.bdLost (s : Chip) : Chip :=
  let s := (s.unlock).clr Fld.MER_STA_FLY
  { s with mer := { s.mer with tracking := false, windowOpen := false, inTol := 0, outTol := 0, bdLaser := true } }

/-- The acceptance window opens and the BD laser is lit (R152). -/
def Chip.openBdWindow (s : Chip) : Chip :=
  if s.on Fld.MER_STA_ENA && s.mer.tracking then
    { s with mer := { s.mer with windowOpen := true, accepted := false, bdLaser := true } }
  else s

/-- A PIX pulse (R150): at least 20 ns wide, used with IDXE = 1. -/
def Chip.pixPulse (s : Chip) (ns : Nat) : Chip :=
  if s.on Fld.MER_STA_ENA && s.on Fld.MER_GEO_IDXE && 20 ≤ ns then
    let s := s.set Fld.MER_STA_IDXOK
    ({ s with mer := { s.mer with pixPending := true, noPix := 0 } }).merSync
  else s

/-- No PIX pulse for two revolutions (R150), also where none has ever come; the revolutions then count afresh. -/
def Chip.indexLost (s : Chip) : Chip :=
  if s.on Fld.MER_GEO_IDXE && 2 * s.nfac ≤ s.mer.noPix then
    let s := (s.clr Fld.MER_STA_IDXOK).set Fld.MER_IST_IDXLOST
    ({ s with mer := { s.mer with noPix := 0 } }).merSync
  else s

/-! ### Gates and sweeps (R162, R163) -/

/-- Arm the gate of station `n` (R162). A power failure has stopped line firing (R132). -/
def Chip.armGate (s : Chip) (n : Nat) : Chip :=
  if s.on Fld.MER_CTL_EN && !s.fab.up.pfail then s.setStn n { s.stn n with armed := true } else s

/-- Arm the gate of station `n` for the next facet (R312). -/
def Chip.armNext (s : Chip) (n : Nat) : Chip :=
  if s.on Fld.MER_CTL_EN && !s.fab.up.pfail then s.setStn n { s.stn n with armNext := true } else s

/-- Pixel 0 of the grid origin and of S2 is placed with the FCOR of that moment; the second read station takes the origin's (R161, R171). -/
def Chip.placeLine (s : Chip) (n : Nat) : Chip :=
  let at_ (k : Nat) (t : Chip) : Chip := t.setStn k { t.stn k with e0 := t.pixel0 t.mer.pBd k }
  if n = 2 then at_ 2 s else if n = s.gridOrigin then at_ (1 - n) (at_ n s) else s

/-- Has the loop that drives the polygon lost its feedback (R260)? -/
def Chip.polyLost (s : Chip) : Bool := (List.range 12).any fun n => s.get (Fld.HLP_CFG_ACT n) == 1 && s.on (Fld.HLP_ST_LOSS n)

/-- Station `n` begins its sweep at pixel 0 (R162): with lock, enabled, gated and with pixels to emit; not once CTL.EN has been cleared
(R573). -/
def Chip.sweepStart (s : Chip) (n : Nat) : Chip :=
  let x := s.stn n
  if s.on Fld.MER_STA_LOCK && s.stnEmits n && x.armed && !x.sweeping && s.on Fld.MER_STA_ENA && s.on Fld.MER_CTL_EN then
    let s := s.placeLine n
    let x := s.stn n
    (s.setStn n { x with armed := false, sweeping := true, inval := x.inval || !s.sourcesLit n || s.polyLost }).event (0x23 + 2 * n)
  else s

/-- The last pixel of station `n` has ended (R162). The line is invalid if a source was held off. -/
def Chip.sweepStop (s : Chip) (n : Nat) : Chip :=
  let x := s.stn n
  if x.sweeping then
    (s.setStn n { x with sweeping := false, inval := x.inval || !s.sourcesLit n }).event (0x24 + 2 * n)
  else s

/-- Is no station sweeping? -/
def Chip.noSweep (s : Chip) : Bool := !s.mer.s0.sweeping && !s.mer.s1.sweeping && !s.mer.s2.sweeping

/-- MER.CTL.EN has been cleared and the sweeps in progress have completed (R573). -/
def Chip.merStop (s : Chip) : Chip :=
  if !s.on Fld.MER_CTL_EN && s.on Fld.MER_STA_ENA && s.noSweep then
    let s := if s.on Fld.MER_STA_LOCK then s.unlock else s
    let g (x : Station) : Station := { x with armed := false, armNext := false }
    let m := { s.mer with tracking := false, windowOpen := false, accepted := false, bdLaser := false }
    let m := { m with inTol := 0, outTol := 0, s0 := g s.mer.s0, s1 := g s.mer.s1, s2 := g s.mer.s2 }
    let s := { s with mer := { m with mod0 := false, mod1 := false, mod2 := false, gp0 := false } }
    ((s.clr Fld.MER_STA_FLY).clr Fld.MER_STA_FCA).clr Fld.MER_STA_ENA
  else s

/-- MER.CTL.EN is set: the BD laser stays lit until a qualifying pulse arrives (R152, R573). -/
def Chip.merStart (s : Chip) : Chip := { s with mer := { s.mer with tracking := false, bdLaser := true, noPix := 0 } }

/-! ### Slots, edges and modulation lines (R155, R163–R168) -/

/-- The enabled slots in their order within the pixel (R164). -/
def Chip.slotOrder (s : Chip) : List Nat := (if s.on Fld.MER_SLT_SORD then [3, 0, 1, 2] else [0, 1, 2, 3]).filter s.slotOn

/-- A time in 2^-16 units placed on the 625 ps grid, ties later (R155). -/
def gridAt (t : Int) : Int := (t + 32768) / 65536

/-- The edges of pixel `k` of read station `n`, slot by slot (R154, R155, R164, R165). -/
def Chip.pixelEdges (s : Chip) (n k : Nat) : List SlotEdges :=
  let p := s.pper false
  let start : Int := (s.stn n).e0 + (k * p : Nat)
  (s.slotOrder.foldl (fun (r : List SlotEdges × Nat) c =>
    let beg := start + (p * r.2 / 32 : Nat)
    let fin := start + (p * (r.2 + s.slotLen c) / 32 : Nat)
    (r.1 ++ [{ slot := c, source := if c = 3 then none else some (c, gridAt beg, gridAt (fin - 65536 * s.get Fld.MER_STB_BLANK)),
               strobe := gridAt (fin - 65536 * s.get Fld.MER_STB_SSMP) }], r.2 + s.slotLen c)) ([], 0)).1

/-- Which quarters of a write pixel are lit (R167): quarters `first` to `first + count - 1`; a reserved LVL lights none. -/
def litQuarters (nib : Nat) : Nat × Nat :=
  let lvl := if 5 ≤ nib % 8 then 0 else nib % 8
  (if 8 ≤ nib % 16 then 4 - lvl else 0, lvl)

/-- The edges of the pulse that write pixel `k` with a nibble emits, in units of 625 ps (R168); none for a dark pixel. -/
def Chip.writePulse (s : Chip) (k nib : Nat) : Option (Int × Int) :=
  let (q, n) := litQuarters nib
  let at_ (j : Nat) : Int := gridAt ((s.stn 2).e0 + ((4 * k + j) * s.pper true / 4 : Nat))
  if n = 0 then none else some (at_ q, at_ (q + n))

/-- Do the read stations light the source of slot `c`: while one of them sweeps and emits (R165, R166); none in a DARK run (R179). -/
def Chip.lights (s : Chip) (c : Nat) : Bool :=
  let sweeps (x : Station) : Bool := x.sweeping && !x.dark
  let darkRun := s.img.run.any fun r => r.kind == 1
  (sweeps s.mer.s0 || sweeps s.mer.s1) && !darkRun && s.slotOn c

/-- MOD0–MOD2 and GP0 (R152, R163, R165, R166): which carry pulses. While a read station sweeps every enabled slot's line does, at the edges that
`pixelEdges` gives; MOD2 while S2 sweeps shows the first quarter of pixel 0 (`lit2`), and the further edges follow from `writePulse`. -/
def Chip.modLines (s : Chip) (lit2 : Bool) : Chip :=
  let bd (two : Bool) : Bool := s.mer.bdLaser && s.on Fld.MER_GEO_BDSRC == two
  let m := { s.mer with mod0 := bd false || s.lights 0, mod1 := s.lights 1,
                        mod2 := bd true || (lit2 && s.mer.s2.sweeping && !s.mer.s2.dark) }
  { s with mer := { m with gp0 := s.lights 2 && s.on Fld.GPI_CTL_EN && s.get (Fld.GPI_PCFG_FUN 0) == 4 && !s.orr.uvOff } }

/-- The modulation lines after a BD or its window: S2 keeps what it shows (R152, R163). -/
def Chip.bdLine (s : Chip) : Chip := s.modLines (s.mer.mod2 && s.mer.s2.sweeping)

end Sys2Proof.Machine
end

