-- ==== Sys2Proof/Machine/Heliostat.lean ====
section
/-!
DEFINITION. Heliostat (chapter 9): number format (R251, R252), sources and targets (R247, R248), tables (R255), feedback checks
and loss (R258–R260), authority and pinning (R261–R263), one computation of a slot (R253, R254), modes (R250, R256, R257),
the frame scheduler (R249), the basic level (R264) and consistency (R265).
-/
namespace Sys2Proof.Machine

/-! ### Number format (R251) -/

/-- The largest and smallest 32-bit numbers. -/
def i32max : Int := 2147483647
def i32min : Int := -2147483648

/-- Saturate to 32 bits. -/
def sat32 (x : Int) : Int := clampInt i32min i32max x

/-- Does saturation change a number? -/
def over32 (x : Int) : Bool := x < i32min || i32max < x

/-- The rounding arithmetic right shift of R251: halves go towards +∞. -/
def asrRound (x : Int) (s : Nat) : Int := if s = 0 then x else (x + (2 ^ (s - 1) : Nat)) / (2 ^ s : Nat)

/-- The product of R251 before saturation. -/
def mulRaw (k x : Int) (s : Nat) : Int := asrRound (k * x) s

/-- mulsh of R251. -/
def mulsh (k x : Int) (s : Nat) : Int := sat32 (mulRaw k x s)

/-! Sticky flags of a slot (R252), as bits of HLP.ST. -/
def fSATP : Nat := 1
def fSATI : Nat := 2
def fSATO : Nat := 4
def fOVM : Nat := 8
def fDZ : Nat := 16
def fNMIN : Nat := 32

/-- A flag, if a condition holds. -/
def flagIf (c : Bool) (f : Nat) : Nat := if c then f else 0

/-! ### One computation (R253, R254) -/

/-- What one computation reads: coefficients and shifts, target, reference and feedback of the last sample, present feedback,
derivative filter, integrator, table terms (already shifted), and the output range in force. -/
structure LoopIn where
  kp : Int
  ki : Int
  kd : Int
  kf : Int
  sp : Nat
  si : Nat
  sd : Nat
  sf : Nat
  dfs : Nat
  rmax : Int
  tgt : Int
  rPrev : Int
  yPrev : Int
  y : Int
  df : Int
  i : Int
  cog : Int
  fric : Int
  lo : Int
  hi : Int
  deriving DecidableEq, Repr

/-- What one computation yields: reference, derivative filter, integrator, output before and after its bounds, sticky flags. -/
structure LoopOut where
  r : Int
  df : Int
  i : Int
  uStar : Int
  u : Int
  flags : Nat
  deriving DecidableEq, Repr

/-- The arithmetic of one computation of a slot in mode RUN, in the order of R253. -/
def loopCompute (x : LoopIn) : LoopOut :=
  let step0 := sat32 (x.tgt - x.rPrev)
  let step := if x.rmax = 0 then step0 else clampInt (-x.rmax) x.rmax step0
  let r := sat32 (x.rPrev + step)
  let e := sat32 (r - x.y)
  let p := mulsh x.kp e x.sp
  let di := mulsh x.ki e x.si
  let dm := sat32 (x.yPrev - x.y)
  let df := sat32 (x.df + asrRound (sat32 (dm - x.df)) x.dfs)
  let d := mulsh x.kd df x.sd
  let ff0 := sat32 (mulsh x.kf r x.sf + x.cog)
  let fr : Int := if r = 0 then 0 else if 0 < r then x.fric else sat32 (-x.fric)
  let ff := sat32 (ff0 + fr)
  let iNew := sat32 (x.i + di)
  let uTry := sat32 (sat32 (sat32 (p + iNew) + d) + ff)
  let skip := (decide (x.hi < uTry) && decide (0 < di)) || (decide (uTry < x.lo) && decide (di < 0))
  let i0 := if skip then x.i else iNew
  let i := clampInt (sat32 (x.lo - ff)) (sat32 (x.hi - ff)) i0
  let s1 := sat32 (p + i)
  let s2 := sat32 (s1 + d)
  let uStar := sat32 (s2 + ff)
  let u := clampInt x.lo x.hi uStar
  { r := r, df := df, i := i, uStar := uStar, u := u,
    flags := flagIf (over32 (mulRaw x.kp e x.sp)) fSATP +
      flagIf (over32 (mulRaw x.ki e x.si) || over32 (mulRaw x.kd df x.sd) || over32 (mulRaw x.kf r x.sf)) fOVM +
      flagIf (decide (r < 0) && decide (x.fric = i32min)) fNMIN +
      flagIf (over32 (x.i + di) || skip || decide (i ≠ i0)) fSATI +
      flagIf (over32 (p + i) || over32 (s1 + d) || over32 (s2 + ff) || decide (u ≠ uStar)) fSATO }

/-! ### Tables (R255, R268) -/

/-- Table pair of a slot: L0, L1, L2 and L11 have one. -/
def tablePair (n : Nat) : Option Nat :=
  match n with
  | 0 => some 0
  | 1 => some 1
  | 2 => some 2
  | 11 => some 3
  | _ => none

/-- An entry of the table RAM, signed. -/
def Chip.tableEntry (s : Chip) (i : Nat) : Int :=
  match s.hel.tables.find? (fun x => x.1 == i) with
  | some x => signedOf x.2 16
  | none => 0

/-- Write an entry of the table RAM. -/
def Chip.setTable (s : Chip) (i v : Nat) : Chip :=
  let rest := s.hel.tables.filter (fun x => x.1 != i)
  let l := if v % 65536 = 0 then rest
    else rest.takeWhile (fun x => decide (x.1 < i)) ++ (i, v % 65536) :: rest.dropWhile (fun x => decide (x.1 < i))
  { s with hel := { s.hel with tables := l } }

/-- Interpolation in table `tb` at phase `φ`, before its left shift (R255). -/
def Chip.tableAt (s : Chip) (tb φ : Nat) : Int :=
  let j := bitsOf φ 24 8
  let f : Int := (bitsOf φ 16 8 : Nat)
  let t0 := s.tableEntry (tb * 256 + j)
  let t1 := s.tableEntry (tb * 256 + (j + 1) % 256)
  t0 + ((t1 - t0) * f + 128) / 256

/-- The phase of a slot's tables (R255). `comm` is the commutation step count and `t` the time of the sample. -/
def Chip.phase (s : Chip) (n comm t : Nat) : Nat :=
  let tph := s.get (Fld.HLP_TPH_P n)
  if n = 0 then
    if s.on Fld.MER_STA_LOCK then
      let p := s.get Fld.MER_FPM_P * s.nfac
      ((if p = 0 then 0 else 2 ^ 32 * (s.get Fld.MER_FST_FACET * s.get Fld.MER_FPM_P + (t - s.mer.pBd)) / p) + tph) % 2 ^ 32
    else
      let m := 6 * s.get Fld.MDR_PGEO_PP
      ((if m = 0 then 0 else 2 ^ 32 * (comm % m) / m) + tph) % 2 ^ 32
  else
    let axis := if s.get (Fld.HLP_CFG_ACT n) = 3 then 1 else 0
    (s.get (Fld.ENC_POS_P axis) * s.get (Fld.HLP_TSCL_S n) + tph) % 2 ^ 32

/-- A table term of a slot after its shift, and whether it saturated (OVM). -/
def Chip.tableTerm (s : Chip) (n φ : Nat) (fric : Bool) : Int × Bool :=
  match tablePair n with
  | none => (0, false)
  | some k =>
    if s.on (if fric then Fld.HLP_TABC_FE n else Fld.HLP_TABC_CE n) then
      let v := s.tableAt (2 * k + (if fric then 1 else 0)) φ * (2 ^ s.get (if fric then Fld.HLP_TABC_TSF n else Fld.HLP_TABC_TSC n) : Nat)
      (sat32 v, over32 v)
    else (0, false)

/-! ### Sources, actuators, targets (R247, R248) -/

/-- Loop source codes of axis velocity (R247). -/
def isVelocity (src : Nat) : Bool := src == 2 || src == 3

/-- The velocity that slot meter `m` finds of an axis at time `t` (R247), and the meter after it: 256 × the counts between the last edges before two
successive samples by the time between them at 10 ns; with no edge in between, 256 divided by the time since the last edge, never more than before. -/
def velocity (m : Slot) (x : Axis) (t : Nat) : Int × Slot :=
  match m.refT with
  | some t0 =>
    if m.refEdges = x.edges then
      let dt : Int := ((t - x.lastT) / 16 : Nat)
      let cap : Int := if dt = 0 then i32max else 25600000000 / dt
      let n : Int := m.vel.natAbs
      let v := if m.vel < 0 then -(min n cap) else min n cap
      (v, { m with vel := v })
    else
      let dt : Int := ((x.lastT - t0) / 16 : Nat)
      let c := x.cnt - m.refCnt
      let v := if dt = 0 then (if c < 0 then i32min else i32max) else sat32 ((25600000000 * c).tdiv dt)
      (v, { m with vel := v, refT := some x.lastT, refCnt := x.cnt, refEdges := x.edges })
  | none => (0, if x.edges = 0 then m else { m with refT := some x.lastT, refCnt := x.cnt, refEdges := x.edges })

/-- Polygon speed in rpm × 2^8 from a facet period (R247), and whether it divided by 0. -/
def Chip.polySpeed (s : Chip) (p : Nat) : Int × Bool :=
  if s.nfac * p = 0 then (i32max, true) else (sat32 (24576000000000 / (s.nfac * p) : Nat), false)

/-- The source value of a slot (R247), its flag, and the state after reading it. -/
def Chip.source (s : Chip) (n t : Nat) : (Int × Nat) × Chip :=
  let src := s.get (Fld.HLP_CFG_SRC n)
  if src = 1 then
    if s.on Fld.MER_STA_LOCK then
      let v := s.polySpeed (s.get Fld.MER_FPM_P)
      ((v.1, flagIf v.2 fDZ), s)
    else ((sat32 (s.fab.up.meas.rpm.toNat * 256 : Nat), 0), s)
  else if src = 2 || src = 3 then
    let x := s.axis (src - 2)
    let v := velocity (s.slot n) x t
    ((v.1, 0), (s.setSlot n v.2).setAxis (src - 2) { x with vel := v.1 })
  -- readings of the P-die as the frame in force carries them (R249)
  else if src = 4 then (((s.fab.up.th0 * 65536 : Nat), 0), s)
  else if 5 ≤ src && src ≤ 7 then (((((s.fab.up.mon[src - 5]?).getD 0) * 65536 : Nat), 0), s)
  else if src = 8 then (((s.fab.up.meas.hvf0.toNat * 65536 : Nat), 0), s)
  else if src = 9 then (((s.fab.up.meas.hvf1.toNat * 65536 : Nat), 0), s)
  else if src = 10 then (((s.fab.up.meas.hvf2.toNat * 65536 : Nat), 0), s)
  else if src = 11 then (((s.fab.up.meas.hvf3.toNat * 65536 : Nat), 0), s)
  else if src = 12 || src = 13 then ((s.getS (Fld.ENC_POS_P (src - 12)), 0), s)
  else if src = 14 then ((signedOf (s.get (Fld.DBR_MVAL_V (s.get (Fld.HLP_CFG_SIDX n))) * 65536) 32, 0), s)
  else ((0, 0), s)

/-- The block target of a slot (R248). An HV channel follows the level that the sequencer ramps it to (R204–R206), where that is at work. -/
def Chip.blockTarget (s : Chip) (n : Nat) : Int :=
  match n with
  | 0 => if s.get Fld.MER_TFP_P = 0 then 0 else (s.polySpeed (s.get Fld.MER_TFP_P)).1
  | 1 => sat32 (signedOf (s.get (Fld.MOT_CM_SPD 0)) 24 * 256)
  | 2 => sat32 (signedOf (s.get (Fld.MOT_CM_SPD 1)) 24 * 256)
  | 3 => (s.tset * 65536 : Nat)
  | 11 => 0
  | _ =>
    if n < 7 then (s.get (Fld.MRK_APC_C (n - 4)) * 65536 : Nat)
    else if s.hv (n - 7) = .off then (min (s.get (Fld.MRK_HVS_C (n - 7))) (s.get (Fld.HVD_CEIL_C (n - 7)) * 98 / 100) * 65536 : Nat)
    else (s.hvLevel (n - 7) : Nat)

/-- Is the sideband line of an actuator low, or its page disabled (R35, R221, R256)? -/
def Chip.gated (s : Chip) (act : Nat) : Bool :=
  if 1 ≤ act && act ≤ 3 then !s.fab.mtrEn || !s.on Fld.MDR_CTL_EN
  else if act = 4 then !s.fab.htrEn || !s.on Fld.FUS_CTL_EN
  else if 5 ≤ act && act ≤ 7 then !s.fab.ldEn || !s.on Fld.LDR_CTL_EN
  else if 8 ≤ act && act ≤ 11 then !s.fab.hvEn || !s.on Fld.HVD_CTL_EN
  else false

/-! ### Authority (R261, R262) -/

/-- The output of slot `n` as its actuator gets it: MOT.AXn.DIR negates that of an axis, -2^31 to 0x7FFF_FFFF (R248, R252). -/
def Chip.outWord (s : Chip) (n act : Nat) : Word :=
  let u := s.getS (Fld.HLP_OUT_U n)
  if (act = 2 || act = 3) && s.on (Fld.MOT_AX_DIR (act - 2)) then BitVec.ofInt 32 (sat32 (-u)) else s.rd (Reg.HLP_OUT n)

/-- A non-negative fraction of full scale. -/
def fsFrac (num den : Nat) : Int := if den = 0 then i32max else min i32max (num * 2147483648 / den : Nat)

/-- The heater duty that the ledger leaves (R262 level 3, R207): headroom or PHMAX, times RH / VIN², as a fraction of full scale. -/
def Chip.heaterRoom (s : Chip) : Int :=
  let vin := s.get (Fld.DBR_MVAL_V 0) % 65536
  let left : Int := (s.peff : Int) - s.get Fld.LGR_MRG_W - s.baseLoad - loadAt s.pow.segs 0
  let w4 : Nat := min (4 * s.get Fld.LGR_HTR_PHMAX) left.toNat
  -- W / 4 × 0.01 Ω / mV²
  fsFrac (w4 * s.get Fld.LGR_HTR_RH * 2500) (vin * vin)

/-- The upper edge that levels 1 to 3 leave to a slot's output (R262). -/
def Chip.hardHi (s : Chip) (n : Nat) : Int :=
  let act := s.get (Fld.HLP_CFG_ACT n)
  if act = 1 then fsFrac (s.get Fld.MDR_PICL_I) 150
  else if act = 4 then min s.heaterRoom (fsFrac s.pow.heaterCap 1000)
  else if 5 ≤ act && act ≤ 7 then
    let k := act - 5
    ((s.get (Fld.LDR_CEIL_I k) * 20 - s.get (Fld.LDR_BIAS_I k) * 5) * 524288 : Nat)
  else if 8 ≤ act && act ≤ 11 then fsFrac (s.get (Fld.HVD_DMAX_D (act - 8))) 1000
  else i32max

/-- The lower edge (R248: one-sided actuators turn a negative output into 0; no level narrows it further). -/
def hardLo : Int := i32min

/-- Such a fraction rounded half up (R264). -/
def fsRound (num den : Nat) : Int := if den = 0 then i32max else min i32max ((num * 4294967296 + den) / (2 * den) : Nat)

/-- OMIN and OMAX of slot 3 follow its basic bounds in watts at basic level, converted in each sample with the VIN mirror (R264). -/
def Chip.heaterBounds (s : Chip) (n : Nat) : Chip :=
  if n = 3 && !s.on Fld.HLP_CTL_XP then
    let vin := s.get (Fld.DBR_MVAL_V 0) % 65536
    let w (b : Int) : Int := fsRound (b.toNat * s.get Fld.LGR_HTR_RH * 10000) (vin * vin)
    (s.putS (Fld.HLP_OMIN_U 3) (w (s.getS (Fld.HLP_BOB_BLO 3)))).putS (Fld.HLP_OMAX_U 3) (w (s.getS (Fld.HLP_BOB_BHI 3)))
  else s

/-- The software bounds of a slot. -/
def Chip.softBounds (s : Chip) (n : Nat) : Int × Int := (s.getS (Fld.HLP_OMIN_U n), s.getS (Fld.HLP_OMAX_U n))

/-- The effective range of R261. Where the software bounds leave none or lie outside, it is the nearest edge of [L, H]. -/
def effRange (l h omin omax : Int) : Int × Int :=
  let lo := max omin l
  let hi := min omax h
  if lo ≤ hi then (lo, hi)
  else if h < omin then (h, h)
  else if omax < l then (l, l)
  else if omin + omax ≤ l + h then (l, l) else (h, h)

/-! ### Feedback checks (R258) -/

/-- Is slot `n` fed from RT frames, by its source? -/
def rtSource (src : Nat) : Bool := src == 4 || (8 ≤ src && src ≤ 11)

/-- Has the source of a slot delivered a sample that the slot has not seen? Encoder sources count as delivering while the encoder is
not lost, the polygon after lock while the facet tracker follows it. -/
def Chip.fresh (s : Chip) (n : Nat) : Bool :=
  let src := s.get (Fld.HLP_CFG_SRC n)
  if src = 1 then (if s.on Fld.MER_STA_LOCK then s.mer.tracking else s.hel.rtSeq != (s.slot n).seen)
  else if src = 2 || src = 12 then bitsOf (s.get Fld.ENC_STA_LOST) 0 1 == 0
  else if src = 3 || src = 13 then bitsOf (s.get Fld.ENC_STA_LOST) 1 1 == 0
  else if 5 ≤ src && src ≤ 7 then (s.hel.monSeq[src - 5]?).getD 0 != (s.slot n).seen
  else if src = 14 then (s.hel.mirSeq[s.get (Fld.HLP_CFG_SIDX n)]?).getD 0 != (s.slot n).seen
  else s.hel.rtSeq != (s.slot n).seen

/-- The sample number of a slot's source. -/
def Chip.sampleNo (s : Chip) (n : Nat) : Nat :=
  let src := s.get (Fld.HLP_CFG_SRC n)
  if 5 ≤ src && src ≤ 7 then (s.hel.monSeq[src - 5]?).getD 0
  else if src = 14 then (s.hel.mirSeq[s.get (Fld.HLP_CFG_SIDX n)]?).getD 0
  else s.hel.rtSeq

/-- The check that fails for value `y`, as ST.LCAU codes it, and a sticky flag. `x` already counts this sample. DEDUCED (log entry 163): the
magnitude that the freeze check takes is that of min(u) − max(u), which saturates at -2^31 (R252). -/
def Chip.checkFail (s : Chip) (n : Nat) (x : Slot) (y : Int) : Option Nat × Nat :=
  let dym := s.get (Fld.HLP_DYM_D n)
  let frzn := s.get (Fld.HLP_FRZ_FRZN n)
  let step := sat32 (y - x.yPrev)
  let d := sat32 (x.uMin - x.uMax)
  let span : Int := if d = i32min then i32max else d.natAbs
  if (s.get (Fld.HLP_CFG_SRC n) = 4 && s.fab.up.th0St = 3) || y < s.getS (Fld.HLP_YMIN_Y n) || s.getS (Fld.HLP_YMAX_Y n) < y then (some 0, 0)
  else if dym ≠ 0 && (dym : Int) < (if step = i32min then i32max else step.natAbs) then (some 1, 0)
  else if s.get (Fld.HLP_GRD_FRN n) ≤ x.miss then (some 2, 0)
  else if frzn ≠ 0 && frzn ≤ x.frz then
    (if (s.get (Fld.HLP_FRZ_FRZD n) * 8388608 : Nat) < span && !(isVelocity (s.get (Fld.HLP_CFG_SRC n)) && y == 0) then some 3 else none,
      flagIf (d == i32min) fNMIN)
  else (none, 0)

/-! ### Status words -/

/-- HEL.RUN, PIN, LOSS, FLGS and STA.ACT follow the slots. -/
def Chip.syncHel (s : Chip) : Chip :=
  let m (p : Nat → Bool) : Nat := maskOf 12 p
  let s := s.put Fld.HEL_RUN_S (m fun n => s.get (Fld.HLP_ST_MODE n) != 0)
  let s := s.put Fld.HEL_PIN_S (m fun n => s.on (Fld.HLP_ST_PIN n))
  let s := s.put Fld.HEL_LOSS_S (m fun n => s.on (Fld.HLP_ST_LOSS n))
  let s := s.put Fld.HEL_FLGS_S (m fun n => bitsOf (s.rd (Reg.HLP_ST n)).toNat 0 6 != 0)
  s.putB Fld.HEL_STA_ACT (s.get Fld.HEL_RUN_S != 0)

/-- Set sticky flags of a slot; the first setting of one sets HEL.IST.FLAG (R252). -/
def Chip.stick (s : Chip) (n f : Nat) : Chip :=
  let w := s.rd (Reg.HLP_ST n)
  let old := bitsOf w.toNat 0 6
  if old ||| f = old then s else ((s.wr (Reg.HLP_ST n) (w ||| BitVec.ofNat 32 f)).syncHel).set Fld.HEL_IST_FLAG

/-! ### Modes (R256, R257) -/

/-- Does a slot's actuator allow a mode (R256)? -/
def Chip.modeAllowed (s : Chip) (n m : Nat) : Bool :=
  let act := s.get (Fld.HLP_CFG_ACT n)
  let axis := act == 2 || act == 3
  match m with
  | 0 => true
  | 1 => act != 0 && s.get (Fld.HLP_CFG_SRC n) != 0
  | 2 => act != 0
  | 3 => axis
  | 4 => act == 1
  | 5 => axis && s.get (Fld.MOT_AX_TYPE (act - 2)) == 1
  | _ => false

/-- May a mode command for a slot act (R256)? L11 stays OFF at basic level (R246). A slot with LOSS set takes no mode but OFF, and from OFF the RUN
that clears it (R260). -/
def Chip.modeOk (s : Chip) (n m : Nat) : Bool :=
  n < 12 && s.modeAllowed n m && (m == 0 || n != 11 || s.on Fld.HLP_CTL_XP) &&
    (m == 0 || !s.on (Fld.HLP_ST_LOSS n) || (m == 1 && s.get (Fld.HLP_ST_MODE n) == 0))

/-- MOT.CMn shows the mode of the axis that a slot drives: 0 idle, 1 run, 2 brake, 3 hold, 4 open-loop. An axis that no longer runs is commanded no
speed. -/
def Chip.showAxis (s : Chip) (n m : Nat) : Chip :=
  let act := s.get (Fld.HLP_CFG_ACT n)
  if act = 2 || act = 3 then
    let a := act - 2
    let x := s.axis a
    let mode : AxMode := match m with
      | 1 => .run
      | 2 => .hold
      | 3 => .brake
      | 5 => .run
      | _ => .off
    let code := match m with
      | 1 => 1
      | 2 => 3
      | 3 => 2
      | 5 => 4
      | _ => 0
    let s := (s.setAxis a { x with mode := mode, openLoop := m == 5 }).put (Fld.MOT_CM_MODE a) code
    if code = 1 || code = 4 then s else s.endRamp a
  else s

/-- A slot takes a mode (R256, R257). `y` is the present feedback. -/
def Chip.enterMode (s : Chip) (n m : Nat) (y : Int) : Chip :=
  let old := s.get (Fld.HLP_ST_MODE n)
  let x := s.slot n
  let act := s.get (Fld.HLP_CFG_ACT n)
  let s := s.showAxis n m
  if m = old then s
  else if m = Mode.off then
    let s := s.setSlot n { x with df := 0, rPrev := 0, yPrev := 0, miss := 0, frz := 0, uMin := 0, uMax := 0, bind := 0, held := false }
    ((((s.put (Fld.HLP_ST_MODE n) 0).put (Fld.HLP_IACC_I n) 0).put (Fld.HLP_OUT_U n) 0).clr (Fld.HLP_ST_PIN n)).syncHel
  else if m = Mode.run then
    let s := s.put (Fld.HLP_ST_MODE n) 1
    if old = Mode.hold then s.syncHel
    else
      let s := s.setSlot n (if old = Mode.open_ then { x with rPrev := y } else { x with rPrev := y, yPrev := y, df := 0 })
      if old = Mode.off then
        let i := if 5 ≤ act && act ≤ 7 then s.get (Fld.LDR_MODI_I (act - 5)) * 524288 else 0
        ((s.put (Fld.HLP_IACC_I n) i).clr (Fld.HLP_ST_LOSS n)).syncHel
      else s.syncHel
  else
    let s := (s.put (Fld.HLP_ST_MODE n) m).setSlot n { x with held := false }
    let stepper := (act = 2 || act = 3) && s.get (Fld.MOT_AX_TYPE (act - 2)) = 1
    (if m = Mode.hold && !stepper then s else if m = Mode.open_ then s else s.put (Fld.HLP_OUT_U n) 0).syncHel

/-- The mode command that waits at a slot is applied at the start of the computation window (R250). Reading the feedback for it is no sample. -/
def Chip.applyCmd (s : Chip) (n t : Nat) : Chip :=
  match (s.slot n).cmd with
  | none => s
  | some m =>
    let s := s.setSlot n { s.slot n with cmd := none }
    if s.modeOk n m then
      s.enterMode n m (s.source n t).1.1
    else s

/-! ### Loss (R260) -/

/-- A failed check: ST.LOSS and LCAU, the action of R260 at once, and the fault. -/
def Chip.loopLoss (s : Chip) (n cause : Nat) (y : Int) : Chip :=
  let act := s.get (Fld.HLP_CFG_ACT n)
  let stepper := (act = 2 || act = 3) && s.get (Fld.MOT_AX_TYPE (act - 2)) = 1
  let axis := act = 2 || act = 3
  let holding := s.get (Fld.HLP_ST_MODE n) = Mode.hold
  let m := if act = 1 then Mode.coast
    else if axis then (if stepper then (if holding then Mode.hold else Mode.open_) else Mode.brake) else Mode.off
  let s := s.enterMode n m y
  -- without the polygon's speed the lines from then on carry INVAL
  let s := if act = 1 then s.invalSweeps else s
  let s := (((s.set (Fld.HLP_ST_LOSS n)).put (Fld.HLP_ST_LCAU n) cause).set Fld.HEL_IST_LOSS).syncHel
  let s := if 5 ≤ act && act ≤ 7 then s.set ⟨Reg.LDR_IST, 11 + (act - 5), 1⟩ else s
  s.raise (report (if stepper then 0x0602 else 0x0601) n cause (codeOf y 32))

/-! ### Pinning (R263) -/

/-- A slot in IMG.QMSK is pinned: the lines being swept carry QUAL (R186). -/
def Chip.pinLines (s : Chip) (n : Nat) : Chip :=
  if bitsOf (s.get Fld.IMG_QMSK_M) n 1 = 1 then
    [0, 1].foldl (fun u k =>
      let t := u.trig k
      u.setTrig k { t with fired := t.fired.map fun f => { f with qual := true } }) s
  else s

/-- Is a band being written: lines of it are under way, whether or not its transfer has begun (R263)? -/
def Chip.inBand (s : Chip) : Bool :=
  s.get Fld.MRK_BST_PH = 2 || s.mrk.wts.any fun w => !w.ended && (w.fired.isSome || !w.pend.isEmpty || w.line != 0)

/-- Pinning after a sample with output demand `uStar` and bounds as used (R263). -/
def Chip.pinUpdate (s : Chip) (n : Nat) (uStar l h omin omax lo hi : Int) : Chip :=
  let highB := decide (omax < h) && decide (hi = omax) && decide (hi < uStar)
  let lowB := decide (l < omin) && decide (lo = omin) && decide (uStar < lo)
  let x := s.slot n
  if highB || lowB then
    let b := x.bind + 1
    let s := s.setSlot n { x with bind := b }
    if s.get (Fld.HLP_GRD_PINN n) < b && !s.on (Fld.HLP_ST_PIN n) then
      let s := (((s.set (Fld.HLP_ST_PIN n)).set Fld.HEL_IST_PIN).syncHel).pinLines n
      let s := if n = 6 && s.inBand then s.set Fld.MRK_IST_WPIN else s
      s.raisePin n (if highB then 1 else 0) (codeOf uStar 32)
    else s
  else ((s.setSlot n { x with bind := 0 }).clr (Fld.HLP_ST_PIN n)).syncHel

/-! ### A slot's sample (R249, R253) -/

/-- The guarded ceiling of a target (R262 level 2): TCEIL for the heater, 0.98 × CEILn for an HV channel. -/
def Chip.targetCap (s : Chip) (act : Nat) (t : Int) : Int :=
  if act = 4 then min t (s.get Fld.FUS_TCEIL_T * 65536 : Nat)
  else if 8 ≤ act && act ≤ 11 then min t (s.get (Fld.HVD_CEIL_C (act - 8)) * 98 / 100 * 65536 : Nat)
  else t

/-- Are the checks of a slot suspended (R256, R265): its line is low, its page is disabled, the bridge is lost or Last Line has cut its actuator? -/
def Chip.suspended (s : Chip) (n : Nat) : Bool :=
  let act := s.get (Fld.HLP_CFG_ACT n)
  s.gated act || s.fab.lossLP || s.fab.lossPL || (s.on Fld.ILK_STA_LL && act != 0 && act != 12)

/-- A slot in RUN whose line is low acts as HOLD (R256): a stepper stands still, any other actuator keeps its output. It runs again with the first
sample after the line has risen. -/
def Chip.holdGated (s : Chip) (n : Nat) : Chip :=
  let act := s.get (Fld.HLP_CFG_ACT n)
  if s.get (Fld.HLP_ST_MODE n) = Mode.run && s.gated act then
    let s := s.setSlot n { s.slot n with held := true }
    if (act = 2 || act = 3) && s.get (Fld.MOT_AX_TYPE (act - 2)) = 1 then s.put (Fld.HLP_OUT_U n) 0 else s
  else s

/-- One sample of a slot that is due, at time `t` with commutation count `comm`; `sus`: its checks are suspended in this window. -/
def Chip.sample (s : Chip) (n t comm : Nat) (sus : Bool) : Chip :=
  let mode := s.get (Fld.HLP_ST_MODE n)
  let act := s.get (Fld.HLP_CFG_ACT n)
  let v := s.source n t
  let y := v.1.1
  let s := (v.2.stick n v.1.2).put (Fld.HLP_FB_Y n) (codeOf y 32)
  let x := s.slot n
  let fresh := s.fresh n
  let u := s.getS (Fld.HLP_OUT_U n)
  let same := decide (y = x.yPrev)
  let x := { x with miss := if fresh then 0 else x.miss + 1, seen := s.sampleNo n, frz := if same then x.frz + 1 else 1 }
  let x := { x with uMin := if same then min x.uMin u else u, uMax := if same then max x.uMax u else u }
  -- a slot in OFF keeps its check counters clear (R256)
  let x := if mode = 0 then { x with miss := 0, frz := 0 } else x
  let chk := if mode = 0 || sus then (none, 0) else s.checkFail n x y
  let s := (s.setSlot n x).stick n chk.2
  match chk.1 with
  | some c => s.loopLoss n c y
  | none =>
    if mode ≠ Mode.run || sus then s.setSlot n { x with yPrev := y }
    else
      let s := s.heaterBounds n
      let φ := s.phase n comm t
      let cog := s.tableTerm n φ false
      let fric := s.tableTerm n φ true
      let soft := s.softBounds n
      let h := s.hardHi n
      let rg := effRange hardLo h soft.1 soft.2
      let o := loopCompute {
        kp := s.getS (Fld.HLP_KP_K n), ki := s.getS (Fld.HLP_KI_K n), kd := s.getS (Fld.HLP_KD_K n),
        kf := s.getS (Fld.HLP_KF_K n), sp := s.get (Fld.HLP_SHF_SP n), si := s.get (Fld.HLP_SHF_SI n),
        sd := s.get (Fld.HLP_SHF_SD n), sf := s.get (Fld.HLP_SHF_SF n), dfs := s.get (Fld.HLP_TABC_DFS n),
        rmax := (s.get (Fld.HLP_RMAX_R n) : Nat),
        tgt := if s.on (Fld.HLP_CFG_RSRC n) then s.targetCap act (s.getS (Fld.HLP_TGT_T n)) else s.blockTarget n,
        rPrev := x.rPrev, yPrev := x.yPrev, y := y, df := x.df, i := s.getS (Fld.HLP_IACC_I n),
        cog := cog.1, fric := fric.1, lo := rg.1, hi := rg.2 }
      let inverted := (act = 2 || act = 3) && s.on (Fld.MOT_AX_DIR (act - 2)) && o.u == i32min
      let s := s.stick n (o.flags ||| flagIf (cog.2 || fric.2) fOVM ||| flagIf inverted fNMIN)
      let s := ((s.putS (Fld.HLP_HLO_U n) rg.1).putS (Fld.HLP_HHI_U n) rg.2).putS (Fld.HLP_IACC_I n) o.i
      let s := ((s.putS (Fld.HLP_REF_R n) o.r).putS (Fld.HLP_OUT_U n) o.u).inc (Fld.HLP_CNT_N n)
      let s := s.setSlot n { x with df := o.df, rPrev := o.r, yPrev := y, held := false }
      let s := if act = 12 then (s.putS (Fld.ORR_V_V 7) o.u).event Ev.v7new else s
      s.pinUpdate n o.uStar hardLo h soft.1 soft.2 rg.1 rg.2

/-- Is a slot due in this frame period (R249)? Answers that and the slot after counting the period. -/
def Chip.due (s : Chip) (n : Nat) : Bool × Slot :=
  let x := s.slot n
  if s.get (Fld.HLP_CFG_TRIG n) = 1 then
    let src := s.get (Fld.HLP_CFG_SRC n)
    let opp := if 5 ≤ src && src ≤ 7 then (s.hel.oppSeq[src - 5]?).getD 0 else x.opp
    if src != 0 && s.sampleNo n != x.seen then (true, { x with opp := opp })
    else if opp != x.opp then (s.get (Fld.HLP_GRD_FRN n) ≤ x.miss + (opp - x.opp), { x with opp := opp, miss := x.miss + (opp - x.opp) })
    else (false, x)
  else if s.get (Fld.HLP_CFG_PER n) < 2 then (false, x)
  else if x.wait = 0 then (true, { x with wait := s.get (Fld.HLP_CFG_PER n) - 1 })
  else (false, { x with wait := x.wait - 1 })

/-- The register addresses of slot `n`: its block and its two BPB words. -/
def slotAddr? (n a : Nat) : Bool :=
  (Pg.HLP + 0x40 + 0x70 * n ≤ a && a < Pg.HLP + 0x40 + 0x70 * (n + 1)) || a = Pg.HLP + 0x600 + 8 * n || a = Pg.HLP + 0x604 + 8 * n

/-- Slot `n` in one frame period: its shadows and its sample if it is due; in OFF it samples too (R253). -/
def Chip.slotFrame (h : Hooks) (s : Chip) (t comm n : Nat) (sus : Bool) : Chip :=
  let d := s.due n
  let s := s.setSlot n d.2
  if d.1 then
    let nat := s.get Fld.HLP_CTL_BND = 0
    (s.applyShadows h Pg.HLP (fun x => nat && slotAddr? n x.addr)).sample n t comm sus
  else s

/-- The speed that an axis is commanded to, `age` frame periods into its ramp at ACC (R229). -/
def Axis.rampSpeed (x : Axis) : Int :=
  let d : Int := (x.raw.acc * x.age / 100000 : Nat)
  if ((x.goal - x.start).natAbs : Int) ≤ d || x.raw.acc = 0 then x.goal else if x.start < x.goal then x.start + d else x.start - d

/-- A frame period passes for an axis that runs: its commanded speed goes on towards its goal. -/
def Chip.axisTick (s : Chip) (a : Nat) : Chip :=
  let x := s.axis a
  if s.get (Fld.MOT_CM_MODE a) = 1 && s.getS (Fld.MOT_CM_SPD a) ≠ x.goal then
    let x := { x with age := x.age + 1 }
    (s.setAxis a x).putS (Fld.MOT_CM_SPD a) x.rampSpeed
  else s

/-- A frame period passes for the ramps that the engine program runs: HV channels (R204, R206) and axes (R229). -/
def Chip.rampTick (s : Chip) : Chip := (s.hvTick.axisTick 0).axisTick 1

/-- A window in which `k` slots have computed: HEL.CYC keeps the most cycles used, of which a computation takes at most 64 (R249). How many it takes
is a free value (log entry 202). -/
def Chip.noteCycles (s : Chip) (k : Nat) : Chip :=
  if k = 0 then s else (s.put Fld.HEL_CYC_C (max (s.get Fld.HEL_CYC_C) (s.freeWord.toNat % (64 * k + 1)))).drawn

/-- An axis that has not counted for 2 ms stands (R233, R303): `t` is the time of the frame, in 625 ps units. -/
def Chip.restAxis (s : Chip) (a t : Nat) : Chip :=
  let x := s.axis a
  match x.past with
  | p :: _ => if x.counting && p.1 + 3200000 ≤ t then s.setAxis a { x with counting := false } else s
  | [] => s

/-- HELIOSTAT_FRAME: one RT frame period (R249). The mode commands that wait at its start are applied first (R250), then the due slots compute in
ascending order; what a loss in one of them commands waits for the next window (R265). -/
def Chip.helFrame (h : Hooks) (s : Chip) (t comm : Nat) : Chip :=
  let s := (((s.restAxis 0 t).restAxis 1 t).rampTick).inc Fld.HEL_FRM_N
  if s.on Fld.HLP_CTL_EN then
    let s := (List.range 12).foldl (fun u n => u.holdGated n) ((List.range 12).foldl (fun u n => u.applyCmd n t) s)
    let sus := (List.range 12).map fun n => s.suspended n
    let k := ((List.range 12).filter fun n => (s.due n).1).length
    ((List.range 12).foldl (fun u n => u.slotFrame h t comm n ((sus[n]?).getD false)) s).noteCycles k
  else s

/-! ### Basic level and consistency (R259, R264, R265) -/

/-- A basic bound in OMIN/OMAX units (R264), by slot; L3 is converted at each sample, and L11 has no unit. -/
def boundOut (n : Nat) (b : Int) : Int :=
  let fs (den : Int) : Int := sat32 ((b * 4294967296 + den) / (2 * den))
  if n = 0 then fs 1500
  else if n ≤ 2 then fs 1000
  else if n = 3 then b
  else if n ≤ 6 then sat32 (b * 524288)
  else if n ≤ 10 then fs 1000
  else b

/-- The raw fields that the BPB gives (R264): OMIN, OMAX and GRD.PINN. -/
def Chip.hlpDerive (s : Chip) : Chip :=
  (List.range 12).foldl (fun t n =>
    let t := if n = 3 || n = 11 then t
      else (t.putS (Fld.HLP_OMIN_U n) (boundOut n (t.getS (Fld.HLP_BOB_BLO n)))).putS (Fld.HLP_OMAX_U n)
        (boundOut n (t.getS (Fld.HLP_BOB_BHI n)))
    t.put (Fld.HLP_GRD_PINN n) (t.get (Fld.HLP_BPN_PINN n))) s

/-- Place of the Heliostat tables set (R441). -/
def tablesAt : Nat := 0x60180000

/-- Load a register from a stored image: its writable fields take the word's bits. -/
def Chip.loadReg (s : Chip) (a : Nat) (w : Word) : Chip :=
  match locate a with
  | some l =>
    match fieldsAt l.page l.off with
    | some fs =>
      s.wr a (fs.foldl (fun (v : Word) f => if f.acc = .rw then setField v f.lo f.w (bitsOf w.toNat f.lo f.w) else v) (s.rd a))
    | none => s
  | none => s

/-- Slot `n` takes its record of the tables set (R441). -/
def Chip.slotRecord (s : Chip) (n : Nat) : Chip :=
  [0x00, 0x04, 0x08, 0x0C, 0x10, 0x14, 0x18, 0x1C, 0x20, 0x24, 0x28, 0x2C, 0x30, 0x34, 0x38, 0x3C, 0x40, 0x64, 0x68].foldl
    (fun (t : Chip) o => t.loadReg (Reg.HLP_CFG n + o) (t.word (tablesAt + 64 + 112 * n + o))) s

/-- L1 and L2 take the tuning records of an admitted item's profile, or without a valid one the values of their slot records, at the document
boundary of basic level (R264, R441). -/
def Chip.tuneAxes (s : Chip) (p : Nat) : Chip :=
  if s.on Fld.HLP_CTL_XP then s
  else [1, 2].foldl (fun (t : Chip) n =>
    let r := tablesAt + 64 + 0x1540 + 64 * p + 32 * (n - 1)
    let rec_ := tablesAt + 64 + 112 * n
    let own := bitsOf (t.num (r + 28) 1) 0 1 == 1
    [(0x04, 0), (0x08, 4), (0x0C, 8), (0x10, 12), (0x14, 16), (0x18, 20), (0x68, 24)].foldl (fun (u : Chip) (x : Nat × Nat) =>
      u.loadReg (Reg.HLP_CFG n + x.1) (u.word (if own then r + x.2 else rec_ + x.1))) t) s

/-- Are the slots consistent (R265)? -/
def Chip.hlpValid (s : Chip) : Bool :=
  let acts := ((List.range 12).map fun n => s.get (Fld.HLP_CFG_ACT n)).filter (· != 0)
  let rate := s.get Fld.DBR_MCFG_RATE
  acts.Nodup && (List.range 12).all fun n =>
    !(s.get (Fld.HLP_ST_MODE n) == Mode.run && (s.get (Fld.HLP_CFG_SRC n) == 0 || s.get (Fld.HLP_CFG_ACT n) == 0)) &&
    !(s.get (Fld.HLP_CFG_SRC n) == 14 && s.get (Fld.HLP_CFG_PER n) * rate < 100000)

/-- Default assignments and feedback checks of a slot (R246, R259), set at boot stage LOAD. -/
def Chip.slotDefaults (s : Chip) (n : Nat) : Chip :=
  if n = 11 then (s.put (Fld.HLP_CFG_ACT 11) 0).put (Fld.HLP_CFG_SRC 11) 0
  else
    let per := if n < 3 then 10 else if n = 3 then 1000 else if n < 7 then 0 else 5
    let s := ((((s.put (Fld.HLP_CFG_ACT n) (n + 1)).put (Fld.HLP_CFG_SRC n) (n + 1)).put (Fld.HLP_CFG_PER n) per).put
      (Fld.HLP_CFG_TRIG n) (if 4 ≤ n && n ≤ 6 then 1 else 0)).clr (Fld.HLP_CFG_RSRC n)
    let lim (lo hi : Int) (dym frn frzn frzd : Nat) : Chip :=
      (((((s.putS (Fld.HLP_YMIN_Y n) lo).putS (Fld.HLP_YMAX_Y n) hi).put (Fld.HLP_DYM_D n) dym).put
        (Fld.HLP_GRD_FRN n) frn).put (Fld.HLP_FRZ_FRZN n) frzn).put (Fld.HLP_FRZ_FRZD n) frzd
    if n = 0 then lim 0 (60000 * 256) (2000 * 256) 3 64 13
    else if n ≤ 2 then lim (-4000000 * 256) (4000000 * 256) (400000 * 256) 3 200 51
    else if n = 3 then lim (-200 * 65536) (3000 * 65536) (50 * 65536) 3 3000 77
    else if n ≤ 6 then lim (s.get (Fld.MRK_APC_C (n - 4)) * 65536 / 10 : Nat) (4094 * 65536) 0 8 255 26
    else lim 0 (4094 * 65536) (400 * 65536) 3 128 26

/-- The raw HLP registers at basic level (R79, R246, R259, R264): slot records, the default assignments and checks, and the bounds of the BPB. L11 is
OFF. -/
def Chip.hlpRestore (s : Chip) : Chip :=
  (((List.range 12).foldl (fun (t : Chip) n => (t.slotRecord n).slotDefaults n) s).hlpDerive).helCmd 11 Mode.off

end Sys2Proof.Machine
end

