-- ==== Sys2Proof/Machine/Imaging.lean ====
section
/-!
DEFINITION. The imaging path (chapter 6): read triggers (R180–R186), pixel pipeline (R176, R177), records (R187–R191), the record
writer (R338), calibration (R178, R179) and the basic level (R193).
-/
namespace Sys2Proof.Machine

/-! ### Positions (R180) -/

/-- A difference of wrapping 32-bit positions, signed. -/
def posDiff (a b : Int) : Int := signedOf ((a - b) % 4294967296).toNat 32

/-- The position of the trigger axis, negated with LTRG.DIR. -/
def Chip.trigPos (s : Chip) : Int :=
  let p := s.getS (Fld.ENC_POS_P (s.get Fld.IMG_LTRG_AXIS))
  if s.on Fld.IMG_LTRG_DIR then -p else p

/-- Lines of a window of `len` (0.1 mm) at a line pitch, rounded up (R180, R185). -/
def linesOf (len k pitch : Nat) : Nat := if pitch = 0 then 0 else (len * k * 65536 + 2560 * pitch - 1) / (2560 * pitch)

/-! ### The basic level (R193) -/

/-- IMG raw registers that follow their BPB at the document boundary. -/
def Chip.imgDerive (s : Chip) : Chip :=
  let s := [0, 1].foldl (fun t n =>
    (t.wr (Reg.IMG_AFE n) (t.rd (Reg.IMG_BGN n))).wr (Reg.IMG_OFD n) (t.rd (Reg.IMG_BOF n))) s
  -- the polygon, LD0, LD1 and the transport loops (R195)
  (s.wr Reg.IMG_PROC (s.rd Reg.IMG_BPROC)).put Fld.IMG_QMSK_M 0x37

/-- Is page IMG consistent (R175)? -/
def Chip.imgValid (s : Chip) : Bool := ([0, 1].filter s.stnEmits).all s.settles

/-- Does a profile's line rate exceed the facet rate at pitch BLPI (R193)? With TFP = 0 there is no facet rate. -/
def Chip.lineRateBad (s : Chip) (p lpi : Nat) : Bool :=
  254 * 1600000000 < s.get (Fld.MOT_PROFA_V p) * lpi * 10 * s.get Fld.MER_TFP_P

/-- The raw registers that the engine program writes from the BPB and a profile (R79, R193). -/
def Chip.imgRaw (s : Chip) (prof : Nat) : Chip :=
  if s.on Fld.IMG_CTL_XP then s
  else
    let lpi := s.get Fld.IMG_BLPI_L
    let k := s.get (Fld.MOT_PROFB_K prof)
    if s.lineRateBad prof lpi then s.set Fld.IMG_IST_CFGERR
    else
      let s := s.put Fld.IMG_PITCH_P (rdiv (65536 * k * 254) (2560 * lpi))
      let s := [0, 1].foldl (fun t n => t.putS (Fld.IMG_LOFS_D n) (t.countsOf prof (t.getS (Fld.IMG_BLOF_D n)))) s
      let s := s.put Fld.IMG_HYS_C (max 1 (s.countsOf prof (s.get Fld.IMG_BHYS_D)).toNat)
      s.put Fld.IMG_RVMX_C (rdiv (k * s.get Fld.IMG_BRVM_D) 2560)

/-- Those of the item that is about to be armed (R193). -/
def Chip.imgPrepare (s : Chip) (x : Item) : Chip := s.imgRaw x.prof

/-! ### Records (R187–R191, R338) -/

/-- The image header (R188). -/
def Chip.imageHeader (s : Chip) (n : Nat) (x : Item) (t : Trigger) : List Byte :=
  let fmt := t.slots + 16 * t.sfmt
  let dark := s.slotOn 3
  let opts := (if s.on Fld.MER_SLT_SORD then 1 else 0) + (if s.on Fld.IMG_PROC_DSUB && dark then 2 else 0) +
    (if s.on Fld.IMG_PROC_SHD then 4 else 0)
  let b := leBytes 1 1 ++ leBytes 1 n ++ leBytes 2 2 ++ leBytes 4 t.item ++ leBytes 2 x.href ++ [x.client] ++ leBytes 1 fmt ++
    leBytes 2 (s.get (Fld.MER_NPX_N n)) ++
    leBytes 2 (if s.on Fld.MER_CTL_XP then 0 else s.get Fld.MER_BDPI_RD) ++ leBytes 4 t.pitch ++ leBytes 4 (codeOf t.p0 32) ++
    leBytes 1 opts ++ [0#8] ++ leBytes 2 ((s.rd (Reg.IMG_AFE n)).toNat % 4096) ++ leBytes 4 (s.get Fld.CAL_SEQ_N) ++
    leBytes 4 (if n = 1 then (s.rd Reg.MER_RQR).toNat else 0) ++ leBytes 4 (s.get Fld.RTC_SEC_S) ++
    leBytes 2 (if s.on Fld.IMG_CTL_XP then 0 else s.get Fld.IMG_BLPI_L) ++ List.replicate 20 0#8
  b ++ leBytes 2 (crc16 b).toNat

/-- Hand a record to the record writer. -/
def Chip.addRec (s : Chip) (n item : Nat) (bytes : List Byte) : Chip :=
  { s with img := { s.img with recs := s.img.recs ++ [(⟨n, item, bytes⟩ : Rec)] } }

/-! ### Arming (R180) -/

/-- Show trigger `n` in TST, NLN and HWM. -/
def Chip.showTrig (s : Chip) (n : Nat) : Chip :=
  let t := s.trig n
  ((s.put (Fld.IMG_TST_BKL n) t.pend.length).put (Fld.IMG_NLN_NEXT n) t.next).put (Fld.IMG_NLN_NLMAX n) t.nlmax

/-- The last index of a trigger's window as far as it is known (R185). -/
def Trigger.limit (t : Trigger) : Nat :=
  match t.lastIdx with
  | some l => min (l + 1) t.nlmax
  | none => t.nlmax

/-- A trigger whose window is over, with nothing pending or being swept, closes with END 0x00 (R185). -/
def Chip.endWindow (s : Chip) (n : Nat) : Chip :=
  let t := s.trig n
  if t.item ≠ 0 && t.limit ≤ t.next && t.pend.isEmpty && t.fired.isNone && t.stop.isNone then s.closeTrig n 0 0 else s

/-- Arm trigger `n` for an item at position `pe` (R180): it must be idle and IMG enabled. DESIGN CHOICE (log entry 187): a line whose target lies at
or behind the position then becomes pending at the next count. -/
def Chip.armTrig (s : Chip) (n : Nat) (x : Item) (pe : Int) : Chip :=
  if (s.trig n).item ≠ 0 || !s.on Fld.IMG_CTL_EN then s
  else
    let pitch := s.get Fld.IMG_PITCH_P
    let k := s.get (Fld.MOT_PROFB_K x.prof)
    let lofs := s.getS (Fld.IMG_LOFS_D n)
    let nlmax := linesOf (x.len + s.get Fld.DOC_BSZT_T) k pitch
    let t : Trigger := { idleTrigger with item := x.id, p0 := pe + lofs, pitch := pitch, lofs := lofs, hys := s.get Fld.IMG_HYS_C,
                                          rvmx := s.get Fld.IMG_RVMX_C, slots := x.slots, sfmt := x.sfmt, nlmax := min nlmax 65535,
                                          lastIdx := if x.carriage then some (linesOf x.len k pitch - 1) else none }
    let s := (if n = 0 then s.set Fld.IMG_STA_ARM0 else s.set Fld.IMG_STA_ARM1).put (Fld.IMG_TST_ST n) 1
    let s := ((s.setTrig n t).addRec n x.id (s.imageHeader n x t)).showTrig n
    if pitch = 0 then ((s.set Fld.IMG_IST_CFGERR).endWindow n) else s

/-- The leading edge of an item at the read stations (R180): both triggers that its START asks for arm. -/
def Chip.imgArm (s : Chip) (id : Nat) (pe : Int) : Chip :=
  match s.item id with
  | none => s
  | some x =>
    if x.settled || !(x.scans 0 || x.scans 1) then s
    else
      let s := s.imgPrepare x
      let p := if s.on Fld.IMG_LTRG_DIR then -pe else pe
      let s := if x.scans 0 then s.armTrig 0 x p else s
      if x.scans 1 then s.armTrig 1 x p else s

/-- A fired line that has no sweep to come is not swept: it counts as dropped (R181, R312); a trailer that waited for it
follows (R185). -/
def Chip.dropFired (s : Chip) (n : Nat) : Chip :=
  let t := s.trig n
  if t.fired.isSome && !s.firedLives n then
    let g := (t.fired.map (·.gapn)).getD 0
    let s := (s.setTrig n { t with fired := none, pend := t.pend.mapIdx fun i p => if i = 0 then { p with gap := p.gap + g + 1 } else p
                                   gap := if t.pend.isEmpty then t.gap + g + 1 else t.gap, ndrop := t.ndrop + 1 }).bump Fld.IMG_DROP_LDROP
    let s := s.set Fld.IMG_IST_LDROP
    match t.stop with
    | some reason => s.closeTrig n 1 reason
    | none => s.endWindow n
  else s

/-- A window whose last line has no sweep to come ends (R185). -/
def Chip.settleWindow (s : Chip) (n : Nat) : Chip := (s.dropFired n).endWindow n

/-- The trailing edge of an item at position `pt` (R185): the window's last index. -/
def Chip.imgTrail (s : Chip) (id : Nat) (pt : Int) : Chip :=
  let p := if s.on Fld.IMG_LTRG_DIR then -pt else pt
  [0, 1].foldl (fun u n =>
    let t := u.trig n
    if t.item = id && id ≠ 0 && t.pitch ≠ 0 then
      let d := posDiff (p + t.lofs) t.p0 * 65536
      -- the highest n with n × PITCH < d; with none, the window is empty
      let cnt : Nat := ((d + t.pitch - 1) / (t.pitch : Int)).toNat
      (u.setTrig n { t with lastIdx := some (cnt - 1), nlmax := if cnt = 0 then 0 else t.nlmax
                            pend := t.pend.filter fun p => p.idx < cnt }).settleWindow n
    else u) s

/-! ### Lines (R181–R184) -/

/-- Drop a line (R181). -/
def Chip.dropLine (s : Chip) (n : Nat) : Chip :=
  let t := s.trig n
  ((s.setTrig n { t with gap := t.gap + 1, ndrop := t.ndrop + 1 }).bump Fld.IMG_DROP_LDROP).set Fld.IMG_IST_LDROP

/-- Line `idx` of trigger `n` is reached at time `now`: pending, or dropped when the backlog is full or lock is lost. One that was dropped
before the trigger entered BACK stays dropped. -/
def Chip.reachLine (s : Chip) (n idx now : Nat) : Chip :=
  let t := s.trig n
  let s := s.setTrig n { t with next := idx + 1 }
  if t.lost.contains idx then s.setTrig n { t with next := idx + 1, gap := t.gap + 1 }
  else if s.on Fld.MER_STA_LOCK && t.pend.length < s.get Fld.IMG_LTRG_BKLG then
    s.setTrig n { t with next := idx + 1, pend := t.pend ++ [{ idx := idx, t := now, gap := t.gap }], gap := 0 }
  else (s.setTrig n { t with next := idx + 1, lost := t.lost ++ [idx] }).dropLine n

/-- Is an item in the marking nip (R183, R196)? -/
def Chip.inMarkNip (s : Chip) (id : Nat) : Bool :=
  s.mrk.wts.any fun w => w.item == id && w.inNip

/-- The position of the trigger axis has changed (R181–R183) at time `now`. -/
def Chip.imgCount1 (s : Chip) (now n : Nat) : Chip :=
  let t := s.trig n
  if t.item = 0 || t.stop.isSome then s
  else
    let pos := s.trigPos
    let back : Int := match t.hwm with
      | some h => posDiff h pos
      | none => 0
    let s := if t.hwm.isSome && (t.rvmx : Int) < back && !t.reversed && !s.inMarkNip t.item then
        ((s.setTrig n { t with reversed := true }).set Fld.IMG_IST_RVFAIL).raise (report 0x0401 n 0 back.toNat t.item)
      else s
    let t := s.trig n
    if t.item = 0 || t.stop.isSome then s
    else if s.get (Fld.IMG_TST_ST n) = 1 && t.hwm.isSome && (t.hys : Int) ≤ back then
      let t := match t.pend with
        | p :: _ => { t with pend := [], next := p.idx, gap := p.gap }
        | [] => t
      let s := s.setTrig n t
      (((s.put (Fld.IMG_TST_ST n) 2).set Fld.IMG_STA_BACK).set Fld.IMG_IST_REV).showTrig n
    else if s.get (Fld.IMG_TST_ST n) = 2 && -(t.hys : Int) < back then s
    else
      let s := if s.get (Fld.IMG_TST_ST n) = 2 then
          let s := (s.setTrig n { t with rvs := true }).put (Fld.IMG_TST_ST n) 1
          s.putB Fld.IMG_STA_BACK (s.get (Fld.IMG_TST_ST 0) == 2 || s.get (Fld.IMG_TST_ST 1) == 2)
        else s
      let t := s.trig n
      let d := posDiff pos t.p0 * 65536
      if d < 0 || t.pitch = 0 then s
      else
        let reached := min (d.toNat / t.pitch + 1) t.limit
        let s := (List.range (reached - t.next)).foldl (fun u k => u.reachLine n (t.next + k) now) s
        (s.showTrig n).endWindow n

/-- Both triggers take note of a new position. -/
def Chip.imgCount (s : Chip) (now : Nat) : Chip := (s.imgCount1 now 0).imgCount1 now 1

/-- A BD at time `t` (R181): the oldest pending line of each trigger fires if it became pending at least 1 µs earlier, which
arms its station's gate. DESIGN CHOICE (log entry 188): OVS of a line whose position lies below its target is 0. -/
def Chip.imgBd1 (s : Chip) (t n : Nat) : Chip :=
  let s := s.dropFired n
  let g := s.trig n
  match g.pend with
  | [] => s
  | p :: rest =>
    if p.t + 1600 ≤ t && s.on Fld.MER_STA_LOCK && s.get (Fld.IMG_TST_ST n) = 1 && g.stop.isNone && g.fired.isNone && !s.fab.up.pfail then
      let pos := s.trigPos
      let tgt := (p.idx * g.pitch) / 65536
      let ovs := (posDiff pos g.p0 - tgt).toNat
      let axis := s.get Fld.IMG_LTRG_AXIS
      let f : Fired := { idx := p.idx, pos := codeOf pos 32, lcnt := s.get Fld.MER_LCNT_CNT, facet := s.get Fld.MER_FST_FACET,
                         ovs := min ovs 65535, gapn := min p.gap 255, rvs := g.rvs,
                         qual := s.get Fld.IMG_QMSK_M &&& s.get Fld.HEL_PIN_S != 0, last := p.idx + 1 == g.limit,
                         open_ := (s.axis axis).openLoop }
      let s := s.setTrig n { g with pend := rest, fired := some f, rvs := false, hwm := some pos, lost := g.lost.filter (p.idx < ·) }
      ((s.put (Fld.IMG_HWM_P n) (codeOf pos 32)).armGate n).showTrig n
    else s

/-- A BD reaches both triggers. -/
def Chip.imgBd (s : Chip) (t : Nat) : Chip := (s.imgBd1 t 0).imgBd1 t 1

/-- Lock is lost while items continue: pending lines are dropped (R181). -/
def Chip.imgUnlock (s : Chip) : Chip :=
  [0, 1].foldl (fun u n =>
    let k := (u.trig n).pend.length
    let gap := (u.trig n).pend.foldl (fun a p => a + p.gap) (u.trig n).gap
    let u := u.setTrig n { u.trig n with pend := [], gap := gap }
    -- a line that has fired and is not being swept is not swept any more
    let u := (u.setStn n { u.stn n with armed := false }).dropFired n
    (((List.range k).foldl (fun v _ => v.dropLine n) u).showTrig n).endWindow n) s

/-! ### The pixel pipeline (R176, R177) -/

/-- An entry of the shading RAM (R178): G in [31:16], D in [11:0]. -/
def Chip.shade_ (s : Chip) (i : Nat) : Word :=
  match s.img.shading.find? (fun x => x.1 == i) with
  | some x => x.2
  | none => 0x10000000#32

/-- Write an entry of the shading RAM. -/
def Chip.setShade (s : Chip) (i : Nat) (w : Word) : Chip :=
  let rest := s.img.shading.filter (fun x => x.1 != i)
  let l := if w = 0x10000000#32 then rest
    else rest.takeWhile (fun x => decide (x.1 < i)) ++ (i, w) :: rest.dropWhile (fun x => decide (x.1 < i))
  { s with img := { s.img with shading := l } }

/-- Index of the shading entry of station, slot, pixel (R178). -/
def shadeIdx (n c p : Nat) : Nat := (n * 4 + c) * 3024 + p

/-- An integer in signed 32 bits (R176). -/
def wrap32 (x : Int) : Int := signedOf (x % 4294967296).toNat 32

/-- shift of R176. -/
def ambShift (v k : Int) : Int :=
  if 0 ≤ k then wrap32 (v * (2 ^ k.toNat : Nat)) else (v + (2 ^ ((-k).toNat - 1) : Nat)) / (2 ^ (-k).toNat : Nat)

/-- Raw sample of slot `c`, pixel `p`: `raw` lists the captured slots in the order VIS, IR, UVX, DARK. -/
def Chip.rawAt (s : Chip) (raw : List (List (BitVec 12))) (c p : Nat) : Nat :=
  match s.slotsOn.idxOf? c with
  | some k => ((((raw[k]?).getD [])[p]?).getD 0#12).toNat
  | none => 0

/-- v[c] of R176 after the electronic offset and, with DSUB and DARK captured, ambient subtraction. -/
def Chip.pixelV (s : Chip) (n : Nat) (raw : List (List (BitVec 12))) (c p : Nat) : Int :=
  let v (c : Nat) : Int := (s.rawAt raw c p : Int) - (bitsOf (s.shade_ (shadeIdx n c p)).toNat 0 12 : Nat)
  if c != 3 && s.on Fld.IMG_PROC_DSUB && s.slotOn 3 then v c - ambShift (v 3) ((s.gain n c : Int) - s.gain n 3) else v c

/-- The output of one pixel before bad-pixel replacement (R176). -/
def Chip.pixelOut (s : Chip) (n sfmt : Nat) (raw : List (List (BitVec 12))) (c p : Nat) : Nat :=
  let v := s.pixelV n raw c p
  let g := bitsOf (s.shade_ (shadeIdx n c p)).toNat 16 16
  let y := clampInt 0 4095 (if c != 3 && s.on Fld.IMG_PROC_SHD then wrap32 (v * g + 2048) / 4096 else v)
  if sfmt = 1 then y.toNat else min 255 ((y.toNat + 8) / 16)

/-- Replace bad pixels (G = 0) by the nearest lower good one, or the nearest higher one (R177). `low` is the last good output. -/
def fixBad (good : List Bool) (out : List Nat) (low : Option Nat) : List Nat :=
  match good, out with
  | g :: gs, o :: os =>
    if g then o :: fixBad gs os (some o)
    else
      let r := match low with
        | some l => l
        | none => (((gs.zip os).find? (·.1)).map (·.2)).getD o
      r :: fixBad gs os low
  | _, _ => []

/-- The stored samples of slot `c` of a line (R177, R190). -/
def Chip.slotSamples (s : Chip) (n sfmt npx : Nat) (raw : List (List (BitVec 12))) (c : Nat) : List Nat :=
  let good := (List.range npx).map fun p => bitsOf (s.shade_ (shadeIdx n c p)).toNat 16 16 != 0
  fixBad good ((List.range npx).map fun p => s.pixelOut n sfmt raw c p) none

/-- The line record of station `n` for the line that fired (R189, R190). A stored slot that Meridian no longer captures has no stated
value: its samples are free. -/
def Chip.lineRecord (s : Chip) (n : Nat) (t : Trigger) (f : Fired) (raw : List (List (BitVec 12))) : (List Byte × Nat) :=
  let st := s.stn n
  let npx := s.get (Fld.MER_NPX_N n)
  let w := if t.sfmt = 1 then 2 else 1
  let pay := ([0, 1, 2, 3].filter fun c => bitsOf t.slots c 1 == 1).flatMap fun c =>
    if s.slotOn c then (s.slotSamples n t.sfmt npx raw c).flatMap (leBytes w)
    else (List.replicate npx (s.freeWord.toNat % 256)).flatMap (leBytes w)
  let nclip := (s.slotsOn.map fun c => (List.range npx).countP fun p =>
    s.rawAt raw c p == 0 || s.rawAt raw c p == 4095).foldl (· + ·) 0
  let amb : Int := if s.slotOn 3 && npx != 0 then
      (((List.range npx).map fun p => s.pixelV n raw 3 p).foldl (· + ·) 0).tdiv npx else 0
  let b (x : Bool) (k : Nat) : Nat := if x then 2 ^ k else 0
  let flags := b st.fly 0 + b st.inval 1 + b st.nofc 2 + b f.qual 3 + b f.rvs 4 + b (f.gapn != 0) 5 + b (nclip != 0) 6 +
    b f.last 7 + b f.open_ 8
  let units := 1 + (pay.length + 31) / 32
  let hd := leBytes 1 2 ++ leBytes 1 n ++ leBytes 2 units ++ leBytes 4 t.item ++ leBytes 2 f.idx ++ leBytes 2 flags ++
    leBytes 4 f.pos ++ leBytes 4 f.lcnt ++ leBytes 1 f.facet ++ leBytes 1 (t.slots + 16 * t.sfmt) ++ leBytes 2 npx ++
    leBytes 2 f.ovs ++ leBytes 2 (codeOf amb 16) ++ leBytes 1 (min nclip 255) ++ leBytes 1 f.gapn
  (hd ++ leBytes 2 (crc16 hd).toNat ++ pay ++ List.replicate (32 * (units - 1) - pay.length) 0#8, flags)

/-- A read station's sweep has ended with its raw samples (R185–R189): the line record of the line that fired goes to the record
writer, and the trailer follows the last line. -/
def Chip.imgSweep (s : Chip) (n : Nat) (raw : List (List (BitVec 12))) : Chip :=
  let t := s.trig n
  match t.fired with
  | none => s
  | some f =>
    let f := { f with qual := f.qual || s.get Fld.IMG_QMSK_M &&& s.get Fld.HEL_PIN_S != 0, last := f.last || f.idx + 1 == t.limit }
    let r := s.lineRecord n t f raw
    let missing := (List.range 4).any fun c => bitsOf t.slots c 1 == 1 && !s.slotOn c
    let s := if missing then s.drawn else s
    let s := s.addRec n t.item r.1
    let s := if bitsOf r.2 6 1 = 1 then s.set Fld.IMG_IST_CLIP else s
    let s := s.set (if n = 0 then Fld.IMG_IST_LINE0 else Fld.IMG_IST_LINE1)
    let s := s.updItem t.item fun x =>
      if n = 0 then { x with linF := x.linF + 1, qual := x.qual || f.qual } else { x with linR := x.linR + 1, qual := x.qual || f.qual }
    let s := s.setTrig n { t with fired := none, nline := t.nline + 1, flagOr := t.flagOr ||| r.2 }
    match t.stop with
    | some reason => s.closeTrig n 1 reason
    | none => s.endWindow n

/-! ### Calibration (R178, R179) -/

/-- A CAL.CMD run is accepted only in READY or SERVICE, with no item admitted, with lock; its kind must be one of the three. DESIGN CHOICE (log
entry 158): while a run is in progress another is refused with 0x21. -/
def Chip.calStart (s : Chip) (v : Word) : Status × Chip :=
  let kind := bitsOf v.toNat 0 2
  if !(s.engine = Eng.ready || s.engine = Eng.service) || !s.noneAdmitted || !s.on Fld.MER_STA_LOCK || s.on Fld.CAL_STA_BUSY then
    (St.state, s)
  else if kind = 0 then (St.ok, s)
  else
    let r : CalRun := { kind := kind, stn := bitsOf v.toNat 4 2, smsk := bitsOf v.toNat 8 4,
                        navg := 16 * 2 ^ bitsOf v.toNat 12 3, left := if kind = 3 then 0 else 16 * 2 ^ bitsOf v.toNat 12 3 }
    (St.ok, ({ s with img := { s.img with run := some r } }).set Fld.CAL_STA_BUSY)

/-- A DARK or WHITE run fires a line of its stations on this facet, whatever the position (R179). -/
def Chip.calBd (s : Chip) : Chip :=
  match s.img.run with
  | none => s
  | some r =>
    if r.left = 0 || !s.on Fld.MER_STA_LOCK then s
    else
      let s := { s with img := { s.img with run := some { r with left := r.left - 1 } } }
      [0, 1].foldl (fun t n => if bitsOf r.stn n 1 = 1 then t.armGate n else t) s

/-- The places that a DARK or WHITE run measures, in order: stations of STN, slots that Meridian captures, pixels. -/
def Chip.calPlaces (s : Chip) (r : CalRun) : List (Nat × Nat × Nat) :=
  ([0, 1].filter fun n => bitsOf r.stn n 1 == 1).flatMap fun n =>
    s.slotsOn.flatMap fun c => (List.range (s.get (Fld.MER_NPX_N n))).map fun p => (n, c, p)

/-- The sum measured for a place. -/
def sumAt (places : List (Nat × Nat × Nat)) (sums : List (BitVec 32)) (x : Nat × Nat × Nat) : Nat :=
  match places.idxOf? x with
  | some k => ((sums[k]?).getD 0#32).toNat
  | none => 0

/-- DARK (R179): D = round(mean x) for the slots of SMSK. -/
def Chip.calDark (s : Chip) (r : CalRun) (sums : List (BitVec 32)) : Chip :=
  let ps := s.calPlaces r
  (ps.filter fun x => bitsOf r.smsk x.2.1 1 == 1).foldl (fun t x =>
    let i := shadeIdx x.1 x.2.1 x.2.2
    t.setShade i (setField (t.shade_ i) 0 12 (rdiv (sumAt ps sums x) r.navg))) s

/-- The gain that WHITE finds for a place (R179): 0 below WMIN. DESIGN CHOICE (log entries 190 and 191): 0 also where w is not positive, and the
ambient subtraction is of the means, by an exact power of two. -/
def Chip.whiteGain (s : Chip) (r : CalRun) (sum : Nat × Nat × Nat → Nat) (x : Nat × Nat × Nat) : Nat :=
  let mean (c : Nat) : Rat := frac (sum (x.1, c, x.2.2)) r.navg - (bitsOf (s.shade_ (shadeIdx x.1 c x.2.2)).toNat 0 12 : Nat)
  let k : Int := (s.gain x.1 x.2.1 : Int) - s.gain x.1 3
  let amb : Rat := if s.on Fld.IMG_PROC_DSUB && s.slotOn 3 then
      mean 3 * (if 0 ≤ k then ((2 ^ k.toNat : Nat) : Rat) else 1 / ((2 ^ (-k).toNat : Nat) : Rat)) else 0
  let w := mean x.2.1 - amb
  if w < (s.get Fld.CAL_CFG_WMIN : Rat) || w ≤ 0 then 0
  else min 65535 (roundHalfUp ((s.get Fld.CAL_CFG_TGT * 4096 : Nat) / w)).toNat

/-- WHITE (R179): G for the slots of SMSK but DARK. -/
def Chip.calWhite (s : Chip) (r : CalRun) (sums : List (BitVec 32)) : Chip :=
  let ps := s.calPlaces r
  (ps.filter fun x => bitsOf r.smsk x.2.1 1 == 1 && x.2.1 != 3).foldl (fun t x =>
    let i := shadeIdx x.1 x.2.1 x.2.2
    t.setShade i (setField (t.shade_ i) 16 16 (s.whiteGain r (sumAt ps sums) x))) s

/-- The largest number of bad pixels in any station and slot that a run measured (R179), which BADC shows (DEDUCED, log entry 193). -/
def Chip.badCount (s : Chip) (r : CalRun) : Nat :=
  let count (n c : Nat) : Nat := (List.range (s.get (Fld.MER_NPX_N n))).countP fun p =>
    bitsOf (s.shade_ (shadeIdx n c p)).toNat 16 16 == 0
  ([0, 1].filter fun n => bitsOf r.stn n 1 == 1).foldl (fun m n =>
    ([0, 1, 2, 3].filter fun c => bitsOf r.smsk c 1 == 1 && !(r.kind == 2 && c == 3)).foldl (fun m c => max m (count n c)) m) 0

/-- A DARK or WHITE run ends with its sums (R179), once it has fired on all its facets. -/
def Chip.calMeasured (s : Chip) (r : CalRun) (sums : List (BitVec 32)) : Chip :=
  if r.left ≠ 0 then s
  else
    let s := ({ s with img := { s.img with run := none } }).clr Fld.CAL_STA_BUSY
    let s := if r.kind = 1 then s.calDark r sums else s.calWhite r sums
    let bad := s.badCount r
    let s := ((s.put Fld.CAL_CRS_BADC bad).put Fld.CAL_CRS_RSLT (if s.get Fld.CAL_CFG_BADMAX < bad then 1 else 0)).inc Fld.CAL_SEQ_N
    let s := s.set Fld.CAL_IST_DONE
    if s.get Fld.CAL_CFG_BADMAX < bad then s.set Fld.CAL_IST_FAIL else s

/-- A CAL.TDA access (R178, R195): one entry, and the index advances, wrapping after 24,191. -/
def Chip.calTda (s : Chip) (w : Option Word) : (Word × Status) × Chip :=
  let i := s.get Fld.CAL_TAD_I
  let next (t : Chip) : Chip := t.put Fld.CAL_TAD_I ((i + 1) % 24192)
  match w with
  | none => ((s.shade_ i, St.ok), next (s.wr Reg.CAL_TDA (s.shade_ i)))
  | some v =>
    if !s.noneAdmitted then ((0#32, St.state), s)
    else
      let v := v &&& 0xFFFF0FFF#32
      ((v, St.ok), next ((s.setShade i v).wr Reg.CAL_TDA v))

end Sys2Proof.Machine
end

