-- ==== Sys2Proof/Machine/Marking.lean ====
section
/-!
DEFINITION. The marking station (chapter 7): print stream and job table (R197–R200), write trigger (R201, R202), HV sequence
(R203–R206), fuser and nip watches (R208–R211, R216), band counting (R217) and the basic level (R218).
-/
namespace Sys2Proof.Machine

/-! ### The job table (R197, R220) -/

/-- A free entry of the job table. -/
def freeJob : Job :=
  { st := .free, handle := 0, nband := 0, npx := 0, wlpi := 0, keep := false, client := 0, item := 0, base := 0, len := 0,
    bands := [] }

/-- The code of a job state (JSTA.ST). -/
def JobSt.code : JobSt → Nat
  | .free => 0
  | .loading => 1
  | .ready => 2
  | .bound => 3
  | .refused => 4
  | .error => 5

/-- Entry `i` of the job table. -/
def Chip.job (s : Chip) (i : Nat) : Job := (s.mrk.jobs[i]?).getD freeJob

/-- Put entry `i` back; a new state sets IST.JOB and raises JOBCH (R197). -/
def Chip.setJob (s : Chip) (i : Nat) (j : Job) : Chip :=
  let old := s.job i
  let s := { s with mrk := { s.mrk with jobs := s.mrk.jobs.set i j } }
  let s := (s.put (Fld.MRK_JHND_H i) j.handle).put (Fld.MRK_JSTA_NB i) j.nband
  let s := (s.put (Fld.MRK_JSTA_CLID i) j.client).put (Fld.MRK_JSTA_ST i) j.st.code
  if old.st = j.st then s else (s.set Fld.MRK_IST_JOB).event Ev.jobch

/-- The entry of the table that satisfies a predicate. -/
def Chip.jobAt (s : Chip) (p : Job → Bool) : Option Nat := (List.range 16).find? fun i => p (s.job i)

/-- Bytes of one write line (R199). -/
def lineBytes (npx : Nat) : Nat := 32 * ((npx + 63) / 64)

/-- Do the CRCs of a 32-byte header hold? -/
def crcOk (b : List Byte) : Bool := decide ((crc16 (b.take 30)).toNat = ofLeBytes ((b.drop 30).take 2))

/-- The band descriptors and lines of a job (R199), from byte address `addr` on; none when one is wrong. `yend` is the least YOFS
that the next band may have, times WLPI. -/
def parseBands (npx wlpi : Nat) (addr idx yend : Nat) (bs : List Byte) : Nat → Option (List Band)
  | 0 => if bs.isEmpty then some [] else none
  | n + 1 =>
    let nl := ofLeBytes ((bs.drop 2).take 2)
    let yofs := ofLeBytes ((bs.drop 4).take 4)
    let sz := 32 + nl * lineBytes npx
    if bs.length < sz || bs.headD 0 ≠ 0x11#8 || ofLeBytes ((bs.drop 1).take 1) ≠ idx || nl = 0 || 4096 < nl || !crcOk (bs.take 32) ||
        (wlpi ≠ 0 && yofs * wlpi < yend) then none
    else match parseBands npx wlpi (addr + sz) (idx + 1) (yofs * wlpi + nl * 25400) (bs.drop sz) n with
      | some l => some ({ nline := nl, yofs := yofs, addr := addr + 32 } :: l)
      | none => none

/-- First fit of a job in the print region (R197): its first byte's address. -/
def Chip.printFit (s : Chip) (len : Nat) : Option Nat :=
  let r := s.printRegion
  let lo := store + 65536 * r.1
  let used := (s.mrk.jobs.filter fun j => j.len != 0).map fun j => (j.base, j.len)
  fitFrom used len (lo + 65536 * r.2) lo (used.length + 1)

/-! ### The print stream (R197, R219) -/

/-- Does the stream wait at a job header for a free entry (R219)? -/
def Chip.streamStalled (s : Chip) : Bool :=
  s.mrk.skip = 0 && 32 ≤ s.mrk.stream.length && (s.jobAt (·.st == .free)).isNone && (s.jobAt (·.st == .loading)).isNone

/-- Take what the print ring holds into the loader; an entry is complete once it is copied (R325). -/
def Chip.pullPrint (s : Chip) : Nat → Chip
  | 0 => s
  | fuel + 1 =>
    if s.streamStalled then s
    else
      let n := s.get Fld.MRK_RING_PR
      match s.popRing n .mrk with
      | (.entry e, t) =>
        let t := t.countErrors (store + 32 * e.ofs) (32 * e.rlen)
        let bad := t.mrk.badData || t.storeBad (store + 32 * e.ofs) (32 * e.rlen)
        (({ t with mrk := { t.mrk with stream := t.mrk.stream ++ t.entryBytes e, badData := bad } }).complete n).pullPrint fuel
      | (_, t) => t

/-- Skip bytes of refused and erroneous jobs. -/
def Chip.skipPrint (s : Chip) : Chip :=
  let k := min s.mrk.skip s.mrk.stream.length
  { s with mrk := { s.mrk with skip := s.mrk.skip - k, stream := s.mrk.stream.drop k } }

/-- A job ends REFUSED or ERROR: the entry keeps its handle, JLEN bytes are skipped, IST.JREF (R197). -/
def Chip.rejectJob (s : Chip) (i len : Nat) (j : Job) : Chip :=
  let s := { s with mrk := { s.mrk with skip := len } }
  ((s.setJob i { j with base := 0, len := 0, bands := [] }).set Fld.MRK_IST_JREF).skipPrint

/-- The job header at the front of the stream (R197, R198): LOADING, REFUSED or ERROR. -/
def Chip.jobHeader (s : Chip) (i : Nat) : Chip :=
  let b := s.mrk.stream.take 32
  let num (o n : Nat) : Nat := ofLeBytes ((b.drop o).take n)
  let h := num 4 4
  let len := max 32 (num 8 4)
  let j : Job := { freeJob with handle := h, nband := num 2 2, npx := num 12 2, wlpi := num 14 2, keep := bitsOf (num 1 1) 0 1 == 1 }
  let bad := b.headD 0 ≠ 0x10#8 || !crcOk b || j.nband = 0 || 64 < j.nband || h = 0 || h = 0xFFFFFFFF || j.npx % 2 = 1 ||
    (j.wlpi = 0 && !s.on Fld.MRK_CTL_XP)
  let dup := (s.jobAt fun x => x.st != .free && x.handle == h).isSome
  if bad then s.rejectJob i len { j with st := .error }
  else if dup then s.rejectJob i len { j with st := .refused }
  else match s.printFit len with
    | none => s.rejectJob i len { j with st := .refused }
    | some a => s.setJob i { j with st := .loading, base := a, len := len }

/-- JOB_LOAD: the loader takes print data and, at a job header with a free entry, the next job. -/
def Chip.jobLoad (s : Chip) : Chip :=
  if !s.on Fld.MRK_CTL_EN then s
  else
    let s := (s.pullPrint 65536).skipPrint
    if (s.jobAt (·.st == .loading)).isSome || s.mrk.skip ≠ 0 || s.mrk.stream.length < 32 then s
    else match s.jobAt (·.st == .free) with
      | some i => s.jobHeader i
      | none => s

/-- JOB_LOAD_DONE: every byte of the job has been copied into the print region: READY, or ERROR when its bands are wrong (R197,
R199). -/
def Chip.jobLoadDone (s : Chip) : Chip :=
  match s.jobAt (·.st == .loading) with
  | none => s
  | some i =>
    let s := s.pullPrint 65536
    let j := s.job i
    if s.mrk.stream.length < j.len then s
    else
      let bs := s.mrk.stream.take j.len
      let bad := s.mrk.badData
      let s := { s with mrk := { s.mrk with badData := false } }
      match if bad then none else parseBands j.npx j.wlpi (j.base + 32) 0 0 (bs.drop 32) j.nband with
      | none => s.rejectJob i j.len { j with st := .error }
      | some l =>
        let s := { s with mrk := { s.mrk with stream := s.mrk.stream.drop j.len } }
        (s.storeBytes j.base bs).setJob i { j with st := .ready, bands := l }

/-- A write to MRK.JDEL (R200, R220): BOUND and LOADING refused 0x21, unknown 0x20. -/
def Chip.jobDelete (s : Chip) (h : Nat) : Status × Chip :=
  match s.jobAt fun j => j.st != .free && j.handle == h with
  | none => (St.badArg, s)
  | some i =>
    if (s.job i).st = .bound || (s.job i).st = .loading then (St.state, s) else (St.ok, s.setJob i freeJob)

/-! ### START and report (R200, R205) -/

/-- WPIT at basic level for profile `p` (R218). -/
def Chip.wpitOf (s : Chip) (p : Nat) : Nat := rdiv (65536 * s.get (Fld.MOT_PROFB_K p) * 254) (2560 * s.get Fld.MRK_BWLPI_L)

/-- HSEQ.TRL at basic level for profile `p` (R218). -/
def Chip.trlOf (s : Chip) (p : Nat) : Nat := (s.countsOf p (s.get Fld.MRK_BTRL_D)).toNat

/-- Is band `b` wholly inside the item, with its transfer window (R200, R205)? At basic level it is judged with the pitch and the lead that the
item's profile gives (R218). -/
def Chip.bandFits (s : Chip) (x : Item) (j : Job) (b : Band) : Bool :=
  let raw := s.on Fld.MRK_CTL_XP
  let trl : Int := if raw then s.get Fld.MRK_HSEQ_TRL else s.trlOf x.prof
  let pit := if raw then s.get Fld.MRK_WPIT_P else s.wpitOf x.prof
  let first := s.countsOf x.prof b.yofs
  let last : Rat := (first : Rat) + ((b.nline * pit : Nat) : Rat) / 65536
  (j.wlpi = 0 || b.yofs * j.wlpi + b.nline * 25400 ≤ x.len * 100 * j.wlpi) && trl ≤ first &&
    last + (trl : Rat) ≤ (s.countsOf x.prof (x.len * 100) : Rat)

/-- What START adds for an item with MARK (R200). -/
def Chip.markCheck (s : Chip) (x : Item) : Status :=
  match s.jobOf x.mjob with
  | none => St.badArg
  | some j =>
    if (j.st != .ready && j.st != .bound) || x.bands != j.nband || j.npx != s.get (Fld.MER_NPX_N 2) ||
        (!s.on Fld.MRK_CTL_XP && j.wlpi != s.get Fld.MRK_BWLPI_L) || j.bands.any (fun b => !s.bandFits x j b) then St.badArg
    else if j.st = .bound then St.busy
    else St.ok

/-- The job of an item that is in use for it. -/
def Chip.boundJob (s : Chip) (id : Nat) : Option Nat := s.jobAt fun j => j.st == .bound && j.item == id

/-- START accepted: its job is BOUND (R200). -/
def Chip.bindJob (s : Chip) (x : Item) : Chip :=
  if x.mark then
    match s.jobAt fun j => j.st == .ready && j.handle == x.mjob with
    | some i => s.setJob i { s.job i with st := .bound, item := x.id, client := x.client.toNat, fetch := 0 }
    | none => s
  else s

/-- The item's report is issued: READY again with KEEP, else freed (R200); its write trigger is done with. -/
def Chip.unbindJob (s : Chip) (id : Nat) : Chip :=
  let s := s.retireWt id
  match s.boundJob id with
  | some i => if (s.job i).keep then s.setJob i { s.job i with st := .ready, item := 0, client := 0 } else s.setJob i freeJob
  | none => s

/-! ### The basic level (R218) -/

/-- HVSn at basic level (R218). -/
def Chip.hvsOf (s : Chip) (n : Nat) : Nat := min 4095 (rdiv (s.get (Fld.MRK_BHV_V n) * 1000000) (s.get (Fld.MRK_BHS_S n) * 4884))

/-- The raw fields of MRK that follow their BPB alone. An HVSn at or above 0.98 × CEILn is refused: IST.CFGERR, and the old value is kept. -/
def Chip.mrkDerive (s : Chip) : Chip :=
  let s := (List.range 4).foldl (fun t n =>
    if t.get (Fld.HVD_CEIL_C n) * 98 ≤ t.hvsOf n * 100 then t.set Fld.MRK_IST_CFGERR else t.put (Fld.MRK_HVS_C n) (t.hvsOf n)) s
  let s := (List.range 3).foldl (fun t n => t.put (Fld.MRK_APC_C n) (2 * t.get (Fld.MRK_BAPC_C n))) s
  ((s.put Fld.MRK_FSET_T (s.get Fld.MRK_BFUS_T)).put Fld.MRK_HFT_MS (s.get Fld.MRK_BHFT_MS)).put Fld.MRK_HSEQ_RMP
    (s.get Fld.MRK_BRMP_T)

/-- The raw fields of MRK that follow from a profile (R79, R218). -/
def Chip.mrkRaw (s : Chip) (prof : Nat) : Chip :=
  if s.on Fld.MRK_CTL_XP then s
  else
    if s.lineRateBad prof (s.get Fld.MRK_BWLPI_L) then s.set Fld.MRK_IST_CFGERR
    else
      let c (um : Nat) : Nat := (s.countsOf prof um).toNat
      let s := (s.put Fld.MRK_WPIT_P (s.wpitOf prof)).put Fld.MRK_TNP_C (c (s.get Fld.MRK_BTNP_D))
      ((s.put Fld.MRK_FNP_C (c (s.get Fld.MRK_BFNP_D))).put Fld.MRK_DWT_C (c (s.get Fld.MRK_BDWT_D))).put Fld.MRK_HSEQ_TRL (s.trlOf prof)

/-- Those of the item in line. DESIGN CHOICE (log entry 172): the profile of the first one. -/
def Chip.mrkPrepare (s : Chip) (x : Item) : Chip := if s.noneAdmitted then s.mrkRaw x.prof else s

/-! ### Positions of a write trigger (R196, R201, R204, R205) -/

/-- The write trigger of an item. -/
def Chip.wt (s : Chip) (id : Nat) : Option WriteTrig := s.mrk.wts.find? (·.item == id)

/-- Change a write trigger. -/
def Chip.updWt (s : Chip) (id : Nat) (f : WriteTrig → WriteTrig) : Chip :=
  { s with mrk := { s.mrk with wts := updFirst (·.item == id) f s.mrk.wts } }

/-- Travel of the item since Pe, in counts. -/
def Chip.travel (s : Chip) (w : WriteTrig) : Int := posDiff (s.getS (Fld.ENC_POS_P (s.get Fld.MRK_GEO_AXIS))) w.pe

/-- Counts that an item travels in `ms` milliseconds at its profile's speed, times 256,000. -/
def Chip.speedCounts (s : Chip) (p ms : Nat) : Int := (s.get (Fld.MOT_PROFB_K p) * s.get (Fld.MOT_PROFA_V p) * ms : Nat)

/-- The bands of a write trigger's job; none once its item has ended. -/
def Chip.bandsOf (s : Chip) (w : WriteTrig) : List Band :=
  match s.boundJob w.item with
  | some i => if w.ended then [] else (s.job i).bands
  | none => []

/-- Tw(b, n) − Pe in 2^-16 counts (R201). -/
def Chip.writeAt (s : Chip) (w : WriteTrig) (b : Band) (n : Nat) : Int :=
  ((s.get Fld.MRK_TNP_C : Int) - s.get Fld.MRK_DWT_C + s.countsOf w.prof b.yofs) * 65536 + (n * s.get Fld.MRK_WPIT_P : Nat)

/-- Has the item travelled to `x16` (2^-16 counts) less what it covers in `ms`? -/
def Chip.reached (s : Chip) (w : WriteTrig) (x16 : Int) (ms : Nat) : Bool :=
  decide (x16 * 256000 ≤ (s.travel w * 256000 + s.speedCounts w.prof ms) * 65536)

/-- The item's length in counts: the measured one, or LEN + BSZT until then (R196). -/
def WriteTrig.length (w : WriteTrig) : Int :=
  match w.pt with
  | some p => posDiff p w.pe
  | none => w.len

/-- Travel at which the item's trailing edge leaves the fuser nip. -/
def Chip.nipExit (s : Chip) (w : WriteTrig) : Int := s.get Fld.MRK_FNP_C + w.length

/-- The lead of the ramp-up before Tw(b, 0) in ms (R204). -/
def Chip.rampLead (s : Chip) : Nat := 3 * s.get Fld.MRK_HSEQ_RMP + 5

/-- Does a band of some admitted item begin its ramp-up within 4 × RMP, or is one under way (R206)? -/
def Chip.rampSoon (s : Chip) : Bool :=
  s.mrk.wts.any fun w => match (s.bandsOf w)[w.band]? with
    | some b => w.ramped || s.reached w (s.writeAt w b 0) (s.rampLead + 4 * s.get Fld.MRK_HSEQ_RMP)
    | none => false

/-! ### HV sequence (R203–R206) -/

/-- Start the ramp of the first of CHG, DEVDC, DEVAC that is not at its target; with all there, HVRDY (R204). -/
def Chip.hvNext (s : Chip) : Chip :=
  match [0, 1, 2].find? (fun n => s.hv n != .settled) with
  | some n => if s.hv n = .ramp then s else (s.startHv n .ramp (s.hvLevel n)).helCmd (7 + n) Mode.run
  | none => s.set Fld.MRK_STA_HVRDY

/-- A marking band starts (R73), which applies what waits for it; a channel already up whose target that changed is ramped to the new one
(R219). DEDUCED (log entries 161 and 194): the band starts with its ramp-up, and HVSn applies there. -/
def Chip.bandBoundary (h : Hooks) (s : Chip) : Chip :=
  let old (n : Nat) : Nat := s.hvTarget n
  [0, 1, 2].foldl (fun t n =>
    if t.hv n = .settled && t.hvTarget n ≠ old n then (t.startHv n .stale (old n * 65536)).clr Fld.MRK_STA_HVRDY else t)
    (s.boundary h (bndBit .band) (fun _ => true))

/-- A band's ramp-up begins (R204). -/
def Chip.rampUp (h : Hooks) (s : Chip) : Chip := ((s.bandBoundary h).put Fld.MRK_BST_PH 1).hvNext

/-- Has the ramp of an HV channel lasted RMP, and is its feedback within ±2 % of its target (R204)? -/
def Chip.hvSettled (s : Chip) (n : Nat) : Bool :=
  let y := s.get (Fld.HVD_HVF_C n)
  let t := s.hvTarget n
  100 * s.get Fld.MRK_HSEQ_RMP ≤ (s.mrk.hvAge[n]?).getD 0 && decide (((y - t) + (t - y)) * 50 ≤ t)

/-- Every band of the item has been transferred, and nothing else keeps HV up: DEVAC, DEVDC, CHG ramp down (R206). -/
def Chip.hvRelease (s : Chip) : Chip := if s.rampSoon then s else s.hvDown

/-- HV_CHANNEL_SETTLED: a ramp of channel `n` has ended (R204, R206). -/
def Chip.hvChannel (s : Chip) (n : Nat) : Chip :=
  match s.hv n with
  | .ramp =>
    if s.hvSettled n then
      let s := s.setHv n .settled
      if n = 3 then s else s.hvNext
    else s
  | .down =>
    let s := (s.setHv n .off).helCmd (7 + n) Mode.off
    if n = 3 then (s.clr Fld.MRK_STA_TRNON).hvRelease else s.hvDown
  | _ => s

/-! ### Write lines (R201, R202) -/

/-- A mark gap (R202): the line stays dark, and the item fails. `sub` 0: the store did not deliver; 1 otherwise. -/
def Chip.markGap (s : Chip) (w : WriteTrig) (band line sub : Nat) : Chip :=
  ((s.bump Fld.MRK_UNDR_N).set Fld.MRK_IST_WUNDR).raise (report 0x0503 band sub line w.item)

/-- Line `n` of the present band is reached at time `now`: pending, or a mark gap (R201, R202). Line 0 without HVRDY fires
nothing (R204). -/
def Chip.reachWrite (s : Chip) (id now : Nat) : Chip :=
  match s.wt id with
  | none => s
  | some w =>
    let idx := w.band * 4096 + w.line
    let nl := (((s.bandsOf w)[w.band]?).map (·.nline)).getD 0
    let s := s.updWt id fun w => if w.line + 1 < nl then { w with line := w.line + 1 }
      else { w with line := 0, band := w.band + 1, ramped := w.line = 0 && !s.on Fld.MRK_STA_HVRDY }
    let s := (s.put Fld.MRK_BST_BAND (idx / 4096)).put Fld.MRK_BST_LINE (idx % 4096 + 1)
    if w.line = 0 && !s.on Fld.MRK_STA_HVRDY then s.raise (report 0x0504 w.band 0 0 id)
    else if !s.on Fld.MER_STA_LOCK || 2 ≤ w.pend.length then s.markGap w (idx / 4096) (idx % 4096) 1
    else s.updWt id fun w => { w with pend := w.pend ++ [{ idx := idx, t := now }] }

/-- How many lines of the present band the item has reached and not yet taken note of. -/
def Chip.linesDue (s : Chip) (w : WriteTrig) : Nat :=
  match (s.bandsOf w)[w.band]? with
  | none => 0
  | some b =>
    let d := s.travel w * 65536 - s.writeAt w b 0
    let pit := s.get Fld.MRK_WPIT_P
    if d < 0 then 0
    else (if pit = 0 then b.nline else min b.nline (d.toNat / pit + 1)) - w.line

/-- One step of a write trigger's lines: the band's ramp-up, then the lines that are due; bands follow one another. -/
def Chip.writeLines (h : Hooks) (s : Chip) (id now : Nat) : Nat → Chip
  | 0 => s
  | fuel + 1 =>
    match s.wt id with
    | none => s
    | some w =>
      match (s.bandsOf w)[w.band]? with
      | none => s
      | some b =>
        let ramp := !w.ramped && s.reached w (s.writeAt w b 0) s.rampLead && (s.engine = Eng.run || s.engine = Eng.drain)
        let s := if ramp then (s.updWt id fun w => { w with ramped := true }).rampUp h else s
        let due := s.linesDue w
        if due = 0 then s
        else ((List.range due).foldl (fun t _ => t.reachWrite id now) s).writeLines h id now fuel

/-- Transfer windows of an item (R205, R206, R217): the ramp RMP before, TRN on, and the end of the window. -/
def Chip.transfer (s : Chip) (id : Nat) : Nat → Chip
  | 0 => s
  | fuel + 1 =>
    match s.wt id with
    | none => s
    | some w =>
      match (s.bandsOf w)[w.tband]? with
      | none => s
      | some b =>
        let nip := s.writeAt w b 0 + (s.get Fld.MRK_DWT_C : Nat) * 65536
        let trl : Int := (s.get Fld.MRK_HSEQ_TRL : Nat) * 65536
        -- TRN is never on once the trailing edge has passed the nip: that cuts the window short (R205)
        let whole := s.writeAt w b b.nline + (s.get Fld.MRK_DWT_C : Nat) * 65536 + trl
        let edge := ((s.get Fld.MRK_TNP_C : Nat) + w.length) * 65536
        let stop := min whole edge
        let s := if !w.trn && s.reached w (nip - trl) (s.get Fld.MRK_HSEQ_RMP) then
            let t := s.updWt id fun w => { w with trn := true }
            if t.hv 3 = .settled then t else (t.startHv 3 .ramp (t.hvLevel 3)).helCmd 10 Mode.run
          else s
        let s := if s.reached w (max (nip - trl) ((s.get Fld.MRK_TNP_C : Nat) * 65536)) 0 && s.hv 3 != .off then s.set Fld.MRK_STA_TRNON else s
        let s := if s.reached w nip 0 && s.get Fld.MRK_BST_PH = 2 then s.put Fld.MRK_BST_PH 3 else s
        if s.reached w stop 0 then
          let all := w.tband + 1 = (s.bandsOf w).length
          let done := decide (w.tband < w.emitted) && decide (whole ≤ edge)
          let s := s.updWt id fun w => { w with tband := w.tband + 1, trn := false }
          let s := if done then s.updItem id fun x => { x with bndm := x.bndm + 1, marked := all && x.bndm + 1 == w.tband + 1 } else s
          -- a later window that has begun, of this item or the next, keeps TRN at its target
          let next := match (s.bandsOf w)[w.tband + 1]? with
            | some c => s.reached w (s.writeAt w c 0 + (s.get Fld.MRK_DWT_C : Nat) * 65536 - trl) (s.get Fld.MRK_HSEQ_RMP)
            | none => false
          let other := s.mrk.wts.any fun v => v.item != id && v.trn
          let s := if next || other then s else s.startHv 3 .down (s.hvLevel 3)
          s.transfer id fuel
        else s

/-- The nips of an item (R196, R216): entry, highest position, MARK_REVERSE, exit. -/
def Chip.nipWatch (s : Chip) (id : Nat) : Chip :=
  match s.wt id with
  | none => s
  | some w =>
    let d := s.travel w
    let tnp : Int := s.get Fld.MRK_TNP_C
    let inNip := (w.inNip || decide (tnp ≤ d)) && decide (d < s.nipExit w)
    let top := if w.inNip then max w.nipMax d else d
    let back := top - d
    let rev := w.inNip && !w.reversed && !w.ended && decide ((s.get Fld.MRK_GEO_RVC : Int) ≤ back)
    let s := (s.updWt id fun w => { w with inNip := inNip, nipMax := top, reversed := w.reversed || rev }).syncNip
    let s := if w.ended && decide (s.nipExit w ≤ d) then { s with mrk := { s.mrk with wts := s.mrk.wts.filter (·.item != id) } } else s
    if rev then (s.set Fld.MRK_IST_MREV).raise (report 0x0501 0 0 back.toNat id) else s

/-- One write trigger takes note of a new position at time `now`. -/
def Chip.markCount1 (h : Hooks) (s : Chip) (now id : Nat) : Chip := ((s.nipWatch id).writeLines h id now 65).transfer id 65

/-- Every write trigger whose axis this is takes note of a new position. -/
def Chip.markCount (h : Hooks) (s : Chip) (now : Nat) : Chip := (s.mrk.wts.map (·.item)).foldl (fun t id => t.markCount1 h now id) s

/-- The leading edge of an item is reported at Pe: its way through the nips is followed from there (R196), and with a mark its write trigger arms
(R201). -/
def Chip.markArm (s : Chip) (id : Nat) (pe : Int) : Chip :=
  match s.item id with
  | none => s
  | some x =>
    if !x.settled && s.on Fld.MRK_CTL_EN && (s.wt id).isNone then
      let w : WriteTrig := { item := id, prof := x.prof, pe := pe, pt := none, band := 0, line := 0, pend := [], fired := none,
                             dark := false, ramped := false, tband := 0, trn := false, emitted := 0, inNip := false,
                             nipMax := 0, reversed := false, len := s.countsOf x.prof (s.resLen x), ended := false }
      { s with mrk := { s.mrk with wts := s.mrk.wts ++ [w] } }
    else s

/-- The trailing edge of an item is reported at Pt: its length is measured (R196). -/
def Chip.markTrail (s : Chip) (id : Nat) (pt : Int) : Chip := s.updWt id fun w => { w with pt := some pt }

/-- A BD at time `t` (R201): the oldest pending write line fires if it became pending at least 1 µs earlier. -/
def Chip.markBd (s : Chip) (t : Nat) : Chip :=
  match s.mrk.wts.find? (fun w => match w.pend with
      | p :: _ => decide (p.t + 1600 ≤ t)
      | [] => false) with
  | none => s
  | some w =>
    if !s.on Fld.MER_STA_LOCK || s.fab.up.pfail || s.mrk.wts.any (fun x => x.fired.isSome) then s
    else
      let idx := (w.pend.map (·.idx)).headD 0
      let s := s.updWt w.item fun w => { w with pend := w.pend.tail, fired := some idx, dark := false }
      let s := (s.set Fld.MRK_STA_BUSY).put Fld.MRK_BST_PH 2
      let s := if idx = 0 then s.reachPhase w.item 4 else s
      s.armGate 2

/-- Lock is lost: write lines that have fired and are not being swept, and pending ones, are mark gaps (R202). -/
def Chip.markUnlock (s : Chip) : Chip :=
  let waits (w : WriteTrig) : List Nat := (if (s.stn 2).sweeping then [] else w.fired.toList) ++ w.pend.map (·.idx)
  let s2 := { s.stn 2 with armed := false }
  s.mrk.wts.foldl (fun t w => (waits w).foldl (fun u k => u.markGap w (k / 4096) (k % 4096) 1)
    (t.updWt w.item fun w => { w with pend := [], fired := if s2.sweeping then w.fired else none })) (s.setStn 2 s2)

/-- The address of a write line of a trigger's job (R199). -/
def Chip.lineAddr (s : Chip) (w : WriteTrig) (idx : Nat) : Nat :=
  match s.boundJob w.item, (s.bandsOf w)[idx / 4096]? with
  | some i, some b => b.addr + (idx % 4096) * lineBytes (s.job i).npx
  | _, _ => 0

/-- A line of the write beam that stays dark (R202). -/
def Chip.darkLine (s : Chip) (w : WriteTrig) (idx sub : Nat) : Chip :=
  (s.updWt w.item fun w => { w with dark := true }).markGap w (idx / 4096) (idx % 4096) sub

/-- The S2 sweep of a line that has fired starts (R202): without its data in the FIFO, or with an error in it (R332), it stays dark and the store
has not delivered; one that a source held off keeps dark fails with FEEDBACK. -/
def Chip.markSweepStart (s : Chip) : Chip :=
  match s.mrk.wts.find? (fun w => w.fired.isSome) with
  | none => s
  | some w =>
    let idx := w.fired.getD 0
    let a := s.lineAddr w idx
    let n := lineBytes (s.get (Fld.MER_NPX_N 2))
    if (s.ring 3).ents.head?.any (fun e => e.val.toNat = a) then
      match s.popRing 3 .mrk with
      | (.entry _, t) =>
        if t.storeBad a n then (t.countErrors a n).darkLine w idx 0
        else if (t.stn 2).inval then t.darkLine w idx 1
        else t
      | (_, t) => t.darkLine w idx 0
    else s.darkLine w idx 0

/-- Is the first quarter of pixel 0 of the line that S2 sweeps lit (R163, R167)? -/
def Chip.firstLit (s : Chip) : Bool :=
  match s.mrk.wts.find? (fun w => w.fired.isSome) with
  | none => false
  | some w =>
    let (q, n) := litQuarters (s.byte (s.lineAddr w (w.fired.getD 0))).toNat
    !w.dark && q = 0 && n ≠ 0

/-- Does a write line hold a reserved LVL (R167)? -/
def reservedLvl (bs : List Byte) : Bool := bs.any fun b => 4 < b.toNat % 8 || 4 < b.toNat / 16 % 8

/-- The S2 sweep has ended (R202, R167, R217): the line was emitted in full, unless it was kept dark or its sweep is invalid. -/
def Chip.markSweepEnd (s : Chip) : Chip :=
  match s.mrk.wts.find? (fun w => w.fired.isSome) with
  | none => s
  | some w =>
    let idx := w.fired.getD 0
    let nl := (((s.bandsOf w)[idx / 4096]?).map (·.nline)).getD 0
    let npx := s.get (Fld.MER_NPX_N 2)
    let data := (s.bytes (s.lineAddr w idx) ((npx + 1) / 2))
    let s := s.updWt w.item fun w => { w with fired := none, dark := false }
    let s := if !w.dark && reservedLvl data then s.set Fld.MER_IST_WCODE else s
    if w.dark then s
    else if (s.stn 2).inval then s.markGap w (idx / 4096) (idx % 4096) 1
    else
      let s := s.updItem w.item fun x => { x with pmark := true }
      if idx % 4096 + 1 = nl then
        (((s.updWt w.item fun w => { w with emitted := w.emitted + 1 }).set Fld.MRK_IST_BDONE).event Ev.bdone).nvsCount 5
      else s

/-- The address of line `idx` of a job (R199). -/
def Job.lineAddr (j : Job) (idx : Nat) : Nat :=
  match j.bands[idx / 4096]? with
  | some b => b.addr + (idx % 4096) * lineBytes j.npx
  | none => 0

/-- BAND_FETCH: line addresses of a job are pushed until 16 lines are ahead of the write trigger (R202). -/
def Chip.bandFetch1 (s : Chip) (i : Nat) : Nat → Chip
  | 0 => s
  | fuel + 1 =>
    let j := s.job i
    match j.bands[j.fetch / 4096]? with
    | none => s
    | some b =>
      if b.nline ≤ j.fetch % 4096 then
        (s.setJob i { j with fetch := (j.fetch / 4096 + 1) * 4096 }).bandFetch1 i fuel
      else if 16 ≤ (s.ring 3).ents.length then s
      else match s.push 3 .mrk { val := BitVec.ofNat 32 (j.lineAddr j.fetch), item := j.item } with
        | (.stored, t) => (t.setJob i { t.job i with fetch := j.fetch + 1 }).bandFetch1 i fuel
        | (_, t) => t

/-- The jobs of admitted items in their order: lines are fetched from admission on, also before the leading edge is reported. -/
def Chip.fetchJobs (s : Chip) : List Nat :=
  (s.doc.items.filter fun x => x.admitted && !x.settled).filterMap fun x => s.boundJob x.id

/-- Band fetch for the oldest admitted item that has lines left. -/
def Chip.bandFetch (s : Chip) : Chip :=
  match s.fetchJobs.find? (fun i => decide ((s.job i).fetch / 4096 < (s.job i).bands.length)) with
  | some i => s.bandFetch1 i 40
  | none => s

/-- A fall of lock reaches the line triggers and the write triggers (R181, R202). -/
def Chip.lockFell (before s : Chip) : Chip :=
  if before.on Fld.MER_STA_LOCK && !s.on Fld.MER_STA_LOCK then (s.imgUnlock).markUnlock else s

/-- Meridian stops once no sweep is left (R573), and with it what waits for lines (R181, R202). -/
def Chip.merHalt (s : Chip) : Chip := Chip.lockFell s s.merStop

/-! ### Watches (R203, R208, R209, R211) -/

/-- HV_OV: channel `n` has stood at or above its ceiling for 20 µs (R203). -/
def Chip.hvOver (s : Chip) (n : Nat) : Chip :=
  let y := s.get (Fld.HVD_HVF_C n)
  if s.get (Fld.HVD_CEIL_C n) ≤ y && bitsOf (s.get Fld.HVD_STA_ON) n 1 = 1 then
    let s := s.set ⟨Reg.HVD_IST, 8 + n, 1⟩
    let s := s.put Fld.HVD_STA_ON (s.get Fld.HVD_STA_ON - 2 ^ n)
    (s.helCmd (7 + n) Mode.off).raiseP (report 0x0505 n 0 y)
  else s

/-- FUSER_CUT (R208): HTG low, CUT, the fault with its cause (0 TCUT, 1 TH1 open or short, 2 TH0 open or short) and TH1. -/
def Chip.fuserCut (s : Chip) (cause : Nat) : Chip :=
  let s := ((s.set Fld.FUS_STA_CUT).set Fld.FUS_IST_CUT).clr Fld.FUS_STA_HTON
  let s := if cause = 0 then s else s.set Fld.FUS_IST_SENS
  s.raiseP (report 0x0206 0 cause (s.get (Fld.FUS_TH_T 1)))

/-- TH_DISAG (R209): TH0 and TH1 have differed by more than TDIF for 1 s with the heater on. -/
def Chip.thDisag (s : Chip) : Chip :=
  let a : Int := s.get (Fld.FUS_TH_T 0)
  let b : Int := s.get (Fld.FUS_TH_T 1)
  let d := (a - b).natAbs
  if s.on Fld.FUS_STA_HTON && 10 * s.get Fld.FUS_TDIF_T < d then (s.set Fld.FUS_IST_DISAG).raiseP (report 0x0506 0 0 d) else s

/-- Is an item with MARK between fuser nip entry of its leading edge and exit of its trailing edge (R211)? -/
def Chip.inFuser (s : Chip) (w : WriteTrig) : Bool :=
  decide ((s.get Fld.MRK_FNP_C : Int) ≤ s.travel w) && decide (s.travel w < s.nipExit w)

/-- HEAT (R211): TH0 has been below TSET − BLO for BHFT with a MARK item in the fuser nip. -/
def Chip.heatFail (s : Chip) : Chip :=
  let th0 : Int := s.get (Fld.FUS_TH_T 0)
  if th0 < (s.tset : Int) - 5 * s.get Fld.LGR_HEAT_BLO then
    (s.mrk.wts.filter fun w => !w.ended && (s.item w.item).any Item.mark && s.inFuser w).foldl (fun t w =>
      let left := decide (w.tband < (t.bandsOf w).length)
      let u := (t.set Fld.MRK_IST_HEAT).raise (report 0x0502 0 0 (codeOf th0 32) w.item)
      -- with a band that has not finished transfer the abort-mark sequence runs, whether or not a ramp-up has begun
      if left && !u.on Fld.MRK_STA_ABRT then u.abortMark else u) s
  else s

end Sys2Proof.Machine
end

