-- ==== Sys2Proof/Machine/Motion.lean ====
section
/-!
DEFINITION. Motion and transport (chapter 8): feed (R229), the window checker (R230, R231), carriage handling (R232), the empty path
(R233), encoders (R234, R236), bridges, polygon and solenoids (R235–R239), stall (R241) and adaptive thresholds (R228).
-/
namespace Sys2Proof.Machine

/-! ### Profiles (R222, R223, R243) -/

/-- Does profile `p` suit an item that is on a carriage or not (R223)? -/
def Chip.profileFits (s : Chip) (p : Nat) (carriage : Bool) : Bool :=
  let v := s.get (Fld.MOT_PROFA_V p)
  v != 0 && (s.get (Fld.MOT_PROFB_CARR p) == 1) == carriage && v * s.get (Fld.MOT_PROFB_K p) ≤ 4000000 * 256

/-- The check of R223 on a START's profile. -/
def Chip.profileOk (s : Chip) (x : Item) : Bool := s.profileFits x.prof x.carriage

/-- Axis of a profile: 0 A, 1 B. -/
def Chip.profAxis (s : Chip) (p : Nat) : Nat := s.get (Fld.MOT_PROFB_AXIS p) % 2

/-- Does a set profile drive axis `a` as a carriage? -/
def Chip.isCarriageAxis (s : Chip) (a : Nat) : Bool :=
  (List.range 16).any fun p => s.get (Fld.MOT_PROFA_V p) != 0 && s.get (Fld.MOT_PROFB_CARR p) == 1 && s.profAxis p == a

/-- The handling modes of DOC.BCFG.MODE: feeder 0, flatbed 1, combined 2. -/
def Chip.hasFeeder (s : Chip) : Bool := s.get Fld.DOC_BCFG_MODE != 1
def Chip.hasFlatbed (s : Chip) : Bool := s.get Fld.DOC_BCFG_MODE != 0

/-- The first required sensor role that no input holds (R227). -/
def Chip.missingRole (s : Chip) : Option Nat :=
  let need := (if s.hasFeeder then [Role.pickx, Role.read, Role.exit] else []) ++ (if s.hasFlatbed then [Role.home] else [])
  need.find? fun r => (s.roleInput r).isNone

/-- Has every carriage axis seen HOME since it last moved (R233, condition HOMED)? -/
def Chip.homed (s : Chip) : Bool := [0, 1].all fun a => !s.isCarriageAxis a || (s.axis a).homeSeen

/-- Is the path empty (R233)? -/
def Chip.pathEmpty (s : Chip) : Bool :=
  [Role.pickx, Role.read, Role.mid, Role.exit].all (fun r => !s.covered r) && s.homed

/-! ### Feed (R229, R232) -/

/-- The track of an item. -/
def Chip.track (s : Chip) (id : Nat) : Option Track := s.mot.tracks.find? (·.item == id)

/-- Change a track. -/
def Chip.updTrack (s : Chip) (id : Nat) (f : Track → Track) : Chip :=
  { s with mot := { s.mot with tracks := updFirst (·.item == id) f s.mot.tracks } }

/-- The speed of a profile in counts per second (R223). -/
def Chip.countsPerS (s : Chip) (p : Nat) : Nat := s.get (Fld.MOT_PROFA_V p) * s.get (Fld.MOT_PROFB_K p) / 256

/-- The values of a profile as the raw axis and stall registers hold them (R243). -/
def Chip.profRaw (s : Chip) (p : Nat) : AxRaw :=
  { v := s.countsPerS p, vret := s.get (Fld.MOT_PROFA_VRET p) * s.get (Fld.MOT_PROFB_K p) / 256
    acc := 10 * s.get (Fld.MOT_PROFF_ACC p) * s.get (Fld.MOT_PROFB_K p) / 256, stallt := s.get (Fld.MOT_PROFE_STALLT p) }

/-- An item is admitted with start bin `t0`: the window checker holds its windows (R230). A start bin that its commit has overtaken is the next one.
Its profile is copied (R243); one that meanwhile breaks R223 is refused with IST.CFGERR, and the axis keeps its old values. -/
def Chip.addTrack (s : Chip) (x : Item) (t0 : Nat) : Chip :=
  let fits := s.on Fld.MOT_CTL_XP || s.profileFits x.prof x.carriage
  let t : Track := { item := x.id, prof := x.prof, feeder := !x.carriage, age := -(max t0 1 : Nat), len := s.resLen x, pick := none,
                     lead := [], trail := [], overStay := false, wide := false
                     raw := if fits then s.profRaw x.prof else (s.axis (s.profAxis x.prof)).raw
                     far := s.countsOf x.prof (s.get (Fld.MOT_PROFE_CSTART x.prof) * 10) + s.countsOf x.prof (s.resLen x), ret := false }
  let s := { s with mot := { s.mot with tracks := s.mot.tracks ++ [t] } }
  if fits then s else s.set Fld.MOT_IST_CFGERR

/-- An axis is commanded to run at a signed speed in counts per second, which it reaches at ACC (MOT.CMn, R229, R248). With the movement that starts
so it has yet to see its HOME edge (R233). -/
def Chip.runAxis (s : Chip) (a : Nat) (speed : Int) (raw : AxRaw) : Chip :=
  let now := s.getS (Fld.MOT_CM_SPD a)
  let x := { s.axis a with raw := raw, goal := speed, start := now, age := 0, homeSeen := false }
  ((((s.setAxis a x).helCmd (1 + a) Mode.run).putS (Fld.MOT_CM_SPD a) x.rampSpeed).put (Fld.MOT_CM_MODE a) 1).clr Fld.MOT_STA_HALTBRK

/-- t0 of an item (R229, R232): solenoids of PSOL engaged, its axis accelerated to V; a carriage item enters FED there, and its
triggers arm at the carriage position (R180). -/
def Chip.feedStart (s : Chip) (t : Track) : Chip :=
  let a := s.profAxis t.prof
  let m := s.mot.solCmd ||| s.get (Fld.MOT_PROFC_PSOL t.prof)
  let s := ({ s with mot := { s.mot with solCmd := m, stopped := false } }).runAxis a t.raw.v t.raw
  if t.feeder then s else (s.reachPhase t.item 3).imgArm t.item (s.getS (Fld.ENC_POS_P a))

/-- An item has left the path: its track goes, and an axis that no other item has been started on stops (R229). -/
def Chip.dropTrack (s : Chip) (id : Nat) : Chip :=
  match s.track id with
  | none => s
  | some t =>
    let a := s.profAxis t.prof
    let rest := s.mot.tracks.filter (·.item != id)
    let s := { s with mot := { s.mot with tracks := rest } }
    if rest.any fun u => s.profAxis u.prof == a && decide (0 ≤ u.age) then s else s.stopAxis a

/-! ### Windows (R230) -/

/-- The edge noted for a role. -/
def edgeAt (l : List (Nat × Int)) (role : Nat) : Option Int := (l.find? (·.1 == role)).map (·.2)

/-- JWIN and JLMAX in counts. -/
def Chip.jwin (s : Chip) (p : Nat) : Int := s.countsOf p (s.get (Fld.MOT_PROFD_JWIN p))
def Chip.jlmax (s : Chip) (p : Nat) : Int := s.countsOf p (s.get (Fld.MOT_PROFD_JLMAX p) * 100)

/-- Position at which the leading edge is expected at a sensor role (R230). -/
def Chip.expectAt (s : Chip) (t : Track) (pp : Int) (role : Nat) : Int :=
  pp + s.countsOf t.prof (s.roleX role - s.roleX Role.pickx)

/-- A position window: lower bound (none: open below) and upper bound. -/
structure Window where
  lo : Option Int
  hi : Int
  deriving DecidableEq, Repr

/-- The window of a leading edge at READ, MID or EXIT, if it is open for an edge. -/
def Chip.leadWin (s : Chip) (t : Track) (role : Nat) : Option Window :=
  match t.pick, edgeAt t.lead role with
  | some pp, none =>
    let c := s.expectAt t pp role
    some { lo := some (c - s.jwin t.prof), hi := c + s.jwin t.prof }
  | _, _ => none

/-- The window of a trailing edge (R230, R231). -/
def Chip.trailWin (s : Chip) (t : Track) (role : Nat) : Option Window :=
  match (if role = Role.pickx then t.pick else edgeAt t.lead role), edgeAt t.trail role with
  | some l, none =>
    if role = Role.pickx || role = Role.read || t.wide then some { lo := none, hi := l + s.jlmax t.prof }
    else match edgeAt t.lead Role.read, edgeAt t.trail Role.read with
      | some pe, some pt =>
        let c := l + posDiff pt pe
        some { lo := some (c - s.jwin t.prof), hi := c + s.jwin t.prof }
      | _, _ => none
  | _, _ => none

/-- Does a position fall in a window? -/
def Window.has (w : Window) (pos : Int) : Bool :=
  decide (posDiff pos w.hi ≤ 0) && (match w.lo with
    | some l => decide (0 ≤ posDiff pos l)
    | none => true)

/-- Is the PICKX leading window of a track open (R230)? -/
def Chip.pickOpen (s : Chip) (t : Track) : Bool :=
  let tp : Int := s.get (Fld.MOT_PROFC_TPICK t.prof)
  t.feeder && t.pick.isNone && decide (tp - s.get (Fld.MOT_PROFC_PKW t.prof) ≤ t.age) && decide (t.age ≤ tp)

/-- Does an edge at a role fall in an open window of a track? -/
def Chip.edgeFits (s : Chip) (t : Track) (role : Nat) (cov : Bool) (pos : Int) : Bool :=
  t.feeder &&
  (if cov && role = Role.pickx then s.pickOpen t
   else match (if cov then s.leadWin t role else s.trailWin t role) with
    | some w => w.has pos
    | none => false)

/-- Is the window checker at work (R244)? -/
def Chip.checking (s : Chip) : Bool :=
  !(s.engine == Eng.halt || s.engine == Eng.fault || s.engine == Eng.off || s.engine == Eng.service)

/-- A jam (R230, R240): the Orrery sees it, and the ITEM-class fault starts the jam stop. -/
def Chip.jam (s : Chip) (missing : Bool) (sensor role : Nat) (pos : Int) (item : Nat) : Chip :=
  (s.event Ev.jam).raise (report (if missing then 0x0301 else 0x0302) sensor role (codeOf pos 32) item)

/-- Is an item admitted and not yet reported? -/
def Chip.isAdmitted (s : Chip) (id : Nat) : Bool :=
  match s.item id with
  | some x => x.admitted
  | none => false

/-- An item passes a sensor (R240); passages of items that have been reported are forgotten. -/
def Chip.notePass (s : Chip) (role id : Nat) : Chip :=
  { s with mot := { s.mot with passed := (role, id) :: s.mot.passed.filter fun x => s.isAdmitted x.2 } }

/-- The admitted item that most recently passed a sensor, or none (R240). -/
def Chip.lastPast (s : Chip) (role : Nat) : Nat :=
  match s.mot.passed.find? fun x => x.1 == role && s.isAdmitted x.2 with
  | some x => x.2
  | none => 0

/-! ### Sensor edges (R226–R232) -/

/-- SIZE (R109, R231): raised once per item, with the length in 0.1 mm. -/
def Chip.sizeFail (s : Chip) (id mm10 : Nat) : Chip :=
  match s.track id with
  | none => s
  | some t =>
    if t.overStay then s
    else ((s.updTrack id fun t => { t with overStay := true }).set Fld.MOT_IST_SIZE).raise (report 0x0305 0 0 mm10 id)

/-- The trailing edge at READ: measured length (R231), last index, SIZE (R109). -/
def Chip.readTrail (s : Chip) (t : Track) (pos : Int) : Chip :=
  let pe := (edgeAt t.lead Role.read).getD pos
  let k := s.get (Fld.MOT_PROFB_K t.prof)
  let mlen := (roundHalfUp (frac (posDiff pos pe * 2560) k)).toNat
  let s := (s.updItem t.item fun x => { x with mlen := mlen }).imgTrail t.item pos
  let s := s.markTrail t.item pos
  if t.len < mlen * 100 then s.sizeFail t.item mlen else s

/-- The bring-up monitor (R538): the times from t0, in 0.1 ms, of an item's leading edge at PICKX and at READ. -/
def Chip.pickMonitor (s : Chip) (role ms10 : Nat) : Chip :=
  if role = Role.pickx then
    ((s.put Fld.DBG_PKT_TPK ms10).put Fld.DBG_PKR_MAX (max ms10 (s.get Fld.DBG_PKR_MAX))).put Fld.DBG_PKR_MIN
      (min ms10 (s.get Fld.DBG_PKR_MIN))
  else if role = Role.read then s.put Fld.DBG_PKT_TRD ms10
  else s

/-- A qualified edge in its window (R229–R232). -/
def Chip.goodEdge (s : Chip) (t : Track) (role : Nat) (cov : Bool) (pos : Int) (ms10 : Nat) : Chip :=
  let id := t.item
  let s := if cov && t.feeder then (s.pickMonitor role ms10).notePass role id else s
  if cov then
    if role = Role.pickx then ((s.updTrack id fun t => { t with pick := some pos }).reachPhase id 3).nvsCount 6
    else
      let s := s.updTrack id fun t => { t with lead := t.lead ++ [(role, pos)] }
      if role = Role.read then ((s.solOff (s.get (Fld.MOT_PROFC_PSOL t.prof))).imgArm id pos).markArm id pos else s
  else
    let s := s.updTrack id fun t => { t with trail := t.trail ++ [(role, pos)] }
    if role = Role.read then s.readTrail t pos
    else if role = Role.exit then
      let s := s.reachPhase id 5
      (s.dropTrack id).tryDone id
    else s

/-- A HOME edge (R232): homing in WAKING; the end of a carriage item's return; anywhere else in its scan a jam. -/
def Chip.homeEdge (s : Chip) (n : Nat) (cov : Bool) (pos : Int) : Chip :=
  if !cov then s
  else
    let axes := [0, 1].filter s.isCarriageAxis
    let seen (s : Chip) : Chip := axes.foldl (fun t a => t.setAxis a { t.axis a with homeSeen := true }) s
    if s.engine = Eng.waking then
      axes.foldl (fun t a => (t.put (Fld.ENC_POS_P a) 0).stopAxis a) (seen s)
    else match s.mot.tracks.find? (fun t => !t.feeder && decide (0 ≤ t.age)) with
      | none => seen s
      | some t =>
        if !s.checking then seen s
        else if t.ret && decide ((posDiff pos 0).natAbs ≤ (s.jwin t.prof).toNat) then
          let s := (seen s).reachPhase t.item 5
          (s.dropTrack t.item).tryDone t.item
        else (seen s).jam false n Role.home pos t.item

/-- The adaptive threshold of a sensor after an item has passed (R228). -/
def Chip.adapt (s : Chip) (n : Nat) : Chip :=
  let raw := (s.get (Fld.SNS_MON_LO n) + s.get (Fld.SNS_MON_LC n)) / 2 / 4
  let lo := s.get (Fld.SNS_SCFG_THLO n)
  let hi := s.get (Fld.SNS_SCFG_THHI n)
  let v := if raw < lo then lo else if hi < raw then hi else raw
  let out := decide (raw < lo) || decide (hi < raw)
  let run := if out then (s.mot.pinRun[n]?).getD 0 + 1 else 0
  let s := if h : n < 6 then
      { s with mot := { s.mot with snsNext := s.mot.snsNext.set n (some v) h, pinRun := s.mot.pinRun.set n run h } }
    else s
  let was := bitsOf (s.get Fld.SNS_STA_PIN) n 1 == 1
  let pin := decide (s.get Fld.SNS_ATHC_N ≤ run)
  let s := s.put ⟨Reg.SNS_STA, 8 + n, 1⟩ (if pin then 1 else 0)
  if pin && !was then (s.set Fld.SNS_IST_PIN).raisePin (0x10 + n) (if hi < raw then 1 else 0) raw else s

/-- Is a window of a leading edge open at a role now (R228, R230)? A carriage's HOME window is ±JWIN of position 0 on its return (R232). -/
def Chip.windowOpen (s : Chip) (t : Track) (role : Nat) : Bool :=
  let pos := s.getS (Fld.ENC_POS_P (s.profAxis t.prof))
  if role = Role.home then !t.feeder && t.ret && decide ((posDiff pos 0).natAbs ≤ (s.jwin t.prof).toNat)
  else if role = Role.pickx then s.pickOpen t
  else t.feeder && (s.leadWin t role).any fun w => w.has pos

/-- A threshold that waits is applied once its sensor reads open with no window open there (R228). -/
def Chip.applyThreshold (s : Chip) (n : Nat) : Chip :=
  match (s.mot.snsNext[n]?).getD none with
  | none => s
  | some v =>
    let role := s.get (Fld.SNS_SCFG_ROLE n)
    let busy := s.mot.tracks.any fun t => s.windowOpen t role
    if bitsOf (s.get Fld.SNS_LVL_COV) n 1 = 1 || busy then s
    else
      let s := s.put (Fld.SNS_SCFG_TH n) v
      if h : n < 6 then { s with mot := { s.mot with snsNext := s.mot.snsNext.set n none h } } else s

/-- What the comparator of input `n` makes of a level (10 bits): covered or open (R226). It stands 3 codes of VIO/256 wide about TH, and POL selects
the level that means covered. DESIGN CHOICE (log entry 165): the hysteresis lies half above and half below TH, and with POL = 0 the high level
means covered. -/
def Chip.comparator (s : Chip) (n v : Nat) : Bool :=
  let pol := s.on (Fld.SNS_SCFG_POL n)
  let high := (bitsOf (s.get Fld.SNS_LVL_COV) n 1 == 1) != pol
  let th := 4 * s.get (Fld.SNS_SCFG_TH n)
  (if high then decide (th < v + 6) else decide (th + 6 < v)) != pol

/-- An edge of input `n` has qualified, now covered or open, with the position latched at its raw change and the mean level since the edge before
it (R228); `ms10` is the time since the item's t0 in 0.1 ms (R538). -/
def Chip.qualified (s : Chip) (n : Nat) (cov : Bool) (pos : Int) (level ms10 : Nat) : Chip :=
  let lvl := s.get Fld.SNS_LVL_COV
  let s := s.put Fld.SNS_LVL_COV (if cov then lvl ||| 2 ^ n else lvl - (if bitsOf lvl n 1 = 1 then 2 ^ n else 0))
  let s := (s.putS (Fld.SNS_EPOS_P n) pos).set ⟨Reg.SNS_IST, 8 + n, 1⟩
  let s := if cov then s.put (Fld.SNS_MON_LO n) level else s.put (Fld.SNS_MON_LC n) level
  let role := s.get (Fld.SNS_SCFG_ROLE n)
  let s := s.event (0x36 + n)
  -- has an item's edge been seen here, so that an item passes the sensor (R228)?
  let passes := if role = Role.home then s.mot.tracks.any (fun t => !t.feeder && decide (0 ≤ t.age))
    else s.checking && s.mot.tracks.any (fun t => s.edgeFits t role cov pos)
  let s := if role = Role.home then s.homeEdge n cov pos
    else if role = Role.dfd then { s with mot := { s.mot with dfd := if cov then some pos else none } }
    else if Role.pickx ≤ role && role ≤ Role.exit && s.checking then
      match s.mot.tracks.find? (fun t => s.edgeFits t role cov pos) with
      | some t => s.goodEdge t role cov pos ms10
      | none => s.jam false n role pos (s.lastPast role)
    else s
  let adaptive := s.on (Fld.SNS_SCFG_ATH n) && [Role.pickx, Role.read, Role.mid, Role.exit, Role.home].contains role
  (if adaptive && passes && !cov then s.adapt n else s).applyThreshold n

/-- The axis whose encoder an input latches: the carriage axis for HOME, else that of the first feeder item on its way, else that of the first set
feeder profile. DESIGN CHOICE (log entry 174): R226 names no axis. -/
def Chip.inputAxis (s : Chip) (n : Nat) : Nat :=
  if s.get (Fld.SNS_SCFG_ROLE n) = Role.home then (if s.isCarriageAxis 0 then 0 else if s.isCarriageAxis 1 then 1 else 0)
  else match s.mot.tracks.find? fun t => t.feeder && decide (0 ≤ t.age) with
    | some t => s.profAxis t.prof
    | none =>
      match (List.range 16).find? fun p => s.get (Fld.MOT_PROFA_V p) != 0 && s.get (Fld.MOT_PROFB_CARR p) == 0 with
      | some p => s.profAxis p
      | none => 0

/-- The encoder position of axis `a` at time `t`: that before the first encoder edge after it, else the present one (R226). -/
def Chip.posAt (s : Chip) (a t : Nat) : Int :=
  match ((s.axis a).past.filter fun x => decide (t < x.1)).getLast? with
  | some x => x.2
  | none => s.getS (Fld.ENC_POS_P a)

/-- SENSOR_EDGE: the level of input `n` is now `v`, and has held for SNS.FLT (R226). A change of the comparator's output is a qualified edge, with
the encoder position that was latched at its raw change, at time `raw`. -/
def Chip.sensorEdge (s : Chip) (n v raw level ms10 : Nat) : Chip :=
  let cov := s.comparator n v
  let was := bitsOf (s.get Fld.SNS_LVL_COV) n 1 == 1
  let pos := s.posAt (s.inputAxis n) raw
  let s := s.put (Fld.SNS_MON_V n) v
  if cov = was then s else s.qualified n cov pos level ms10

/-- The tracks grow 1 ms older with each ledger bin; an item whose t0 has come starts (R229). A HALT or FAULT starts nothing. -/
def Chip.ageTracks (s : Chip) : Chip :=
  let s := (List.range 6).foldl (fun t n => t.applyThreshold n) s
  let s := { s with mot := { s.mot with tracks := s.mot.tracks.map fun t => { t with age := t.age + 1 } } }
  if s.engine = Eng.run || s.engine = Eng.drain then
    (s.mot.tracks.filter fun t => t.age == 0).foldl (fun u t => u.feedStart t) s
  else s

/-- EDGE_WINDOW_EXPIRY (R230): a window of an item has closed with no edge. A PICKX leading window ends the item PICK_MISS; any other
is a missing-edge jam. A carriage item's HOME edge is missing JWIN past position 0 on its return (R232). -/
def Chip.windowExpiry (s : Chip) (id role : Nat) (lead : Bool) : Chip :=
  match s.track id with
  | none => s
  | some t =>
    let n := (s.roleInput role).getD 0
    let pos := s.getS (Fld.ENC_POS_P (s.profAxis t.prof))
    let past (w : Option Window) : Bool := match w with
      | some w => decide (0 < posDiff pos w.hi)
      | none => false
    if !s.checking then s
    else if !t.feeder then
      if role = Role.home && t.ret && decide (0 < t.age) && !(s.axis (s.profAxis t.prof)).homeSeen &&
          decide (posDiff pos 0 < -(s.jwin t.prof)) then s.jam true n role pos id
      else s
    else if lead && role = Role.pickx then
      if t.pick.isNone && decide ((s.get (Fld.MOT_PROFC_TPICK t.prof) : Int) ≤ t.age) then
        (s.dropTrack id).raise (report 0x0303 n 0 0 id)
      else s
    else if (s.roleInput role).isSome && past (if lead then s.leadWin t role else s.trailWin t role) then
      ((s.jam true n role pos id).applyThreshold n)
    else s

/-! ### Encoders (R234, R236, R241) -/

/-- DOUBLE_FEED and SIZE as the position moves (R231). -/
def Chip.feedWatch (s : Chip) (t : Track) : Chip :=
  let a := s.profAxis t.prof
  let pos := s.getS (Fld.ENC_POS_P a)
  let xd := s.roleX Role.dfd
  let s := match edgeAt t.lead Role.read, edgeAt t.trail Role.read with
    | some pe, none =>
      if !t.overStay && s.covered Role.read && decide (s.countsOf t.prof t.len < posDiff pos pe) then
        s.sizeFail t.item (roundHalfUp (frac (posDiff pos pe * 2560) (s.get (Fld.MOT_PROFB_K t.prof)))).toNat
      else s
    | _, _ => s
  match t.pick, s.mot.dfd with
  | some pp, some d0 =>
    let front := s.expectAt t pp Role.dfd
    let gone := match edgeAt t.trail Role.read with
      | some pt => decide (s.countsOf t.prof (xd - s.roleX Role.read) ≤ posDiff pos pt)
      | none => false
    let start := if decide (0 ≤ posDiff d0 front) then d0 else front
    if (s.roleInput Role.dfd).isSome && !t.wide && !gone && decide (0 ≤ posDiff pos front) &&
        decide (s.countsOf t.prof (s.get (Fld.MOT_PROFF_DFL t.prof)) ≤ posDiff pos start) then
      ((s.updTrack t.item fun t => { t with wide := true }).set Fld.MOT_IST_DFEED).raise
        (report 0x0304 ((s.roleInput Role.dfd).getD 0) 0 (codeOf pos 32) t.item)
    else s
  | _, _ => s

/-- A carriage that has passed CSTART and continued for L returns at VRET (R232). -/
def Chip.carriageTurn (s : Chip) (t : Track) : Chip :=
  let a := s.profAxis t.prof
  if !t.ret && decide (0 ≤ t.age) && decide (t.far ≤ posDiff (s.getS (Fld.ENC_POS_P a)) 0) then
    (s.updTrack t.item fun t => { t with ret := true }).runAxis a (-(t.raw.vret : Int)) t.raw
  else s

/-- The position of axis `a` becomes `pos` at time `now`: every position comparison follows (R180–R185, R201–R205, R216, R231).
A movement that starts from rest has yet to see its HOME edge (R233). -/
def Chip.moved (h : Hooks) (s : Chip) (a : Nat) (pos : Int) (now : Nat) : Chip :=
  let old := s.getS (Fld.ENC_POS_P a)
  let s := s.putS (Fld.ENC_POS_P a) pos
  let x := s.axis a
  let s := s.setAxis a { x with counting := true, homeSeen := x.homeSeen && x.counting
                                past := (now, old) :: x.past.filter fun p => decide (now ≤ p.1 + 1600000) }
  let s := { s with mot := { s.mot with stopped := false } }
  let s := if s.get Fld.IMG_LTRG_AXIS = a then s.imgCount now else s
  let s := if s.get Fld.MRK_GEO_AXIS = a then s.markCount h now else s
  let mine := s.mot.tracks.filter fun t => s.profAxis t.prof == a
  mine.foldl (fun u t => if t.feeder then u.feedWatch t else u.carriageTurn t) s

/-- ENCODER_COUNT (R234): a quadrature edge of axis `a`, forward or backward as its inputs show it, at time `now`; INV swaps the inputs, and DIR negates
the counted direction. On an axis that runs open-loop it stands
for one microstep, which advances POS by OLSn / 65,536 counts (R236). -/
def Chip.encoderCount (h : Hooks) (s : Chip) (a : Nat) (up : Bool) (now : Nat) : Chip :=
  let dir := (up != s.on (Fld.MOT_AX_DIR a)) != s.on (Fld.ENC_CFG_INV a)
  let x := s.axis a
  let pos := s.getS (Fld.ENC_POS_P a)
  if x.openLoop then
    let f := x.frac + s.get (Fld.ENC_OLS_S a)
    let step : Int := if dir then (f / 65536 : Nat) else -(f / 65536 : Nat)
    (s.setAxis a { x with frac := f % 65536 }).moved h a (pos + step) now
  else if !s.on Fld.ENC_CTL_EN || bitsOf (s.get Fld.ENC_STA_LOST) a 1 = 1 then s
  else
    let d : Int := if dir then 1 else -1
    (s.setAxis a { x with lastT := now, cnt := x.cnt + d, edges := x.edges + 1 }).moved h a (pos + d) now

/-- ENCODER_INDEX (R234): a qualified index pulse latches the position. -/
def Chip.encoderIndex (s : Chip) (a : Nat) : Chip :=
  if s.on Fld.ENC_CTL_EN && s.on (Fld.ENC_CFG_IDXE a) then
    (((s.putS (Fld.ENC_IDX_P a) (s.getS (Fld.ENC_POS_P a))).set ⟨Reg.ENC_STA, 8 + a, 1⟩).set ⟨Reg.ENC_IST, 8 + a, 1⟩).event (0x40 + a)
  else s

/-- ENCODER_LOST (R234): `n` decoding errors of axis `a` within 1 ms. -/
def Chip.encoderErrors (s : Chip) (a n : Nat) : Chip :=
  if !s.on Fld.ENC_CTL_EN then s
  else
    let f : Field := if a = 0 then Fld.ENC_ERR_A else Fld.ENC_ERR_B
    let s := s.put f (satAdd (s.get f) n 8)
    if s.get (Fld.ENC_CFG_ERRMAX a) ≤ n then (s.set ⟨Reg.ENC_STA, 10 + a, 1⟩).set ⟨Reg.ENC_IST, 10 + a, 1⟩ else s

/-- ENC's CTL.EN has been cycled with no item admitted: no encoder is lost any more (R234). -/
def Chip.encoderFound (s : Chip) : Chip := if s.noneAdmitted then s.put Fld.ENC_STA_LOST 0 else s

/-- STALL (R241): the encoder of an axis that carries an admitted item has counted nothing for STALLT at commanded speed. -/
def Chip.stall (s : Chip) (a : Nat) : Chip :=
  let carries := s.mot.tracks.any fun t => s.profAxis t.prof == a && (match s.item t.item with
    | some x => x.admitted
    | none => false)
  if (s.engine = Eng.run || s.engine = Eng.drain) && carries && !(s.axis a).openLoop && s.fab.mtrEn &&
      s.get Fld.MOT_STL_V ≤ (signedOf (s.get (Fld.MOT_CM_SPD a)) 24).natAbs then
    ((s.set Fld.MOT_IST_STALL).event Ev.stall).raise (report 0x0306 a 0 (s.get (Fld.ENC_POS_P a)))
  else s

/-- TRANSPORT_STOPPED (R240): no axis has counted for 2 ms. -/
def Chip.transportStopped (s : Chip) : Chip :=
  let off (x : Axis) : Axis := { x with counting := false }
  let m := { s.mot with stopped := true, jamStop := false, axA := off s.mot.axA, axB := off s.mot.axB }
  (({ s with mot := m }).clr Fld.MOT_STA_JAMST).releaseWaits

/-! ### Bridges, polygon, solenoids (R235–R239) -/

/-- BRIDGE_OC (R235): bridge `b`, which is limited to HICL, has carried more than 1.25 × HICL for 2 µs. -/
def Chip.bridgeOc (s : Chip) (b ma : Nat) : Chip :=
  if 10 * s.get (Fld.MDR_HICL_I b) * 5 < ma * 4 then
    let on := s.get Fld.MDR_STA_HON
    let s := s.put Fld.MDR_STA_HON (on - (if bitsOf on b 1 = 1 then 2 ^ b else 0))
    let s := ({ s with mot := { s.mot with bridgeTrip := s.mot.bridgeTrip ||| 2 ^ b } }).syncBridges
    (s.set ⟨Reg.MDR_IST, 12 + b, 1⟩).raiseP (report 0x0308 b 0 ma)
  else s

/-- The polygon driver follows its gating and the speed it measures (R237, R238): start, catch, coast, stop. -/
def Chip.polyFollow (s : Chip) (rpm : Nat) : Chip :=
  let st := s.get Fld.MDR_PSTA_ST
  let s := s.put Fld.MDR_PSTA_RPM rpm
  if s.mot.polyOn then
    if st = 0 then s.polyState 1
    else if st = 4 && s.mot.polyFails = 0 && rpm * 2 < s.get Fld.MDR_PRMP_PHOV then s.polyState 1
    else s
  else s.polyDrive false

/-- POLY_ALIGN_DONE (R237): from alignment to the open-loop ramp. -/
def Chip.polyAligned (s : Chip) : Chip := if s.mot.polyOn && s.get Fld.MDR_PSTA_ST = 1 then s.polyState 2 else s

/-- POLY_HANDOVER (R237): 24 valid crossings in the ramp, or of a polygon caught while coasting. -/
def Chip.polyHandover (s : Chip) : Chip :=
  let st := s.get Fld.MDR_PSTA_ST
  if s.mot.polyOn && (st = 2 || (st = 4 && s.mot.polyFails = 0 && s.get Fld.MDR_PRMP_PHOV ≤ 2 * s.get Fld.MDR_PSTA_RPM)) then
    ({ s with mot := { s.mot with polyFails := 0 } }).polyState 3
  else s

/-- POLY_START_TIMEOUT (R237): the start is tried again after a coast of 2 s, which is 200,000 frame periods. -/
def Chip.polyTimeout (s : Chip) : Chip :=
  let st := s.get Fld.MDR_PSTA_ST
  if s.mot.polyOn && (st = 1 || st = 2) then
    let n := s.mot.polyFails + 1
    let s := (({ s with mot := { s.mot with polyFails := n, polyWait := 200000 } }).polyState 4).set Fld.MDR_IST_PSTF
    if 3 ≤ n then s.raiseP (report 0x0309 0 0 n) else s
  else s

/-- POLY_OVSPD (R238): commutation above POVS for 10 ms. -/
def Chip.polyOverspeed (s : Chip) (rpm : Nat) : Chip :=
  if s.get Fld.MDR_POVS_RPM < rpm then
    let s := ({ s with mot := { s.mot with polyTrip := true } }).polyDrive false
    (s.set Fld.MDR_IST_POVS).raiseP (report 0x030A 0 0 rpm)
  else s

/-- Put solenoid switch `n` into a state, with STA.ON. -/
def Chip.setSol (s : Chip) (n : Nat) (x : SolSt) : Chip :=
  (if h : n < 6 then { s with mot := { s.mot with sols := s.mot.sols.set n x h } } else s).showSols

/-- SOL_PEAK_END (R239): TPK after switch-on. -/
def Chip.solPeakEnd (s : Chip) (n : Nat) : Chip :=
  match s.mot.sols[n]? with
  | some .peak => s.setSol n .hold
  | _ => s

/-- SOL_OC (R239): more than 1.5 A for 2 µs; the switch stays open until commanded off. -/
def Chip.solOc (s : Chip) (n : Nat) : Chip :=
  match s.mot.sols[n]? with
  | some .peak => ((s.setSol n .latched).set ⟨Reg.SOL_IST, 8 + n, 1⟩).raiseP (report 0x030B n)
  | some .hold => ((s.setSol n .latched).set ⟨Reg.SOL_IST, 8 + n, 1⟩).raiseP (report 0x030B n)
  | _ => s

/-- SOL_OPEN_LOAD (R239): found while the switch is off. -/
def Chip.solOpenLoad (s : Chip) (n : Nat) : Chip :=
  match s.mot.sols[n]? with
  | some .opened => s.set ⟨Reg.SOL_IST, 14 + n, 1⟩
  | some .latched => s.set ⟨Reg.SOL_IST, 14 + n, 1⟩
  | _ => s

end Sys2Proof.Machine
end

