-- ==== Sys2Proof/Machine/Doc.lean ====
section
/-!
DEFINITION. The document engine (chapter 3): the journal (R111–R115, R119), reports (R116–R118), engine states and what each does to
the actuators (R91–R93), engine commands (R98–R104) and the ends of items (R105–R110).
-/
namespace Sys2Proof.Machine

/-! ### The journal (R113–R115, R119) -/

/-- A byte of journal page `j`. -/
def Chip.jByte (s : Chip) (j o : Nat) : Nat := (s.byte (pageAddr j + o)).toNat

/-- The item ID of journal page `j`; a CLOSED record of a lost item holds 0xFFFF_FFFF (R115). -/
def Chip.jItem (s : Chip) (j : Nat) : Nat := s.num (pageAddr j + 4) 4

/-- Journal pages with a record of a KIND (1 OPEN, 2 CLOSED). -/
def Chip.jPages (s : Chip) (kind : Nat) : List Nat := (List.range 128).filter fun j => s.jByte j 0 == kind

/-- Journal pages in use: not free, or taken by a START whose commit is under way. -/
def Chip.jUsed (s : Chip) : List Nat :=
  (List.range 128).filter fun j => s.jByte j 0 != 0 || s.doc.cand.any (·.page == j)

/-- Order of item IDs by assignment (R94, R118), oldest first, counted from the next ID. -/
def Chip.idOrder (s : Chip) (id : Nat) : Nat := (id + 2 ^ 32 - s.get Fld.DOC_NID_ID) % 2 ^ 32

/-- The ID of a lost item (R114). -/
def lostId : Nat := 0xFFFFFFFF

/-- CLOSED pages of items with an ID, oldest first. -/
def Chip.closedPages (s : Chip) : List Nat :=
  ((s.jPages 2).filter fun j => s.jItem j != lostId).foldl (fun l j =>
    l.takeWhile (fun k => decide (s.idOrder (s.jItem k) < s.idOrder (s.jItem j))) ++ j ::
      l.dropWhile (fun k => decide (s.idOrder (s.jItem k) < s.idOrder (s.jItem j)))) []

/-- CLOSED pages of lost items, oldest first by JSEQ (R113). -/
def Chip.lostPages (s : Chip) : List Nat :=
  let seq (j : Nat) : Nat := s.num (pageAddr j + 56) 4
  ((s.jPages 2).filter fun j => s.jItem j == lostId).foldl (fun l j =>
    l.takeWhile (fun k => decide (seq k ≤ seq j)) ++ j :: l.dropWhile (fun k => decide (seq k ≤ seq j))) []

/-- The report of a CLOSED page (R118); one issued by this start has flag RCV (R114). -/
def Chip.reportAt (s : Chip) (j : Nat) : List Byte :=
  let r := s.bytes (pageAddr j + 24) 32
  if s.doc.rcvs.contains j then
    let b := (r.take 11) ++ [((r[11]?).getD 0#8) ||| 8#8] ++ ((r.drop 12).take 18)
    b ++ leBytes 2 (crc16 b).toNat
  else r

/-- DOC.JUSE, OLD, STA.JFULL and STA.RCVP follow the journal (R115, R119, R122). -/
def Chip.syncJournal (s : Chip) : Chip :=
  let use_ := s.jUsed.length
  let closed := s.jPages 2
  let s := { s with doc := { s.doc with rcvs := s.doc.rcvs.filter closed.contains } }
  let was := s.on Fld.DOC_STA_JFULL
  let full := decide (128 ≤ use_)
  let s := ((s.put Fld.DOC_JUSE_USE use_).put Fld.DOC_JUSE_OPN (s.jPages 1).length).put Fld.DOC_JUSE_CLSD closed.length
  let s := (s.putB Fld.DOC_STA_JFULL full).putB Fld.DOC_STA_RCVP (!s.doc.rcvs.isEmpty)
  let s := if full && !was then s.set Fld.DOC_IST_JFULL else s
  s.put Fld.DOC_OLD_ID (if s.lostPages.isEmpty then (match s.closedPages with
    | j :: _ => s.jItem j
    | [] => 0) else lostId)

/-- A journal record (R113). -/
def record (kind phase : Nat) (x : Item) (report : List Byte) (jseq : Nat) : List Byte :=
  let b := leBytes 1 kind ++ leBytes 1 phase ++ [x.client] ++ leBytes 1 x.flags ++ leBytes 4 x.id ++ leBytes 2 x.href ++
    leBytes 2 x.len ++ leBytes 2 x.hgt ++ leBytes 1 x.prof ++ [0#8] ++ leBytes 4 x.tacc ++ leBytes 4 x.tadm ++
    (report ++ List.replicate 32 0#8).take 32 ++ leBytes 4 jseq ++ [0#8, 0#8]
  b ++ leBytes 2 (crc16 b).toNat

/-- FLAGS of an item's report (R116). -/
def Chip.reportFlags (s : Chip) (x : Item) (noj : Bool) : Nat :=
  let b (c : Bool) (k : Nat) : Nat := if c then 2 ^ k else 0
  let strand := x.strand || x.phase == 3 || x.phase == 4
  b x.qual 0 + b x.marked 1 + b (x.pmark && !x.marked) 2 + b x.rcv 3 + b strand 4 + b (s.on Fld.ORR_STA_HOSTC) 5 + b noj 6

/-- The 32-byte report (R116), with the time of now. -/
def Chip.reportBytes (s : Chip) (x : Item) (noj : Bool) : List Byte :=
  let e := x.ending.getD { out := 0, reason := 0, status := St.ok }
  let b := leBytes 4 x.id ++ leBytes 2 x.href ++ [x.client] ++ leBytes 1 e.out ++ leBytes 1 e.reason ++ [e.status] ++
    leBytes 1 x.phase ++ leBytes 1 (s.reportFlags x noj) ++ leBytes 4 (s.get Fld.RTC_SEC_S) ++
    leBytes 2 (s.get Fld.RTC_SUB_T * 1000 / 32768) ++ leBytes 2 x.linF ++ leBytes 2 x.linR ++ leBytes 2 x.bndm ++
    leBytes 4 x.fseq ++ leBytes 2 x.mlen
  b ++ leBytes 2 (crc16 b).toNat

/-- Commit one journal page (R111, R410, R427); answers the status. Page DOC follows while the L-die has power. -/
def Chip.jCommit (s : Chip) (page : Nat) (bytes : List Byte) : Status × Chip :=
  let (st, t) := s.ownGroup false [(page, bytes)]
  if st = St.ok then (st, ({ t with doc := { t.doc with jseq := (t.doc.jseq + 1) % 2 ^ 32 } }).iff t.fab.lco Chip.syncJournal) else (st, s)

/-! ### Engine states (R91–R93) and their actuators -/

/-- A carriage axis homes towards HOME at BHOME (R232). -/
def Chip.homeAxes (s : Chip) : Chip :=
  [0, 1].foldl (fun t a =>
    match (List.range 16).find? fun p => t.get (Fld.MOT_PROFA_V p) != 0 && t.get (Fld.MOT_PROFB_CARR p) == 1 && t.profAxis p == a with
    | some p => t.runAxis a (-((t.get Fld.MOT_BHOME_V * t.get (Fld.MOT_PROFB_K p) / 256 : Nat) : Int)) (t.profRaw p)
    | none => t) s

/-- What the engine program commands on entering a state (R91, R206, R207, R232, R238): the sideband lines rise when the engine leaves
OFF and fall when it enters OFF; the polygon runs from WAKING on and coasts in OFF; the fuser is regulated from WAKING on where a
marking station is fitted; the laser loops run from WAKING to OFF. -/
def Chip.engineOutputs (s : Chip) (st : Nat) : Chip :=
  let mark := s.on Fld.DOC_BCFG_MARK
  let offs (l : List Nat) (t : Chip) : Chip := l.foldl (fun u n => u.helCmd n Mode.off) t
  let lines (b : Bool) (t : Chip) : Chip :=
    if t.dbg.extest then t
    else ({ t with fab := { t.fab with wantLd := b, wantHv := b && mark, wantHtr := b && mark, wantMtr := b } }).sidebands
      b (b && mark) (b && mark) b
  if st = Eng.off then
    let s := { s with mrk := { s.mrk with wts := s.mrk.wts.filter fun w => !w.ended } }
    lines false ((offs [1, 2, 3, 4, 5, 6, 7, 8, 9, 10] (((s.hvAllOff.clr Fld.MRK_STA_HVRDY).syncNip).helCmd 0 Mode.coast)).solOff 0x3F)
  else if st = Eng.waking then
    -- a machine that wakes or resumes has an empty path (R233): no sheet of an ended item is left to follow
    let s := ({ s with mrk := { s.mrk with wts := s.mrk.wts.filter fun w => !w.ended } }).syncNip
    let s := (((lines true s).helCmd 0 Mode.run).helCmd 4 Mode.run).helCmd 5 Mode.run
    (if mark then (s.helCmd 3 Mode.run).helCmd 6 Mode.run else s).homeAxes
  else if st = Eng.halt then ((s.stopAxes).solOff 0x3F).beamOff
  else if st = Eng.service then lines true s
  -- HV is off in READY (R206): what an item that ended has left up ramps down
  else if st = Eng.ready then (if s.hv 3 = .ramp || s.hv 3 = .settled then s.startHv 3 .down (s.hvLevel 3) else s).hvDown
  else s

/-- A transition of R92 with what the engine program then commands. -/
def Chip.enter (s : Chip) (st cause : Nat) : Chip := (s.goto st cause).engineOutputs st

/-- Is the fuser in the heat band by the TH0 mirror (R137)? -/
def Chip.th0InBand (s : Chip) : Bool :=
  let t : Int := s.get (Fld.DBR_MVAL_V 6) % 4096
  (s.tset : Int) - 5 * s.get Fld.LGR_HEAT_BLO ≤ t && t ≤ (s.tset : Int) + 5 * s.get Fld.LGR_HEAT_BHI

/-! ### The single admission test (R104, R110, R142) -/

/-- Has the grant of an item's admission been made? -/
def Chip.isGranted (s : Chip) (id : Nat) : Bool :=
  (match s.item id with
    | some x => x.admitted
    | none => false) || s.doc.commits.any fun c => match c.kind with
    | .admission _ => c.item == id
    | _ => false

/-- The START responses with AWAIT = 0 whose test has been made: 0x00 when granted, else the ADMIT code, and the item ends WITHDRAWN
(R104, R110). DESIGN CHOICE (log entry 178): where another event ends the item before its test, the item has been created and no test has failed, and the
response is 0x00 with the item ID. -/
def Chip.settleSingles (s : Chip) : Chip :=
  s.doc.singles.foldl (fun t q =>
    let drop (u : Chip) : Chip := { u with doc := { u.doc with singles := eraseFirst (· == q) u.doc.singles } }
    match t.item q.item with
    | none => (drop t).respond q.hdr St.ok (leBytes 4 q.item)
    | some x =>
      if x.settled || t.isGranted q.item then (drop t).respond q.hdr St.ok (leBytes 4 q.item)
      else if x.refusal ≠ St.ok then
        ((drop t).respond q.hdr x.refusal (leBytes 4 q.item)).endItem q.item Out.withdrawn Rsn.none x.refusal 0 false
      else t) s |>.startClosings

/-- A ledger decision point (R142) with what hangs on its outcome. -/
def Chip.decision (s : Chip) : Chip := (s.decidePoint).settleSingles

/-- The cycle in hand is a decision point: one, however many triggers fall in it (R142). -/
def Chip.decideSoon (s : Chip) : Chip := { s with pow := { s.pow with decideDue := true } }

/-! ### Journal commits (R111, R112) -/

/-- Send a report (R118): EVT to the item's client, IST.REP. -/
def Chip.sendReport (s : Chip) (client : Byte) (bytes : List Byte) : Chip :=
  (s.sendEvt client.toNat 0x01 bytes).set Fld.DOC_IST_REP

/-- An OFF that waits for items takes effect once none is open (R91, R120). -/
def Chip.offWhenEmpty (s : Chip) : Chip :=
  if s.doc.drainToOff && s.doc.items.isEmpty && s.doc.cand.isEmpty then s.enter Eng.off (if s.engine = Eng.drain then 0x05 else 0x01) else s

/-- OFF is to follow (R91, R92, R120): at once, or when the last open item has gone. DEDUCED (log entry 141). -/
def Chip.offAfterItems (s : Chip) : Chip := ({ s with doc := { s.doc with drainToOff := true } }).offWhenEmpty

/-- READY without the heat band goes to WARMUP while no item is admitted (R92). DESIGN CHOICE (log entry 143): where the fuser left the
band earlier, in RUN or DRAIN, that happens as soon as READY is entered; while an ADMITTED commit is under way, only after it. -/
def Chip.heatLost (s : Chip) : Chip :=
  if s.engine = Eng.ready && s.on Fld.DOC_BCFG_MARK && !s.doc.heatBand && s.granted = 0 then s.enter Eng.warmup 0x0B else s

/-- An item leaves the engine: its reservations go (R143, R339), its job is unbound (R200), and the engine may leave RUN or DRAIN
(R92). -/
def Chip.itemGone (s : Chip) (x : Item) : Chip :=
  let s := { s with doc := { s.doc with items := s.doc.items.filter (·.id != x.id) } }
  let s := ((((s.releaseLedger x.id).trimRun x.id 0).trimRun x.id 1).unbindJob x.id).syncItems
  let ready := s.noneAdmitted && (s.engine = Eng.run || (s.engine = Eng.drain && !s.doc.drainToOff))
  (if ready then s.enter Eng.ready 0x05 else s).offWhenEmpty.heatLost

/-- A closing record is held in always-on SRAM (R112). -/
def Chip.hold (s : Chip) (x : Item) : Chip :=
  let h : HeldRec := { item := x, bytes := record 2 x.phase x (s.reportBytes x false) s.doc.jseq }
  { s with doc := { s.doc with held := s.doc.held ++ [h] } }

/-- The closing commit fails (R112): the record is held, the report goes out provisional, JRNL_CLOSE. DESIGN CHOICE (log entry 144): the
transition that the report brings, from RUN to READY or from DRAIN, comes before the one to FAULT, which DOC.ST.PREV then shows. -/
def Chip.holdRecord (s : Chip) (x : Item) : Chip :=
  ((((s.hold x).sendReport x.client (s.reportBytes x true)).itemGone x).raise (report 0x0B03 0 0 0 x.id)).decideSoon

/-- A decision point that is due takes place once the journal writer has nothing to do (R142). -/
def Chip.journalIdle (s : Chip) : Chip := if s.doc.commits.isEmpty && s.pow.decideDue then s.decision else s

/-- The ID after `n` and the one before it (R94). -/
def nextId (n : Nat) : Nat := if n = 0xFFFFFFFE then 1 else n + 1
def prevId (n : Nat) : Nat := if n = 1 then 0xFFFFFFFE else n - 1

/-- DOC.NID and its NVS slot ring take a value (R94). -/
def Chip.setNid (s : Chip) (id : Nat) : Chip := (s.put Fld.DOC_NID_ID id).nvsStore 0 (BitVec.ofNat 32 id)

/-- A START that its commit refuses consumes no ID (R94): the STARTs accepted after it, none of which has been answered yet, take the IDs that
come before theirs. -/
def Chip.giveBackId (s : Chip) : Chip :=
  let ids := s.doc.cand.map (·.id)
  let back (id : Nat) : Nat := if ids.contains id then prevId id else id
  let item (x : Item) : Item := { x with id := back x.id }
  let commit (c : Commit) : Commit := { c with item := back c.item }
  let job (j : Job) : Job := if j.st == .bound then { j with item := back j.item } else j
  let s := { s with doc := { s.doc with cand := s.doc.cand.map item, commits := s.doc.commits.map commit }
                    mrk := { s.mrk with jobs := s.mrk.jobs.map job } }
  s.setNid (prevId (s.get Fld.DOC_NID_ID))

/-- A START's OPEN/QUEUED record has been committed, or has failed (R94, R104, R111). An item that the engine has meanwhile ended, or that an
OFF under way leaves no place for, ends WITHDRAWN (R108). -/
def Chip.commitOpen (s : Chip) (h : Hdr) (x : Item) : Chip :=
  let (st, t) := s.jCommit x.page (record 1 1 x [] s.doc.jseq)
  let t := { t with doc := { t.doc with cand := t.doc.cand.filter (fun c => c.id != x.id) } }
  if st = St.ok then
    let t := ({ t with doc := { t.doc with items := t.doc.items ++ [x] } }.syncItems).syncJournal
    let t := if x.await = 0 then { t with doc := { t.doc with singles := t.doc.singles ++ [(⟨x.id, h⟩ : Single)] } }
      else t.respond h St.ok (leBytes 4 x.id)
    let t := if t.doc.drainToOff then t.withdrawQueued else t
    let t := if t.engine = Eng.ready || t.engine = Eng.run || x.await ≠ 0 then t
      else t.endItem x.id Out.withdrawn Rsn.none St.ok 0 false
    (t.mrkPrepare x).startClosings.decision
  else
    let t := match t.boundJob x.id with
      | some i => t.setJob i { t.job i with st := .ready, item := 0, client := 0 }
      | none => t
    ((t.giveBackId.respond h St.busy []).syncJournal).offWhenEmpty

/-- An item's OPEN/ADMITTED record (R92, R111, R120). -/
def Chip.commitAdmit (s : Chip) (t0 : Nat) (x : Item) : Chip :=
  if x.settled then (s.releaseAll x.id).heatLost
  -- PFAIL abandons the admission: the item stays QUEUED and is closed at the next start (R145)
  else if s.pow.pfail then s
  else
    let x := { x with phase := 2, tadm := s.get Fld.RTC_SEC_S }
    let chk := s.supplyCheck false
    let (st, t) := s.jCommit x.page (record 1 2 x [] s.doc.jseq)
    if st = St.ok then
      -- with none admitted so far this is a document boundary: the raw registers follow the item's profile (R218, R243, R264)
      let t := if t.noneAdmitted then (t.mrkPrepare x).tuneAxes x.prof else t
      let t := ((t.updItem x.id fun _ => x).syncItems).event Ev.admitted
      let t := t.addTrack x t0
      if t.engine = Eng.ready then t.enter Eng.run 0x04 else t
    else
      ((t.releaseAll x.id).endItem x.id Out.withdrawn (if chk ≠ St.ok then Rsn.power else Rsn.none)
        (if chk ≠ St.ok then St.admitEnergy else St.internal) 0 false).startClosings.heatLost

/-- A record of a new phase, which nobody waits for (R111). -/
def Chip.commitPhase (s : Chip) (ph : Nat) (x : Item) : Chip :=
  if x.decided then s
  else
    let (st, t) := s.jCommit x.page (record 1 ph x [] s.doc.jseq)
    if st = St.ok then t else t.raise (report 0x0B02 ph 0 0 x.id)

/-- An item's closing record: its outcome is decided, or the record is held (R105, R112). Committed with it is how the item ends at that moment
(R120). -/
def Chip.commitClose (s : Chip) (x : Item) : Chip :=
  let rep := s.reportBytes x false
  let (st, t) := s.jCommit x.page (record 2 x.phase x rep s.doc.jseq)
  if st = St.ok then
    let t := t.updItem x.id fun x => { x with decided := true }
    { t with doc := { t.doc with ready := t.doc.ready ++ [(x.id, rep)] } }
  else t.holdRecord x

/-- A REPACK's records are freed, or stay (R111). A group takes at most 64 pages (R409), so more than that are freed by two groups. DESIGN
CHOICE (log entries 145 and 146): the supply is checked for both groups before the first; a freed page holds 64 zero bytes, and freeing
takes no JSEQ. -/
def Chip.commitFree (s : Chip) (h : Hdr) (pages : List Nat) : Chip :=
  let zero (p : Nat) : Nat × List Byte := (p, List.replicate 64 0#8)
  let (st, t) := s.ownGroup false ((pages.take 64).map zero)
  let (st2, t) := if 64 < pages.length then t.ownGroup false ((pages.drop 64).map zero) else (st, t)
  if st = St.ok && st2 = St.ok then (t.syncJournal).respond h St.ok [] else s.respond h St.busy []

/-- An action on an item, if it is open. -/
def Chip.withItem (s : Chip) (id : Nat) (f : Item → Chip) : Chip :=
  match s.item id with
  | some x => f x
  | none => s

/-- JOURNAL_COMMIT_DONE: the commit at the head is reported complete, or failed by the checks of R410 and R427. It waits while another
group is open (R408). -/
def Chip.journalDone (s : Chip) : Chip :=
  match s.doc.commits with
  | [] => s
  | c :: rest =>
    if s.gst ≠ 0 then s
    else
      let s := { s with doc := { s.doc with commits := rest } }
      let t := match c.kind with
        | .open_ h => ((s.doc.cand.find? fun (x : Item) => x.id == c.item).map (s.commitOpen h)).getD s
        | .admission t0 => s.withItem c.item (s.commitAdmit t0)
        | .phase ph => s.withItem c.item (s.commitPhase ph)
        | .close => s.withItem c.item s.commitClose
        | .free h pages => s.commitFree h pages
      t.journalIdle

/-- ITEM_REPORT_ISSUE (R105, R118): the report of the item whose outcome was decided first is sent. -/
def Chip.reportIssue (s : Chip) (id : Nat) : Chip :=
  match s.doc.ready with
  | [] => s
  | (i, rep) :: rest =>
    if i ≠ id then s
    else
      let s := { s with doc := { s.doc with ready := rest } }
      match s.item id with
      | none => s
      | some x =>
        let t := ((s.sendReport x.client rep).nvsCount 4).itemGone x
        -- an item that failed for HOST_DRAIN has its remaining records discarded with its report (R340)
        (if x.ending.any (·.reason == Rsn.hostDrain) then t.discardItem id else t).decideSoon

/-- A held closing record with the journal sequence number of the commit that takes it (R113). -/
def HeldRec.stamped (r : HeldRec) (jseq : Nat) : List Byte :=
  let b := r.bytes.take 56 ++ leBytes 4 jseq ++ [0#8, 0#8]
  b ++ leBytes 2 (crc16 b).toNat

/-- A held closing record has been committed: while the L-die has power its report is sent again without NOJ and DOC.IST.REP set (R112). That of a
lost item goes out as no EVT (R115, log entry 149). A report that a start has issued counts as unacknowledged until REPACK (R114). -/
def Chip.finalReport (s : Chip) (r : HeldRec) : Chip :=
  let s := if r.item.rcv then { s with doc := { s.doc with rcvs := s.doc.rcvs ++ [r.item.page] } } else s
  if !s.fab.lco then s
  else (if r.item.id = lostId then s else s.sendReport r.item.client ((r.bytes.drop 24).take 32)).syncJournal

/-- JOURNAL_CLOSE_RETRY (R112): Almanac firmware commits a held closing record; the final report is sent again without NOJ. -/
def Chip.closeRetry (s : Chip) (id : Nat) : Chip :=
  match s.doc.held.find? (·.item.id == id) with
  | none => s
  | some r =>
    let (st, t) := s.jCommit r.item.page (r.stamped s.doc.jseq)
    if st = St.ok then
      ({ t with doc := { t.doc with held := eraseFirst (fun q => q.item.id == id) t.doc.held } }).finalReport r
    else s

/-! ### The journal at start-up (R114) -/

/-- One journal record at start-up: OPEN ones are closed, damaged ones become lost items, CLOSED ones stay (R114, R115). The page of a closing record
that is still held is left to it: no event changes a held record (R112). A closing commit that
fails is held, with a provisional report, as R112 has it. DESIGN CHOICE (log entry 147): LINF, LINR, BNDM, MLEN and the flags MARKED and
PMARK, which no OPEN record holds, are 0 in a report made here. -/
def Chip.bootRecord (s : Chip) (j : Nat) : Chip :=
  let bs := s.bytes (pageAddr j) 64
  let num (o n : Nat) : Nat := ofLeBytes ((bs.drop o).take n)
  let good := decide ((crc16 (bs.take 62)).toNat = num 62 2) && !s.anyPoison ((List.range 16).map fun i => pageAddr j + 4 * i)
  let x : Item := { id := num 4 4, client := (bs.drop 2).headD 0#8, flags := num 3 1, prof := num 14 1, href := num 8 2, len := num 10 2,
                    hgt := num 12 2, await := 0, slots := 0, sfmt := 0, bands := 0, mjob := 0, phase := num 1 1, page := j,
                    tacc := num 16 4, tadm := num 20 4, refusal := St.ok, reason := none, fseq := 0, ending := none, waitStop := false,
                    closing := true, decided := true, qual := false, marked := false, pmark := false, strand := false, rcv := true,
                    linF := 0, linR := 0, bndm := 0, mlen := 0 }
  let close (s : Chip) (x : Item) : Chip :=
    let (st, t) := s.jCommit j (record 2 x.phase x (s.reportBytes x false) s.doc.jseq)
    if st = St.ok then { t with doc := { t.doc with rcvs := t.doc.rcvs ++ [j] } }
    else
      let t := s.hold x
      (if x.id = lostId then t else t.sendReport x.client (s.reportBytes x true)).raise (report 0x0B03 0 0 0 x.id)
  if num 0 1 = 0 || s.doc.held.any (fun h => h.item.page == j) then s
  else if !good then
    let y : Item := { x with id := lostId, client := 0#8, href := 0, phase := 0, flags := 0, len := 0, hgt := 0, prof := 0, tacc := 0,
                             tadm := 0, ending := some ⟨Out.failed, Rsn.power, St.internal⟩ }
    (close s y).raise (report 0x0B07 0 0 j)
  else if num 0 1 = 1 then
    if x.phase = 1 then close s { x with ending := some ⟨Out.withdrawn, Rsn.power, St.ok⟩ }
    else close s { x with ending := some ⟨Out.failed, Rsn.power, St.ok⟩ }
  else { s with doc := { s.doc with rcvs := s.doc.rcvs ++ [j] } }

/-- The journal is read in ascending item ID (R114); reports of records with a known client are delivered, with RCV (R115, R118). DESIGN
CHOICE (log entries 148 and 149): JSEQ goes on after the largest one that any page holds; the report of a lost item, which goes out as no EVT,
does not set DOC.IST.REP. -/
def Chip.journalBoot (s : Chip) : Chip :=
  let js := ((List.range 128).map fun j => s.num (pageAddr j + 56) 4).foldl max 0
  let s := { s with doc := { s.doc with jseq := max s.doc.jseq (js + 1) } }
  let used := (List.range 128).filter fun j => s.jByte j 0 != 0
  let order := used.foldl (fun l j =>
    l.takeWhile (fun k => decide (s.idOrder (s.jItem k) < s.idOrder (s.jItem j))) ++ j ::
      l.dropWhile (fun k => decide (s.idOrder (s.jItem k) < s.idOrder (s.jItem j)))) []
  let s := (order.foldl (fun t j => t.bootRecord j) s).syncJournal
  s.closedPages.foldl (fun t j => t.sendReport (t.byte (pageAddr j + 30)) (t.reportAt j)) s

/-! ### Engine commands (R98–R104) -/

/-! Command codes (R98). -/
namespace Cmd
abbrev wake : Nat := 0x01
abbrev off : Nat := 0x02
abbrev start : Nat := 0x03
abbrev abort : Nat := 0x04
abbrev drain : Nat := 0x05
abbrev halt : Nat := 0x06
abbrev resume : Nat := 0x07
abbrev clear : Nat := 0x08
abbrev service : Nat := 0x09
abbrev exit : Nat := 0x0A
abbrev status : Nat := 0x0B
abbrev repget : Nat := 0x0C
abbrev repack : Nat := 0x0D
end Cmd

/-- Payload length of a command (R98); 0 for reserved codes. -/
def cmdLen (c : Nat) : Nat :=
  if c = Cmd.start then 20 else if c = Cmd.abort || c = Cmd.repget || c = Cmd.repack then 5 else if 1 ≤ c && c ≤ 0x0B then 1 else 0

/-- The legality matrix (R102). -/
def legal (c st : Nat) : Bool :=
  if c = Cmd.wake then st == Eng.off
  else if c = Cmd.off then [Eng.waking, Eng.warmup, Eng.ready, Eng.run, Eng.drain, Eng.halt].contains st
  else if c = Cmd.start then st == Eng.ready || st == Eng.run
  else if c = Cmd.drain then st == Eng.run
  else if c = Cmd.resume then st == Eng.halt
  else if c = Cmd.clear then st == Eng.fault
  else if c = Cmd.service then st == Eng.off || st == Eng.ready
  else if c = Cmd.exit then st == Eng.service
  else true

/-- The client of an item that is open or unacknowledged, if the ID names one (R100). -/
def Chip.ownerOf (s : Chip) (id : Nat) : Option Nat :=
  match s.item id with
  | some x => some x.client.toNat
  | none => match ((s.jPages 1) ++ (s.jPages 2)).find? fun j => s.jItem j == id with
    | some j => some (s.jByte j 2)
    | none => none

/-- Check 2 of R100. -/
def Chip.cmdRight (s : Chip) (id c arg : Nat) : Bool :=
  let x := s.mayX id Pg.DOC
  let w := s.mayW id Pg.DOC
  if c = Cmd.status then s.mayR id Pg.DOC
  else if c = Cmd.start || c = Cmd.halt then w
  else if c = Cmd.abort then
    if arg = lostId then w || x
    else match s.ownerOf arg with
      | some o => x || (w && o == id)
      | none => w || x
  else if c = Cmd.repget || c = Cmd.repack then (if arg = lostId then x else w)
  else x

/-- A refusal with 0x21 (R103). -/
def Chip.cmdRefused (s : Chip) (clid : Byte) (c : Nat) : Chip :=
  let s := ((s.bump Fld.DOC_REFC_CNT).put Fld.DOC_LREF_CMD c).put Fld.DOC_LREF_ST s.engine
  let s := ((s.put Fld.DOC_LREF_CLID clid.toNat).erc Pg.DOC (.host clid) St.state).set Fld.DOC_IST_REFUSE
  let others := s.doc.refused.filter fun r => r.client != clid
  let log (cnt : Nat) (s : Chip) : Chip :=
    let s := { s with doc := { s.doc with refused := (⟨clid, 0, s.nowMs⟩ : RefusalCount) :: others } }
    s.raise { report 0x0B01 c s.engine with cnt := cnt, mst := 0x08, clid := clid.toNat }
  match s.doc.refused.find? fun r => r.client == clid with
  | some r =>
    if s.nowMs < r.at_ + 100 then
      { s with doc := { s.doc with refused := { r with count := r.count + 1 } :: others } }
    else log r.count s
  | none => log 0 s

/-- The item that a START payload declares, with the defaults of R101. -/
def Chip.declared (s : Chip) (clid : Byte) (bs : List Byte) : Item :=
  let num (o n : Nat) : Nat := ofLeBytes ((bs.drop o).take n)
  let carr := bitsOf (num 1 1) 3 1 == 1
  let prof := num 2 1
  let len := if num 6 2 = 0 then (if carr then 1280 else min (s.get (Fld.MOT_PROFD_JLMAX (prof % 16))) 2300) else num 6 2
  let hgt := if num 8 2 = 0 then (if carr then 900 else 1100) else num 8 2
  { id := s.get Fld.DOC_NID_ID, client := clid, flags := num 1 1, prof := prof % 16, href := num 4 2, len := len, hgt := hgt, await := num 10 2,
    slots := num 12 1, sfmt := num 13 1, bands := num 14 2, mjob := num 16 4, phase := 1,
    page := ((List.range 128).find? fun j => !s.jUsed.contains j).getD 0, tacc := s.get Fld.RTC_SEC_S, tadm := 0, refusal := St.ok,
    reason := none, fseq := 0, ending := none, waitStop := false, closing := false, decided := false, qual := false, marked := false,
    pmark := false, strand := false, rcv := false, linF := 0, linR := 0, bndm := 0, mlen := 0 }

/-- Checks 4 and 5 of R100 for START, with R192, R200 and R223. -/
def Chip.startCheck (s : Chip) (bs : List Byte) (x : Item) : Status :=
  let num (o n : Nat) : Nat := ofLeBytes ((bs.drop o).take n)
  let mode := s.get Fld.DOC_BCFG_MODE
  let sizes := if x.carriage then 1 ≤ x.len && x.len ≤ 1280 && 1 ≤ x.hgt && x.hgt ≤ 900
    else 600 ≤ x.len && x.len ≤ 2300 && 500 ≤ x.hgt && x.hgt ≤ 1100
  let scan := x.scans 0 || x.scans 1
  if 16 ≤ x.flags || 16 ≤ num 2 1 || num 3 1 ≠ 0 || 16 ≤ x.slots || 1 < x.sfmt || 60000 < x.await then St.badArg
  else if (x.mark && !s.on Fld.DOC_BCFG_MARK) || (!x.mark && (x.bands != 0 || x.mjob != 0)) then St.badArg
  else if (x.scans 1 && !s.on Fld.DOC_BCFG_REAR) || (mode = 0 && x.carriage) || (mode = 1 && !x.carriage) || !sizes then St.badArg
  else if (scan && x.slots = 0) || x.slots &&& s.get Fld.MER_SLT_EN ≠ x.slots || !s.profileOk x then St.badArg
  else if x.mark && s.markCheck x = St.badArg then St.badArg
  else if x.mark && s.markCheck x ≠ St.ok then s.markCheck x
  else if 32 ≤ s.doc.items.countP (·.queued) + s.doc.cand.length || 128 ≤ s.jUsed.length then St.busy
  else St.ok

/-- START passes its checks: its ID is taken (R94), the OPEN/QUEUED record is to be committed before the response (R111); its job is BOUND
(R200). -/
def Chip.startItem (s : Chip) (h : Hdr) (x : Item) : Chip :=
  let s := { s with doc := { s.doc with cand := s.doc.cand ++ [x], commits := s.doc.commits ++ [(⟨.open_ h, x.id⟩ : Commit)] } }
  ((s.setNid (nextId x.id)).bindJob x).syncJournal

/-- May CLEAR leave FAULT (R519, R543)? -/
def Chip.clearable (s : Chip) : Bool :=
  let hot := s.on Fld.FUS_STA_CUT &&
    decide ((s.get Fld.FUS_TCUT_T : Int) - 200 ≤ (s.get (Fld.FUS_TH_T 1) : Int))
  s.get Fld.ILK_LLA_A = 0 && !s.on Fld.ILK_STA_DLAT && !hot && !s.on Fld.CLK_STA_HOLD &&
    !(s.flt.queue.any fun e => FC.engine ≤ e.rep.cls) && s.doc.held.isEmpty && !s.dbg.extest

/-- Last Line is released (R519). -/
def Chip.releaseLL (s : Chip) : Chip :=
  let s := { s with flt := { s.flt with raisedLL := 0 } }
  ((s.put Fld.ILK_LLC_C 0).clr Fld.ILK_STA_LL).gateDrivers

/-- The STATUS block (R104). -/
def Chip.statusBlock (s : Chip) : List Byte :=
  let b (c : Bool) (k : Nat) : Nat := if c then 2 ^ k else 0
  leBytes 1 s.engine ++ leBytes 1 (s.get Fld.DOC_ST_PREV) ++ leBytes 1 (s.get Fld.DOC_STA_NADM) ++ leBytes 1 (s.get Fld.DOC_STA_NQUE) ++
    leBytes 4 (s.get Fld.DOC_NID_ID) ++ leBytes 4 (s.get Fld.DOC_OLD_ID) ++ leBytes 1 (s.get Fld.DOC_JUSE_USE) ++
    leBytes 1 (b s.doc.heatBand 0 + b (s.on Fld.MER_STA_LOCK) 1 + b s.pathEmpty 2) ++ leBytes 2 (s.get Fld.DOC_REFC_CNT)

/-- ABORT (R108, R120): one item, or all that the client may end. -/
def Chip.abortItems (s : Chip) (clid : Byte) (arg : Nat) : Chip :=
  let x := s.mayX clid.toNat Pg.DOC
  let ids := if arg = lostId then (s.doc.items.filter fun i => x || i.client == clid).map (·.id) else [arg]
  ids.foldl (fun t id => t.endAs id Rsn.aborted 0 false false) s |>.startClosings

/-- HALT (R92, R108, R118): the engine stops at once; items end, all reported, in ascending ID, once transport has stopped. -/
def Chip.haltNow (s : Chip) : Chip :=
  if [Eng.off, Eng.halt, Eng.fault].contains s.engine then s
  else
    let s := s.endAll Rsn.aborted 0 true true
    (s.enter Eng.halt 0x01).releaseWaits

/-- Items with AWAIT = 0 that DRAIN finds untested can never be tested: they end WITHDRAWN. -/
def Chip.dropUntested (s : Chip) : Chip :=
  (s.doc.singles.map (·.item)).foldl (fun t id => t.endItem id Out.withdrawn Rsn.none St.ok 0 false) s |>.startClosings

/-- OFF (R92, R108): queued items are withdrawn; the engine enters OFF when they and the admitted ones have been reported (R91, R120). -/
def Chip.offNow (s : Chip) : Chip :=
  let s := (s.withdrawQueued).startClosings
  (if s.engine = Eng.run then s.enter Eng.drain 0x01 else s).offAfterItems

/-- DOC.CTL.EN is cleared: the engine goes to OFF as the command OFF takes it there, since no item may be queued or admitted in OFF, and is held in
it (R91, R122; log entry 141). Only CLEAR leaves FAULT (R92). -/
def Chip.docStop (s : Chip) : Chip :=
  if s.engine = Eng.off || s.engine = Eng.fault then s else s.offNow.settleSingles

/-- The pages that a REPACK frees (R115, R118). -/
def Chip.repackPages (s : Chip) (clid : Byte) (arg : Nat) : List Nat :=
  let x := s.mayX clid.toNat Pg.DOC
  if arg = lostId then s.lostPages
  else s.closedPages.filter fun j => s.idOrder (s.jItem j) ≤ s.idOrder arg && (x || s.jByte j 2 == clid.toNat)

/-- The report that a REPGET returns: the oldest unacknowledged one at or after the ID, whoever's it is (R98, R104), and for 0xFFFF_FFFF the
oldest one of a lost item (R115). -/
def Chip.repgetBytes (s : Chip) (arg : Nat) : List Byte :=
  let j := if arg = lostId then s.lostPages.head?
    else s.closedPages.find? fun j => s.idOrder arg ≤ s.idOrder (s.jItem j)
  match j with
  | some j => s.reportAt j
  | none => []

/-- The effect of a command that passed checks 1–3 of R100, with its response. -/
def Chip.docRun (s : Chip) (h : Hdr) (c arg : Nat) (bs : List Byte) : Chip :=
  if c = Cmd.start then
    let x := s.declared h.clid bs
    let st := s.startCheck bs x
    if st = St.ok then s.startItem h x else s.respond h st []
  else if c = Cmd.wake then if s.dbg.extest then s.respond h St.busy [] else (s.enter Eng.waking 0x01).respond h St.ok []
  else if c = Cmd.off then (s.offNow).respond h St.ok []
  else if c = Cmd.abort then
    if arg ≠ lostId && (s.ownerOf arg).isNone then s.respond h St.badArg []
    else ((s.abortItems h.clid arg).settleSingles).respond h St.ok []
  else if c = Cmd.drain then
    ((s.enter Eng.drain 0x01).dropUntested.settleSingles).respond h St.ok []
  else if c = Cmd.halt then (s.haltNow.settleSingles).respond h St.ok []
  else if c = Cmd.resume then if s.pathEmpty then (s.enter Eng.waking 0x01).respond h St.ok [] else s.respond h St.busy []
  else if c = Cmd.clear then
    if s.clearable then
      let s := (s.releaseLL).clr Fld.FUS_STA_CUT
      ((s.clr Fld.FLT_STA_SAFE).offAfterItems).respond h St.ok []
    else s.respond h St.busy []
  else if c = Cmd.service then
    if s.dbg.extest then s.respond h St.busy []
    else ((((s.withdrawQueued).startClosings).enter Eng.service 0x01).settleSingles).respond h St.ok []
  else if c = Cmd.exit then (s.offAfterItems).respond h St.ok []
  else if c = Cmd.status then s.respond h St.ok s.statusBlock
  else if arg = lostId && s.lostPages.isEmpty then s.respond h St.badArg []
  else if arg ≠ lostId && (s.ownerOf arg).isNone then s.respond h St.badArg []
  else if c = Cmd.repget then s.respond h St.ok (s.repgetBytes arg)
  else
    let ps := s.repackPages h.clid arg
    if ps.isEmpty then s.respond h St.ok []
    else { s with doc := { s.doc with commits := s.doc.commits ++ [(⟨.free h ps, 0⟩ : Commit)] } }

/-- The DOC decoder (R100): an engine command in the order of its checks. Until stage DONE the engine stays in OFF (R44), so what would leave OFF is
refused as its state refuses it. -/
def Chip.docDecode (s : Chip) (h : Hdr) (bs : List Byte) : Chip :=
  let c := (bs.headD 0#8).toNat
  let arg := ofLeBytes ((bs.drop 1).take 4)
  let early := s.get Fld.PSY_BST_STG != 0x0A && [Cmd.wake, Cmd.service].contains c
  let dead := early || (!s.on Fld.DOC_CTL_EN && !([Cmd.abort, Cmd.halt, Cmd.status, Cmd.repget, Cmd.repack].contains c))
  if cmdLen c = 0 || bs.length ≠ cmdLen c then s.respond h St.badArg []
  else if !s.cmdRight h.clid.toNat c arg then s.respond h St.perm []
  else if dead || !legal c s.engine then (s.cmdRefused h.clid c).respond h St.state []
  else (if c = Cmd.status || c = Cmd.repget || c = Cmd.repack then s else s.event Ev.cmd).docRun h c arg bs

/-! ### Timers and other ends (R92, R93, R106, R110, R137) -/

/-- WAKE_COMPLETE (R92): lock and self-checks; a required sensor role that is missing raises SENSOR_CFG (R227). -/
def Chip.wakeComplete (s : Chip) : Chip :=
  if s.engine ≠ Eng.waking then s
  else match s.missingRole with
    | some r => s.raise (report 0x0307 r)
    | none =>
      if !s.on Fld.MER_STA_LOCK || !s.homed then s
      else if s.on Fld.DOC_BCFG_MARK && !s.doc.heatBand then s.enter Eng.warmup 0x02
      else (s.enter Eng.ready 0x02).decision

/-- WAKE_TIMEOUT and WARMUP_TIMEOUT (R92): FAULT by timeout; no fault code goes with it, and actuators stop as FAULT has them.
DESIGN CHOICE (log entry 179): items that were queued in READY stay queued until their ADMIT_WAIT ends; R108 names the end of items for faults with a
class, and a timeout has none. -/
def Chip.timeoutFault (s : Chip) : Chip :=
  let s := (s.goto Eng.fault 0x06).gclr
  let s := ((s.helCmd 0 Mode.coast).helCmd 1 (s.stopMode 0)).helCmd 2 (s.stopMode 1)
  (([3, 4, 5, 6, 7, 8, 9, 10].foldl (fun t n => t.helCmd n Mode.off) s).solOff 0x3F).sidebands false false false s.fab.mtrEn

/-- HEAT_BAND_ENTER (R92, R137, R142). -/
def Chip.heatEnter (s : Chip) : Chip :=
  if !s.th0InBand || s.doc.heatBand then s
  else
    let s := { s with doc := { s.doc with heatBand := true } }
    (if s.engine = Eng.warmup then s.enter Eng.ready 0x03 else s).decision

/-- HEAT_BAND_LEAVE (R92, R137): TH0 has stayed outside for 200 ms. -/
def Chip.heatLeave (s : Chip) : Chip :=
  if s.th0InBand || !s.doc.heatBand then s
  else
    ({ s with doc := { s.doc with heatBand := false } }).heatLost

/-- ADMIT_WAIT_EXPIRY (R110); an item whose ADMITTED commit is under way is left to it. -/
def Chip.admitExpiry (s : Chip) (id : Nat) : Chip :=
  match s.item id with
  | none => s
  | some x =>
    if x.queued && !x.settled && !s.isGranted id && x.await ≠ 0 then
      (s.endItem id Out.withdrawn Rsn.none x.refusal 0 false).startClosings
    else s

/-- HOST_DRAIN_TIMEOUT (R106): BHDT after EXITED with records undrained, which are discarded at the report (R340). -/
def Chip.drainTimeout (s : Chip) (id : Nat) : Chip :=
  match s.item id with
  | none => s
  | some x =>
    if x.phase = 5 && !x.settled && !s.drained id then
      (s.endItem id Out.failed Rsn.hostDrain St.ok 0 false).startClosings
    else s

/-- IDLE_TIMEOUT (R92, R93): no item is queued or admitted, nor about to be queued by an OPEN commit under way. -/
def Chip.idleTimeout (s : Chip) : Chip :=
  if s.engine = Eng.ready && s.doc.items.isEmpty && s.doc.cand.isEmpty && s.get Fld.DOC_BIDT_T ≠ 0 then s.enter Eng.off 0x0A else s

end Sys2Proof.Machine
end

