-- ==== Sys2Proof/Machine/Flags.lean ====
section
/-!
DEFINITION. The ALU of the microword and its flags (R307–R310): every operation's result, carry, overflow and divide-by-zero.
-/
namespace Sys2Proof.Machine

/-- What an operation yields: result, C and V as R308 gives them, and whether it divided by 0 (R309). -/
structure AluOut where
  r : Word
  c : Bool := false
  v : Bool := false
  dz : Bool := false
  deriving DecidableEq, Repr

/-- The exact number clamped to 32 signed bits. -/
def satWord (x : Int) : Word := BitVec.ofInt 32 (clampInt (-2147483648) 2147483647 x)

/-- Does an exact number lie outside 32 signed bits? -/
def outside32 (x : Int) : Bool := x < -2147483648 || 2147483647 < x

/-- A − B, wrapping, with C and V of SUB (R308). -/
def aluSub (a b : Word) : AluOut := { r := a - b, c := decide (b.toNat ≤ a.toNat), v := outside32 (a.toInt - b.toInt) }

/-- Last bit shifted out to the left by `n` (R310). -/
def outLeft (a : Word) (n : Nat) : Bool := decide (1 ≤ n) && decide (n ≤ 32) && a.getLsbD (32 - n)

/-- Last bit shifted out to the right by `n` (R310). -/
def outRight (a : Word) (n : Nat) (sign : Bool) : Bool :=
  if n = 0 then false else if n ≤ 32 then a.getLsbD (n - 1) else sign && a.msb

/-- Leading zeros of a word (R308). -/
def leadingZeros (a : Word) : Nat := ((List.range 32).takeWhile fun i => !a.getLsbD (31 - i)).length

/-- Number of 1 bits (R308). -/
def onesCount (a : Word) : Nat := (List.range 32).countP fun i => a.getLsbD i

/-- Signed quotient (R308, R309). -/
def aluDiv (a b : Word) : AluOut :=
  if b = 0 then { r := if a.msb then 0x80000000 else 0x7FFFFFFF, v := true, dz := true }
  else { r := satWord (a.toInt.tdiv b.toInt), v := outside32 (a.toInt.tdiv b.toInt) }

/-- Signed remainder (R308, R309). -/
def aluRem (a b : Word) : AluOut :=
  if b = 0 then { r := a, v := true, dz := true }
  else { r := BitVec.ofInt 32 (a.toInt.tmod b.toInt), v := outside32 (a.toInt.tdiv b.toInt) }

/-- The ALU (R308): operation code, operands and the carry flag; none for a reserved code. -/
def alu (op : Nat) (a b : Word) (cin : Bool) : Option AluOut :=
  let n := b.toNat % 64
  let bit : Word := 1#32 <<< (b.toNat % 32)
  let ci : Nat := if cin then 1 else 0
  match op with
  | 0x00 => some { r := a }
  | 0x01 => some { r := b }
  | 0x02 => some { r := a + b, c := decide (2 ^ 32 ≤ a.toNat + b.toNat), v := outside32 (a.toInt + b.toInt) }
  | 0x03 => some { r := satWord (a.toInt + b.toInt), c := decide (2 ^ 32 ≤ a.toNat + b.toNat), v := outside32 (a.toInt + b.toInt) }
  | 0x04 => some (aluSub a b)
  | 0x05 => some { aluSub a b with r := satWord (a.toInt - b.toInt) }
  | 0x06 => some { r := a + b + BitVec.ofNat 32 ci, c := decide (2 ^ 32 ≤ a.toNat + b.toNat + ci), v := outside32 (a.toInt + b.toInt + ci) }
  | 0x07 => some { r := a - b - BitVec.ofNat 32 (1 - ci), c := decide (b.toNat + (1 - ci) ≤ a.toNat), v := outside32 (a.toInt - b.toInt - (1 - ci : Nat)) }
  | 0x08 => some { r := satWord (-a.toInt), v := outside32 (-a.toInt) }
  | 0x09 => some { r := satWord a.toInt.natAbs, v := outside32 a.toInt.natAbs }
  | 0x0A => some { r := a &&& b }
  | 0x0B => some { r := a ||| b }
  | 0x0C => some { r := a ^^^ b }
  | 0x0D => some { r := ~~~a }
  | 0x0E => some { r := a &&& ~~~b }
  | 0x10 => some { r := a <<< n, c := outLeft a n, v := if 32 ≤ n then a != 0 else decide (2 ^ 32 ≤ a.toNat * 2 ^ n) }
  | 0x11 => some { r := satWord (a.toInt * (2 ^ n : Nat)), c := outLeft a n, v := outside32 (a.toInt * (2 ^ n : Nat)) }
  | 0x12 => some { r := a >>> n, c := outRight a n false }
  | 0x13 => some { r := a.sshiftRight n, c := outRight a n true }
  | 0x14 => some { r := a.rotateRight (n % 32), c := n != 0 && (a.rotateRight (n % 32)).msb }
  | 0x15 => some { r := a * b, v := outside32 (a.toInt * b.toInt) }
  | 0x16 => some { r := satWord (a.toInt * b.toInt), v := outside32 (a.toInt * b.toInt) }
  | 0x17 => some { r := BitVec.ofInt 32 (a.toInt * b.toInt / 4294967296) }
  | 0x18 => some (aluDiv a b)
  | 0x19 => some (aluRem a b)
  | 0x1A => some { r := if a.toInt ≤ b.toInt then a else b }
  | 0x1B => some { r := if a.toInt ≤ b.toInt then b else a }
  | 0x1C => some (aluSub a b)
  | 0x1D => some { r := a &&& b }
  | 0x1E => some { r := BitVec.ofNat 32 (leadingZeros a) }
  | 0x1F => some { r := BitVec.ofNat 32 (onesCount a) }
  | 0x20 => some { r := a ||| bit }
  | 0x21 => some { r := a &&& ~~~bit }
  | 0x22 => some { r := a &&& bit }
  | 0x23 => some { r := a + 1, c := decide (a = 0xFFFFFFFF#32), v := decide (a = 0x7FFFFFFF#32) }
  | 0x24 => some { r := a - 1, c := decide (a ≠ 0#32), v := decide (a = 0x80000000#32) }
  | _ => none

/-- The flags of a context (ORC.FLG). -/
structure Flags where
  z : Bool
  n : Bool
  c : Bool
  v : Bool
  deriving DecidableEq, Repr

/-- The flags after a result, under FLG (R307). -/
def flagsAfter (flg : Nat) (o : AluOut) (f : Flags) : Flags :=
  let zn := { f with z := decide (o.r = 0#32), n := o.r.msb }
  match flg with
  | 1 => zn
  | 2 => { zn with c := o.c }
  | 3 => { zn with c := o.c, v := o.v }
  | _ => f

end Sys2Proof.Machine
end

