-- ==== Sys2Proof/Machine/Operands.lean ====
section
/-!
DEFINITION. The microword: its fields (R297), reserved encodings (R298), conditions (R303), the wait limit (R304) and operands (R305).
-/
namespace Sys2Proof.Machine

/-- A microword's fields (R297). -/
structure MWord where
  seq : Nat
  tgt : Nat
  cnd : Nat
  cpol : Bool
  wait : Bool
  tmo : Nat
  alu : Nat
  asel : Nat
  bsel : Nat
  dst : Nat
  flg : Nat
  imm : Nat
  evt : Nat
  act0 : Nat
  act1 : Nat
  act2 : Nat
  act3 : Nat
  tmr : Nat
  mode : Nat
  deriving DecidableEq, Repr

/-- The fields of a 128-bit word. -/
def mword (w : Nat) : MWord :=
  { seq := bitsOf w 124 4, tgt := bitsOf w 112 12, cnd := bitsOf w 105 7, cpol := bitsOf w 104 1 == 1, wait := bitsOf w 103 1 == 1,
    tmo := bitsOf w 96 7, alu := bitsOf w 90 6, asel := bitsOf w 85 5, bsel := bitsOf w 80 5, dst := bitsOf w 75 5,
    flg := bitsOf w 72 3, imm := bitsOf w 48 24, evt := bitsOf w 40 8, act0 := bitsOf w 32 8, act1 := bitsOf w 24 8,
    act2 := bitsOf w 16 8, act3 := bitsOf w 8 8, tmr := bitsOf w 4 4, mode := bitsOf w 0 4 }

/-- Reserved condition numbers (R303). -/
def cndReserved (k : Nat) : Bool :=
  [0x2F, 0x3D, 0x3E, 0x3F, 0x5F, 0x6E, 0x6F, 0x7D, 0x7E, 0x7F].contains k || 0x80 ≤ k

/-- Event conditions (R303); the others are levels. -/
def cndEvent (k : Nat) : Bool :=
  k == 0x06 || (0x10 ≤ k && k ≤ 0x16) || (0x18 ≤ k && k ≤ 0x1F) || k == 0x21 || (0x23 ≤ k && k ≤ 0x28) || k == 0x2D ||
    (0x36 ≤ k && k ≤ 0x3B) || k == 0x40 || k == 0x41 || k == 0x54 || k == 0x55 || k == 0x6D || (0x70 ≤ k && k ≤ 0x78)

/-- Does a word hold a reserved encoding (R298)? Each field is judged from its own code. -/
def MWord.reserved (m : MWord) : Bool :=
  8 ≤ m.seq || cndReserved m.cnd || m.alu = 0x0F || 0x25 ≤ m.alu || (4 ≤ m.dst && m.dst ≤ 7) || (4 ≤ m.flg && m.flg ≤ 6) ||
    32 ≤ m.act0 || !(m.act1 = 0 || m.act1 = 0xF0 || m.act1 = 0xF1 || (m.act1 / 16 < 12 && bitsOf m.act1 3 1 = 1)) ||
    (m.act2 < 64 && m.act2 != 0) || 192 ≤ m.act2 || (m.act3 < 64 && m.act3 != 0) ||
    (192 ≤ m.act3 && bitsOf m.act3 4 2 = 3 && 6 ≤ bitsOf m.act3 0 4) || (m.tmr < 8 && m.tmr != 0) ||
    bitsOf m.mode 0 2 = 3 || 2 ≤ bitsOf m.mode 2 2

/-- The word at a control-store address, as 128 bits. -/
def Chip.mwordAt (s : Chip) (a : Nat) : MWord := mword (s.num (ctlStore + 16 * (a % 4096)) 16)

/-- The flags of a context. -/
def Chip.flagsOf (s : Chip) (c : Nat) : Flags :=
  { z := s.on (Fld.ORC_FLG_Z c), n := s.on (Fld.ORC_FLG_N c), c := s.on (Fld.ORC_FLG_C c), v := s.on (Fld.ORC_FLG_V c) }

/-- Show flags. -/
def Chip.setFlags (s : Chip) (c : Nat) (f : Flags) : Chip :=
  (((s.putB (Fld.ORC_FLG_Z c) f.z).putB (Fld.ORC_FLG_N c) f.n).putB (Fld.ORC_FLG_C c) f.c).putB (Fld.ORC_FLG_V c) f.v

/-- Is the speed of axis `a` within ±1 % of MOT.CMn.SPD (SPDA, SPDB)? -/
def Chip.atSpeed (s : Chip) (a : Nat) : Bool :=
  let t := signedOf (s.get (Fld.MOT_CM_SPD a)) 24 * 256
  decide (((s.axis a).vel - t).natAbs * 100 ≤ t.natAbs)

/-- Is an HV channel within ±2 % of its target, by its feedback as last received (HVAT0–HVAT3)? -/
def Chip.hvNear (s : Chip) (n : Nat) : Bool :=
  let m := s.fab.up.meas
  let y := (match n with
    | 0 => m.hvf0.toNat
    | 1 => m.hvf1.toNat
    | 2 => m.hvf2.toNat
    | _ => m.hvf3.toNat)
  let t := s.hvTarget n
  decide (((y - t) + (t - y)) * 50 ≤ t)

/-- The level or latch of condition `k` for context `c`, before CPOL (R303). States of the P-die and the F-die are those last received (R302). -/
def Chip.cond (s : Chip) (c k : Nat) : Bool :=
  let x := s.ctx c
  let f := s.flagsOf c
  if cndEvent k then x.evl.contains k
  else match k with
  | 0x00 => true
  | 0x01 => f.z
  | 0x02 => f.n
  | 0x03 => f.c
  | 0x04 => f.v
  | 0x05 => s.on (Fld.ORC_FLG_TMOX c)
  | 0x07 => x.dz
  | 0x08 => f.n != f.v
  | 0x09 => f.z || f.n != f.v
  | 0x0A => !f.c
  | 0x0B => !f.c || f.z
  | 0x0C => x.lc == 0#32
  | 0x0D => x.rref
  | 0x0E => x.remp
  | 0x0F => x.berr
  | 0x17 => s.fab.up.pfail
  | 0x20 => s.on Fld.MER_STA_LOCK
  | 0x22 => s.on Fld.MER_STA_FLY
  | 0x29 => !s.img.t0.pend.isEmpty
  | 0x2A => !s.img.t1.pend.isEmpty
  | 0x2B => s.mrk.wts.any fun w => !w.pend.isEmpty
  | 0x2C => !(s.ring 3).ents.isEmpty
  | 0x2E => s.on Fld.MER_STA_IDXOK
  | 0x3C => s.pathEmpty
  | 0x42 => s.atSpeed 0
  | 0x43 => s.atSpeed 1
  | 0x44 => !s.mot.axA.counting
  | 0x45 => !s.mot.axB.counting
  | 0x46 => bitsOf (s.get Fld.ENC_STA_LOST) 0 1 == 1
  | 0x47 => bitsOf (s.get Fld.ENC_STA_LOST) 1 1 == 1
  | 0x48 => s.fab.up.pst == 3
  | 0x49 => s.homed
  | 0x50 => s.on Fld.MRK_STA_HVRDY
  | 0x51 => s.on Fld.MRK_STA_TRNON
  | 0x52 => s.doc.heatBand
  | 0x53 => decide ((s.fab.up.th0 : Int) < (s.tset : Int) - 5 * s.get Fld.LGR_HEAT_BLO)
  | 0x56 => s.on Fld.MRK_STA_NIP
  | 0x57 => s.fab.up.cut
  | 0x6C => s.get Fld.HEL_PIN_S != 0
  | 0x79 => bitsOf (s.get (Fld.DBR_MVAL_V 5)) 8 1 == 1
  | 0x7A => s.doc.commits.isEmpty
  | 0x7B => s.fab.up.nvBusy
  | 0x7C => s.on Fld.CAL_STA_BUSY
  | _ =>
    if 0x30 ≤ k && k ≤ 0x35 then bitsOf (s.get Fld.SNS_LVL_COV) (k - 0x30) 1 == 1
    else if 0x4A ≤ k && k ≤ 0x4F then bitsOf s.fab.up.son (k - 0x4A) 1 == 1
    else if 0x58 ≤ k && k ≤ 0x5B then s.hvNear (k - 0x58)
    else if 0x5C ≤ k && k ≤ 0x5E then bitsOf s.fab.up.on (k - 0x5C) 1 == 1
    else if 0x60 ≤ k && k ≤ 0x6B then s.on (Fld.HLP_ST_LOSS (k - 0x60))
    else false

/-- A word's condition after CPOL. -/
def Chip.test (s : Chip) (c : Nat) (m : MWord) : Bool := s.cond c m.cnd != m.cpol

/-- The wait limit T (R304). -/
def Chip.limitOf (s : Chip) (c : Nat) (m : MWord) : Nat :=
  let e := m.tmo % 8
  let k := m.tmo / 8
  if e < 7 then k * 2 ^ e
  else if k = 0 then m.imm
  else (s.get (Fld.ORC_W_W c k)) % 2 ^ 24

/-- An operand that is no MEM read (R305): ASEL 0x00–0x1E, and BSEL 0x00–0x1F with 0x1F the constant 0. -/
def Chip.operand (s : Chip) (c sel imm : Nat) : Word :=
  if sel < 0x10 then s.rd (Reg.ORC_W c sel)
  else if sel < 0x18 then s.rd (Reg.ORR_V (sel - 0x10))
  else match sel with
  | 0x18 => BitVec.ofInt 32 (signedOf imm 24)
  | 0x19 => s.rd (Reg.ENC_POS 0)
  | 0x1A => s.rd (Reg.ENC_POS 1)
  | 0x1B => s.rd Reg.MER_LCNT
  | 0x1C => BitVec.ofNat 32 (s.ring (imm % 64)).ents.length
  | 0x1D => s.rd (Reg.DBR_MVAL (imm % 16))
  | 0x1E => (s.ctx c).lc
  | _ => 0#32

end Sys2Proof.Machine
end

