-- ==== Sys2Proof/Machine/Orrery.lean ====
section
/-!
DEFINITION. The contexts of the Orrery (chapter 10): their states, start and stop (R272, R292, R294), software events on their way
(R277), dispatch entries (R278–R283), context faults (R281, R284, R290, R298), timers (R316) and the bank swap (R291).
-/
namespace Sys2Proof.Machine

/-! States of a context (R272). -/
namespace CtxSt
abbrev stopped : Nat := 0
abbrev run : Nat := 1
abbrev wait : Nat := 2
abbrev sleep : Nat := 3
abbrev busw : Nat := 4
abbrev fault : Nat := 5
end CtxSt

/-- A context with its state cleared. -/
def noCtx : Ctx :=
  { lc := 0#32, stack := [], evl := [], seen := 0, dz := false, rref := false, remp := false, berr := false, k := 0, limit := 0,
    word := 0, sel := none, memData := none, saved := none, wdg := 0, stopAfter := false, pairHold := false, t0 := none, t1 := none, t2 := none, t3 := none }

/-- The state of a context. -/
def Chip.ctxSt (s : Chip) (c : Nat) : Nat := s.get (Fld.ORC_ST_STATE c)

/-- ORR.STA.RUNC shows the contexts that are not STOPPED or FAULT. -/
def Chip.syncRunc (s : Chip) : Chip :=
  s.put Fld.ORR_STA_RUNC (maskOf 4 fun c => s.ctxSt c != CtxSt.stopped && s.ctxSt c != CtxSt.fault)

/-- A context changes its state. -/
def Chip.setCtxSt (s : Chip) (c st : Nat) : Chip := (s.put (Fld.ORC_ST_STATE c) st).syncRunc

/-- The address of the word to be executed next, or held. -/
def Chip.pc (s : Chip) (c : Nat) : Nat := s.get (Fld.ORC_ST_PC c)

/-- Set it. -/
def Chip.setPc (s : Chip) (c a : Nat) : Chip := s.put (Fld.ORC_ST_PC c) (a % 4096)

/-- Change a context. -/
def Chip.updCtx (s : Chip) (c : Nat) (f : Ctx → Ctx) : Chip := s.setCtx c (f (s.ctx c))

/-- Replace the return stack, with ORC.STn.SP. -/
def Chip.setStack (s : Chip) (c : Nat) (l : List Frame) : Chip :=
  (s.updCtx c fun x => { x with stack := l }).put (Fld.ORC_ST_SP c) l.length

/-- A context's W registers, flags, loop counter, stack, latches and marks are cleared (R291, R292, R296). -/
def Chip.clearCtx (s : Chip) (c : Nat) : Chip :=
  let s := s.setCtx c noCtx
  let s := (List.range 16).foldl (fun t j => t.wr (Reg.ORC_W c j) 0#32) s
  ((s.wr (Reg.ORC_FLG c) 0#32).wr (Reg.ORC_PEND c) 0#32).put (Fld.ORC_ST_SP c) 0

/-- A context starts at ENTn in its mode of CFGn with its own state cleared (R273, R292, R296). -/
def Chip.startCtx (s : Chip) (c : Nat) : Chip :=
  let s := (s.clearCtx c).setPc c (s.get (Fld.ORC_ENT_A c))
  (s.put (Fld.ORC_ST_LOCK c) (s.get (Fld.ORC_CFG_LOCK c))).setCtxSt c CtxSt.run

/-- Does a context in BUSW still wait for data, for a guarded pair or for room in its queue (R287)? `k` is its number as a master. -/
def Chip.awaits (s : Chip) (k : Nat) : Bool :=
  (s.ctx k).pairHold || (s.fab.reads.any fun r => mCode r.master == k) || decide (16 ≤ s.fab.posted.countP fun w => mCode w.master == k)

/-- A context stops at the end of its slot; one in BUSW stops when its data returns, at once where it is back (R294). A held word is abandoned. -/
def Chip.stopCtx (s : Chip) (c : Nat) : Chip :=
  if s.ctxSt c = CtxSt.busw && s.awaits c then s.updCtx c fun x => { x with stopAfter := true }
  else (s.updCtx c fun x => { x with memData := none, saved := none }).setCtxSt c CtxSt.stopped

/-- ORR.CTL.EN is set (R292, R294). -/
def Chip.orrStart (s : Chip) : Chip := [0, 1, 2, 3].foldl (fun t c => t.startCtx c) s

/-- ORR.CTL.EN is cleared (R294). -/
def Chip.orrStop (s : Chip) : Chip := [0, 1, 2, 3].foldl (fun t c => t.stopCtx c) s

/-- ORC.CMD (R296). -/
def Chip.orcCmd (s : Chip) (v : Word) : Chip :=
  let c := bitsOf v.toNat 0 2
  if bitsOf v.toNat 8 2 = 1 then s.stopCtx c else s.startCtx c

/-- A context fault: FAULT, IST.CFLT and the ENGINE-class fault with the context number (R281, R284, R290, R298). -/
def Chip.ctxFault (s : Chip) (c code : Nat) : Chip :=
  ((s.setCtxSt c CtxSt.fault).set Fld.ORR_IST_CFLT).raise (report code c 0 (s.pc c))

/-! ### Slots and software events (R269, R277) -/

/-- The next cycle that context `c` owns (R269). -/
def Chip.nextCycle (s : Chip) (c : Nat) : Nat :=
  let n := s.get Fld.ORR_CYC_N
  (n + 1 + (c + 7 - n % 4) % 4) % 2 ^ 32

/-- Events that have passed the router by cycle `n` become visible (R277). -/
def Chip.deliverEvents (s : Chip) (n : Nat) : Chip :=
  let due (x : Nat × Nat) : Bool := 2 ≤ (n + 2 ^ 32 - x.1) % 2 ^ 32
  let seen := s.orr.evq.filter due
  seen.foldl (fun t x => t.eventAll x.2) { s with orr := { s.orr with evq := s.orr.evq.filter fun x => !due x } }

/-- EVT strobes of a word executed in the present cycle (R311). -/
def Chip.raiseSevs (s : Chip) (mask : Nat) : Chip :=
  ((List.range 8).filter fun i => bitsOf mask i 1 == 1).foldl (fun t i => t.event (0x18 + i)) s

/-- A later slot of context `c` comes, `k` slots after the last one. -/
def Chip.atSlot (s : Chip) (c k : Nat) : Chip :=
  let n := (s.nextCycle c + 4 * k) % 2 ^ 32
  (s.put Fld.ORR_CYC_N n).deliverEvents n

/-! ### Dispatch entries (R278–R281) -/

/-- Pending latch and in-service mark of entry `n`. -/
def Chip.pends (s : Chip) (c n : Nat) : Bool := bitsOf (s.get (Fld.ORC_PEND_PND c)) n 1 == 1
def Chip.inService (s : Chip) (c n : Nat) : Bool := bitsOf (s.get (Fld.ORC_PEND_INSV c)) n 1 == 1

/-- Entries of `c` whose level condition has become true are pending (R278); disabled entries are not. -/
def Chip.latchLevels (s : Chip) (c : Nat) : Chip :=
  let now := maskOf 8 fun n => s.on (Fld.ORC_DSP_EN c n) && !cndEvent (s.get (Fld.ORC_DSP_COND c n)) &&
    s.cond c (s.get (Fld.ORC_DSP_COND c n))
  let en := maskOf 8 fun n => s.on (Fld.ORC_DSP_EN c n)
  let new := now &&& (255 - (s.ctx c).seen)
  (s.put (Fld.ORC_PEND_PND c) ((s.get (Fld.ORC_PEND_PND c) ||| new) &&& en)).updCtx c fun x => { x with seen := now }

/-- The lowest pending entry. -/
def Chip.lowestPending (s : Chip) (c : Nat) : Option Nat := (List.range 8).find? fun n => s.pends c n

/-- The preempting entry to be taken: the lowest pending one, with no entry of equal or lower index in service (R279). -/
def Chip.preemptor (s : Chip) (c : Nat) : Option Nat :=
  ((List.range 8).find? fun n => s.pends c n && s.on (Fld.ORC_DSP_PRE c n)).filter fun n =>
    (List.range (n + 1)).all fun i => !s.inService c i

/-- An entry is taken (R280, R281): `back` is the address that a CALL pushes. -/
def Chip.takeEntry (s : Chip) (c n back : Nat) : Chip :=
  let x := s.ctx c
  let taken := s.put (Fld.ORC_PEND_PND c) (s.get (Fld.ORC_PEND_PND c) &&& (255 - 2 ^ n))
  let taken := taken.updCtx c fun x => { x with sel := none }
  let go (t : Chip) : Chip := (t.setPc c (s.get (Fld.ORC_DSP_VEC c n))).setCtxSt c CtxSt.run
  if s.on (Fld.ORC_DSP_KIND c n) then
    go ((taken.setStack c []).put (Fld.ORC_PEND_INSV c) 0)
  else if 8 ≤ x.stack.length then (taken.ctxFault c 0x0701)
  else go ((taken.setStack c ((⟨back % 4096, some n⟩ : Frame) :: x.stack)).put (Fld.ORC_PEND_INSV c)
    (s.get (Fld.ORC_PEND_INSV c) ||| 2 ^ n))

/-- The address that a CALL pushes for a preempting entry (R280): the held word's, or that of the next word. A sleeping context
goes on after its YIELD. -/
def Chip.backAddr (s : Chip) (c : Nat) : Nat := if s.ctxSt c = CtxSt.sleep then s.pc c + 1 else s.pc c

/-- An own write of a dispatch entry keeps the latch unless it disables the entry (R278, R295). -/
def Chip.dspWritten (s : Chip) (c : Nat) : Chip :=
  s.put (Fld.ORC_PEND_PND c) (s.get (Fld.ORC_PEND_PND c) &&& maskOf 8 fun n => s.on (Fld.ORC_DSP_EN c n))

/-! ### Timers and the watchdog (R284, R316) -/

/-- Timer `n` of a context. -/
def Ctx.timer (x : Ctx) (n : Nat) : Option Nat :=
  match n with
  | 0 => x.t0
  | 1 => x.t1
  | 2 => x.t2
  | _ => x.t3

/-- Set it. -/
def Ctx.setTimer (x : Ctx) (n : Nat) (v : Option Nat) : Ctx :=
  match n with
  | 0 => { x with t0 := v }
  | 1 => { x with t1 := v }
  | 2 => { x with t2 := v }
  | _ => { x with t3 := v }

/-- A timer is started with a load; 0 raises TMRn at once (R316). -/
def Chip.startTimer (s : Chip) (c n load : Nat) (us : Bool) : Chip :=
  if load = 0 then (s.updCtx c fun x => x.setTimer n none).eventTo c (0x70 + n)
  else s.updCtx c fun x => x.setTimer n (some (load + if us then 2 ^ 24 else 0))

/-- CONTEXT_TIMER_EXPIRY: a running timer reaches 0 (R316). -/
def Chip.timerExpiry (s : Chip) (c n : Nat) : Chip :=
  match (s.ctx c).timer n with
  | none => s
  | some _ => (s.updCtx c fun x => x.setTimer n none).eventTo c (0x70 + n)

/-- Does the watchdog counter of a context run: in WAIT, in BUSW, or in a JUMP to its own address (R284)? -/
def Chip.wdgRuns (s : Chip) (c : Nat) : Bool :=
  let st := s.ctxSt c
  let m := s.mwordAt (s.pc c)
  st = CtxSt.wait || st = CtxSt.busw || (st = CtxSt.run && m.seq = 1 && m.tgt = s.pc c)

/-- CONTEXT_WATCHDOG: the counter of a context for which it runs has reached WDGn (R284). -/
def Chip.ctxWatchdog (s : Chip) (c : Nat) : Chip :=
  if s.get (Fld.ORC_WDG_US c) ≠ 0 && s.wdgRuns c then
    ((s.updCtx c fun x => { x with wdg := 0 }).set Fld.ORR_IST_WDG).ctxFault c 0x0702
  else s

/-- The slots that the watchdog of a context allows: WDGn µs of 50 slots each (R284). -/
def Chip.wdgSlots (s : Chip) (c : Nat) : Nat := 50 * s.get (Fld.ORC_WDG_US c)

/-- `k` slots of a context have passed: its watchdog counter counts them while it runs, and starts again with a completed word (R284). -/
def Chip.wdgCount (s : Chip) (c k : Nat) : Chip :=
  if s.get (Fld.ORC_WDG_US c) = 0 then s
  else if !s.wdgRuns c then s.updCtx c fun x => { x with wdg := 0 }
  else
    let s := s.updCtx c fun x => { x with wdg := x.wdg + k }
    if s.wdgSlots c ≤ (s.ctx c).wdg then s.ctxWatchdog c else s

/-! ### Bank swap (R291) -/

/-- SWP.ARM: the measurement of the staging bank starts. -/
def Chip.swapArm (s : Chip) : Chip := s.set Fld.ORR_STA_MEAS

/-- ARMD falls, by SWP.DIS or by a write to the staging bank. -/
def Chip.swapDisarm (s : Chip) : Chip :=
  if s.on Fld.ORR_STA_ARMD then (s.clr Fld.ORR_STA_ARMD).set Fld.ORR_IST_DISARM else s

/-- A write of ORR.SWP. -/
def Chip.swpWrite (s : Chip) (v : Word) : Chip :=
  let s := if bitsOf v.toNat 1 1 = 1 then s.swapDisarm else s
  if bitsOf v.toNat 0 1 = 1 then s.swapArm else s

/-- BANK_SWAP: at a document boundary with ARMD, no journal commit in progress and no context in BUSW; with ORR disabled it waits
(R291, R295). -/
def Chip.bankSwap (h : Hooks) (s : Chip) : Chip :=
  let busy := [0, 1, 2, 3].any fun c => s.ctxSt c == CtxSt.busw
  if s.on Fld.ORR_STA_ARMD && s.noneAdmitted && s.doc.commits.isEmpty && !busy && s.on Fld.ORR_CTL_EN then
    let s := s.swapRanges ctlStore staging 0x10000
    let s := { s with orr := { s.orr with ecc := s.orr.eccStage, eccStage := s.orr.ecc, stale := none } }
    let s := s.applyShadows h Pg.ORC (fun x => s.boundOf x == some (bndBit .document) || (x.addr - Pg.ORC) % 0x80 == 0x40)
    let s := s.orrStart
    ((((s.clr Fld.ORR_STA_ARMD).inc Fld.ORR_SWPC_N).set Fld.ORR_IST_SWAP).set Fld.ORR_STA_HOSTC).set Fld.MSR_FLG_HOSTC
  else s

end Sys2Proof.Machine
end

