-- ==== Sys2Proof/Machine/CentralStore.lean ====
section
/-!
DEFINITION. Commands of the Central Store (chapter 12): the record writer (R187, R338), the host port (R323–R325), consumption and
discard (R339, R340), errors, refresh, initialisation and scrubbing (R330–R333), and ring configuration (R327, R342).
-/
namespace Sys2Proof.Machine

/-- What follows the consumption of entries: items may be DONE (R106), and a release counts at the next decision point. -/
def Chip.afterConsume (s : Chip) : Chip := s.tryDoneAll

/-- DATA_ENTRY_CONSUMED: the oldest popped entry of ring `n` is complete (R325, R339). -/
def Chip.entryConsumed (s : Chip) (n : Nat) : Chip := (s.complete n).afterConsume

/-! ### The record writer (R187, R338) -/

/-- Where the next record of a station goes, in 32-byte units. -/
def Chip.recAt (s : Chip) (stn : Nat) : Nat := if stn = 0 then s.img.w0 else s.img.w1

/-- Set it. -/
def Chip.setRecAt (s : Chip) (stn u : Nat) : Chip :=
  { s with img := if stn = 0 then { s.img with w0 := u } else { s.img with w1 := u } }

/-- A record is dropped (R187, R324). -/
def Chip.dropRecord (s : Chip) (ring item : Nat) : Chip :=
  (((s.bump Fld.IMG_DROP_SDROP).set Fld.IMG_IST_SOVF).set Fld.RNG_IST_DROP).raise (report 0x0801 ring 0 0 item)

/-- Write one record into the item's run and push its entry. -/
def Chip.storeRecord (s : Chip) (r : Rec) (i : Nat) : Chip :=
  let run := s.runOf i r.stn
  let s := if r.bytes.headD 0#8 = 0x01#8 then s.setRecAt r.stn (run.2 * 2048) else s
  let u := s.recAt r.stn
  let units := r.bytes.length / 32
  let n := s.imgRing r.stn
  if s.entriesHeld i r.stn = 0 || (run.2 + run.1) * 2048 < u + units || u < run.2 * 2048 then
    (s.bump (Fld.RNG_STAT_REF n)).dropRecord n r.item
  else
    match (s.storeBytes (store + 32 * u) r.bytes).push n .img { val := dataEntry u units, item := r.item } with
    | (.stored, t) => (t.setEntries i r.stn (t.entriesHeld i r.stn - 1)).setRecAt r.stn (u + units)
    | (_, t) => t.dropRecord n r.item

/-- The LCNT of a line record (R189), which tells its facet. -/
def Rec.facet (r : Rec) : Option Nat := if r.bytes.headD 0#8 = 0x02#8 then some (ofLeBytes ((r.bytes.drop 16).take 4)) else none

/-- Does a record of the rear station wait for the front station's record of the same facet (R194)? -/
def Chip.behindFront (s : Chip) (r : Rec) : Bool :=
  r.stn == 1 && r.facet.any fun f =>
    s.img.recs.any (fun q => q.stn == 0 && q.facet == some f) || s.img.t0.fired.any (fun x => x.lcnt == f)

/-- RECORD_PUSH: the oldest record of a station (R187), S0's first where both stations have swept a facet (R194). Its trailer returns
what the run does not need (R339). -/
def Chip.recordPush (s : Chip) (stn : Nat) : Chip :=
  match s.img.recs.find? (·.stn == stn) with
  | none => s
  | some r =>
    if s.behindFront r then s else
    let s := { s with img := { s.img with recs := eraseFirst (·.stn == stn) s.img.recs } }
    let s := match s.rsvOf r.item with
      | some i => s.storeRecord r i
      | none => (s.bump (Fld.RNG_STAT_REF (s.imgRing stn))).dropRecord (s.imgRing stn) r.item
    if r.bytes.headD 0#8 = 0x03#8 then (s.trimRun r.item stn).tryDone r.item else s

/-! ### The host port (R323–R325) -/

/-- HPSH: a push onto ring HSEL as HOST; EN is judged first (R327), and a full ring holds the push (R324). -/
def Chip.hpsh (s : Chip) (m : Master) (v : Word) : Status × Chip :=
  let n := s.get Fld.RNG_HSEL_RING
  if !s.ringOpen n then (St.state, s)
  else match s.pushOrHold n .host v [] (some m) with
    | (.wrongClass, _) => (St.perm, s)
    | (.disabled, _) => (St.state, s)
    | (_, t) => (St.ok, t)

/-- HPOP: a pop of ring HSEL as HOST (R322, R323); EN is judged first (R327). -/
def Chip.hpop (s : Chip) : (Word × Status) × Chip :=
  if !s.ringOpen (s.get Fld.RNG_HSEL_RING) then ((0#32, St.state), s)
  else match s.popRing (s.get Fld.RNG_HSEL_RING) .host with
    | (.entry e, t) => ((e.val, St.ok), (t.clr Fld.RNG_HSTA_EMP).wr Reg.RNG_HPOP e.val)
    | (.empty, t) => ((0xFFFFFFFF#32, St.ok), (t.set Fld.RNG_HSTA_EMP).wr Reg.RNG_HPOP 0xFFFFFFFF#32)
    | (.wrongClass, t) => ((0#32, St.perm), t)
    | (.disabled, t) => ((0#32, St.state), t)

/-- HDONE (R325). -/
def Chip.hdone (s : Chip) (v : Word) : Chip :=
  let n := s.get Fld.RNG_HSEL_RING
  if bitsOf v.toNat 0 1 = 1 && s.get (Fld.RNG_RCFG_CNS n) = RCls.host.code then s.entryConsumed n else s

/-- RING_PUSH_TIMEOUT: the oldest host push that has been refused for 50 µs is not stored (R324): who wrote it, and what it held up. -/
def Chip.pushTimeout (s : Chip) (n : Nat) : Option Master × Chip :=
  if s.get (Fld.RNG_RCFG_PRD n) = RCls.code .host then
    (let x := s.dropPush n
     (x.1, x.2.retryHeld n (x.2.ring n).held.length))
  else (none, s)

/-! ### Configuration (R327, R329, R342) -/

/-- Does a ring hold entries that an admitted item has reserved? -/
def Chip.ringReserved (s : Chip) (n : Nat) : Bool := s.reservedOn n != 0

/-- May EN of ring `n` be set with this entry array (R320, R327)? -/
def Chip.arrayOk (s : Chip) (n capc base : Nat) : Bool :=
  1 ≤ capc && capc ≤ 16 &&
  let size := 4 * 2 ^ capc
  let sys := s.get Fld.CST_SYSR_BASE * 65536
  let sysEnd := sys + s.get Fld.CST_SYSR_SZ * 65536
  let clash := (List.range 64).any fun k =>
    k != n && s.on (Fld.RNG_RCFG_EN k) &&
      decide (4 * base < 4 * s.get (Fld.RNG_RBAS_A k) + 4 * s.ringCap k) && decide (4 * s.get (Fld.RNG_RBAS_A k) < 4 * base + size)
  decide (sys ≤ 4 * base) && decide (4 * base + size ≤ sysEnd) && decide (4 * base % size = 0) && !clash

/-- Do the SYS, HOST and PRINT regions lie inside the store without overlap (R329)? -/
def Chip.regionsOk (s : Chip) : Bool :=
  let rs := [(s.get Fld.CST_SYSR_BASE, s.get Fld.CST_SYSR_SZ), (s.get Fld.CST_HSTR_BASE, s.get Fld.CST_HSTR_SZ), s.printRegion]
  let apart (x y : Nat × Nat) : Bool := x.1 + x.2 ≤ y.1 || y.1 + y.2 ≤ x.1
  rs.all (fun r => decide (r.1 + r.2 ≤ 1024)) &&
    (match rs with
      | [a, b, c] => apart a b && apart a c && apart b c
      | _ => false)

/-- May CST.CTL.EN be cleared (R342)? -/
def Chip.storeIdle (s : Chip) : Bool :=
  [Eng.off, Eng.fault, Eng.service].contains s.engine && (List.range 8).all (fun i => s.get (Fld.CST_RSVI_ITEM i) == 0) &&
    s.cst.rings.all fun r => r.2.ents.isEmpty

/-! ### Errors, refresh, sweep, scrub (R330–R333) -/

/-- The item whose reservation holds a granule. -/
def Chip.granuleItem (s : Chip) (g : Nat) : Option Nat :=
  ((List.range 8).find? fun i => inRegion g (s.get (Fld.CST_RSVF_BASE i)) (s.get (Fld.CST_RSVF_G i)) ||
    inRegion g (s.get (Fld.CST_RSVR_BASE i)) (s.get (Fld.CST_RSVR_G i))).map fun i => s.get (Fld.CST_RSVI_ITEM i)

/-- STORE_UE names the item whose reservation holds an address, if one does (R332). -/
def Chip.storeUe (s : Chip) (a : Nat) : Chip :=
  match s.granuleItem ((a - store) / 65536) with
  | some id => s.raise (report 0x0802 0 0 a id)
  | none => s

/-- Data drained to the host with an uncorrectable error in it (R332). -/
def Chip.drainErrors (s : Chip) (a n : Nat) : Chip :=
  (s.cst.ue.filter fun w => decide (a < w + 8) && decide (w < a + n)).foldl (fun t w => (t.countStoreUe w).storeUe w) s

/-- REFRESH (R330): a refresh is postponed while RT traffic waits, at most 8 times. -/
def Chip.refresh (s : Chip) (rtWaiting : Bool) : Chip :=
  if s.cst.selfRefresh then s
  else if rtWaiting && s.cst.postponed < 8 then { s with cst := { s.cst with postponed := s.cst.postponed + 1 } }
  else if rtWaiting then s
  else { s with cst := { s.cst with postponed := 0 } }

/-- STA.SCRUB shows whether the scrubber runs. DESIGN CHOICE (log entry 196): while PER is not 0 and the store is up and initialised. -/
def Chip.syncScrub (s : Chip) : Chip := s.putB Fld.CST_STA_SCRUB (s.get Fld.CST_SCRB_PER != 0 && s.fab.dst && !s.on Fld.CST_STA_INIT)

/-- DSTORE: the store's contents are lost and the initialisation sweep begins; a granule that it has not reached reads 0, as does one
that it has cleared (R331). -/
def Chip.storeStart (s : Chip) : Chip :=
  let s := s.clearMem store (store + 0x4000000)
  let s := { s with cst := { s.cst with bad := [], ue := [], postponed := 0, selfRefresh := false } }
  ((((s.set Fld.CST_STA_INIT).put Fld.CST_BADG_N 0).set Fld.CST_CTL_EN).set Fld.CST_STA_ENA).syncPool.syncScrub

/-- INIT_SWEEP_DONE (R331). -/
def Chip.sweepDone (s : Chip) : Chip :=
  if s.on Fld.CST_STA_INIT then ((s.clr Fld.CST_STA_INIT).set Fld.CST_IST_INITD).syncScrub else s

/-- SCRUB_PASS of the 64-bit word at byte offset `o`: clean (0), a corrected error (1), an uncorrectable one (2) (R332, R333). -/
def Chip.scrub (s : Chip) (o kind : Nat) : Chip :=
  let a := store + o / 8 * 8
  if s.get Fld.CST_SCRB_PER = 0 || !s.fab.dst || s.on Fld.CST_STA_INIT then s
  else if kind = 0 then s
  else if kind = 1 then (s.bump Fld.CST_ECC_CE).set Fld.CST_IST_CE
  else
    let s := s.countStoreUe a
    let s := if s.cst.ue.contains a then s else { s with cst := { s.cst with ue := a :: s.cst.ue } }
    let g := o / 65536
    let s := if s.inPool g && !s.cst.bad.contains g then
        ((({ s with cst := { s.cst with bad := g :: s.cst.bad } }).inc Fld.CST_BADG_N).set Fld.CST_IST_BADG).syncPool.raise
          (report 0x0804 0 0 g)
      else s
    s.storeUe a

/-- RECORD_DISCARD: BHDT after the report of an item that failed or was withdrawn (R340). -/
def Chip.recordDiscard (s : Chip) (id : Nat) : Chip := if (s.item id).isNone then s.discardItem id else s

/-! ### Generic pushes and pops (R321–R324) -/

/-- The item that a station's ring serves now. -/
def Chip.ringItem (s : Chip) (n : Nat) : Nat :=
  if n = s.imgRing 0 && s.img.t0.item ≠ 0 then s.img.t0.item else if n = s.imgRing 1 then s.img.t1.item else 0

/-- RING_PUSH by a producer of class `c`: on a DATA ring that takes its data from the HOST region (R572) `data` is stored first. A refused record of
the imaging path is dropped (R187, R324). -/
def Chip.ringPush (s : Chip) (n : Nat) (c : RCls) (v : Word) (data : List Byte) : Chip :=
  let r := s.pushOrHold n c v (if s.ringData n then data else []) none
  match c, r.1 with
  | .img, .stored => r.2
  | .img, _ => r.2.dropRecord n (s.ringItem n)
  | _, _ => r.2

/-- The ring that carries log records to Almanac firmware (R326, R438). -/
def logRing : Nat := 13

/-- A record that Almanac firmware takes from ring 13 is staged (R438). -/
def Chip.logPopped (s : Chip) (e : Entry) : Chip :=
  let bs := (s.entryBytes e).take 32
  s.logArrive { lseq := ofLeBytes (bs.take 4), cls := ofLeBytes ((bs.drop 11).take 1), bytes := bs }

/-- RING_POP by a consumer of class `c`. -/
def Chip.ringPop (s : Chip) (n : Nat) (c : RCls) : Chip :=
  match s.popRing n c with
  | (.entry e, t) =>
    let t := if c = .alm && n = logRing && t.ringData n then t.logPopped e else t
    (if c = .host && t.ringData n then t.drainErrors (store + 32 * e.ofs) (32 * e.rlen) else t).afterConsume
  | (_, t) => t.afterConsume

end Sys2Proof.Machine
end

