-- ==== Sys2Proof/Machine/Almanac.lean ====
section
/-!
DEFINITION. Almanac (chapter 16): measurements (R443–R445), the PARAM block (R432), the log on the F-die (R438, R439), sensors, tamper
and temperature (R433–R436), key records (R442, R446), QUOTE bodies (R447), images and updates (R449–R453), stored calibration
sets (R440), the services (R430) and the Nimora port (R454–R458).
-/
namespace Sys2Proof.Machine

/-! ### Measurement (R443–R445) -/

/-- A SHA-256 digest: 32 bytes. -/
def digest (bs : List Byte) : List Byte := (Config.sha256 bs ++ List.replicate 32 0#8).take 32

/-- The 32 bytes of MSn. -/
def Chip.msBytes (s : Chip) (n : Nat) : List Byte := (List.range 8).flatMap fun w => leBytes 4 (s.get (Fld.MSR_MS_D (8 * n + w)))

/-- Give MSn its 32 bytes. -/
def Chip.setMs (s : Chip) (n : Nat) (bs : List Byte) : Chip :=
  (List.range 8).foldl (fun t w => t.put (Fld.MSR_MS_D (8 * n + w)) (ofLeBytes ((bs.drop (4 * w)).take 4))) s

/-- MSR.FLG.NLOG and LFULL follow the measurement log. -/
def Chip.syncMlog (s : Chip) : Chip := s.put Fld.MSR_FLG_NLOG s.alm.mlog.length

/-- Extend MSn with digest `d` (R443), adding a log entry of 48 bytes; a full log holds 64 (R445). -/
def Chip.extend (s : Chip) (n kind flags ver len : Nat) (d : List Byte) : Chip :=
  let s := s.setMs n (digest (s.msBytes n ++ d))
  if 64 ≤ s.alm.mlog.length then s.set Fld.MSR_FLG_LFULL
  else
    let e := leBytes 1 s.alm.mlog.length ++ leBytes 1 n ++ leBytes 1 kind ++ leBytes 1 flags ++ leBytes 4 ver ++ leBytes 4 len ++
      leBytes 4 (s.get Fld.RTC_SEC_S) ++ d
    ({ s with alm := { s.alm with mlog := s.alm.mlog ++ [e] } }).syncMlog

/-- The start of every LOAD (R444): MS1–MS5 zero, the log cut back to its MS0 entry, LOADC counted. -/
def Chip.loadStart (s : Chip) : Chip :=
  let s := [1, 2, 3, 4, 5].foldl (fun t n => t.setMs n (List.replicate 32 0#8)) s
  (({ s with alm := { s.alm with mlog := s.alm.mlog.take 1 } }).syncMlog.clr Fld.MSR_FLG_LFULL).inc Fld.MSR_LOADC_N

/-- SWAP_MEASURE_DONE: the staging bank is measured into MS5, and ARMD rises (R291, R444). -/
def Chip.swapMeasured (s : Chip) : Chip :=
  if s.on Fld.ORR_STA_MEAS then
    ((s.extend 5 6 2 0 65536 (digest (s.bytes staging 65536))).clr Fld.ORR_STA_MEAS).set Fld.ORR_STA_ARMD
  else s

/-! ### The PARAM block (R432) -/

/-- Address of the PARAM block. -/
def paramAt : Nat := 0x60190000

/-- Does the block's CRC check? -/
def Chip.paramOk (s : Chip) : Bool :=
  decide ((crc16 (s.bytes paramAt 254)).toNat = s.num (paramAt + 254) 2) && !s.fst.poison.any fun a => paramAt ≤ a && a < paramAt + 256

/-- A field of the block, 0 in a block whose CRC fails. -/
def Chip.param (s : Chip) (o n : Nat) : Nat := if s.paramOk then s.num (paramAt + o) n else 0

/-- SKH. -/
def Chip.skh (s : Chip) : List Byte := if s.paramOk then s.bytes paramAt 32 else List.replicate 32 0#8

/-! ### The log (R437–R439, R571) -/

/-- Byte offset in the F-die of log record `i` of the ring of 15,872 (R439). -/
def logOfs (i : Nat) : Nat := 0x4000 + 32 * (i % 15872)

/-- Put bytes that lie inside one page into a list of whole pages. -/
def Chip.patchInto (s : Chip) (ps : List (Nat × List Byte)) (o : Nat) (bs : List Byte) : List (Nat × List Byte) :=
  let p := o / 64
  let i := o % 64
  let ins (old : List Byte) : List Byte := old.take i ++ bs ++ old.drop (i + bs.length)
  if ps.any (·.1 == p) then updFirst (·.1 == p) (fun x => (p, ins x.2)) ps
  else ps ++ [(p, ins (s.bytes (pageAddr p) 64))]

/-- The pages that hold records `rs` written from log index `i` on. -/
def Chip.logPages (s : Chip) (i : Nat) (rs : List LogRec) : List (Nat × List Byte) :=
  (List.range rs.length).foldl (fun ps j => s.patchInto ps (logOfs (i + j)) (((rs[j]?).map (·.bytes)).getD [])) []

/-- NVS value 10: the log index of the next record. -/
def Chip.logIndex (s : Chip) : Nat := (s.nvs 10).v.toNat % 15872

/-- How many log records fit in the 64 pages of a group, two to a page, from the log index on. -/
def Chip.logRoom (s : Chip) : Nat := 128 - s.logIndex % 2

/-- The staged records that may be written now: none beyond a taken LSEQ that has not arrived (R438); as many as a group takes. -/
def Chip.logReady (s : Chip) : List LogRec :=
  (s.alm.staged.takeWhile fun r => s.alm.taken.all fun t => r.lseq < t.1).take s.logRoom

/-- Records `rs` are committed: they leave staging, NVS value 10 moves on, IST.CMT. -/
def Chip.logCommitted (s : Chip) (rs : List LogRec) : Chip :=
  let left := s.alm.staged.filter fun r => !rs.contains r
  let s := { s with alm := { s.alm with staged := left } }
  let s := s.nvsStore 10 (BitVec.ofNat 32 ((s.logIndex + rs.length) % 15872))
  (s.set Fld.LOG_IST_CMT).putB Fld.LOG_STA_HELD (!left.isEmpty)

/-- LOG_COMMIT: the staged records as one commit group, when the supply check of R410 passes (R439). While another group is open the
firmware's OPEN is held (R408). -/
def Chip.logCommit (s : Chip) : Chip :=
  let rs := s.logReady
  if rs.isEmpty then s
  else if s.gst ≠ 0 then { s with alm := { s.alm with logHeld := true } }
  else
    let (st, t) := s.ownGroup false (s.logPages s.logIndex rs)
    if st = St.ok then t.logCommitted rs else t

/-- A log commit whose OPEN was held goes on once the group is IDLE (R408). -/
def Chip.logRetry (s : Chip) : Chip :=
  if s.alm.logHeld && s.gst = 0 then ({ s with alm := { s.alm with logHeld := false } }).logCommit else s

/-- A read of LOG.TAKE (R438): NSEQ, which advances; the number is owed until its record arrives. -/
def Chip.logTake (s : Chip) : Nat × Chip :=
  let (n, s) := s.takeLseq
  (n, { s with alm := { s.alm with taken := s.alm.taken ++ [(n, s.nowMs)] } })

/-- LOG_GAP_TIMEOUT: the oldest number still owed is skipped and counted. -/
def Chip.gapTimeout (s : Chip) : Chip :=
  match s.alm.taken with
  | [] => s
  | _ :: r => ({ s with alm := { s.alm with taken := r } }).bump Fld.LOG_GAP_N

/-- Is the log record at index `i` valid: CRC good, LSEQ not 0? -/
def Chip.logValid (s : Chip) (i : Nat) : Bool :=
  let a := fDie + logOfs i
  decide ((crc16 (s.bytes a 30)).toNat = s.num (a + 30) 2) && s.num a 4 != 0 && !s.fst.poison.any fun p => a ≤ p && p < a + 32

/-- LSEQ of the record at log index `i`. -/
def Chip.logSeq (s : Chip) (i : Nat) : Nat := s.num (fDie + logOfs i) 4

/-- Scan forward while LSEQ keeps ascending (R439): the next index and the highest LSEQ. -/
def Chip.logScan (s : Chip) (i hi : Nat) : Nat → Nat × Nat
  | 0 => (i, hi)
  | n + 1 => if s.logValid i && hi < s.logSeq i then s.logScan (i + 1) (s.logSeq i) n else (i, hi)

/-- LOG.NSEQ at boot (R439), from NVS value 10 on. -/
def Chip.logBoot (s : Chip) : Chip :=
  let i := s.logIndex
  let prev := i + 15871
  let (j, hi) := s.logScan i (if s.logValid prev then s.logSeq prev else 0) 15872
  let s := if j = i then s else s.nvsStore 10 (BitVec.ofNat 32 (j % 15872))
  (s.put Fld.LOG_NSEQ_N (nextLseq hi)).put Fld.LOG_TAKE_N (nextLseq hi)

/-- The SEQ of the newest SVCWRITE record of requester kind Nimora (R457), looking back from log index `i` over `n` records. -/
def Chip.nimSeqBefore (s : Chip) (i : Nat) : Nat → Option Nat
  | 0 => none
  | n + 1 =>
    let j := i + 15871
    let a := fDie + logOfs j
    if !s.logValid j then none
    else if s.num (a + 10) 1 = 2 && s.num (a + 12) 2 = 4 && s.num (a + 21) 1 = 2 then some (s.num (a + 22) 2)
    else s.nimSeqBefore j n

/-- After a POR of the AON domain the kept SEQ comes from the log (R457). -/
def Chip.nimSeqBoot (s : Chip) : Chip :=
  if s.get Fld.NIM_LSEQ_S ≠ 0 then s
  else match s.nimSeqBefore s.logIndex 15872 with
    | some q => s.put Fld.NIM_LSEQ_S q
    | none => s

/-- An event record of Almanac firmware (R437). -/
def Chip.logEvent (s : Chip) (code : Nat) (data : List Byte) : Chip :=
  (s.stageLog { kind := 2, cls := 0, code := code, data := data, mst := 0x10 }).2

/-- The AON supply warning (R469, R485): the volatile-held values are saved and staged records committed where R410 allows. -/
def Chip.aonWarning (s : Chip) : Chip := ((s.set Fld.HRV_IST_WARN).saveHeld).logCommit

/-- Is the management core held asleep: on VSTO below TH_SENSE (R468)? -/
def Chip.coreAsleep (s : Chip) : Bool := s.get Fld.HRV_STA_SRC == 1 && bitsOf (s.get Fld.HRV_STA_ABV) 0 1 == 0

/-! ### Sensors, tamper, temperature (R433–R436, R497) -/

/-- SENSOR_SCAN: the enabled channels take their readings; AN0 and AN1 at either end of their range are not valid (R497). While the core is
held asleep there is none (R468). -/
def Chip.sensorScan (s : Chip) (vals : List (BitVec 16)) : Chip :=
  if s.coreAsleep then s
  else
  let was := s.get (Fld.SEN_VAL_V 1)
  let s := (List.range 7).foldl (fun t n =>
    match vals[n]? with
    | some v =>
      if bitsOf (t.get Fld.SEN_SCAN_EN) n 1 = 1 then
        (t.put (Fld.SEN_VAL_V n) v.toNat).putB (Fld.SEN_VAL_VLD n) (n < 5 || (v.toNat != 0 && v.toNat < 1800))
      else t
    | none => t) s
  if s.get Fld.HRV_STA_SRC = 2 && 2600 ≤ was && s.get (Fld.SEN_VAL_V 1) < 2600 then s.aonWarning else s

/-- TAMPER: an input at its active level for 1 ms (R434). It counts with the core asleep; the record needs the core (R468, R470). DESIGN CHOICE
(log entry 170): STA.TLVL keeps the level of the last activation. -/
def Chip.tamper (s : Chip) (n : Nat) : Chip :=
  if bitsOf (s.get Fld.SEN_TCFG_EN) n 1 = 1 then
    let s := if n = 0 then s.bump Fld.SEN_TCNT_C0 else s.bump Fld.SEN_TCNT_C1
    let c := if n = 0 then s.get Fld.SEN_TCNT_C0 else s.get Fld.SEN_TCNT_C1
    let s := s.put Fld.SEN_STA_TLVL (s.get Fld.SEN_STA_TLVL ||| 2 ^ n)
    let s := s.set Fld.SEN_IST_TAMP
    if s.coreAsleep then s else s.logEvent 7 (leBytes 1 n ++ leBytes 1 c)
  else s

/-- TMP.PKG: the highest valid Tn (R435). -/
def Chip.syncPkg (s : Chip) : Chip :=
  let ts := ([0, 1, 2, 3].filter fun n => s.on (Fld.TMP_T_VLD n)).map fun n => s.getS (Fld.TMP_T_T n)
  match ts with
  | [] => s
  | t :: r => s.putS Fld.TMP_PKG_T (r.foldl max t)

/-- A die's temperature in 0.1 °C (R435); those of the L-die and D-die are not valid while the L-die is off. -/
def Chip.setTemp (s : Chip) (die : Nat) (t : BitVec 12) : Chip :=
  ((s.put (Fld.TMP_T_T die) t.toNat).putB (Fld.TMP_T_VLD die) (die == 0 || die == 3 || s.fab.lco)).syncPkg

/-- The L-die goes off: T1 and T2 are no longer valid. -/
def Chip.tempsLost (s : Chip) : Chip := ((s.clr (Fld.TMP_T_VLD 1)).clr (Fld.TMP_T_VLD 2)).syncPkg

/-- The die whose temperature TMP.PKG shows (R435). -/
def Chip.hotDie (s : Chip) : Nat :=
  (([0, 1, 2, 3].find? fun n => s.on (Fld.TMP_T_VLD n) && s.getS (Fld.TMP_T_T n) == s.getS Fld.TMP_PKG_T)).getD 0

/-- HOT, with 5.0 °C hysteresis; the Central Store refresh follows it (R436, R330). -/
def Chip.tempHot (s : Chip) : Chip :=
  let p := s.getS Fld.TMP_PKG_T
  let hot := if s.on Fld.TMP_STA_HOT then decide (800 ≤ p) else decide (850 < p)
  let s := s.putB Fld.TMP_STA_HOT hot
  if s.fab.lco then s.putB Fld.CST_STA_HOT hot else s

/-- OVERTEMP_W: PKG at TWRN for 1 s (R436). -/
def Chip.tempWarn (s : Chip) : Chip :=
  let p := s.getS Fld.TMP_PKG_T
  let w := s.getS Fld.TMP_TWRN_T
  if s.on Fld.TMP_STA_WARN then (if p < w - 50 then s.clr Fld.TMP_STA_WARN else s)
  else if w ≤ p then ((s.set Fld.TMP_STA_WARN).set Fld.TMP_IST_WARN).raiseP (report 0x0205 s.hotDie 0 (codeOf p 32)) else s

/-- OVERTEMP: PKG at 125.0 °C for 1 ms (R436). -/
def Chip.tempCrit (s : Chip) : Chip :=
  let p := s.getS Fld.TMP_PKG_T
  if s.on Fld.TMP_STA_CRIT then (if p < 1200 then (s.clr Fld.TMP_STA_CRIT).llActive 6 false else s)
  else if 1250 ≤ p then
    (((s.set Fld.TMP_STA_CRIT).set Fld.TMP_IST_CRIT).llActive 6 true).raiseP (report 0x0204 s.hotDie 0 (codeOf p 32)) else s

/-! ### Keys and QUOTE (R442, R446, R447) -/

/-- Addresses of key copies A and B. -/
def keyAt (k : Nat) : Nat := if k = 0 then 0x601E0000 else 0x601F0000

/-- Does key copy `k` check (R442)? -/
def Chip.keyOk (s : Chip) (k : Nat) : Bool :=
  let a := keyAt k
  s.num a 4 == 0x53564B59 && s.num (a + 4) 1 == 5 && s.num (a + 5) 1 == 1 &&
    decide ((crc16 (s.bytes a 190)).toNat = s.num (a + 190) 2) && !s.fst.poison.any fun p => a ≤ p && p < a + 192

/-- The key copy in use. -/
def Chip.keyCopy (s : Chip) : Option Nat := [0, 1].find? s.keyOk

/-- DEVID and the public key; zeros while KEYS is empty. -/
def Chip.devId (s : Chip) : List Byte :=
  match s.keyCopy with
  | some k => s.bytes (keyAt k + 8) 8
  | none => List.replicate 8 0#8

def Chip.pubKey (s : Chip) : List Byte :=
  match s.keyCopy with
  | some k => s.bytes (keyAt k + 16) 65
  | none => List.replicate 65 0#8

/-- ALM.DEVL and DEVH, and the Nimora UID (R454), show the identity. -/
def Chip.showId (s : Chip) : Chip :=
  let d := s.devId
  let uid := leBytes 1 (s.get Fld.NIM_CFG_MFR) ++ d.take 6
  let s := (s.put Fld.ALM_DEVL_D (ofLeBytes (d.take 4))).put Fld.ALM_DEVH_D (ofLeBytes (d.drop 4))
  (s.put Fld.NIM_UIDL_U (ofLeBytes (uid.take 4))).put Fld.NIM_UIDH_U (ofLeBytes (uid.drop 4))

/-- `n` random bytes. -/
def Chip.random (s : Chip) (n : Nat) : List Byte × Chip := ((List.range n).map (Config.randomByte s.free), s.drawn)

/-- Write a key record of 192 bytes to a copy, in its own commit group. -/
def Chip.writeKey (s : Chip) (k : Nat) (bs : List Byte) : Chip := (s.ownGroup false (s.patchPages (keyAt k - fDie) bs)).2

/-- KEYGEN: with neither copy good, a new pair is generated, stored in both copies and logged (R442, R446). With one copy good, the other
is rewritten from it. It waits while another group is open (R408). -/
def Chip.keygen (s : Chip) : Chip :=
  if s.gst ≠ 0 then s
  else match s.keyCopy with
  | some k => if s.keyOk (1 - k) then s else (s.writeKey (1 - k) (s.bytes (keyAt k) 192)).showId
  | none =>
    let (pub, s) := s.random 64
    let (wrapped, s) := s.random 48
    let pub := 4#8 :: pub
    let dev := (digest pub).take 8
    let body := leBytes 4 0x53564B59 ++ [5#8, 1#8, 0#8, 0#8] ++ dev ++ pub ++ List.replicate 15 0#8 ++ wrapped ++ List.replicate 46 0#8
    let rec_ := body ++ leBytes 2 (crc16 body).toNat
    (((s.writeKey 0 rec_).writeKey 1 rec_).showId).logEvent 8 dev

/-- Active slot (PSY.BST.SLOT). -/
def Chip.bootSlot (s : Chip) : Nat := s.get Fld.PSY_BST_SLOT

/-- FLAGS of a QUOTE (R447). -/
def Chip.quoteFlags (s : Chip) : Nat :=
  let b (c : Bool) (n : Nat) : Nat := if c then n else 0
  b (s.on Fld.MSR_FLG_HOSTC) 1 + b (s.on Fld.PSY_BST_FALLBK) 2 + b (s.bootSlot == 1) 4 + b (!s.fab.lco) 8 +
    b (s.get Fld.SEN_TCNT_C0 + s.get Fld.SEN_TCNT_C1 != 0) 16 + b (s.on Fld.UPD_HEADSTA_TRIAL) 32 + b (s.on Fld.MSR_FLG_LFULL) 64

/-- The QUOTE body (R447); the signature is a free value (R446: the private key is readable by nobody). -/
def Chip.quoteBody (s : Chip) (rqk rqid : Nat) (nonce : List Byte) : List Byte × Chip :=
  let n := s.alm.mlog.length
  let body := leBytes 2 1 ++ leBytes 2 n ++ s.devId ++ leBytes 4 (s.get Fld.RTC_SEC_S) ++ leBytes 4 (s.get Fld.MSR_LOADC_N) ++
    leBytes 4 (s.nvs 2).v.toNat ++ leBytes 4 (s.nvs 1).v.toNat ++ leBytes 1 rqk ++ leBytes 1 rqid ++ leBytes 1 s.quoteFlags ++
    leBytes 1 (min 255 (s.get Fld.SEN_TCNT_C0 + s.get Fld.SEN_TCNT_C1)) ++ nonce ++ (List.range 6).flatMap s.msBytes ++
    s.alm.mlog.flatten
  let (sig, s) := s.random 64
  (body ++ sig, s)

/-! ### Images and updates (R449–R453) -/

/-- First F-die offset of the partition that holds an image: KIND 1 BOOT, 2 CODE (R405). -/
def imgAt (kind slot : Nat) : Nat :=
  if kind = 1 then (if slot = 0 then 0x1A0000 else 0x1C0000) else (if slot = 0 then 0x100000 else 0x140000)

/-- ERR of the image in a partition, 0 when it verifies (R450, R451). -/
def Chip.imageErr (s : Chip) (kind slot : Nat) : Nat :=
  let a := fDie + imgAt kind slot
  let len := s.num (a + 16) 4
  let lenOk := if kind = 1 then len ≤ 130944 else len = 65536
  if s.fst.poison.any fun p => a ≤ p && p < a + 128 + (if lenOk then len else 0) then 6
  else if s.num a 4 ≠ 0x53563234 || s.num (a + 4) 1 ≠ kind || s.num (a + 5) 1 ≠ 1 then 1
  else if !lenOk then 5
  else if digest (s.bytes (a + 128) len) ≠ s.bytes (a + 32) 32 then 2
  else if !Config.ecdsaOk Config.fwKey (digest (s.bytes a 64)) (s.bytes (a + 64) 64) then 3
  else if s.num (a + 12) 4 < (s.nvs 1).v.toNat then 4
  else 0

/-- Version of an image. -/
def Chip.imageVer (s : Chip) (kind slot : Nat) : Nat := s.num (fDie + imgAt kind slot + 8) 4

/-- Do both firmware slots stand failed, so that the boot ROM stays at stage ROM (R45, R453)? -/
def Chip.romMode (s : Chip) : Bool := s.get Fld.PSY_BST_STG == 1 && s.get Fld.PSY_BST_FAIL == 0x01

/-- The slot that updates write: the inactive one; in ROM mode the one BEGIN named (R451, R453). -/
def Chip.updSlot (s : Chip) : Nat := if s.romMode then s.alm.slot else 1 - s.bootSlot

/-- NVS value 14: bit 0 ACTIVE, 1 ARMED, 2 ARMSLOT, 3 TRIAL (R452: an armed slot is recorded as armed and trial). UPD.SLOT and UPD.STA
show it. -/
def Chip.syncUpd (s : Chip) : Chip :=
  let v := (s.nvs 14).v.toNat
  let s := ((s.put Fld.UPD_SLOT_ACTIVE (bitsOf v 0 1)).put Fld.UPD_SLOT_ARMED (bitsOf v 1 1)).put Fld.UPD_SLOT_ARMSLOT (bitsOf v 2 1)
  ((s.put Fld.UPD_SLOT_TRIAL (bitsOf v 3 1)).put Fld.UPD_HEADSTA_TRIAL (bitsOf v 3 1)).put Fld.UPD_RBK_N (s.nvs 1).v.toNat

/-- Store NVS value 14. -/
def Chip.setUpd (s : Chip) (active armed armslot trial : Nat) : Chip :=
  (s.nvsStore 14 (BitVec.ofNat 32 (active + 2 * armed + 4 * armslot + 8 * trial))).syncUpd

/-- Is a slot armed, or a trial boot unconfirmed? -/
def Chip.updArmed (s : Chip) : Bool := s.on Fld.UPD_SLOT_ARMED || s.on Fld.UPD_SLOT_TRIAL

/-- The OK bit of a KIND. -/
def okBit (kind : Nat) : Field := if kind = 1 then Fld.UPD_STA_FWOK else Fld.UPD_STA_ENGOK

/-- UPD states (UPD.STA.ST). -/
def Chip.updSt (s : Chip) : Nat := s.get Fld.UPD_STA_ST

/-- BEGIN (R451). -/
def Chip.updBegin (s : Chip) (kind slot : Nat) : Status × Chip :=
  if kind ≠ 1 && kind ≠ 2 then (St.badArg, s)
  else if (s.updArmed && !s.romMode) || s.updSt = 2 then (St.state, s)
  else
    let s := { s with alm := { s.alm with kind := kind, slot := slot % 2, gather := [] } }
    (St.ok, (((s.clr (okBit kind)).put Fld.UPD_DOFS_N 0).put Fld.UPD_STA_ERR 0).put Fld.UPD_STA_ST 1)

/-- The 1 KiB window DWIN. -/
def Chip.dwin (s : Chip) : List Byte := (List.range 256).flatMap fun i => leBytes 4 (s.get (Fld.UPD_DWIN_D i))

/-- Must a PUSH wait for the commit group that is open (R408, R451)? -/
def Chip.pushWaits (s : Chip) : Bool := s.gst != 0 && s.updSt == 1 && decide (s.get Fld.UPD_DOFS_N < s.get Fld.UPD_LEN_N)

/-- PUSH of a block at DOFS (R451), committed by `commit`. -/
def Chip.updPushBy (s : Chip) (commit : Chip → List (Nat × List Byte) → Status × Chip) (block : List Byte) : Status × Chip :=
  let ofs := s.get Fld.UPD_DOFS_N
  let len := s.get Fld.UPD_LEN_N
  if s.updSt ≠ 1 then (St.state, s)
  else if len ≤ ofs then (St.badArg, s)
  else
    let (st, t) := commit s (s.patchPages (imgAt s.alm.kind s.updSlot + ofs) (block.take (len - ofs)))
    if st = St.ok then (St.ok, t.put Fld.UPD_DOFS_N (ofs + 1024)) else (st, t)

/-- PUSH of the window. -/
def Chip.updPush (s : Chip) : Status × Chip := s.updPushBy (fun t ps => t.ownGroup false ps) s.dwin

/-- VERIFY (R451). -/
def Chip.updVerify (s : Chip) : Status × Chip :=
  if s.updSt = 1 then (St.ok, s.put Fld.UPD_STA_ST 2) else (St.state, s)

/-- ABORT. -/
def Chip.updAbort (s : Chip) : Chip :=
  ({ s with alm := { s.alm with gather := [], clone := false } }).put Fld.UPD_STA_ST 0

/-- CLONE: the copy runs until UPD_VERIFY_DONE (R451). -/
def Chip.updClone (s : Chip) (kind : Nat) : Status × Chip :=
  if kind ≠ 1 && kind ≠ 2 then (St.badArg, s)
  else if s.updArmed then (St.state, s)
  else
    let s := { s with alm := { s.alm with kind := kind, clone := true } }
    (St.ok, (s.clr (okBit kind)).put Fld.UPD_STA_ST 2)

/-- Write bytes at an F-die offset in commit groups of 64 pages; stops at the first that is refused. -/
def Chip.groupsOf (s : Chip) (o : Nat) (bs : List Byte) : Nat → Status × Chip
  | 0 => (St.ok, s)
  | n + 1 =>
    if bs.isEmpty then (St.ok, s)
    else
      let (st, t) := s.ownGroup false (s.patchPages o (bs.take 4096))
      if st = St.ok then t.groupsOf (o + 4096) (bs.drop 4096) n else (st, t)

/-- UPD_VERIFY_DONE: VERIFIED with the OK bit, or FAILED with ERR; a CLONE copies first, which waits while another group is open (R408, R451). The UPDATE record names op, kind, slot, ERR. -/
def Chip.updVerified (s : Chip) : Chip :=
  if s.updSt ≠ 2 || (s.alm.clone && s.gst != 0) then s
  else
    let kind := s.alm.kind
    let op := if s.alm.clone then 5 else 3
    let (st, s) := if s.alm.clone then
        s.groupsOf (imgAt kind s.updSlot) (s.bytes (fDie + imgAt kind s.bootSlot) (if kind = 1 then 131072 else 262144)) 64
      else (St.ok, s)
    let s := { s with alm := { s.alm with clone := false } }
    let e := if st = St.ok then s.imageErr kind s.updSlot else 1
    let s := (((s.put Fld.UPD_STA_ERR e).put Fld.UPD_STA_ST (if e = 0 then 3 else 4)).putB (okBit kind) (e == 0)).set Fld.UPD_IST_DONE
    s.logEvent 5 (leBytes 1 op ++ leBytes 1 kind ++ leBytes 1 s.updSlot ++ leBytes 1 e)

/-- REBOOT (R451, R453): outside ROM mode only in OFF, FAULT or SERVICE with no journal record OPEN. The restart is scheduled. -/
def Chip.updReboot (s : Chip) : Status × Chip :=
  let e := s.engine
  if s.romMode || !s.fab.lco || ((e = Eng.off || e = Eng.fault || e = Eng.service) && s.get Fld.DOC_JUSE_OPN = 0) then
    (St.ok, { s with dbg := { s.dbg with reboot := true } })
  else (St.state, s)

/-- UPD.CMD (R451). -/
def Chip.updCmd (s : Chip) (v : Word) : Status × Chip :=
  match bitsOf v.toNat 0 4 with
  | 1 => s.updBegin (bitsOf v.toNat 8 2) 0
  | 2 => s.updPush
  | 3 => s.updVerify
  | 4 => (St.ok, s.updAbort)
  | 5 => s.updClone (bitsOf v.toNat 8 2)
  | 6 => s.updReboot
  | _ => (St.badArg, s)

/-- A committed write to UPD.ARM (R452): the inactive slot becomes armed and trial; while a trial boot is unconfirmed nothing is armed
(R459). -/
def Chip.updArm (s : Chip) (en : Bool) (slot : Nat) : Status × Chip :=
  let act := s.get Fld.UPD_SLOT_ACTIVE
  if !en then (St.ok, s.setUpd act 0 0 (if s.alm.trialRun then 1 else 0))
  else if slot ≠ s.updSlot && !s.romMode then (St.state, s)
  else if !s.on Fld.UPD_STA_FWOK || !s.on Fld.UPD_STA_ENGOK || s.alm.trialRun then (St.state, s)
  else (St.ok, (s.setUpd act 1 slot 1).set Fld.UPD_IST_ARMD)

/-! ### The calibration set (R440) -/

/-- The data bytes of a calibration set: the shading RAM. -/
def Chip.shadingBytes (s : Chip) : List Byte := (List.range 24192).flatMap fun i => leBytes 4 (s.shade_ i).toNat

/-- The header of a calibration set (R440). -/
def Chip.calHeader (s : Chip) (seq : Nat) (data : List Byte) : List Byte :=
  let h := leBytes 4 0x53564341 ++ [3#8, 1#8, 0#8, 0#8] ++ leBytes 4 seq ++ leBytes 4 (s.get Fld.RTC_SEC_S) ++ leBytes 4 24192 ++
    List.replicate 10 0#8
  h ++ leBytes 2 (crc16 h).toNat ++ digest data

/-- The region that NVS value 11 names: F-die offset of the active set. -/
def Chip.calRegion (s : Chip) (other : Bool) : Nat :=
  0xA0000 + 0x20000 * (if other then 1 - (s.nvs 11).v.toNat % 2 else (s.nvs 11).v.toNat % 2)

/-- CAL.CMD SAVE runs to its end (R179, R440): the set goes to the other region, then value 11 names it. DESIGN CHOICE (log entry 192): its header
holds CAL.SEQ after the SAVE's own increment. -/
def Chip.calSaved (s : Chip) : Bool × Chip :=
  let data := s.shadingBytes
  let (st, s) := s.groupsOf (s.calRegion true) (s.calHeader (s.get Fld.CAL_SEQ_N + 1) data ++ data) 25
  if st = St.ok then (true, s.nvsStore 11 (BitVec.ofNat 32 (1 - (s.nvs 11).v.toNat % 2))) else (false, s)

/-! ### Energy of a requester (R448, R456, R458, R467) -/

/-- May a QUOTE or an AUTH run now? -/
def Chip.energyRun (s : Chip) : Bool :=
  match s.get Fld.HRV_STA_SRC with
  | 0 => s.on Fld.RES_STA_VALID
  | _ => bitsOf (s.get Fld.HRV_STA_ABV) 3 1 == 1

/-- May a Nimora response be sent (R467)? On VSYS, always; on VBAT at 2.50 V. -/
def Chip.energyXmit (s : Chip) : Bool :=
  match s.get Fld.HRV_STA_SRC with
  | 0 => true
  | 1 => bitsOf (s.get Fld.HRV_STA_ABV) 2 1 == 1
  | _ => decide (2500 ≤ s.get (Fld.SEN_VAL_V 1))

/-- May a status-only Nimora answer be sent: 0x50, or an SW error with no data (R467)? On VBAT the check of R410 stands for both:
DEDUCED (log entry 171). -/
def Chip.energyStatus (s : Chip) : Bool :=
  match s.get Fld.HRV_STA_SRC with
  | 0 => true
  | 1 => bitsOf (s.get Fld.HRV_STA_ABV) 0 1 == 1
  | _ => decide (2500 ≤ s.get (Fld.SEN_VAL_V 1))

/-- A threshold of R461 in mV, `k` from TH_SENSE at 0 on. -/
def Chip.threshold (s : Chip) (k : Nat) : Int :=
  match k with
  | 0 => 2400 + 10 * s.getS Fld.HRV_THT_SNS
  | 1 => 2800 + 10 * s.getS Fld.HRV_THT_NVW
  | 2 => 3100 + 10 * s.getS Fld.HRV_THT_XMT
  | _ => 3600 + 10 * s.getS Fld.HRV_THT_RUN

/-- Energy of a Nimora write of `n` pages (R458 step 2): VSTO at TH_NVW, and at TH_XMIT after the drop of one commit group. -/
def Chip.energyWrite (s : Chip) (n : Nat) : Bool :=
  match s.get Fld.HRV_STA_SRC with
  | 0 => s.on Fld.RES_STA_VALID
  | 1 =>
    let v : Int := s.get (Fld.SEN_VAL_V 0)
    bitsOf (s.get Fld.HRV_STA_ABV) 1 1 == 1 &&
      decide ((((20 + 3 * n) * 100000 : Nat) : Int) ≤ (v - s.threshold 2) * (s.get Fld.HRV_CSTO_UF : Nat) * v)
  | _ => decide (2500 ≤ s.get (Fld.SEN_VAL_V 1))

/-! ### Services (R430) -/

namespace Svc
abbrev status : Nat := 1
abbrev ident : Nat := 2
abbrev logRead : Nat := 3
abbrev quote : Nat := 4
abbrev paramRead : Nat := 5
abbrev paramWrite : Nat := 6
abbrev time : Nat := 7
abbrev upd : Nat := 8
abbrev cont : Nat := 0x0B
end Svc

/-- STATUS: the 16-byte block. -/
def Chip.svcStatus (s : Chip) : List Byte :=
  leBytes 1 (s.get Fld.HRV_STA_SRC) ++ leBytes 1 (s.get Fld.PSY_BST_STG) ++ leBytes 1 (s.get Fld.PSY_BST_FAIL) ++
    leBytes 1 (if s.fab.lco then s.engine else 0xFF) ++ leBytes 2 (s.get (Fld.SEN_VAL_V 0)) ++ leBytes 2 (s.get (Fld.SEN_VAL_V 1)) ++
    leBytes 4 (s.get Fld.RTC_SEC_S) ++ leBytes 4 (s.get Fld.LOG_NSEQ_N)

/-- IDENT: 86 bytes. -/
def Chip.svcIdent (s : Chip) : List Byte :=
  s.devId ++ s.pubKey ++ leBytes 4 (s.imageVer 1 0) ++ leBytes 4 (s.imageVer 1 1) ++ leBytes 4 (s.imageVer 2 s.bootSlot) ++
    leBytes 1 s.bootSlot

/-- The log index of the record with the lowest LSEQ at or above `lo`. -/
def Chip.logLowest (s : Chip) (lo : Nat) : Option Nat :=
  (List.range 15872).foldl (fun b i =>
    if s.logValid i && lo ≤ s.logSeq i then
      (match b with
        | some j => if s.logSeq i < s.logSeq j then some i else b
        | none => some i)
    else b) none

/-- LOG_READ: at most `n` committed records with LSEQ ≥ `lo`, in LSEQ order. -/
def Chip.svcLog (s : Chip) (lo : Nat) : Nat → List Byte
  | 0 => []
  | n + 1 => match s.logLowest lo with
    | some i => s.bytes (fDie + logOfs i) 32 ++ s.svcLog (s.logSeq i + 1) n
    | none => []

/-- A partition that PARAM_READ and PARAM_WRITE name: F-die offset and size. -/
def partAt (k : Nat) : Option (Nat × Nat) :=
  match k with
  | 0 => some (0x190000, 0x10000)
  | 1 => some (0xE0000, 0x20000)
  | 2 => some (0xA0000, 0x40000)
  | _ => none

/-- PARAM_READ. -/
def Chip.svcParamRead (s : Chip) (req : List Byte) : (Status × List Byte) × Chip :=
  let k := ofLeBytes (req.take 1)
  let o := ofLeBytes ((req.drop 1).take 3)
  let n := ofLeBytes (req.drop 4)
  match partAt k with
  | none => ((St.badArg, []), s)
  | some (b, sz) =>
    if req.length ≠ 5 || n = 0 || 240 < n || sz < o + n then ((St.badArg, []), s)
    else
      let bad := s.fst.poison.filter fun a => fDie + b + o < a + 4 && a < fDie + b + o + n
      ((if bad.isEmpty then St.ok else St.internal, s.bytes (fDie + b + o) n), bad.foldl (fun t a => t.countUE a) s)

/-- A write service commits its pages and a SVCWRITE record in one group, after the records staged before it (R457). -/
def Chip.svcGroup (s : Chip) (q : SvcReq) (part ofs : Nat) (pages : List (Nat × List Byte)) : Status × Chip :=
  let s := s.logCommit
  let (n, t) := s.takeLseq
  let body : LogBody := { kind := 2, cls := 0, code := 4, mst := 0x10,
                          data := leBytes 1 q.code ++ leBytes 1 q.rqk ++ q.req.take 2 ++ leBytes 1 part ++ leBytes 3 ofs }
  let r : LogRec := { lseq := n, cls := 0, bytes := t.logBytes n body }
  let (st, u) := t.ownGroup false (pages ++ t.logPages t.logIndex [r])
  if st = St.ok then (St.ok, u.logCommitted [r]) else (st, s)

/-- PARAM_WRITE. -/
def Chip.svcParamWrite (s : Chip) (q : SvcReq) : Status × Chip :=
  let k := ofLeBytes ((q.req.drop 2).take 1)
  let o := ofLeBytes ((q.req.drop 3).take 3)
  let bs := q.req.drop 6
  match partAt k with
  | none => (St.badArg, s)
  | some (b, sz) =>
    if 1 < k || bs.isEmpty || 240 < bs.length || sz < o + bs.length then (St.badArg, s)
    else if !q.auth then (St.perm, s)
    else s.svcGroup q k o (s.patchPages (b + o) bs)

/-- RTC.SEC takes a new time: SUB restarts and LOST clears (R484). -/
def Chip.setRtc (s : Chip) (sec : Nat) : Chip := ((s.put Fld.RTC_SEC_S sec).put Fld.RTC_SUB_T 0).clr Fld.RTC_STA_LOST

/-- TIME. -/
def Chip.svcTime (s : Chip) (q : SvcReq) : Status × Chip :=
  if q.req.length ≠ 6 then (St.badArg, s)
  else if !q.auth then (St.perm, s)
  else
    let new := ofLeBytes (q.req.drop 2)
    let old := s.get Fld.RTC_SEC_S
    let (st, t) := s.svcGroup q 0 0 []
    if st = St.ok then (St.ok, (t.setRtc new).logEvent 6 (leBytes 4 old ++ leBytes 4 new)) else (st, t)

/-- UPD DATA (R451): accepted at the next expected byte; a full block, or the one that reaches LEN, is pushed within the request. -/
def Chip.updData (s : Chip) (q : SvcReq) (ofs : Nat) (bs : List Byte) : Status × Chip :=
  let at_ := s.get Fld.UPD_DOFS_N + s.alm.gather.length
  let g := s.alm.gather ++ bs
  if s.updSt ≠ 1 then (St.state, s)
  else if ofs ≠ at_ || bs.isEmpty || 232 < bs.length then (St.badArg, s)
  else if g.length < 1024 && at_ + bs.length < s.get Fld.UPD_LEN_N then
    (St.ok, { s with alm := { s.alm with gather := g } })
  else
    let (st, t) := s.updPushBy (fun t ps => t.svcGroup q 0 0 ps) (g.take 1024)
    if st = St.ok then (st, { t with alm := { t.alm with gather := g.drop 1024 } }) else (st, t)

/-- UPD service (R430, R451): SEQ, op, operands. -/
def Chip.svcUpd (s : Chip) (q : SvcReq) : Status × Chip :=
  let op := ofLeBytes ((q.req.drop 2).take 1)
  let a := q.req.drop 3
  let simple (r : Status × Chip) : Status × Chip := if r.1 = St.ok then r.2.svcGroup q 0 0 [] else r
  match op with
  | 1 =>
    if a.length ≠ 5 + (if s.romMode then 1 else 0) then (St.badArg, s)
    else
      let (st, t) := s.updBegin (ofLeBytes (a.take 1)) (ofLeBytes (a.drop 5))
      simple (st, if st = St.ok then t.put Fld.UPD_LEN_N (ofLeBytes ((a.drop 1).take 4)) else t)
  | 2 => s.updPushBy (fun t ps => t.svcGroup q 0 0 ps) s.dwin
  | 3 => simple s.updVerify
  | 4 => simple (St.ok, s.updAbort)
  | 5 => simple (s.updClone s.alm.kind)
  | 6 => simple s.updReboot
  | 7 => s.updData q (ofLeBytes (a.take 4)) (a.drop 4)
  | _ => (St.badArg, s)

/-- UPD's response data. -/
def Chip.updAnswer (s : Chip) : List Byte := leBytes 4 (s.rd Reg.UPD_STA).toNat ++ leBytes 4 (s.get Fld.UPD_DOFS_N)

/-- Is a service a write (R430)? -/
def isWrite (code : Nat) : Bool := code == Svc.paramWrite || code == Svc.time || code == Svc.upd

/-- A requester by kind and, on the Turradar link, by its node address. -/
def requester (rqk rqid : Nat) : Nat := 256 * rqk + (if rqk = 1 then rqid else 0)

/-- The requester of a service. -/
def SvcReq.who (q : SvcReq) : Nat := requester q.rqk q.rqid

/-- A requester's continuation. -/
def Chip.cont (s : Chip) (who : Nat) : List Byte := ((s.alm.conts.find? (·.1 == who)).map (·.2)).getD []

/-- Set it. -/
def Chip.setCont (s : Chip) (who : Nat) (bs : List Byte) : Chip :=
  let rest := s.alm.conts.filter (·.1 != who)
  { s with alm := { s.alm with conts := if bs.isEmpty then rest else rest ++ [(who, bs)] } }

/-- Pages of the commit group of a write service: its data pages and the page of its SVCWRITE record (R457). -/
def Chip.svcPages (s : Chip) (q : SvcReq) : Nat :=
  if q.code = Svc.paramWrite then
    (match partAt (ofLeBytes ((q.req.drop 2).take 1)) with
      | some b => (s.patchPages (b.1 + ofLeBytes ((q.req.drop 3).take 3)) (q.req.drop 6)).length + 1
      | none => 1)
  else if q.code = Svc.upd && (q.req.drop 2).take 1 = [2#8] then 17
  else if q.code = Svc.upd && (q.req.drop 2).take 1 = [7#8] then
    (if s.alm.gather.length + (q.req.length - 7) < 1024 &&
        s.get Fld.UPD_DOFS_N + s.alm.gather.length + (q.req.length - 7) < s.get Fld.UPD_LEN_N then 0 else 17)
  else 1

/-- Checks of a Nimora write before it runs (R457, R458 steps 1 and 2); 0x00 passes. -/
def Chip.nimWriteCheck (s : Chip) (q : SvcReq) : Status :=
  let seq := ofLeBytes (q.req.take 2)
  if seq = 0 then St.badArg
  else if seq = s.get Fld.NIM_LSEQ_S then St.already
  else if q.code ≠ Svc.upd && !q.auth then St.perm
  else if !s.energyWrite (s.svcPages q) then St.waitEnergy
  else St.ok

/-- Run a write service. -/
def Chip.svcWrite (s : Chip) (q : SvcReq) : (Status × List Byte) × Chip :=
  let pre := if q.rqk = 2 then s.nimWriteCheck q else St.ok
  if q.req.length < 3 then ((St.badArg, []), s)
  else if pre ≠ St.ok then ((pre, []), s)
  else
    let (st, t) := if q.code = Svc.paramWrite then s.svcParamWrite q else if q.code = Svc.time then s.svcTime q else s.svcUpd q
    let data := if q.code = Svc.upd then t.updAnswer else []
    -- the applied write's SEQ and response are kept (R457)
    let keep (c : Chip) : Chip := { c with alm := { c.alm with nim := { c.alm.nim with kept := st :: data } } }
    let t := if q.rqk = 2 && st = St.ok then keep ((t.put Fld.NIM_LSEQ_S (ofLeBytes (q.req.take 2))).set Fld.NIM_IST_WRITE) else t
    ((st, data), t)

/-- Run a service for a requester (R430): status and response data. Any service but CONT ends the requester's continuation. -/
def Chip.service (s : Chip) (q : SvcReq) : (Status × List Byte) × Chip :=
  if q.code = Svc.cont then
    if (s.cont q.who).isEmpty then ((St.state, []), s) else ((St.ok, s.cont q.who), s.setCont q.who [])
  else
    let s := s.setCont q.who []
    if s.romMode && !(q.code = Svc.status || q.code = Svc.ident || q.code = Svc.upd) then ((St.badArg, []), s)
    else if q.code = Svc.status then (if q.req.isEmpty then ((St.ok, s.svcStatus), s) else ((St.badArg, []), s))
    else if q.code = Svc.ident then (if q.req.isEmpty then ((St.ok, s.svcIdent), s) else ((St.badArg, []), s))
    else if q.code = Svc.logRead then
      let n := ofLeBytes (q.req.drop 4)
      if q.req.length ≠ 5 || n = 0 || (if q.rqk = 2 then 7 else 31) < n then ((St.badArg, []), s)
      else ((St.ok, s.svcLog (ofLeBytes (q.req.take 4)) n), s)
    else if q.code = Svc.quote then
      if q.req.length ≠ 32 then ((St.badArg, []), s)
      else if s.keyCopy.isNone then ((St.busy, []), s)
      else if q.rqk = 2 && !s.energyRun then ((St.waitEnergy, []), s)
      else
        let (b, t) := s.quoteBody q.rqk q.rqid q.req
        ((St.ok, b), t)
    else if q.code = Svc.paramRead then s.svcParamRead q.req
    else if isWrite q.code then s.svcWrite q
    else ((St.badArg, []), s)

/-- Must a request wait: a QUOTE for a measurement, LOAD or the verification of an image to end (R448, R459), a write for the commit group
that is open (R408, R459)? -/
def Chip.svcWaits (s : Chip) (q : SvcReq) : Bool :=
  (q.code == Svc.quote && (s.on Fld.ORR_STA_MEAS || s.get Fld.PSY_BST_STG == 0x07 || s.updSt == 2)) || (isWrite q.code && s.gst != 0)

end Sys2Proof.Machine
end

