-- ==== Sys2Proof/Machine/Serial.lean ====
section
/-!
DEFINITION. The serial links (chapter 14): UARTs A0, A1 and ML with their line errors and flow control (R378–R384), tunnels (R385–R388),
the Turradar link (R389–R396), the sync chain (R397–R402), and the delivery of service responses to the mailbox, the Turradar link,
the Nimora port and the host (R431, R394, R455, R448).
-/
namespace Sys2Proof.Machine

/-! ### Ports -/

/-- Port 0 A0, 1 A1, 2 ML. -/
def Chip.port (s : Chip) (p : Nat) : Port := if p = 0 then s.ser.a0 else if p = 1 then s.ser.a1 else s.ser.ml

/-- Put it back. -/
def Chip.setPort (s : Chip) (p : Nat) (x : Port) : Chip :=
  { s with ser := if p = 0 then { s.ser with a0 := x } else if p = 1 then { s.ser with a1 := x } else { s.ser with ml := x } }

/-- The page of a port. -/
def portPage (p : Nat) : Nat := if p = 0 then Pg.UA0 else if p = 1 then Pg.UA1 else Pg.MLK

/-- A field of UA0 on port `p`. -/
def uaF (p : Nat) (f : Field) : Field := { f with addr := f.addr + p * (Pg.UA1 - Pg.UA0) }

/-- A bit of a port's STA and IST. -/
def portSta (p bit : Nat) : Field := ⟨portPage p + 0xC, bit, 1⟩
def portIst (p bit : Nat) : Field := ⟨portPage p + 0x10, bit, 1⟩

/-- Do bytes pass through DATA (DIRECT on A0 and A1, RAW on ML)? -/
def Chip.direct (s : Chip) (p : Nat) : Bool := if p = 2 then s.on Fld.MLK_ADDR_MODE else s.on (uaF p Fld.UA0_TUN_MODE)

/-- Is the port enabled? -/
def Chip.portOn (s : Chip) (p : Nat) : Bool := s.on (hEN (portPage p))

/-- Seven data bits? -/
def Chip.sevenBits (s : Chip) (p : Nat) : Bool := if p = 2 then s.on Fld.MLK_FMT_D7 else s.on (uaF p Fld.UA0_FMT_D7)

/-- LVL, RXNE and DATA show the FIFOs; RX watermarks send XOFF and XON (R382, R384). -/
def Chip.syncPort (s : Chip) (p : Nat) : Chip :=
  let x := s.port p
  let front : Word := match x.rx with
    | b :: _ => if s.direct p then b.c.zeroExtend 32 else 0x100#32
    | [] => 0x100#32
  let s := s.putB (portSta p 8) (!x.rx.isEmpty)
  if p = 2 then s.wr Reg.MLK_DATA front
  else
    let s := (s.put (uaF p Fld.UA0_LVL_RXL) x.rx.length).put (uaF p Fld.UA0_LVL_TXL) x.tx.length
    let s := s.wr (Reg.UA0_DATA + p * (Pg.UA1 - Pg.UA0)) front
    if s.on (uaF p Fld.UA0_FLOW_XTX) then
      if s.get (uaF p Fld.UA0_WM_RXHI) ≤ x.rx.length then s.set (uaF p Fld.UA0_STA_XOFFS)
      else if x.rx.length ≤ s.get (uaF p Fld.UA0_WM_RXLO) then s.clr (uaF p Fld.UA0_STA_XOFFS) else s
    else s

/-- A line error: sticky flag, count, LINEERR; a flag set again leaves every earlier record of a STA read (R380, R381).
Bits: 9 PE, 10 FE, 11 OE, 12 BRK. -/
def Chip.lineError (s : Chip) (p bit : Nat) : Chip :=
  let x := s.port p
  let s := s.setPort p { x with recs := x.recs.map fun r => (r.1, if bitsOf r.2 bit 1 = 1 then r.2 - 2 ^ bit else r.2) }
  let s := (s.set (portSta p bit)).set (portIst p (if p = 2 then 10 else 11))
  if p = 2 then (if bit = 10 then s.bump Fld.MLK_ERRC_FE else s)
  else match bit with
    | 9 => s.bump (uaF p Fld.UA0_ERRC_PE)
    | 10 => s.bump (uaF p Fld.UA0_ERRC_FE)
    | 11 => s.bump (uaF p Fld.UA0_ERRC_OE)
    | _ => s.bump (uaF p Fld.UA0_ERRC_BRK)

/-- A read of STA by a master records the flags that read 1 (R381). -/
def Chip.staRead (s : Chip) (m : Master) (p : Nat) : Chip :=
  let x := s.port p
  let seen := (s.rd (portPage p + 0xC)).toNat
  s.setPort p { x with recs := x.recs.filter (·.1 != m) ++ [(m, bitsOf seen 9 4 * 512)] }

/-- Any other access by that master cancels its record (R381). -/
def Chip.portAccess (s : Chip) (m : Master) (p : Nat) : Chip :=
  let x := s.port p
  if x.recs.any (·.1 == m) then s.setPort p { x with recs := x.recs.filter (·.1 != m) } else s

/-- A read of DATA: it pops the RX FIFO in DIRECT mode, and clears the flags its master's STA read recorded (R381, R382). -/
def Chip.dataRead (s : Chip) (m : Master) (p : Nat) : Word × Chip :=
  let x := s.port p
  let clear := match x.recs.find? (·.1 == m) with
    | some r => r.2
    | none => 0
  let w := s.rd (portPage p + (if p = 2 then 0x54 else 0x58))
  let x := { x with recs := x.recs.filter (·.1 != m), rx := if s.direct p then x.rx.tail else x.rx }
  let s := s.setPort p x
  let sta := portPage p + 0xC
  (w, (s.wr sta (s.rd sta &&& ~~~(BitVec.ofNat 32 clear))).syncPort p)

/-- A write of DATA (R382). -/
def Chip.dataWrite (s : Chip) (p : Nat) (b : Byte) : Status × Chip :=
  let x := s.port p
  if !s.direct p then (St.state, s.syncPort p)
  else if 64 ≤ x.tx.length then (St.busy, s.syncPort p)
  else
    (St.ok, ((s.setPort p { x with tx := x.tx ++ [if s.sevenBits p then b &&& 0x7F#8 else b] }).set
      (if p = 2 then Fld.MLK_STA_TXBSY else uaF p Fld.UA0_STA_TXBSY)).syncPort p)

/-! ### Tunnels (R385–R388) -/

/-- Inbound and outbound ring of a port. -/
def inRing (p : Nat) : Nat := 7 + 2 * p
def outRing (p : Nat) : Nat := 8 + 2 * p

/-- The port's client and its count of received frames. -/
def Chip.portClient (s : Chip) (p : Nat) : Nat := if p = 2 then s.get Fld.MLK_TUN_CLID else s.get (uaF p Fld.UA0_TUN_CLID)
def rxfF (p : Nat) : Field := if p = 2 then Fld.MLK_CNT_RXF else uaF p Fld.UA0_CNT_RXF

/-- Push an inbound TUN packet; what finds no room waits with the tunnel layer (R324, R388). -/
def Chip.pushTun (s : Chip) (p : Nat) (pkt : List Byte) : Chip :=
  let cl := s.portClient p
  if !(s.client cl).opened then s
  else
    let had := (s.ring (inRing p)).stalled.isSome
    match s.pushData (inRing p) .tun pkt 0 (some (BitVec.ofNat 8 cl)) with
    | (.full, t) =>
      if !had && (t.ring (inRing p)).stalled.isSome then t else t.setPort p { t.port p with wait := (t.port p).wait ++ [pkt] }
    | (_, t) => t

/-- The inbound TUN packet of a frame (R388). -/
def Chip.tunPacket (s : Chip) (p flags : Nat) (frame : List Byte) : List Byte :=
  devPacket (s.portClient p) 0 0x07 0 (s.get (rxfF p)) (leBytes 1 p ++ leBytes 1 flags ++ frame)

/-- The end of a link frame on a port is the frame boundary of its page (R73). -/
def Chip.frameEnd (h : Hooks) (s : Chip) (p : Nat) : Chip := s.boundary h (bndBit .frame) (fun y => y.page == portPage p)

/-- An inbound frame ends (R387): RXFRM, CNT.RXF, the packet, and the frame boundary of the page (R72). -/
def Chip.finishFrame (h : Hooks) (s : Chip) (p extra : Nat) : Chip :=
  let x := s.port p
  let flags := x.flags ||| extra ||| (if x.esc then 32 else 0)
  let s := if x.esc then s.set (uaF p Fld.UA0_IST_ESCE) else s
  let s := (s.set (uaF p Fld.UA0_IST_RXFRM)).inc (rxfF p)
  let s := s.setPort p { x with frame := [], flags := 0, esc := false }
  (s.pushTun p (s.tunPacket p flags x.frame)).frameEnd h p

/-- Is the tunnel layer held by a full inbound ring (R324, R384)? -/
def Chip.tunHeld (s : Chip) (p : Nat) : Bool := (s.ring (inRing p)).stalled.isSome || !(s.port p).wait.isEmpty

/-- Are characters escaped on the line of a port (R386)? -/
def Chip.escapes (s : Chip) (p : Nat) : Bool :=
  p ≠ 2 && s.on (uaF p Fld.UA0_TUN_ESC) && (s.on (uaF p Fld.UA0_FLOW_XRX) || s.on (uaF p Fld.UA0_FLOW_XTX))

/-- The characters that a frame has on the line: XONC, XOFFC and 0x7D go out as 0x7D and the byte XOR 0x20 (R386). -/
def Chip.lineChars (s : Chip) (p : Nat) (f : List Byte) : List Byte :=
  let special (b : Byte) : Bool := b == 0x7D#8 || b.toNat == s.get (uaF p Fld.UA0_FLOW_XOFFC) || b.toNat == s.get (uaF p Fld.UA0_FLOW_XONC)
  if s.escapes p then f.flatMap fun b => if special b then [0x7D#8, b ^^^ 0x20#8] else [b] else f

/-- Does this character, with `pending` telling whether a 0x7D stands before it, leave a pending 0x7D (R380, R386)? -/
def RxChar.leavesEsc (r : RxChar) (on pending : Bool) : Bool := on && !pending && !r.pe && !r.fe && r.c == 0x7D#8

/-- Is the next character received an escaped one? The characters that wait in the FIFO count, and a cut among them ends a pair (R386, R403). -/
def Chip.nextEscaped (s : Chip) (p : Nat) : Bool :=
  let x := s.port p
  !s.direct p && s.escapes p &&
    x.rx.foldl (fun pending r => r.leavesEsc true pending && r.marks.all (· == 4)) x.esc

/-- One character enters frame assembly (R386, R387); one received with PE or FE is never an escape character (R380). -/
def Chip.feed (h : Hooks) (s : Chip) (p : Nat) (r : RxChar) : Chip :=
  let c := r.c
  let x := s.port p
  let x := { x with flags := x.flags ||| (if r.pe then 1 else 0) ||| (if r.fe then 2 else 0) }
  if r.leavesEsc (s.escapes p) x.esc then s.setPort p { x with esc := true }
  else
    let s := s.setPort p { x with frame := x.frame ++ [if x.esc then c ^^^ 0x20#8 else c], esc := false }
    if !x.esc && s.on (uaF p Fld.UA0_TUN_TERMEN) && c.toNat == s.get (uaF p Fld.UA0_TUN_TERM) then s.finishFrame h p 0
    else if s.get (uaF p Fld.UA0_MAXF_N) ≤ (s.port p).frame.length then s.finishFrame h p 16
    else s

/-- A cut ends the frame in assembly, if one has begun (R387). -/
def Chip.cutFrame (h : Hooks) (s : Chip) (p extra : Nat) : Chip :=
  let x := s.port p
  if x.frame.isEmpty && !x.esc then s else s.finishFrame h p extra

/-- What befell the port after a character that waited: a loss marks the frame that goes on or begins there (R388), a cut ends it (R387). -/
def Chip.rxMark (h : Hooks) (s : Chip) (p mark : Nat) : Chip :=
  if mark = 4 then s.setPort p { s.port p with flags := (s.port p).flags ||| 4 } else s.cutFrame h p mark

/-- The RX FIFO drains into frame assembly in TUNNEL mode, while the inbound ring takes frames (R384). -/
def Chip.drainPort (h : Hooks) (s : Chip) (p : Nat) : Nat → Chip
  | 0 => s.syncPort p
  | n + 1 =>
    match (s.port p).wait with
    | pkt :: l =>
      let t := (s.setPort p { s.port p with wait := [] }).pushTun p pkt
      let t := t.setPort p { t.port p with wait := (t.port p).wait ++ l }
      if !(t.port p).wait.isEmpty && (t.ring (inRing p)).stalled.isSome then t.syncPort p
      else if (t.port p).wait.length = l.length + 1 then t.syncPort p
      else t.drainPort h p n
    | [] =>
      if s.direct p || s.tunHeld p then s.syncPort p
      else match (s.port p).rx with
        | [] => s.syncPort p
        | c :: r => (c.marks.foldl (fun t m => t.rxMark h p m) ((s.setPort p { s.port p with rx := r }).feed h p c)).drainPort h p n

/-- A frame or a waiting TX FIFO of A0 or A1 begins on the line, unless XOFFR holds the transmitter (R383, R385). -/
def Chip.startTx (s : Chip) (p : Nat) : Chip :=
  if s.portOn p && !s.direct p && !s.on (uaF p Fld.UA0_STA_XOFFR) && !(s.ring (outRing p)).ents.isEmpty then s.set (uaF p Fld.UA0_STA_TXBSY) else s

/-- Something befalls the port after the last character that waits in its RX FIFO. -/
def Chip.markRx (s : Chip) (p mark : Nat) : Chip :=
  let x := s.port p
  match x.rx.getLast? with
  | some r => s.setPort p { x with rx := x.rx.dropLast ++ [{ r with marks := r.marks ++ [mark] }] }
  | none => s

/-- A cut of what A0 or A1 has received: it stands behind the characters that still wait for the inbound ring (R387). -/
def Chip.cutPort (h : Hooks) (s : Chip) (p extra : Nat) : Chip :=
  if p = 2 || s.direct p then s
  else if (s.port p).rx.isEmpty then s.cutFrame h p extra
  else s.markRx p extra

/-- UART_RX_CHAR on A0 or A1 (R380, R383, R387): errors, flow characters, FIFO. A port that is not enabled receives nothing (R58). -/
def Chip.rxChar (h : Hooks) (s : Chip) (p : Nat) (c : Byte) (pe fe : Bool) : Chip :=
  let c := if s.sevenBits p then c &&& 0x7F#8 else c
  let same (f : Field) : Bool := (if s.sevenBits p then s.get f % 128 else s.get f) == c.toNat
  let escaped := s.nextEscaped p
  if !s.portOn p then s else
  let s := s.setPort p { s.port p with ending := false }
  let s := if pe then s.lineError p 9 else s
  let s := if fe then s.lineError p 10 else s
  if p ≠ 2 && !pe && !fe && !escaped && s.on (uaF p Fld.UA0_FLOW_XRX) && same (uaF p Fld.UA0_FLOW_XOFFC) then
    (s.setPort p { s.port p with ending := s.on (uaF p Fld.UA0_STA_TXBSY) }).set (uaF p Fld.UA0_STA_XOFFR)
  else if p ≠ 2 && !pe && !fe && !escaped && s.on (uaF p Fld.UA0_FLOW_XRX) && same (uaF p Fld.UA0_FLOW_XONC) then
    (s.clr (uaF p Fld.UA0_STA_XOFFR)).startTx p
  else if p = 2 && !s.direct 2 then s
  else
    let x := s.port p
    if 64 ≤ x.rx.length then (s.markRx p 4).lineError p 11
    else
      let s := s.setPort p { x with rx := x.rx ++ [{ c := c, pe := pe, fe := fe }], flags := if s.direct p then 0 else x.flags }
      if s.direct p then s.syncPort p else s.drainPort h p 66

/-- UART_BREAK (R380, R387). -/
def Chip.rxBreak (h : Hooks) (s : Chip) (p : Nat) : Chip :=
  if !s.portOn p then s else
  let s := s.setPort p { s.port p with ending := false }
  (s.lineError p 12).cutPort h p 8

/-- TUNNEL_IDLE_CUT (R387). -/
def Chip.idleCut (h : Hooks) (s : Chip) (p : Nat) : Chip := s.cutPort h p 0

/-- XOFF_TIMEOUT (R383). -/
def Chip.xoffTimeout (s : Chip) (p : Nat) : Chip :=
  if s.on (uaF p Fld.UA0_STA_XOFFR) && s.get (uaF p Fld.UA0_FLOW_XOTMO) != 0 then
    (((s.setPort p { s.port p with ending := false }).set (uaF p Fld.UA0_IST_XOTMO)).clr (uaF p Fld.UA0_STA_XOFFR)).startTx p
  else s

/-- CTL.EN of a port is cleared with frames queued: they are discarded, their entries consumed, and DISC is set, which MLK does not have (R403,
R404). -/
def Chip.portStop (s : Chip) (p : Nat) : Chip :=
  let r := s.ring (outRing p)
  let s := s.setPort p { s.port p with ending := false }
  let s := if p = 2 then s.clr Fld.MLK_STA_TXBSY else s.clr (uaF p Fld.UA0_STA_TXBSY)
  if (r.ents ++ r.popped).isEmpty then s
  else
    let t := (r.popped ++ r.ents).foldl (fun t e => t.consumed (outRing p) e)
      (s.setRing (outRing p) { r with ents := [], popped := [] })
    let t := t.retryPush (outRing p)
    if p = 2 then t else t.set (uaF p Fld.UA0_IST_DISC)

/-- A whole frame from ring data: the packet's length, then its bytes. Ring data of outbound frames is the length in two bytes and the frame. -/
def frameOf (bs : List Byte) : List Byte := (bs.drop 2).take (ofLeBytes (bs.take 2))

/-- The oldest frame of a port's outbound ring, popped and consumed. -/
def Chip.takeFrame (s : Chip) (p : Nat) : Option (List Byte) × Chip :=
  match s.popRing (outRing p) .tun with
  | (.entry e, t) => (some (frameOf (t.entryBytes e)), t.complete (outRing p))
  | (_, t) => (none, t)

/-! ### Delivery of service responses -/

/-- A Turradar response frame, bytes 1 to 7 + LEN (R391). -/
def Chip.turAnswer (s : Chip) (src seq : Nat) (payload : List Byte) : Answer :=
  { src := src, seq := seq, frame := leBytes 1 src ++ leBytes 1 (s.get Fld.MLK_ADDR_A) ++ [0x40#8] ++ leBytes 2 seq ++
      leBytes 2 payload.length ++ payload }

/-- May a Turradar frame of `n` bytes be sent (R396, R467)? -/
def Chip.turEnergy (s : Chip) (n : Nat) : Bool :=
  match s.get Fld.HRV_STA_SRC with
  | 0 => true
  | 1 =>
    let v : Int := s.get (Fld.SEN_VAL_V 0)
    let div := 64 * s.get Fld.MLK_BAUD_DIV + s.get Fld.MLK_BAUD_FRAC
    -- bit times of 64ths of a divisor over 8 MHz; the drop ITX × t / C in mV, C in µF
    let clocks := (n + 3) * 11 * (if s.on Fld.MLK_BAUD_OVS8 then 8 else 16) * div / 64
    bitsOf (s.get Fld.HRV_STA_ABV) 2 1 == 1 &&
      decide ((s.get Fld.HRV_ITX_I * clocks * 1000 : Nat) ≤ (v - s.threshold 1) * ((s.get Fld.HRV_CSTO_UF * 80000 : Nat) : Int))
  | _ => decide (2500 ≤ s.get (Fld.SEN_VAL_V 1))

/-- A Turradar answer is ready: cached, recorded as applied unless 0x10, 0x21 or 0x50, and waiting for its turnaround (R392, R393). -/
def Chip.turReady (s : Chip) (src seq : Nat) (svc : Byte) (st : Status) (data : List Byte) : Chip :=
  let a := s.turAnswer src seq (svc :: st :: data)
  let applied := seq ≠ 0 && st ≠ St.busy && st ≠ St.state && st ≠ St.waitEnergy
  let last := if applied then (src, seq) :: s.ser.link.last.filter (·.1 != src) else s.ser.link.last
  { s with ser := { s.ser with link := { s.ser.link with last := last, cache := some a, pend := some a } } }

/-- The part of a response that fits `n` bytes; the rest becomes the requester's continuation. -/
def Chip.firstPart (s : Chip) (who n : Nat) (data : List Byte) : List Byte × Chip :=
  (data.take n, s.setCont who (data.drop n))

/-- The reader at the Nimora port as a requester. -/
def theReader : Nat := requester 2 0

/-- Bytes go to the reader where the energy check of R467 passes; else it gets no answer. -/
def Chip.apduSend (s : Chip) (ok : Bool) (bs : List Byte) : Chip :=
  { s with alm := { s.alm with nim := { s.alm.nim with out := if ok then bs else [] } } }

/-- An APDU answer with data and status words 90 00, or 61 xx when more waits (R455, R467). -/
def Chip.apduData (s : Chip) (le : Nat) (data : List Byte) : Chip :=
  let (d, s) := s.firstPart theReader le data
  let left := (s.cont theReader).length
  let sw := if left = 0 then [0x90#8, 0#8] else [0x61#8, BitVec.ofNat 8 (if 255 < left then 0 else left)]
  s.apduSend s.energyXmit (d ++ sw)

/-- A status-word answer with no data. -/
def Chip.apduSw (s : Chip) (a b : Byte) : Chip := s.apduSend s.energyStatus [a, b]

/-- The answer of a service that ran for the reader (R455, R458 step 4, R467): counted when 0x50; nothing is sent without the energy. -/
def Chip.nimAnswer (s : Chip) (le : Nat) (st : Status) (data : List Byte) : Chip :=
  if st = St.waitEnergy then (s.bump Fld.NIM_CNT_WEN).apduSend s.energyStatus [st, 0x90#8, 0#8]
  else s.apduData le (st :: data)

/-- Deliver what a service answered to its requester (R431, R394, R455, R448). -/
def Chip.deliver (s : Chip) (q : SvcReq) (st : Status) (data : List Byte) : Chip :=
  match q.rqk, q.hdr with
  | 0, some h => s.respondParts h (st :: data) 8
  | 1, _ =>
    let (d, t) := s.firstPart q.who 1022 data
    let r := t.turReady q.rqid q.aux (BitVec.ofNat 8 q.code) st d
    -- a broadcast is never answered (R392)
    if q.mute then { r with ser := { r.ser with link := { r.ser.link with pend := s.ser.link.pend, cache := s.ser.link.cache } } } else r
  | 2, _ => s.nimAnswer q.aux st data
  | 3, _ =>
    -- the mailbox: the response with its status byte from MBUF offset 0 (R431)
    let (d, s) := s.firstPart q.who 1023 data
    let bs := st :: d
    let s := (List.range 256).foldl (fun t i =>
      if 4 * i < bs.length then t.wr (Reg.ALM_MBUF i) (BitVec.ofNat 32 (ofLeBytes ((bs.drop (4 * i)).take 4))) else t) s
    let s := ((s.clr Fld.ALM_MRS_BUSY).set Fld.ALM_MRS_DONE).put Fld.ALM_MRS_STATUS st.toNat
    let s := (s.put Fld.ALM_MRS_RLEN bs.length).clr Fld.ALM_STA_BUSY
    let s := { s with alm := { s.alm with mbox := none } }
    (s.putB Fld.ALM_STA_MORE (!(s.cont q.who).isEmpty)).set Fld.ALM_IST_MBX
  | _, _ => s

/-- Run a service request and deliver its answer; one that must wait is held, at most 8 QUOTEs at a time (R408, R448, R459). -/
def Chip.svcRun (s : Chip) (q : SvcReq) : Chip :=
  if s.svcWaits q then
    if q.code = Svc.quote && 8 ≤ s.alm.waits.countP (·.code == Svc.quote) then s.deliver q St.busy []
    else { s with alm := { s.alm with waits := s.alm.waits ++ [q] } }
  else
    let ((st, data), t) := s.service q
    t.deliver q st data

/-- Held requests run once what they waited for has ended. -/
def Chip.svcRetryN (s : Chip) : Nat → Chip
  | 0 => s
  | n + 1 =>
    match s.alm.waits with
    | [] => s
    | q :: r => if s.svcWaits q then s else (({ s with alm := { s.alm with waits := r } }).svcRun q).svcRetryN n

/-- All of them that may. -/
def Chip.svcRetry (s : Chip) : Chip := s.dirRetry.logRetry.svcRetryN s.alm.waits.length

/-! ### The mailbox (R431) -/

/-- A write of 1 to MDB.GO. -/
def Chip.mailboxGo (s : Chip) (m : Master) (v : Word) : Status × Chip :=
  if bitsOf v.toNat 0 1 = 0 then (St.ok, s)
  else if s.on Fld.ALM_MRS_BUSY then (St.busy, s)
  else
    let s := ((s.set Fld.ALM_MRS_BUSY).clr Fld.ALM_MRS_DONE).set Fld.ALM_STA_BUSY
    (St.ok, { s with alm := { s.alm with mbox := some m } })

/-- The request that the mailbox holds: write services need X on NVM when a client asks (R430). -/
def Chip.mailboxReq (s : Chip) (m : Master) : SvcReq :=
  let auth := match m with
    | .host c => s.mayX c.toNat Pg.NVM
    | _ => true
  let bytes := (List.range 256).flatMap fun i => leBytes 4 (s.get (Fld.ALM_MBUF_D i))
  { rqk := 3, rqid := 0, auth := auth, code := s.get Fld.ALM_MSVC_SVC, req := bytes.take (s.get Fld.ALM_MLEN_N), aux := 0, hdr := none }

/-- MAILBOX_DONE: the service of the request in hand ends. -/
def Chip.mailboxDone (s : Chip) : Chip :=
  match s.alm.mbox with
  | some m => if s.alm.waits.any (·.rqk == 3) then s.svcRetry else s.svcRun (s.mailboxReq m)
  | none => s

/-- MAILBOX_DONE for the service with a given code. -/
def Chip.mailboxSvc (s : Chip) (code : Nat) : Chip := if s.get Fld.ALM_MSVC_SVC = code then s.mailboxDone else s

/-! ### The Turradar link (R389–R396) -/

/-- Does a wake by SVC 0x00 bring the L-die back (R479)? -/
def Chip.turWakes (s : Chip) : Bool := bitsOf (s.get Fld.RET_WSRC_EN) 3 1 == 1 && (s.fab.standby || s.get Fld.RET_LVL_CUR == 8)

/-- SVC 0x00, the host tunnel poll (R394): the request's bytes go to ring 11, the oldest frame of ring 12 comes back. -/
def Chip.turPoll (s : Chip) (src seq : Nat) (frame : List Byte) : Chip :=
  if s.turWakes then s.turReady src seq 0#8 St.busy []
  else if !s.fab.lco || s.fab.standby then s.turReady src seq 0#8 St.state []
  else if s.tunHeld 2 || (s.ringCap 11 ≤ (s.ring 11).ents.length) then s.turReady src seq 0#8 St.busy []
  else
    let s := s.pushTun 2 (s.tunPacket 2 0 frame)
    let (f, s) := s.takeFrame 2
    s.turReady src seq 0#8 St.ok (f.getD [])

/-- A request that a responder runs. A broadcast is never answered; a poll without the energy for its answer is not run and not recorded (R396). -/
def Chip.turRequest (s : Chip) (bc : Bool) (src seq : Nat) (payload frame : List Byte) : Chip :=
  let svc := payload.headD 0#8
  let ran :=
    if svc = 0#8 then s.turPoll src seq frame
    else if 0x80 ≤ svc.toNat then s.turReady src seq svc St.badArg []
    else s.svcRun { rqk := 1, rqid := src, auth := bitsOf (s.param 0x21 1) 0 1 == 1, code := svc.toNat, req := payload.drop 1,
                    aux := seq, hdr := none, mute := bc }
  let unsent (t : Chip) : Chip := { t with ser := { t.ser with link := { t.ser.link with pend := s.ser.link.pend, cache := s.ser.link.cache } } }
  if bc then unsent ran
  else match ran.ser.link.pend with
    | some a => if ran.turEnergy a.frame.length then ran else s
    | none => ran

/-- A frame for a responder: de-duplicated by source and SEQ (R393). -/
def Chip.turRespond (s : Chip) (bc : Bool) (src seq : Nat) (payload frame : List Byte) : Chip :=
  let dup := seq ≠ 0 && s.ser.link.last.contains (src, seq)
  if dup && bc then s
  else if dup then
    match s.ser.link.cache with
    | some a =>
      if a.src = src && a.seq = seq then { s with ser := { s.ser with link := { s.ser.link with pend := some a } } }
      else { s with ser := { s.ser with link := { s.ser.link with pend := some (s.turAnswer src seq [payload.headD 0#8, St.already]) } } }
    | none => { s with ser := { s.ser with link := { s.ser.link with pend := some (s.turAnswer src seq [payload.headD 0#8, St.already]) } } }
  else s.turRequest bc src seq payload frame

/-- The next frame of ring 12 begins on the line, when no request is outstanding (R392, R395): ML writes its own ADDR into SRC. -/
def Chip.turSend (s : Chip) : Chip :=
  if s.on Fld.MLK_ADDR_ROLE && !s.direct 2 && s.portOn 2 && s.ser.link.outst.isNone && s.ser.link.sending.isNone &&
      !(s.ring (outRing 2)).ents.isEmpty then
    match s.takeFrame 2 with
    | (some f, t) =>
      let f := f.take 1 ++ leBytes 1 (t.get Fld.MLK_ADDR_A) ++ f.drop 2
      { t.set Fld.MLK_STA_TXBSY with ser := { t.ser with link := { t.ser.link with sending := some f, tries := 0 } } }
    | (none, t) => t
  else s

/-- A frame of ML has gone out whole: SYNC and CRC around it (R391, R117), TXDONE and CNT.TXF (R385). -/
def Chip.linkOut (s : Chip) (f : List Byte) : Chip :=
  ((s.setPort 2 { s.port 2 with line := 0xA5#8 :: f ++ leBytes 2 (crc16 f).toNat }).set Fld.MLK_IST_TXDONE).inc Fld.MLK_CNT_TXF

/-- A character that reads back different aborts the frame (R389). -/
def Chip.linkColl (s : Chip) : Chip := (s.set Fld.MLK_IST_COLL).bump Fld.MLK_ERRC_COLL

/-- The last stop bit of a controller's request, or the character that aborted it (R389, R392): a broadcast waits for nothing; any other request
waits RTO for its response. An aborted one waits too, and is repeated like one that brought none (DEDUCED, log entry 181). -/
def Chip.requestSent (h : Hooks) (s : Chip) (coll : Bool) : Chip :=
  match s.ser.link.sending with
  | none => s.turSend
  | some f =>
    let s := ({ s with ser := { s.ser with link := { s.ser.link with sending := none } } }).clr Fld.MLK_STA_TXBSY
    let s := (if coll then s.linkColl else s.linkOut f).frameEnd h 2
    let bc := match f[2]? with
      | some c => c.msb
      | none => false
    if bc then s.turSend
    else { s.set Fld.MLK_STA_WAIT with ser := { s.ser with link := { s.ser.link with outst := some f } } }

/-- A controller's request is over. -/
def Chip.turOver (s : Chip) : Chip :=
  ({ s with ser := { s.ser with link := { s.ser.link with outst := none, tries := 0 } } }).clr Fld.MLK_STA_WAIT

/-- A frame of the link reaches the host as an inbound TUN packet for port 2 (R388, R395), unless the L-die is off. -/
def Chip.turToHost (s : Chip) (flags : Nat) (frame : List Byte) : Chip :=
  let s := s.inc Fld.MLK_CNT_RXF
  (if s.fab.lco then s.pushTun 2 (s.tunPacket 2 flags frame) else s).set Fld.MLK_IST_RXFRM

/-- A whole frame with a good CRC: what a controller and a responder do with it (R392, R393). -/
def Chip.turTake (s : Chip) (dst src ctl : Byte) (seq : Nat) (payload : List Byte) : Chip :=
  let bc := ctl.msb
  let rsp := bitsOf ctl.toNat 6 1 == 1
  let frame := [dst, src, ctl] ++ leBytes 2 seq ++ leBytes 2 payload.length ++ payload
  let mine := !bc && dst.toNat == s.get Fld.MLK_ADDR_A
  if s.on Fld.MLK_ADDR_ROLE then
    let answers (f : List Byte) : Bool := rsp && f.take 1 == [src] && (f.drop 3).take 2 == leBytes 2 seq
    if (s.ser.link.outst).any answers then (s.turOver).turToHost 0 frame
    else if mine && !rsp then s.set Fld.MLK_IST_ROLE
    else s
  else if rsp || !(mine || bc) then s
  else ((s.inc Fld.MLK_CNT_RXF).set Fld.MLK_IST_RXFRM).turRespond bc src.toNat seq payload frame

/-- TURRADAR_FRAME_RECEIVED (R391–R393). Every frame that ends on the link is a frame boundary, a discarded one too (R73; DEDUCED for that one,
log entry 182). -/
def Chip.turFrame (h : Hooks) (s : Chip) (dst src ctl : Byte) (seq : Nat) (payload : List Byte) (crcOk : Bool) : Chip :=
  let n := payload.length
  if !s.portOn 2 || s.direct 2 then s
  else if n = 0 || 1024 < n then s.frameEnd h 2
  else if !crcOk then ((s.bump Fld.MLK_ERRC_CRCE).set Fld.MLK_IST_CRCE).frameEnd h 2
  else (s.turTake dst src ctl seq payload).frameEnd h 2

/-- TURRADAR_RESPONSE_TIMEOUT (R392, R395): a repeat with the same SEQ begins, or NORSP after the last. -/
def Chip.turTimeout (s : Chip) : Chip :=
  match s.ser.link.outst with
  | none => s
  | some f =>
    if s.ser.link.tries < s.get Fld.MLK_TIM_RTRY then
      let link := { s.ser.link with outst := none, sending := some f, tries := s.ser.link.tries + 1 }
      ((({ s with ser := { s.ser with link := link } }).clr Fld.MLK_STA_WAIT).set Fld.MLK_STA_TXBSY)
    else
      let s := ((s.turOver).set Fld.MLK_IST_NORSP).bump Fld.MLK_ERRC_NORSP
      (s.turToHost 64 (f.take 7)).turSend

/-- TURRADAR_RESPONSE_SEND: the answer goes out after TTA, or not at all when it could not start within RTO / 2 (R392) or the energy for it is not
there (R396). A character read back different aborts it (R389). -/
def Chip.turAnswerOut (h : Hooks) (s : Chip) (late coll : Bool) : Chip :=
  match s.ser.link.pend with
  | none => s
  | some a =>
    let s := { s with ser := { s.ser with link := { s.ser.link with pend := none } } }
    if late then s.set Fld.MLK_IST_LATE
    else if !s.turEnergy a.frame.length then s
    else (if coll then s.linkColl else s.linkOut a.frame).frameEnd h 2

/-- UART_FRAME_SENT (R385): the frame on the line is out; in DIRECT and RAW mode the TX FIFO has emptied. While XOFFR holds the transmitter only
the character in progress at the XOFF can end one (R383). `coll`: ML read back a character different from the one it sent (R389). -/
def Chip.frameSent (h : Hooks) (s : Chip) (p : Nat) (coll : Bool) : Chip :=
  let x := s.port p
  if !s.portOn p || (p ≠ 2 && s.on (uaF p Fld.UA0_STA_XOFFR) && !x.ending) then s
  else if s.direct p then
    let aborted := p = 2 && coll
    let s := (s.setPort p { x with tx := [], ending := false, line := if aborted then [] else x.tx }).clr
      (if p = 2 then Fld.MLK_STA_TXBSY else uaF p Fld.UA0_STA_TXBSY)
    (if aborted then s.linkColl else s).syncPort p
  else if p = 2 then s.requestSent h coll
  else
    let s := s.startTx p
    if !s.on (uaF p Fld.UA0_STA_TXBSY) then s
    else
      let s := (s.setPort p { x with ending := false }).clr (uaF p Fld.UA0_STA_TXBSY)
      match s.takeFrame p with
      | (some f, t) =>
        ((((t.setPort p { t.port p with line := t.lineChars p f }).set (uaF p Fld.UA0_IST_TXDONE)).inc (uaF p Fld.UA0_CNT_TXF)).frameEnd h p).startTx p
      | (none, t) => t

/-! ### The sync chain (R397–R402) -/

/-- The CRC-8 of a sync word (R398). -/
def syncCrc (w : Word) : Byte :=
  (leBytes 4 w.toNat).foldl (fun c b =>
    let x := c ^^^ b
    let k := crc8Bit 0x07#8
    k (k (k (k (k (k (k (k x)))))))) 0#8

/-- Own HALT and FLT flags (R398). -/
def Chip.ownHalt (s : Chip) : Bool := s.on Fld.SYN_CFG_HOUT && (s.engine == Eng.halt || s.engine == Eng.fault)
def Chip.ownFlt (s : Chip) : Bool := s.on Fld.SYN_CFG_FOUT && s.engine == Eng.fault

/-- A sync word (R398). -/
def syncWord (epoch usr : Nat) (urg flt halt : Bool) (hop : Nat) : Nat :=
  (epoch % 65536) * 65536 + (usr % 256) * 256 + (if urg then 128 else 0) + (if flt then 64 else 0) + (if halt then 32 else 0) + hop % 32

/-- A received HALT, and LOST with LOSSH: the packet decoder's HALT path, as an accepted HALT (R401, R402, R373). -/
def Chip.syncHalt (s : Chip) : Chip := ((s.event Ev.halt).haltNow)

/-- The word this engine sends on its own: head or urgent (R399, R401). -/
def Chip.ownWord (s : Chip) (urg : Bool) : Nat :=
  let y := s.ser.sync
  let head := s.on Fld.SYN_CFG_HEAD
  syncWord y.epoch (s.get Fld.SYN_USRO_U ||| (if head then 0 else bitsOf (s.get Fld.SYN_RXW_W) 8 8)) urg (s.ownFlt || y.flt) (s.ownHalt || y.halt)
    (if head then 0 else s.get Fld.SYN_POS_P)

/-- SYNC_WORD_RECEIVED (R399–R401). -/
def Chip.syncRx (s : Chip) (w : Word) (crc : Byte) : Chip :=
  if !s.on Fld.SYN_CTL_EN then s
  else if crc ≠ syncCrc w then (s.bump Fld.SYN_ERRC_CRCE).set Fld.SYN_IST_CRCE
  else
    let n := w.toNat
    let halt := bitsOf n 5 1 == 1
    let flt := bitsOf n 6 1 == 1
    let hop := bitsOf n 0 5
    let old := s.ser.sync
    let s := ((s.wr Reg.SYN_RXW w).set Fld.SYN_STA_SYNC).clr Fld.SYN_STA_LOST
    let s := { s with ser := { s.ser with sync := { s.ser.sync with halt := halt, flt := flt } } }
    let s :=
      if s.on Fld.SYN_CFG_HEAD then
        -- a head forwards nothing; a newly set flag makes it send an urgent word of its own
        if (halt && !old.halt) || (flt && !old.flt) then
          { s with ser := { s.ser with sync := { s.ser.sync with sent := s.ownWord true } } } else s
      else if hop = 31 then (s.set Fld.SYN_STA_CHERR).set Fld.SYN_IST_CHERR
      else
        let s := (s.put Fld.SYN_POS_P (hop + 1)).set Fld.SYN_POS_VLD
        let out := syncWord (bitsOf n 16 16) (bitsOf n 8 8 ||| s.get Fld.SYN_USRO_U) (bitsOf n 7 1 == 1) (flt || s.ownFlt)
          (halt || s.ownHalt) (hop + 1)
        { s with ser := { s.ser with sync := { s.ser.sync with epoch := bitsOf n 16 16, sent := out } } }
    if halt && !old.halt then
      let s := (s.set Fld.SYN_IST_HALTR).route 0x21
      if s.on Fld.SYN_CFG_HIN then s.syncHalt else s
    else s

/-- SYNC_PERIOD_TICK: the head sends its word (R399). -/
def Chip.syncTick (s : Chip) : Chip :=
  if s.on Fld.SYN_CTL_EN && s.on Fld.SYN_CFG_HEAD then
    let s := { s with ser := { s.ser with sync := { s.ser.sync with epoch := (s.ser.sync.epoch + 1) % 65536 } } }
    let s := (s.put Fld.SYN_POS_P 0).set Fld.SYN_POS_VLD
    { s with ser := { s.ser with sync := { s.ser.sync with sent := s.ownWord false } } }
  else s

/-- SYNC_EPOCH_TICK (R400). -/
def Chip.syncEpoch (s : Chip) : Chip := if s.on Fld.SYN_CTL_EN then (s.set Fld.SYN_IST_EPOCH).route 0x20 else s

/-- SYNC_URGENT_WORD: an own flag that the last word did not carry goes out at once (R401). -/
def Chip.syncUrgent (s : Chip) : Chip :=
  let carried (bit : Nat) : Bool := bitsOf s.ser.sync.sent bit 1 == 1
  if s.on Fld.SYN_CTL_EN && ((s.ownHalt && !carried 5) || (s.ownFlt && !carried 6)) then
    { s with ser := { s.ser with sync := { s.ser.sync with sent := s.ownWord true } } }
  else s

/-- SYNC_LOST (R402). -/
def Chip.syncLost (s : Chip) : Chip :=
  if s.on Fld.SYN_CTL_EN && !s.on Fld.SYN_STA_LOST then
    let s := ((s.set Fld.SYN_STA_LOST).set Fld.SYN_IST_LOST).clr Fld.SYN_STA_SYNC
    let s := s.raise (report 0x0A03 0 0 (s.rd Reg.SYN_POS).toNat)
    if s.on Fld.SYN_CFG_LOSSH then s.syncHalt else s
  else s

/-! ### The Nimora port (R454–R458) -/

/-- NIM.ST (0 off, 1 idle, 2 active, 3 protocol, 4 selected). -/
def Chip.nimSt (s : Chip) : Nat := s.get Fld.NIM_ST_S

/-- Send bytes to the reader. -/
def Chip.nimOut (s : Chip) (bs : List Byte) : Chip := { s with alm := { s.alm with nim := { s.alm.nim with out := bs } } }

/-- The session ends: authentication, application, challenge and continuation go (R456). -/
def Chip.nimEnd (s : Chip) (st : Nat) (halted : Bool) : Chip :=
  let s := ((s.put Fld.NIM_ST_S st).clr Fld.NIM_STA_AUTH).setCont theReader []
  { s with alm := { s.alm with nim := { s.alm.nim with level := 0, halted := halted, app := false, challenge := [], cid := 0, out := [] } } }

/-- REQA or WUPA: ATQA 0x0044; a halted listener answers WUPA only (R454). -/
def Chip.nimReqa (s : Chip) (wupa : Bool) : Chip :=
  if s.on Fld.NIM_CTL_EN && s.on Fld.NIM_STA_FIELD && s.nimSt = 1 && (wupa || !s.alm.nim.halted) then
    let s := s.nimOut [0x44#8, 0#8]
    { s with alm := { s.alm with nim := { s.alm.nim with level := 1 } } }
  else s.nimOut []

/-- The UID, 7 bytes (R454). -/
def Chip.uid (s : Chip) : List Byte := leBytes 4 (s.get Fld.NIM_UIDL_U) ++ leBytes 3 (s.get Fld.NIM_UIDH_U)

/-- The five bytes of a cascade level: level 1 has the cascade tag 0x88, and the last byte is the XOR of the four. -/
def Chip.cascade (s : Chip) (level : Nat) : List Byte :=
  let u := if level = 1 then 0x88#8 :: s.uid.take 3 else s.uid.drop 3
  u ++ [u.foldl (· ^^^ ·) 0#8]

/-- Anticollision and selection at the level reached (R454): fewer than five bytes ask for the rest, five select. -/
def Chip.nimSelect (s : Chip) (level : Nat) (bs : List Byte) : Chip :=
  let l := s.alm.nim.level
  let c := s.cascade level
  if s.nimSt ≠ 1 || l = 0 || level ≠ l || c.take bs.length ≠ bs then s.nimOut []
  else if bs.length < 5 then s.nimOut (c.drop bs.length)
  else if level = 1 then
    let s := s.nimOut [0x04#8]
    { s with alm := { s.alm with nim := { s.alm.nim with level := 2 } } }
  else ((s.nimOut [0x20#8]).put Fld.NIM_ST_S 2).set Fld.NIM_IST_SEL

/-- RATS: the ATS, and 14443-4 begins (R454). -/
def Chip.nimRats (s : Chip) (cid : Nat) : Chip :=
  if s.nimSt = 2 && cid < 15 then
    let s := (s.nimOut [0x05#8, 0x78#8, 0#8, BitVec.ofNat 8 (16 * s.get Fld.NIM_CFG_FWI + 1), 0x02#8]).put Fld.NIM_ST_S 3
    { s with alm := { s.alm with nim := { s.alm.nim with cid := cid } } }
  else s.nimOut []

/-- HLTA (R454). -/
def Chip.nimHlta (s : Chip) : Chip := if s.nimSt = 2 then s.nimEnd 1 true else s.nimOut []

/-- S(DESELECT), answered, ends the session (R456). -/
def Chip.nimDeselect (s : Chip) : Chip := if 3 ≤ s.nimSt then (s.nimEnd 1 true).nimOut [0xC2#8] else s.nimOut []

/-- An APDU arrives: counted; only in the protocol state, and not while the core is held asleep (R468). -/
def Chip.apdu (s : Chip) (f : Chip → Chip) : Chip := if 3 ≤ s.nimSt && !s.coreAsleep then f (s.bump Fld.NIM_CNT_APDU) else s.nimOut []

/-- The application identifier (R455). -/
def nimAid : List Byte := [0xF0#8, 0x53#8, 0x56#8, 0x32#8, 0x34#8, 0x34#8, 0x30#8]

/-- SELECT (R455, R456). -/
def Chip.apduSelect (s : Chip) (p1 p2 : Byte) (aid : List Byte) : Chip :=
  s.apdu fun s =>
    if p1 ≠ 0x04#8 || p2 ≠ 0#8 then s.apduSw 0x6A#8 0x86#8
    else if aid.length ≠ 7 then s.apduSw 0x67#8 0#8
    else if aid ≠ nimAid then s.apduSw 0x6A#8 0x82#8
    else
      let s := ((s.put Fld.NIM_ST_S 4).clr Fld.NIM_STA_AUTH).setCont theReader []
      ({ s with alm := { s.alm with nim := { s.alm.nim with app := true } } }).apduData 256 []

/-- GET CHALLENGE (R455); not answered in ROM mode (R453). -/
def Chip.apduChallenge (s : Chip) (p12 : Nat) (le : Nat) : Chip :=
  s.apdu fun s =>
    if s.romMode then s.nimOut []
    else if !s.alm.nim.app then s.apduSw 0x69#8 0x85#8
    else if p12 ≠ 0 then s.apduSw 0x6A#8 0x86#8
    else if le ≠ 16 then s.apduSw 0x67#8 0#8
    else
      let (r, s) := s.random 16
      ({ s with alm := { s.alm with nim := { s.alm.nim with challenge := r } } }).apduData 16 r

/-- AUTH (R456): any AUTH consumes the challenge. Not answered in ROM mode (R453). -/
def Chip.apduAuth (s : Chip) (p12 : Nat) (data : List Byte) : Chip :=
  s.apdu fun s =>
    if s.romMode then s.nimOut []
    else if !s.alm.nim.app then s.apduSw 0x69#8 0x85#8
    else if p12 ≠ 0 then s.apduSw 0x6A#8 0x86#8
    else if data.length ≠ 129 then s.apduSw 0x67#8 0#8
    else
      let ch := s.alm.nim.challenge
      let s := { s with alm := { s.alm with nim := { s.alm.nim with challenge := [] } } }
      let key := data.take 65
      if !s.energyRun then s.nimAnswer 256 St.waitEnergy []
      else if s.skh ≠ List.replicate 32 0#8 && digest key = s.skh && !ch.isEmpty &&
          Config.ecdsaOk key (digest (ch ++ s.uid ++ [1#8])) (data.drop 65) then (s.set Fld.NIM_STA_AUTH).nimAnswer 256 St.ok []
      else (s.clr Fld.NIM_STA_AUTH).nimAnswer 256 St.perm []

/-- GET RESPONSE (R455). -/
def Chip.apduMore (s : Chip) (le : Nat) : Chip :=
  s.apdu fun s =>
    if !s.alm.nim.app || (s.cont theReader).isEmpty then s.apduSw 0x69#8 0x85#8 else s.apduData le (s.cont theReader)

/-- A service APDU (R455). CONT has no INS of its own (R430); ROM mode answers only STATUS, IDENT and UPD (R453). -/
def Chip.apduSvc (s : Chip) (p12 le code : Nat) (req : List Byte) : Chip :=
  s.apdu fun s =>
    if s.romMode && !(code = Svc.status || code = Svc.ident || code = Svc.upd) then s.nimOut []
    else if !s.alm.nim.app then s.apduSw 0x69#8 0x85#8
    else if code = Svc.cont then s.apduSw 0x6D#8 0#8
    else if p12 ≠ 0 then s.apduSw 0x6A#8 0x86#8
    else s.svcRun { rqk := 2, rqid := 0, auth := s.on Fld.NIM_STA_AUTH, code := code, req := req, aux := le, hdr := none }

/-- NIMORA_FIELD_LOST (R456, R458): the session ends; an APDU in hand is lost with it. -/
def Chip.nimFieldLost (s : Chip) : Chip :=
  let s := ((s.nimEnd (if s.on Fld.NIM_CTL_EN then 1 else 0) false).clr Fld.NIM_STA_FIELD).clr Fld.HRV_STA_RFON
  { s with alm := { s.alm with waits := s.alm.waits.filter (·.rqk != 2) } }

/-- RF_FIELD_DETECT (R464): VRF has reached 1.80 V. -/
def Chip.rfField (s : Chip) : Chip :=
  ((s.set Fld.HRV_STA_RFON).set Fld.HRV_IST_FIELD).set Fld.NIM_STA_FIELD

end Sys2Proof.Machine
end

