-- ==== Sys2Proof/Machine/Power.lean ====
section
/-!
DEFINITION. Supply and hold-up reserve (R124–R134), the AON supply (R466), the L-die and D-die losing power or being reset (R22, R42),
boot failures (R46), and the RT frames of the die bridge (R28, R33–R36, R570).
-/
namespace Sys2Proof.Machine

/-! ### The L-die and D-die go off or are reset -/

/-- A group of an L-die master: one in COMMIT ends, one OPEN is discarded (R428). -/
def Chip.dropLGroup (s : Chip) : Chip :=
  let isL := match s.fst.owner with
    | some .alm => false
    | some _ => true
    | none => false
  let s := { s with fst := { s.fst with heldOpen := s.fst.heldOpen.filter (· == .alm) } }
  if isL then (if s.gst = 2 then s.commitDone else s.closeGroup) else s

/-- Everything the L-die and D-die hold takes its reset value (R22, R23); AON, F-die and P-die state stays. The closing records held in
always-on SRAM stay (R112), latches of the bridge's L-side endpoint go (R67), and so does the record of which Last Line causes have been raised (R509). -/
def Chip.lDieReset (s : Chip) : Chip :=
  let s := s.dropLGroup
  let s := { s with
    regs := s.regs.filter (fun r => decide (0x50000000 ≤ r.1))
    guards := s.guards.filter (fun g => decide (0x50000000 ≤ g.page) && !g.far)
    shadows := s.shadows.filter (fun g => decide (0x50000000 ≤ g.page))
    held := s.held.filter (fun g => decide (0x50000000 ≤ g.page))
    fab := { s.fab with
      ldEn := false, hvEn := false, htrEn := false, mtrEn := false, wantLd := false, wantHv := false, wantHtr := false, wantMtr := false,
      llLine := false, badLP := 0, badPL := 0, lossLP := false, lossPL := false, retraining := false, standby := false, downFlight := none,
      upFlight := none, down := Fabric.reset.down, up := Fabric.reset.up, posted := [], reads := [] }
    doc := { DocEngine.reset with held := s.doc.held, jseq := s.doc.jseq }
    pow := { s.pow with vinHist := [], decideDue := false, segs := [], zones := [], nips := [] }
    mer := Meridian.reset, img := Imaging.reset, mrk := Marking.reset, mot := Motion.reset, hel := Heliostat.reset
    orr := Orrery.reset, cst := Store.reset, hb := { HostBridge.reset with vbus := s.hb.vbus }
    flt := { Faults.reset with raisedLL := s.flt.raisedLL, bothOpen := s.flt.bothOpen, disc := s.flt.disc }
    dbg := { s.dbg with extest := false, accSts := 0, accData := 0#32, srst := false, reboot := false }
    ser := { s.ser with a0 := Port.reset, a1 := Port.reset, sync := Sync.reset } }
  ((s.clearMem 0x10000000 0x50000000).clearMem 0x80000000 0x84000000).gateDrivers

/-- The L-die and D-die lose power: their regions are dead (R42), T1 and T2 are not valid (R435). -/
def Chip.lDieOff (s : Chip) : Chip :=
  let s := s.lDieReset
  ({ s with fab := { s.fab with lco := false, lio := false, dst := false } }).tempsLost

/-- A boot failure (R46): PSY.BST.FAIL, STG kept, a BOOT_FAIL record; from BRIDGE on the host is attached and the engine enters FAULT. -/
def Chip.bootFail (s : Chip) (code : Nat) : Chip :=
  let stg := s.get Fld.PSY_BST_STG
  let s := s.put Fld.PSY_BST_FAIL code
  let r := report 0x0107 code stg
  if 6 ≤ stg && s.fab.lco then
    let s := if stg < 8 then ((s.set Fld.BRG_CTL_EN).set Fld.BRG_IFC_USBE).set Fld.BRG_IFC_SPIE else s
    (s.goto Eng.fault 0x09).raise r
  else (s.stageLog r.body).2

/-! ### The AON supply (R466, R469) -/

/-- The AON domain takes supply `n`: 0 VSYS, 1 VSTO, 2 VBAT; a change to VBAT raises the AON supply warning (R469). -/
def Chip.toSupply (s : Chip) (n : Nat) : Chip :=
  if s.get Fld.HRV_STA_SRC = n then s
  else
    let s := s.put Fld.HRV_STA_SRC n
    if n = 1 then s.set Fld.HRV_IST_TOVS
    else if n = 2 then (s.set Fld.HRV_IST_TOVB).aonWarning
    else s

/-- Is VSTO at threshold `k` (R461), as HRV.STA.ABV shows? -/
def Chip.vstoAt (s : Chip) (k : Nat) : Bool := bitsOf (s.get Fld.HRV_STA_ABV) k 1 == 1

/-- The supply at the end of the safe stop (R466). -/
def Chip.harvestSupply (s : Chip) : Chip :=
  if s.vstoAt 0 then s.toSupply 1
  else if 2200 ≤ s.get (Fld.SEN_VAL_V 1) then s.toSupply 2
  else s.toSupply 1

/-! ### VIN thresholds (R125, R126, R132) -/

/-- PWR.VIN takes a reading. -/
def Chip.setVin (s : Chip) (mv : Nat) : Chip := s.put Fld.PWR_VIN_MV mv

/-- RES.STA.CHRG (R128): the charger runs while enabled, unless shedding or PFAIL stops it or RES is full. -/
def Chip.syncCharge (s : Chip) : Chip :=
  s.putB Fld.RES_STA_CHRG (s.on Fld.RES_CHG_CHEN && !s.on Fld.PWR_STA_SHED && !s.pow.pfail && s.get Fld.RES_VRES_MV < 34000)

/-- VIN against VOV, with 1.0 V hysteresis (R125). -/
def Chip.vinOver (s : Chip) (mv : Nat) : Chip :=
  let s := s.setVin mv
  if s.on Fld.PWR_STA_OV then (if mv ≤ 41000 then (s.clr Fld.PWR_STA_OV).llActive 2 false else s)
  else if 42000 < mv then (((s.set Fld.PWR_STA_OV).set Fld.PWR_IST_OV).llActive 2 true).raiseP (report 0x0102 0 0 mv)
  else s

/-- VIN against VBW = VPF + BWO, with 0.2 V hysteresis (R125). -/
def Chip.vinBrownout (s : Chip) (mv : Nat) : Chip :=
  let s := s.setVin mv
  let vbw := (s.get Fld.PWR_VPF_VPF + s.get Fld.PWR_VPF_BWO) * 100
  if s.on Fld.PWR_STA_BW then (if vbw + 200 ≤ mv then s.clr Fld.PWR_STA_BW else s)
  else if mv < vbw then (s.set Fld.PWR_STA_BW).set Fld.PWR_IST_BW else s

/-- Power fail (R126, R132): PFAIL latches, charger and reserve test stop, Last Line acts, RES feeds the buck; an OPEN group is discarded
(R428), a retention entry abandoned and the save image invalid (R485), and the power-loss record staged. -/
def Chip.powerFail (s : Chip) (mv : Nat) : Chip :=
  let s := s.setVin mv
  if s.pow.pfail || s.get Fld.PWR_VPF_VPF * 100 ≤ mv then s
  else
    let s := { s with pow := { s.pow with pfail := true, safeStop := true, resSwitch := true }
                      fst := { s.fst with validAtPfail := s.on Fld.RES_STA_VALID, safeGroups := 0 }
                      ret := { s.ret with req := none } }
    let s := (s.set Fld.PWR_IST_PFAIL).clr Fld.RES_STA_TBUSY
    let s := (s.clr Fld.RET_STA_IMGV).syncCharge
    let s := if s.gst = 1 then s.closeGroup else s
    let s := (s.llActive 12 true).tripLL 12
    s.stageLoss { kind := 2, cls := 0, code := 2, data := leBytes 2 mv ++ leBytes 2 (s.get Fld.RES_VRES_MV), mst := 0x10 }

/-- One commit group of the safe stop (R571). A closing record that it commits is final: while the L-die runs, its report is sent again without
NOJ and DOC.IST.REP set (R112). Each record takes the next JSEQ (R113). -/
def Chip.safeGroup (s : Chip) (rs : List LogRec) (closings : List HeldRec) : Chip :=
  if rs.isEmpty && closings.isEmpty then s
  else
    let jp := (List.range closings.length).filterMap fun i => (closings[i]?).map fun c =>
      (c.item.page, c.stamped ((s.doc.jseq + i) % 2 ^ 32))
    let (st, t) := s.ownGroup true (s.logPages s.logIndex rs ++ jp)
    let t := { t with fst := { t.fst with safeGroups := t.fst.safeGroups + 1 } }
    if st = St.ok then
      let u := if rs.isEmpty then t else t.logCommitted rs
      let u := { u with doc := { u.doc with held := u.doc.held.filter (fun c => !closings.contains c)
                                            jseq := (u.doc.jseq + closings.length) % 2 ^ 32 } }
      closings.foldl Chip.finalReport u
    else t

/-- SAFE_STOP_SAVES (R132, R571): a commit accepted before PFAIL ends; volatile-held values, then at most two groups. -/
def Chip.safeStopSaves (s : Chip) : Chip :=
  if s.pow.safeStop then
    let s := ((s.commitDone).saveHeld).nvsCount 3
    let s := s.safeGroup (s.alm.staged.take s.logRoom) []
    s.safeGroup (s.alm.staged.take 2) s.doc.held
  else s

/-- SAFE_STOP_L_DIE_OFF (R132). -/
def Chip.safeStopOff (s : Chip) : Chip :=
  if s.pow.safeStop then
    ((s.lDieOff).clr Fld.PWR_STA_VIOG).clr Fld.PWR_STA_VCOREG
  else s

/-- SAFE_STOP_END (R132, R133, R478): the reserve switch opens, AON moves to VSTO or VBAT, RES bleeds; the level is HARVEST. -/
def Chip.safeStopEnd (s : Chip) : Chip :=
  if s.pow.safeStop then
    let s := if s.fab.lco then s.lDieOff else s
    let s := { s with pow := { s.pow with pfail := false, safeStop := false, resSwitch := false, resBleed := true, buckOn := false }
                      fab := { s.fab with pst := false }, ret := { s.ret with vin := false } }
    let s := (s.clr Fld.PWR_STA_VSYSG).llActive 12 false
    let s := (s.put Fld.RET_LVL_PREV (s.get Fld.RET_LVL_CUR)).put Fld.RET_LVL_CUR 0x10
    s.harvestSupply
  else s

/-! ### Rails (R124) -/

/-- Good threshold of a rail in mV: VSYS, VIO, VCORE, VAON. -/
def railGood (r : Nat) : Nat := if r = 0 then 4600 else if r = 1 then 3000 else if r = 2 then 740 else 1620

/-- Rail `r` is in or out of its good range. -/
def Chip.setRail (s : Chip) (r : Nat) (good : Bool) : Chip :=
  match r with
  | 0 => s.putB Fld.PWR_STA_VSYSG good
  | 1 => s.putB Fld.PWR_STA_VIOG good
  | 2 => s.putB Fld.PWR_STA_VCOREG good
  | _ => s

/-- RAIL_FAULT: during boot it stops the sequence with FAIL 0x02; later Last Line acts, the L-die is held in reset, and RAIL is raised. -/
def Chip.railFault (s : Chip) (r mv : Nat) : Chip :=
  if railGood r ≤ mv then s
  else
    let s := s.setRail r false
    let s := { s with pow := { s.pow with railsFailed := true, failRail := r, failMv := mv } }
    if s.get Fld.PSY_BST_STG < 0x0A then (if s.get Fld.PSY_BST_FAIL = 0 then s.bootFail 0x02 else s)
    else
      let s := (s.llActive 4 true).lDieOff
      s.raiseP (report 0x0101 r 0 mv)

/-- RAIL_RECOVERY: rails good for 10 ms restart the boot at RAILS (R124, R530 cause 0x06). -/
def Chip.railRecovery (s : Chip) : Chip :=
  if s.pow.railsFailed then
    let s := if s.fab.lco then s.lDieOff else s
    let s := { s with pow := { s.pow with railsFailed := false } }
    let s := ((s.llActive 4 false).put Fld.PSY_BST_STG 3).put Fld.PSY_BST_FAIL 0
    let s := { s with ret := { s.ret with cause := 6 } }
    ((s.setRail 0 true).setRail 1 true).setRail 2 true
  else s

/-! ### The input limiter (R127) -/

/-- PLIM in 0.01 W and ILIM in mA. -/
def Chip.plim (s : Chip) : Nat := s.get Fld.LGR_PLIM_W * 25
def Chip.ilim (s : Chip) : Nat := s.get Fld.PWR_ILIM_A * 100

/-- PWR.IIN and PIN take readings. -/
def Chip.setInput (s : Chip) (pin iin : Nat) : Chip := (s.put Fld.PWR_PIN_CW pin).put Fld.PWR_IIN_MA iin

/-- The draw of the charger in 0.01 W (R128): VRES × ICHG / 0.85. -/
def Chip.chargeDraw (s : Chip) : Nat := (s.get Fld.RES_VRES_MV * s.get Fld.RES_CHG_ICHG) / 8500

/-- The limiter lowers the heater duty. The spec does not say by how much at a time: the new limit is a free value below the present duty
(log entry 152). -/
def Chip.lowerHeater (s : Chip) : Chip :=
  let d := s.get Fld.FUS_DTY_D
  let cap := if d = 0 then 0 else s.freeWord.toNat % d
  (({ s with pow := { s.pow with heaterCap := cap } }).drawn).put Fld.FUS_DTY_D cap

/-- The first step of shedding: the charger pauses; with no charger to pause, or not enough, the heater duty is lowered (R127). `excess` is how
far PIN is above PLIM in 0.01 W, `above` whether IIN is above ILIM. -/
def Chip.shedStep (s : Chip) (excess : Nat) (above : Bool) : Chip :=
  if s.on Fld.RES_STA_CHRG then
    let s := ({ s with pow := { s.pow with chargerPaused := true } }).syncCharge
    if s.chargeDraw < excess then s.lowerHeater else s
  else if 0 < excess || above then s.lowerHeater
  else s

/-- LIMITER_SHED: shedding starts, with a WARN fault, or goes on while PIN or IIN is still above its limit. -/
def Chip.shed (s : Chip) (pin iin : Nat) : Chip :=
  let s := s.setInput pin iin
  let above := s.ilim < iin
  if !(s.plim < pin || above) then s
  else
    let s := if above then s.set Fld.PWR_STA_ILIMA else s
    if s.on Fld.PWR_STA_SHED then s.shedStep (pin - s.plim) above
    else
      let t := s.shedStep (pin - s.plim) above
      (((t.set Fld.PWR_STA_SHED).set Fld.PWR_IST_SHED).syncCharge).raiseP (report 0x0104 0 0 pin)

/-- SHED_END: PIN with the paused charger's draw within PLIM, IIN within ILIM. -/
def Chip.shedEnd (s : Chip) (pin iin : Nat) : Chip :=
  let s := s.setInput pin iin
  let extra := if s.pow.chargerPaused then s.chargeDraw else 0
  if s.on Fld.PWR_STA_SHED && pin + extra ≤ s.plim && iin ≤ s.ilim then
    let s := { s with pow := { s.pow with chargerPaused := false, heaterCap := 1000 } }
    ((s.clr Fld.PWR_STA_SHED).clr Fld.PWR_STA_ILIMA).syncCharge
  else s

/-- PWR_LIMIT: still above 1.05 × PLIM 10 ms after the heater duty reached 0, where it still is. -/
def Chip.pwrLimit (s : Chip) (pin : Nat) : Chip :=
  let s := s.put Fld.PWR_PIN_CW pin
  if s.on Fld.PWR_STA_SHED && s.get Fld.FUS_DTY_D = 0 && s.plim * 105 < pin * 100 then s.raiseP (report 0x0105 0 0 pin) else s

/-- ILIM_TRIP: above 1.25 × ILIM for 5 µs. -/
def Chip.ilimTrip (s : Chip) (iin : Nat) : Chip :=
  let s := s.put Fld.PWR_IIN_MA iin
  if s.ilim * 5 < iin * 4 then s.raiseP (report 0x0103 0 0 iin) else s

/-! ### The reserve test (R129, R130) -/

/-- A test that starts of itself is periodic, unless the boot runs it or a failure repeats it (R129, R130). -/
def Chip.testPeriodic (s : Chip) : Bool := s.get Fld.PSY_BST_STG != 9 && !s.on Fld.RES_STA_TFAIL

/-- A test starts, unless PFAIL is latched or one runs. A periodic one also needs VIN and VRES ≥ 30.0 V. -/
def Chip.reserveTest (s : Chip) (periodic : Bool) : Chip :=
  if s.pow.pfail || s.on Fld.RES_STA_TBUSY || (periodic && (s.get Fld.RES_VRES_MV < 30000 || !s.fab.pst)) then s
  else s.set Fld.RES_STA_TBUSY

/-- VALID takes a value; its fall sets IST.VALID. -/
def Chip.setValid (s : Chip) (v : Bool) : Chip :=
  let fell := s.on Fld.RES_STA_VALID && !v
  let s := s.putB Fld.RES_STA_VALID v
  if fell then s.set Fld.RES_IST_VALID else s

/-- The hold-up path ends at 8.0 V on RES (R131): VSYS collapses, and the L-die, the D-die and the drivers with it; the AON domain runs from
VSTO or VBAT. -/
def Chip.holdUpEnd (s : Chip) : Chip :=
  let s := if s.fab.lco then s.lDieOff else s
  let s := { s with pow := { s.pow with resSwitch := false, buckOn := false }, fab := { s.fab with pst := false } }
  (((s.clr Fld.PWR_STA_VSYSG).clr Fld.PWR_STA_VIOG).clr Fld.PWR_STA_VCOREG).harvestSupply

/-- RES.VRES takes a reading; ABV22, CHRG and VALID follow (R130), and a hold-up ends at 8.0 V (R131). -/
def Chip.setVres (s : Chip) (mv : Nat) : Chip :=
  let s := ((s.put Fld.RES_VRES_MV mv).putB Fld.RES_STA_ABV22 (22000 ≤ mv)).syncCharge
  let s := s.setValid (22000 ≤ mv && s.pow.passed && s.get Fld.RES_TAGE_MS ≤ 10000)
  if s.pow.resSwitch && mv ≤ 8000 then s.holdUpEnd else s

/-- RESERVE_TEST_DONE: three failures in a row at boot stage RESERVE end the sequence with FAIL 0x07. -/
def Chip.reserveDone (s : Chip) (esr c : Nat) : Chip :=
  if !s.on Fld.RES_STA_TBUSY then s
  else
    let s := (((s.put Fld.RES_TRES_ESR esr).put Fld.RES_TRES_C c).clr Fld.RES_STA_TBUSY)
    let pass := s.get Fld.RES_TCFG_CMIN ≤ c && esr ≤ s.get Fld.RES_TCFG_EMAX
    let s := { s with pow := { s.pow with passed := pass, bootFails := if pass then 0 else s.pow.bootFails + 1 } }
    if pass then (((s.put Fld.RES_TAGE_MS 0).clr Fld.RES_STA_TFAIL).setValid (22000 ≤ s.get Fld.RES_VRES_MV))
    else
      let s := ((s.set Fld.RES_STA_TFAIL).set Fld.RES_IST_TFAIL).setValid false
      let s := s.raiseP (report 0x0106 0 0 (s.rd Reg.RES_TRES).toNat)
      if s.get Fld.PSY_BST_STG = 9 && 3 ≤ s.pow.bootFails && s.get Fld.PSY_BST_FAIL = 0 then s.bootFail 0x07 else s

/-- RESERVE_VALID_EXPIRY: VRES below 22 V, or the last pass older than 10 s. -/
def Chip.validExpiry (s : Chip) (mv : Nat) : Chip :=
  let s := s.setVres mv
  let s := if 22000 ≤ mv then s.put Fld.RES_TAGE_MS (max 10001 (s.get Fld.RES_TAGE_MS)) else s
  s.setValid false

/-! ### RT frames (R28, R33, R34) -/

/-- The RT frame that the L-die launches: the commanded mode and output of every actuator, and the solenoid switches. A slot in OFF commands
nothing; actuator 12 has no driver. MOT.AXn.DIR inverts the output of its axis (R252). A slot in RUN that acts as HOLD says so, and a stepper carries
AUX.IHLD in HOLD and AUX.IRUN in RUN and OPEN (R256, R267). -/
def Chip.downFrame (s : Chip) : DownFrame :=
  let slotOf (a : Nat) : Option Nat := (List.range 12).find? fun n => s.get (Fld.HLP_CFG_ACT n) == a && s.get (Fld.HLP_ST_MODE n) != 0
  let modeOf (n : Nat) : Nat := if (s.slot n).held then Mode.hold else s.get (Fld.HLP_ST_MODE n)
  { modes := (List.range 12).map fun a => if a = 0 then 0 else ((slotOf a).map modeOf).getD 0
    outs := (List.range 12).map fun a => if a = 0 then 0#32 else ((slotOf a).map fun n => s.outWord n a).getD 0#32
    holds := [2, 3].map fun a => ((slotOf a).map fun n =>
      if s.get (Fld.MOT_AX_TYPE (a - 2)) ≠ 1 then 0
      else if modeOf n = Mode.hold then s.get (Fld.HLP_AUX_IHLD n)
      else if modeOf n = Mode.run || modeOf n = Mode.open_ then s.get (Fld.HLP_AUX_IRUN n) else 0).getD 0
    sols := s.mot.solCmd, snaps := s.mot.snaps }

/-- The temperature of a thermistor code, rounded half up (R210); none without a table. -/
def Chip.thTemp (s : Chip) (c : Nat) : Option Int :=
  match s.alm.ttab[c / 128]?, s.alm.ttab[c / 128 + 1]? with
  | some a, some b => some (a + ((b - a) * (c % 128 : Nat) + 64) / 128)
  | _, _ => none

/-- FUS.TCUT as the TH1 code at which the comparator acts, at stage ALM and at each commit of TCUT (R210). Temperature falls as the code
rises. DEDUCED (log entry 162): the code is the first that a warming sensor meets whose temperature is at or above TCUT, so that the comparator
never acts later than TCUT. -/
def Chip.tcutCode (s : Chip) : Chip :=
  let hot (c : Nat) : Bool := (s.thTemp c).any fun t => decide ((s.get Fld.FUS_TCUT_T : Int) ≤ t)
  { s with alm := { s.alm with tcut := if s.alm.ttab.isEmpty then none else (List.range 4096).reverse.find? hot } }

/-- Thermistor input `n` reads code `c` (R210): open above 1.75 V, short below 20 mV, and the temperature that the table gives, rounded half
up. With no table, or outside what T can show, there is no stated temperature. -/
def Chip.setTh (s : Chip) (n c : Nat) : Chip :=
  let s := s.put (Fld.FUS_TH_ST n) (if s.alm.ttab.isEmpty then 3 else if 1750 * 4096 < c * 1800 then 1 else if c * 1800 < 20 * 4096 then 2 else 0)
  match s.thTemp c with
  | some t =>
    if 0 ≤ t && t < 4096 then s.put (Fld.FUS_TH_T n) t.toNat
    else (s.put (Fld.FUS_TH_T n) (s.freeWord.toNat % 4096)).drawn
  | none => (s.put (Fld.FUS_TH_T n) (s.freeWord.toNat % 4096)).drawn

/-- The comparator of TH1 acts on a code at or below its own (R208, R210). -/
def Chip.thCut (s : Chip) (c : Nat) : Chip :=
  if s.alm.tcut.any (fun x => decide (c ≤ x)) && !s.on Fld.FUS_STA_CUT then s.fuserCut 0 else s

/-- The P-die's measurement registers take their readings (refreshed every 10 µs). -/
def Chip.setReadings (s : Chip) (m : Readings) : Chip :=
  let s := (((s.setVin m.vin.toNat).setInput m.pin.toNat m.iin.toNat).setVres m.vres.toNat)
  let s := ((s.setTh 0 m.th0.toNat).setTh 1 m.th1.toNat).thCut m.th1.toNat
  let s := (((s.put (Fld.HVD_HVF_C 0) m.hvf0.toNat).put (Fld.HVD_HVF_C 1) m.hvf1.toNat).put (Fld.HVD_HVF_C 2) m.hvf2.toNat).put
    (Fld.HVD_HVF_C 3) m.hvf3.toNat
  let s := (((s.put (Fld.MDR_HCUR_I 0) m.hcur0.toNat).put (Fld.MDR_HCUR_I 1) m.hcur1.toNat).put (Fld.MDR_HCUR_I 2) m.hcur2.toNat).put
    (Fld.MDR_HCUR_I 3) m.hcur3.toNat
  s.polyFollow m.rpm.toNat

/-- The drivers still energised: laser, HV, heater and solenoid masks. -/
def Chip.drivenMask (s : Chip) : Nat :=
  s.get Fld.LDR_STA_ON + 8 * s.get Fld.HVD_STA_ON + 128 * s.get Fld.FUS_STA_HTON + 256 * s.get Fld.SOL_STA_ON

/-- The RT frame that the P-die launches. The reports go with it. -/
def Chip.upFrame (s : Chip) (m : Readings) : UpFrame :=
  { meas := m, th0 := s.get (Fld.FUS_TH_T 0), th0St := s.get (Fld.FUS_TH_ST 0), mon := [0, 1, 2].map fun k => s.get (Fld.LDR_MON_C k),
    monN := s.hel.monP.toList, on := s.drivenMask, modes := s.fab.down.modes, pfail := s.pow.pfail, lossLP := s.fab.lossLP,
    causes := s.get Fld.ILK_LLC_C, pst := s.get Fld.MDR_PSTA_ST, son := s.get Fld.SOL_SON_ON, cut := s.on Fld.FUS_STA_CUT, nvBusy := s.on Fld.NVM_STA_BUSY
    reports := s.flt.pReports }

/-- RT_FRAME_LAUNCH (R28): both dies launch, unless RT frames are stopped (R475, R570). -/
def Chip.rtLaunch (s : Chip) (m : Readings) : Chip :=
  let s := if s.fab.pst then s.setReadings m else s
  if !s.fab.lco || s.fab.standby || s.fab.retraining || !s.on Fld.DBR_LST_TRND then s
  else
    let up := s.upFrame m
    { s with fab := { s.fab with downFlight := some s.downFrame, upFlight := some up }, flt := { s.flt with pReports := [] }
             mot := { s.mot with snaps := 0 }
             hel := { s.hel with oppSeq := s.hel.litSeq } }

/-- A bridge loss in one direction (R33). When both directions are lost, Almanac firmware records the P-die's own detection of the L-to-P
loss, whichever came first. While the lanes are retrained the rule is suspended (R570). -/
def Chip.bridgeLoss (s : Chip) (lToP : Bool) : Chip :=
  if s.fab.retraining then s
  else
    let s := s.set Fld.DBR_IST_LOSS
    if lToP then
      if s.fab.lossLP then s
      else
        let s := { s with fab := { s.fab with lossLP := true, downFlight := none } }
        let s := (s.llActive 5 true).tripLL 5
        if s.fab.lossPL then (s.stageLog (report 0x0203 0).body).2 else s
    else if s.fab.lossPL then s
    else
      -- the L-die drops the sideband lines and the dedicated line; the endpoint raises BRIDGE_LOSS with UNIT 1
      let s := { s with fab := { s.fab with lossPL := true, llLine := true, upFlight := none } }
      let s := (s.sidebands false false false false).llActive 5 true
      let s := (s.tripLL 5).raise (report 0x0203 1)
      if s.fab.lossLP then (s.stageLog (report 0x0203 0).body).2 else s

/-- A frame missing or bad (R33): the values of the previous one stand; three in a row are a loss. -/
def Chip.badFrame (s : Chip) (lToP crc : Bool) : Chip :=
  if s.fab.retraining || s.fab.standby || !s.on Fld.DBR_LST_TRND then s
  else
    let s := if crc then s.bump Fld.DBR_RTE_CRC else s.bump Fld.DBR_RTE_MISS
    let s := s.set Fld.DBR_IST_RTERR
    if lToP then
      let s := { s with fab := { s.fab with badLP := min 3 (s.fab.badLP + 1), downFlight := none } }
      if 3 ≤ s.fab.badLP then s.bridgeLoss true else s
    else
      -- reports that the frame carried go with the next one
      let lost := match s.fab.upFlight with
        | some f => f.reports
        | none => []
      let s := { s with fab := { s.fab with badPL := min 3 (s.fab.badPL + 1), upFlight := none }
                        flt := { s.flt with pReports := lost ++ s.flt.pReports } }
      if 3 ≤ s.fab.badPL then s.bridgeLoss false else s

/-- Put an element behind the last one of a sorted list that it does not go before. -/
def insertBy {α : Type} (before : α → α → Bool) (x : α) (l : List α) : List α :=
  l.takeWhile (fun y => !before x y) ++ x :: l.dropWhile (fun y => !before x y)

/-- Raise the reports of a P-to-L frame, as faults of one cycle (R509, R510, R527): recorded in ascending code order, which decides an item's
reason; queued higher class first, equal classes in code order. They intrude on a safe-state entry that was under way (R516). -/
def Chip.raiseAll (s : Chip) (rs : List Report) : Chip :=
  let inEntry := s.on Fld.FLT_STA_ENTRY
  let byCode := rs.foldl (fun l r => insertBy (fun a b => decide (a.code < b.code)) r l) []
  let (marked, s) := byCode.foldl (fun (x : List (Report × Nat) × Chip) r =>
    let (n, t) := x.2.recordFault r
    (x.1 ++ [(r, n)], t)) ([], s)
  let byClass := marked.foldl (fun l x => insertBy (fun a b => decide (b.1.cls < a.1.cls)) x l) []
  let s := byClass.foldl (fun t x => (t.queueFault x.1 x.2).faultEvt x.1 x.2) s
  if inEntry then
    (byCode.filter fun r => decide (FC.warn ≤ r.cls) && r.code != 0x0208 && r.code != 0x0209).foldl
      (fun t r => t.raise1 (report 0x0208 r.cls 0 r.code)) s
  else s

/-- The clamps of HV targets (R203) and of the fuser setpoint (R207). -/
def Chip.syncClamps (s : Chip) : Chip :=
  let s := s.put Fld.HVD_STA_CLMP (maskOf 4 fun k => decide (s.get (Fld.HVD_CEIL_C k) * 98 / 100 < s.get (Fld.MRK_HVS_C k)))
  s.putB Fld.FUS_STA_CLMP (s.get Fld.FUS_TCEIL_T < s.get Fld.MRK_FSET_T)

/-- The largest modulation that fits under the current ceiling of laser `k`, in 0.05 mA (R212). -/
def Chip.modLimit (s : Chip) (k : Nat) : Nat := min 4095 (s.get (Fld.LDR_CEIL_I k) * 20 - s.get (Fld.LDR_BIAS_I k) * 5)

/-- The current of laser driver `k` in 0.05 mA (R212): bias, plus the modulation while its line is high; LDR.BDIn in the BD window of the BD
laser, when it is not 0 (R152); never above CEILn, and none while the driver is off. -/
def Chip.laserCurrent (s : Chip) (k : Nat) : Nat :=
  let high := match k with
    | 0 => s.mer.mod0
    | 1 => s.mer.mod1
    | _ => s.mer.mod2
  let bd := s.mer.bdLaser && k == (if s.on Fld.MER_GEO_BDSRC then 2 else 0)
  let want := if bd && s.get (Fld.LDR_BDI_I k) ≠ 0 then 20 * s.get (Fld.LDR_BDI_I k)
    else 5 * s.get (Fld.LDR_BIAS_I k) + (if high || bd then s.get (Fld.LDR_MODA_I k) else 0)
  if bitsOf (s.get Fld.LDR_STA_ON) k 1 = 1 then min want (20 * s.get (Fld.LDR_CEIL_I k)) else 0

/-- What a frame commands of the P-die outputs (R248): duty of the HV channels and the heater, modulation of the lasers. The drivers limit
each (R203, R212), and a laser's CLMP says so. -/
def Chip.driveOutputs (s : Chip) : Chip :=
  let out (a : Nat) : Int := (((s.fab.down.outs[a]?).getD 0#32).toInt)
  let duty (a : Nat) : Nat := (ofFull (max 0 (out a)) 1000).toNat
  let s := [0, 1, 2, 3].foldl (fun t k =>
    t.put (Fld.HVD_DTY_D k) (if bitsOf (t.get Fld.HVD_STA_ON) k 1 = 1 then min (duty (8 + k)) (t.get (Fld.HVD_DMAX_D k)) else 0)) s
  let s := s.put Fld.FUS_DTY_D (if s.on Fld.FUS_STA_HTON then min (duty 4) s.pow.heaterCap else 0)
  let want (k : Nat) : Nat := if bitsOf (s.get Fld.LDR_STA_ON) k 1 = 1 then (max 0 (out (5 + k)) / 524288).toNat else 0
  let above := maskOf 3 fun k => decide (s.modLimit k < want k)
  let was := s.get Fld.LDR_STA_CLMP
  let s := [0, 1, 2].foldl (fun t k => t.put (Fld.LDR_MODA_I k) (min (want k) (s.modLimit k))) s
  let s := [0, 1, 2].foldl (fun t k =>
    if bitsOf above k 1 = 1 && bitsOf was k 1 = 0 then t.set ⟨Reg.LDR_IST, 8 + k, 1⟩ else t) s
  ((s.put Fld.LDR_STA_CLMP above).syncClamps).syncPoly

/-- STA.HALTBRK: in HALT the frame on the P-die has every fitted axis in brake or hold (R240, R245). -/
def Chip.showBraking (s : Chip) : Chip :=
  let fitted := [0, 1].filter fun a => s.get (Fld.MOT_AX_TYPE a) != 0
  if s.engine = Eng.halt && !fitted.isEmpty && fitted.all fun a => [Mode.brake, Mode.hold].contains ((s.fab.down.modes[2 + a]?).getD 0) then
    s.set Fld.MOT_STA_HALTBRK
  else s

/-- The 2 s coast after a failed polygon start, counted in frames of 10 µs on the P-die, ends with the next alignment (R237). -/
def Chip.polyTick (s : Chip) : Chip :=
  if s.mot.polyOn && s.get Fld.MDR_PSTA_ST = 4 && s.mot.polyFails != 0 then
    (if s.mot.polyWait ≤ 1 then ({ s with mot := { s.mot with polyWait := 0 } }).polyState 1
     else { s with mot := { s.mot with polyWait := s.mot.polyWait - 1 } })
  else s

/-- The sensor snapshots that a frame commands (R315); a level is a measurement, so a free value. -/
def Chip.snapSensors (s : Chip) (mask : Nat) : Chip :=
  (List.range 6).foldl (fun t n =>
    if bitsOf mask n 1 = 1 then (t.put (Fld.SNS_MON_V n) (t.freeWord.toNat % 1024)).drawn else t) s

/-- An L-to-P frame is applied on the P-die (R28, R35). -/
def Chip.applyDown (s : Chip) (f : DownFrame) : Chip :=
  let s := ({ s with fab := { s.fab with down := f, badLP := 0 } }).gateDrivers
  ((((s.showBraking.driveOutputs).polyFollow (s.get Fld.MDR_PSTA_RPM)).polyTick).snapSensors f.snaps)

/-- The faults of the Last Line causes in `causes` that have latched and have not been raised since (R509). -/
def Chip.raiseCauses (s : Chip) (causes : Nat) : Chip :=
  let rep (t : Chip) (b : Nat) : Report :=
    match b with
    | 0 => report 0x0201 1
    | 1 => report 0x0201 2
    | 2 => report 0x0102 0 0 (t.get Fld.PWR_VIN_MV)
    | 3 => report 0x0103 0 0 (t.get Fld.PWR_IIN_MA)
    | 4 => report 0x0101 t.pow.failRail 0 t.pow.failMv
    | 5 => report 0x0203 0
    | 6 => report 0x0204 t.hotDie 0 (codeOf (t.getS Fld.TMP_PKG_T) 32)
    | 7 => report 0x0206 0 0 (t.get (Fld.FUS_TH_T 1))
    | 8 => report 0x0207 0
    | 9 => report 0x0208 0
    | 10 => report 0x0209 0
    | _ => report 0x020A 0
  (List.range 12).foldl (fun t b =>
    if bitsOf causes b 1 = 1 && bitsOf (t.get Fld.ILK_LLC_C) b 1 = 1 && bitsOf t.flt.raisedLL b 1 = 0 then t.raise (rep t b) else t) s

/-- Has safe-state entry been confirmed by the readback of a P-to-L frame (R515 step 3)? -/
def entryConfirmed (s : Chip) (f : UpFrame) : Bool :=
  f.on == 0 && ((f.modes[1]?).getD 0 == 4 || (f.modes[1]?).getD 0 == 0) &&
    [0, 1].all fun a => s.get (Fld.MOT_AX_TYPE a) == 0 || (f.modes[2 + a]?).getD 0 == s.stopMode a

/-- A P-to-L frame is applied on the L-die: readings for the loops, reports of P-die faults, readback, PFAIL and loss reports (R28, R33,
R132, R509, R515). `t` is the time in 0.1 µs since safe-state entry began. -/
def Chip.applyUp (s : Chip) (f : UpFrame) (t : Nat) : Chip :=
  let hadLoss := s.fab.up.lossLP
  let s := { s with fab := { s.fab with up := f, badPL := 0 }, hel := { s.hel with rtSeq := s.hel.rtSeq + 1, monSeq := Vector.ofFn fun k => (f.monN[k.val]?).getD 0 } }
  let s := s.raiseAll f.reports
  -- Last Line causes that latched in STANDBY are raised now (R509)
  let s := if s.get Fld.PSY_BST_STG = 0x0A then s.raiseCauses f.causes else s
  -- an L-to-P loss is raised on receipt, once (R33)
  let s := if f.lossLP && !hadLoss && bitsOf s.flt.raisedLL 5 1 = 0 then s.raise (report 0x0203 0) else s
  let s := if f.pfail then s.gclr else s
  if s.on Fld.FLT_STA_ENTRY && entryConfirmed s f then s.entryDone t else s

/-- RT_FRAME_RECEIVED (R28, R33). -/
def Chip.rtReceived (s : Chip) (lToP : Bool) (q : FrameQuality) (t : Nat) : Chip :=
  match q with
  | .good =>
    if lToP then match s.fab.downFlight with
      | some f => ({ s with fab := { s.fab with downFlight := none } }).applyDown f
      | none => s
    else match s.fab.upFlight with
      | some f => ({ s with fab := { s.fab with upFlight := none } }).applyUp f t
      | none => s
  | .badCrc => s.badFrame lToP true
  | .missing => s.badFrame lToP false

/-! ### Retraining (R570) and mirrors (R36, R376) -/

/-- DBR.TRN.RUN (R570): accepted in OFF or FAULT only. While retraining runs a second write changes nothing. -/
def Chip.retrain (s : Chip) : Status × Chip :=
  if s.fab.retraining then (if s.engine = Eng.off || s.engine = Eng.fault then St.ok else St.state, s)
  else if s.engine = Eng.off || s.engine = Eng.fault then
    let f := s.fab
    let s := { s with fab := { s.fab with retraining := true, wantLd := f.ldEn, wantHv := f.hvEn, wantHtr := f.htrEn, wantMtr := f.mtrEn,
                                          downFlight := none, upFlight := none } }
    (St.ok, ((s.driveLines false false false false).clr Fld.DBR_LST_TRND).put Fld.DBR_LST_UP 0)
  else (St.state, s)

/-- RETRAIN_DONE: RT frames resume, the loss rule applies again, and the sideband lines return to what the engine program commands. -/
def Chip.retrainDone (s : Chip) : Chip :=
  if s.fab.retraining then
    let s := { s with fab := { s.fab with retraining := false, badLP := 0, badPL := 0, lossLP := false, lossPL := false, llLine := false } }
    let s := (s.set Fld.DBR_LST_TRND).put Fld.DBR_LST_UP 15
    (s.llActive 5 false).sidebands s.fab.wantLd s.fab.wantHv s.fab.wantHtr s.fab.wantMtr
  else s

/-- RETRAIN_TIMEOUT: lanes still untrained 1 ms after the write are a bridge loss in both directions. -/
def Chip.retrainTimeout (s : Chip) : Chip :=
  if s.fab.retraining then
    let s := { s with fab := { s.fab with retraining := false } }
    (s.bridgeLoss true).bridgeLoss false
  else s

/-- Does a P-die register exist at a word offset from 0x5000_0000? -/
def pRegister (a : Nat) : Bool :=
  match locate a with
  | some l => 0x50000000 ≤ a && l.alias_ = 0 && l.off < 0x800 && (fieldsAt l.page l.off).isSome
  | none => false

/-- MIRROR_UPDATE (R36, R376): every enabled channel takes its source's latest value; MAGE counts the `ms` since it last changed. A channel
whose source does not exist reads 0 and sets IST.MSRC. Mirrors are REG traffic and wait while the lanes are retrained (R570). -/
def Chip.mirrors (s : Chip) (ms : Nat) : Chip :=
  if !s.fab.lco || s.fab.standby || s.fab.retraining then s
  else
    let was := bitsOf (s.get (Fld.DBR_MVAL_V 5)) 8 1
    let s := (List.range 16).foldl (fun t n =>
      let a := 0x50000000 + 4 * t.get (Fld.DBR_MSRC_WOFS n)
      if !t.on (Fld.DBR_MSRC_EN n) then t
      else
        let ok := pRegister a
        let v := if ok then t.rd a else 0#32
        let same := decide (t.rd (Reg.DBR_MVAL n) = v)
        let t := if ok then t else t.set Fld.DBR_IST_MSRC
        let age := if same && t.get (Fld.DBR_MAGE_MS n) ≠ 0xFFFF then min 0xFFFF (t.get (Fld.DBR_MAGE_MS n) + ms) else if same then 0xFFFF else 0
        let t := (t.wr (Reg.DBR_MVAL n) v).put (Fld.DBR_MAGE_MS n) age
        { t with hel := { t.hel with mirSeq := t.hel.mirSeq.set! n (((t.hel.mirSeq[n]?).getD 0) + 1) } }) s
    let now := s.nowMs
    let vin := s.get (Fld.DBR_MVAL_V 0) % 65536
    let s := { s with pow := { s.pow with vinHist := (s.pow.vinHist.filter fun x => now ≤ x.1 + 1000) ++ [(now, vin)] } }
    -- the ledger sees RES.STA.VALID rise here (R36, R142)
    if was = 0 && bitsOf (s.get (Fld.DBR_MVAL_V 5)) 8 1 = 1 then s.decision else s

end Sys2Proof.Machine
end

