-- ==== Sys2Proof/Machine/Interlock.lean ====
section
/-!
DEFINITION. The laser interlock and the release of Last Line (R519–R521), the safe-state time limit (R516), and fault injection (R528).
-/
namespace Sys2Proof.Machine

/-- Channel `ch` of the interlock reads closed, after its filter (ILK.IN.FILT). -/
def Chip.ilkClosed (s : Chip) (ch : Nat) : Bool := bitsOf (s.get Fld.ILK_IN_FILT) ch 1 == 1

/-- A channel's level has changed: ILK.IN and STA.OPEN follow, and a discrepancy that was raised is over. -/
def Chip.ilkSet (s : Chip) (ch : Nat) (closed : Bool) : Chip :=
  let f := s.get Fld.ILK_IN_FILT
  let f := if closed then f ||| 2 ^ ch else f &&& (3 - 2 ^ ch)
  let s := { s with flt := { s.flt with disc := false } }
  ((s.put Fld.ILK_IN_FILT f).put Fld.ILK_IN_RAW f).put Fld.ILK_STA_OPEN (3 - f)

/-- ILK_OPEN: channel `ch` has read open through its filter (R520, R521). ILK_OPEN names the channel mask at its own raise, so a
second channel that opens while the first is open raises no second fault. -/
def Chip.ilkOpen (s : Chip) (ch : Nat) : Chip :=
  if !s.ilkClosed ch then s
  else
    let both := s.get Fld.ILK_IN_FILT == 3
    let s := ((((s.ilkSet ch false).llActive ch true).tripLL ch).set Fld.ILK_IST_OPEN)
    let s := { s with flt := { s.flt with bothOpen := false } }
    if both then s.raiseP (report 0x0201 (2 ^ ch)) else s

/-- ILK_DISC: channel `ch` alone has been open for `ms`, longer than DSC (R520); raised once per discrepancy. -/
def Chip.ilkDisc (s : Chip) (ch ms : Nat) : Chip :=
  if !s.ilkClosed ch && s.ilkClosed (1 - ch) && s.get Fld.ILK_CFG_DSC < ms && !s.flt.disc then
    let s := { s with flt := { s.flt with disc := true } }
    ((s.set Fld.ILK_STA_DLAT).set Fld.ILK_IST_DISC).raiseP (report 0x0202 ch 0 ms)
  else s

/-- ILK_CLOSE: channel `ch` has returned to its closed level (R520). `together` tells whether both channels had been open together for
10 ms before it. DLAT clears once both have then closed. -/
def Chip.ilkClose (s : Chip) (ch : Nat) (together : Bool) : Chip :=
  if s.ilkClosed ch then s
  else
    let other := s.ilkClosed (1 - ch)
    let s := (s.ilkSet ch true).llActive ch false
    if other then
      let s := if s.flt.bothOpen then s.clr Fld.ILK_STA_DLAT else s
      { s with flt := { s.flt with bothOpen := false } }
    else { s with flt := { s.flt with bothOpen := together } }

/-- A new level of POL makes the channels read anew (R520): the level at a ball is its old reading against its old POL bit. -/
def Chip.ilkPol (s : Chip) (old new : Nat) : Chip :=
  [0, 1].foldl (fun t ch =>
    if bitsOf old ch 1 = bitsOf new ch 1 then t
    else if t.ilkClosed ch then t.ilkOpen ch else t.ilkClose ch false) s

/-- SAFE_TMO: safe-state entry has not completed within SSTO (R516). It is raised once for an entry and does not intrude. -/
def Chip.safeTimeout (s : Chip) (us : Nat) : Chip :=
  if s.on Fld.FLT_STA_ENTRY && s.get Fld.FLT_SSTO_US ≤ us && bitsOf s.flt.raisedLL 10 1 = 0 then
    s.raise1 (report 0x0209 0 0 us)
  else s

/-- ILK.LLR.REL (R519): refused while a trigger is active. -/
def Chip.lastLineRelease (s : Chip) : Status × Chip :=
  if s.get Fld.ILK_LLA_A = 0 then (St.ok, s.releaseLL) else (St.state, s)

/-- ILK.FRC (R517 bit 11). -/
def Chip.forceLL (s : Chip) : Chip := (s.tripLL 11).raiseP (report 0x020A 0)

/-- Class of an injected fault: CLK_FREQ by its monitor (R491), GUARD_ACT by its watcher's ATACT (R499), else that of the table. -/
def Chip.classOf (s : Chip) (code unit : Nat) : Nat :=
  if code = 0x0A01 then (if unit = 7 || unit = 8 then FC.warn else FC.engine)
  else if code = 0x0A02 then
    (if bitsOf (s.get Fld.PAD_ATACT_A) (2 * (unit % 16)) 2 = 2 then FC.engine else FC.warn)
  else faultClass code

/-- The P-die driver action of a fault whose row of R508 shows P. -/
def Chip.driverAction (s : Chip) (code unit : Nat) : Chip :=
  match code with
  | 0x0104 => s.shedStep 1 true
  | 0x0308 => s.put Fld.MDR_STA_HON (s.get Fld.MDR_STA_HON &&& (15 - 2 ^ (unit % 4)))
  | 0x030A => ({ s with mot := { s.mot with polyOn := false } }).polyState 4
  | 0x030B => s.setSol (unit % 6) .latched
  | 0x0505 => (s.put Fld.HVD_STA_ON (s.get Fld.HVD_STA_ON &&& (15 - 2 ^ (unit % 4)))).helCmd (7 + unit % 4) Mode.off
  | _ => s

/-- FLT.INJ (R528): the code is raised as if from its source, actions included. A reserved code is refused. -/
def Chip.faultInject (s : Chip) (v : Word) : Status × Chip :=
  let code := bitsOf v.toNat 0 16
  let unit := bitsOf v.toNat 16 8
  let cls := s.classOf code unit
  if cls = 0 then (St.badArg, s)
  else (St.ok, (s.driverAction code unit).raise { report code unit with cls := cls })

end Sys2Proof.Machine
end

