-- ==== Sys2Proof/Machine/Clocks.lean ====
section
/-!
DEFINITION. Clocks and their monitors (R487–R493), GPIO edges and activity watchers (R498–R501), the harvest chargers and the supply
selector (R461–R469), the real-time clock (R484), retention requests (R474) and the pad release (R483).
-/
namespace Sys2Proof.Machine

/-! ### Root clock (R490–R492) -/

/-- CLK_LOSS: the reference has stopped (`sub` 0) or the PLL has lost lock with the reference present (1). Last Line acts and the
PLL enters holdover (R490). The USB side is `clockLost` of Bridge.lean. -/
def Chip.clkLoss (s : Chip) (sub : Nat) : Chip :=
  if s.on Fld.CLK_STA_HOLD then s
  else
    let s := (((s.llActive 8 true).tripLL 8).set Fld.CLK_STA_HOLD).clr Fld.CLK_STA_LOCK
    let s := if sub = 0 then (s.set Fld.CLK_IST_REFL).clr Fld.CLK_STA_XOK else s.set Fld.CLK_IST_UNLK
    s.raiseP (report 0x0207 0 sub)

/-- The modulator takes up the written depth (R492). -/
def Chip.takeDepth (s : Chip) : Chip :=
  if s.get Fld.CLK_STA_SSD = s.get Fld.CLK_SSC_DEPTH then s
  else (s.put Fld.CLK_STA_SSD (s.get Fld.CLK_SSC_DEPTH)).set Fld.CLK_IST_SSCH

/-- PLL_RELOCK: with AUTO set the PLL relocks once the reference has run for 10 ms, and spread resumes at the depth
that DEPTH kept meanwhile (R490, R502). -/
def Chip.pllRelock (s : Chip) : Chip :=
  if s.on Fld.CLK_STA_HOLD && s.on Fld.CLK_LKA_AUTO then
    let s := (((s.clr Fld.CLK_STA_HOLD).set Fld.CLK_STA_LOCK).set Fld.CLK_STA_XOK).llActive 8 false
    s.takeDepth
  else s

/-- The limit of frequency monitor `n` in 0.01 %. -/
def Chip.fmLimit (s : Chip) (n : Nat) : Nat :=
  if n < 7 then s.get (Fld.CLK_FM_LIM n)
  else if n = 7 then s.get Fld.CLK_FM7_LIM
  else if n = 8 then s.get Fld.CLK_FM8_LIM
  else s.get Fld.CLK_FM9_LIM

/-- FREQ_MONITOR_WINDOW: a window of monitor `n` ends with a deviation of `dev` in 0.01 % (R491). CLK_FREQ is raised when the run of
windows out of limits reaches N; monitors 0–6 are suspended in holdover, and 7–9 are measured on the P-die. -/
def Chip.freqWindow (s : Chip) (n dev : Nat) : Chip :=
  if n < 7 && s.on Fld.CLK_STA_HOLD then s
  else
    let run := (s.ret.fm.toList[n]?).getD 0
    let run' := if s.fmLimit n < dev then run + 1 else 0
    let put (s : Chip) (k : Nat) : Chip :=
      if h : n < 10 then { s with ret := { s.ret with fm := s.ret.fm.set n k h } } else s
    let s := put s (min run' 255)
    if run' = s.get Fld.CLK_FMW_N then
      let r := { report 0x0A01 n 0 dev with cls := if n = 7 || n = 8 then FC.warn else FC.engine }
      let s := s.set Fld.CLK_IST_FREQ
      if n < 7 then s.raise r else s.raiseP r
    else s

/-- SSC_DEPTH_CHANGE: the modulator takes up the written depth at its next point of zero deviation (R492); in holdover spread has
stopped (R490). -/
def Chip.sscChange (s : Chip) : Chip :=
  if s.on Fld.CLK_STA_HOLD then s else s.takeDepth

/-! ### GPIO (R498–R501) -/

/-- Are L-die pads latched (R483)? -/
def Chip.padsLatched (s : Chip) : Bool := s.on Fld.RET_STA_PLAT

/-- Watchers of pad `n` restart at a qualified edge; an expired one's ATS bit clears (R499). -/
def Chip.restartWatchers (s : Chip) (n : Nat) : Chip :=
  let mine (w : Nat) : Bool := s.get (Fld.PAD_ATO_PAD w) == n && bitsOf (s.get Fld.PAD_ATEN_E) w 1 == 1
  s.put Fld.PAD_ATS_X (maskOf 16 fun w => bitsOf (s.get Fld.PAD_ATS_X) w 1 == 1 && !mine w)

/-- An edge of pad `n` reaches the router input lines that name it (R501). Pulses of the router's outputs are timing (log entry 176). -/
def Chip.routePad (s : Chip) (n : Nat) (rise : Bool) : Chip :=
  if s.on Fld.GPI_CTL_EN then
    [0, 1, 2, 3].foldl (fun t m =>
      let e := t.get (Fld.GPI_RSEL_EDGE m)
      if t.get (Fld.GPI_RSEL_SRC m) = n + 1 && (if rise then bitsOf e 0 1 = 1 else bitsOf e 1 1 = 1) then t.eventIn (0x75 + m)
      else t) s
  else s

/-- GP_EDGE: the level of GP pad `n` has changed for the time of its GFL code (R498). INV inverts it; a pad whose input is disabled or
that is latched takes no level. -/
def Chip.gpEdge (s : Chip) (n : Nat) (level : Bool) : Chip :=
  let l := level != s.on (Fld.GPI_PCFG_INV n)
  let din := s.get Fld.GPI_DIN_D
  if s.padsLatched || bitsOf (s.get Fld.PAD_INE0_E) n 1 = 0 || (bitsOf din n 1 == 1) == l then s
  else
    let s := s.put Fld.GPI_DIN_D (if l then din ||| 2 ^ n else din &&& (65535 - 2 ^ n))
    (s.restartWatchers n).routePad n l

/-- ACTIVITY_TIMEOUT: watcher `w` has seen no edge for its limit (R499). -/
def Chip.watcherExpired (s : Chip) (w : Nat) : Chip :=
  let ats := s.get Fld.PAD_ATS_X
  if s.padsLatched || bitsOf (s.get Fld.PAD_ATEN_E) w 1 = 0 || bitsOf ats w 1 = 1 || s.get (Fld.PAD_ATO_CNT w) = 0 then s
  else
    let s := (s.put Fld.PAD_ATS_X (ats ||| 2 ^ w)).set ⟨Reg.PAD_IST, 8 + w, 1⟩
    let act := bitsOf (s.get Fld.PAD_ATACT_A) (2 * w) 2
    if act = 0 then s
    else s.raise { report 0x0A02 w (s.get (Fld.PAD_ATO_PAD w)) with cls := if act = 2 then FC.engine else FC.warn }

/-! ### Harvest supply (R461–R469) -/

/-- MPPT_SAMPLE: VPV at the end of the disconnection is VOC, and VPV is then regulated to K × VOC / 100 (R463). -/
def Chip.mpptSample (s : Chip) (voc : Nat) : Chip :=
  let s := s.putB Fld.HRV_STA_PVON (300 ≤ voc && voc ≤ 5500)
  if s.on Fld.HRV_MPPT_EN && !s.on Fld.HRV_STA_COLD then
    (s.put Fld.HRV_VOC_VOC voc).put Fld.HRV_VOC_VMPP (s.get Fld.HRV_MPPT_K * voc / 100)
  else s

/-- VSTO_THRESHOLD_CROSS: VSTO crosses a threshold upward or downward (R461, R463, R469); a rise through TH_NVW or TH_RUN wakes the core to
commit what is staged (R459, R470): 0 TH_SENSE, 1 TH_NVW, 2 TH_XMIT, 3 TH_RUN,
4 the warning level TH_NVW + 200 mV, 5 the 1.60 V of the cold-start converter. -/
def Chip.vstoCross (s : Chip) (th : Nat) (up : Bool) : Chip :=
  let abv := s.get Fld.HRV_STA_ABV
  if th < 4 then
    let s := s.put Fld.HRV_STA_ABV (if up then abv ||| (2 ^ (th + 1) - 1) else abv % 2 ^ th)
    let s := if up && bitsOf abv 0 1 = 0 then s.put Fld.HRV_DKT_S 0 else s
    if up && (th = 1 || th = 3) && !s.alm.staged.isEmpty then s.logCommit else s
  else if th = 4 then (if !up && s.get Fld.HRV_STA_SRC = 1 then s.aonWarning else s)
  else s.putB Fld.HRV_STA_COLD (!up)

/-- SUPPLY_SWITCH: the selector judges VSTO and VBAT in mV (R466); `run` tells that VSTO has stood above TH_RUN for 60 s. -/
def Chip.supplySwitch (s : Chip) (vsto vbat : Nat) (run : Bool) : Chip :=
  let src := s.get Fld.HRV_STA_SRC
  if s.ret.vin && !s.pow.pfail then s.toSupply 0
  else if src = 1 && vsto < 2200 && 2200 ≤ vbat then s.toSupply 2
  else if src = 2 && (run && s.vstoAt 3 || vbat < 2000) then s.toSupply 1
  else s

/-- LDARK_EXPIRY: VSTO has been below TH_SENSE for longer than LDK while it supplies the domain (R466). -/
def Chip.ldarkExpiry (s : Chip) (vbat : Nat) : Chip :=
  if s.get Fld.HRV_STA_SRC = 1 && !s.vstoAt 0 && s.get Fld.HRV_LDK_S ≤ s.get Fld.HRV_DKT_S && 2200 ≤ vbat then s.toSupply 2 else s

/-! ### Real-time clock (R484, R489) -/

/-- The alarm fires (R484). -/
def Chip.alarm (s : Chip) : Chip := s.set Fld.RTC_IST_ALRM

/-- RTC_ALARM: SEC has become equal to ALRM, by a tick or a write. -/
def Chip.rtcAlarm (s : Chip) : Chip :=
  if s.get Fld.RTC_SEC_S = s.get Fld.RTC_ALRM_S && s.get Fld.RTC_ALRM_S ≠ 0xFFFFFFFF then s.alarm else s

/-- HRV.MPPT is written: without tracking, VPV is regulated to 0.78 × the last VOC (R463). -/
def Chip.mpptWritten (s : Chip) : Chip :=
  if s.on Fld.HRV_MPPT_EN then s else s.put Fld.HRV_VOC_VMPP (78 * s.get Fld.HRV_VOC_VOC / 100)

/-- A write of ALRM with a value at or below SEC fires at once (R484). -/
def Chip.alarmWritten (s : Chip) : Chip :=
  if s.get Fld.RTC_ALRM_S ≤ s.get Fld.RTC_SEC_S && s.get Fld.RTC_ALRM_S ≠ 0xFFFFFFFF then s.alarm else s

/-- One tick of the RTC: SUB, and each second SEC and the count of dark seconds (R466, R476, R484). -/
def Chip.rtcTick (s : Chip) : Chip :=
  if !s.fab.aon then s
  else
    let sub := s.get Fld.RTC_SUB_T + 1
    let s := s.put Fld.RTC_SUB_T sub
    if sub < 32768 then s
    else
      let s := (s.inc Fld.RTC_SEC_S).rtcAlarm
      let s := if s.vstoAt 0 then s else s.bump Fld.HRV_DKT_S
      let s := if s.on Fld.FUS_STA_HTON then s.nvsCount 7 else s
      if bitsOf (s.get Fld.LDR_STA_ON) 2 1 = 1 then s.nvsCount 8 else s

/-- XTAL32_LOSS: the crystal has not oscillated for 2 s (R489). -/
def Chip.xtalLoss (s : Chip) : Chip := s.clr Fld.RTC_STA_XTAL

/-- XTAL32_RETURN (R484). -/
def Chip.xtalReturn (s : Chip) : Chip := s.set Fld.RTC_STA_XTAL

/-- RC_CALIBRATION: while VIN is present the RC is measured against the reference and trimmed (R484). -/
def Chip.rcCalibrate (s : Chip) : Chip := if s.ret.vin then { s with ret := { s.ret with rcAt := s.now } } else s

/-! ### Retention requests and the pad latch (R474, R483) -/

/-- Is a journal record OPEN (R121)? -/
def Chip.journalOpen (s : Chip) : Bool := !(s.jPages 1).isEmpty

/-- A committed write of RET.REQ with level `lvl`, over the request register's word `old` (R474). -/
def Chip.retRequest (s : Chip) (lvl : Nat) (old : Word) : Status × Chip :=
  let idle := s.engine = Eng.off || s.engine = Eng.fault
  if !idle || s.journalOpen || (lvl = 4 && s.get Fld.BRG_USTA_ST = 4) then
    (St.state, (s.wr Reg.RET_REQ old).set Fld.RET_IST_REFU)
  else (St.ok, { s with ret := { s.ret with req := some lvl } })

/-- A guarded write of 1 to PPD.REL.REL (R483, R485): every latched pad is released in one cycle, once the restore of the wake has ended
and set RSTD or RSTF. -/
def Chip.padRelease (s : Chip) : Status × Chip :=
  if !s.padsLatched then (St.ok, s)
  else if !s.ret.waking && s.fab.lco then (St.ok, (s.clr Fld.RET_STA_PLAT).clr Fld.PPD_STA_LAT)
  else (St.state, s)

/-! ### Debug port (R543–R548) -/

/-- A committed write of DBG.ULK (R545): EN is the unlock, UNLK reports a change. The refusal is a state check. -/
def Chip.debugUnlock (s : Chip) (en : Bool) : Chip :=
  if s.on Fld.DBG_STA_UNL == en then s else (s.putB Fld.DBG_STA_UNL en).set Fld.DBG_IST_UNLK

/-- May SRST run now (R548)? -/
def Chip.srstOk (s : Chip) : Bool :=
  (s.engine = Eng.off || s.engine = Eng.fault || s.engine = Eng.service) && !s.journalOpen

/-- EXTEST is loaded (R543). -/
def Chip.extest (s : Chip) : Chip :=
  if s.engine = Eng.off || s.engine = Eng.fault then
    let s := (s.sidebands false false false false).set Fld.DBG_STA_XTST
    { s with dbg := { s.dbg with extest := true } }
  else s.set Fld.DBG_IST_XREF

/-- EXTEST is left: the sideband lines return to what the engine program commands. -/
def Chip.extestEnd (s : Chip) : Chip :=
  if s.dbg.extest then
    let s := { s with dbg := { s.dbg with extest := false } }
    (s.clr Fld.DBG_STA_XTST).sidebands s.fab.wantLd s.fab.wantHv s.fab.wantHtr s.fab.wantMtr
  else s

/-- TAP_RESET: only the TAP and DBGACC are reset (R531). -/
def Chip.tapReset (s : Chip) : Chip :=
  let s := s.extestEnd
  { s with dbg := { s.dbg with accData := 0#32, accSts := 0 } }

/-- DBG.CMD.PKCLR (R538). -/
def Chip.pkClear (s : Chip) : Chip := (s.put Fld.DBG_PKR_MAX 0).put Fld.DBG_PKR_MIN 0xFFFF

end Sys2Proof.Machine
end

