-- ==== Sys2Proof/Machine/Session.lean ====
section
/-!
DEFINITION. Clients opening and closing, their credits (R361–R363), and the USB interface: attach, reset, standard requests, suspend and
wakeup (R344–R349).
-/
namespace Sys2Proof.Machine

/-! ### Credits and clients (R361–R363) -/

/-- Credits held by all clients. -/
def Chip.creditsHeld (s : Chip) : Nat := s.hb.clients.foldl (fun n c => n + c.2.tags.length) 0

/-- CLI.POOL shows the free global credits. -/
def Chip.syncCredits (s : Chip) : Chip := s.put Fld.CLI_POOL_N (1024 - s.creditsHeld)

/-- A request takes a credit. -/
def Chip.takeCredit (s : Chip) (id : Nat) (tag : Byte) : Chip :=
  (s.setClient id { s.client id with tags := (s.client id).tags ++ [tag] }).syncCredits

/-- A credit returns. -/
def Chip.returnCredit (s : Chip) (id : Nat) (tag : Byte) : Chip :=
  (s.setClient id { s.client id with tags := (s.client id).tags.erase tag }).syncCredits

/-- A client opens on an interface (R361); one that is open already stays as it is. -/
def Chip.openClient (s : Chip) (id : Nat) (spi : Bool) : Chip :=
  if (s.client id).opened then s
  else s.setClient id { s.client id with opened := true, spi := spi, evt := 0 }

/-- Every page that a client owns is released: OWN goes back to its reset value (R82). -/
def Chip.releasePages (s : Chip) (id : Nat) : Chip :=
  (lPages ++ pPages).foldl (fun t p =>
    if t.on (hOVLD p.base) && t.get (hOCLID p.base) = id then t.wr (p.base + 0x20) 0#32 else t) s

/-- The client that a packet in a ring is for: its producer's, or, of one that microcode pushed, the one in its header (R374). -/
def Chip.entryClient (s : Chip) (e : Entry) : Nat :=
  match e.client with
  | some c => c.toNat
  | none => s.num (store + 32 * e.ofs) 1

/-- The EVT packets on ring 6, taken for delivery or not, whose client `p` names are discarded (R359, R362). -/
def Chip.dropEvents (s : Chip) (p : Nat → Bool) : Chip :=
  let mine (e : Entry) : Bool := p (s.entryClient e)
  let r := s.ring 6
  let gone := (r.popped ++ r.ents).filter mine
  if gone.isEmpty then s
  else
    let t := s.setRing 6 { r with ents := r.ents.filter (fun e => !mine e), popped := r.popped.filter (fun e => !mine e) }
    (gone.foldl (fun t e => t.consumed 6 e) t).retryPush 6

/-- Is an answer in an SPI channel's queue a refusal, which belongs to no accepted request (R366)? -/
def Rsp.refusal (r : Rsp) : Bool := !r.credit && r.ring.isNone && r.bytes.length = 9

/-- How many bytes of each answer in a queue have been read when the first `n` have. -/
def readCounts (n : Nat) : List Rsp → List (Rsp × Nat)
  | [] => []
  | r :: rs => (r, min n r.bytes.length) :: readCounts (n - r.bytes.length) rs

/-- What stays in the queue of an SPI channel, with the bytes of its head that are consumed and those read beyond them. -/
def keepSpi (keep : Rsp → Bool) (q : List Rsp) (sent part : Nat) : List Rsp × Nat × Nat :=
  let l := (readCounts (sent + part) q).filter fun x => keep x.1
  let sent' := if (q.head?).all keep then sent else 0
  (l.map (·.1), sent', l.foldl (fun n x => n + x.2) 0 - sent')

/-- A client closes (R362): requests that have not begun go, responses too, credits return, pages are released, its events are dropped,
and a commit group that it holds OPEN is discarded (R428). A refusal answers no request that has run, and stays. -/
def Chip.closeClient (s : Chip) (id : Nat) : Chip :=
  let c := s.client id
  if !c.opened then s
  else
    let hb := s.hb
    let other (r : Rsp) : Bool := r.clid.toNat != id
    let (q2, sent2, part2) := keepSpi (fun r => other r || r.ring.isSome || r.refusal) hb.q2 hb.sent2 hb.part2
    let (q4, sent4, part4) := keepSpi (fun r => other r || r.ring != some 6) hb.q4 hb.sent4 hb.part4
    let hb := { hb with
      reqs := (hb.reqs.filter fun r => r.hdr.clid.toNat != id || r.started).map fun r =>
        if r.hdr.clid.toNat = id then { r with answers := false } else r
      rspUsb := hb.rspUsb.filter other, rspSpi := hb.rspSpi.filter other
      more := hb.more.filter fun x => x.hdr.clid.toNat != id
      q2 := q2, sent2 := sent2, part2 := part2, q4 := q4, sent4 := sent4, part4 := part4 }
    let s := { s with hb := hb }
    let s := s.setClient id { c with opened := false, spi := false, seqs := [], lastSeq := 0, tags := [], closing := none }
    let s := ((s.syncCredits).releasePages id).dropEvents (· == id)
    if s.gst = 1 && s.fst.owner == some (.host (BitVec.ofNat 8 id)) then s.closeGroup else s

/-- Every client of an interface closes. -/
def Chip.closeInterface (s : Chip) (spi : Bool) : Chip :=
  (s.openClients.filter fun id => (s.client id).spi == spi).foldl (fun t id => t.closeClient id) s

/-- Every client closes. -/
def Chip.closeAll (s : Chip) : Chip := s.openClients.foldl (fun t id => t.closeClient id) s

/-- The SPI interface closes: its clients close, and a request that is not all there goes. -/
def Chip.spiClose (s : Chip) : Chip :=
  let t := s.closeInterface true
  { t with hb := { t.hb with more := t.hb.more.filter fun x => !x.hdr.spi } }

/-! ### USB (R344–R349) -/

/-- USB states (BRG.USTA.ST). -/
def Chip.usbSt (s : Chip) : Nat := s.get Fld.BRG_USTA_ST

/-- The device attaches: enabled, with VBUS (R344), and with the clock that its PHY runs on (R490; DEDUCED, notes/assumptions/137.md). -/
def Chip.usbAttach (s : Chip) : Chip :=
  if s.hb.vbus && s.on Fld.BRG_CTL_EN && s.on Fld.BRG_IFC_USBE && s.usbSt = 0 && !s.on Fld.CLK_STA_HOLD then s.put Fld.BRG_USTA_ST 1 else s

/-- The rings whose entries go out as packets (R374). -/
def packetRings : List Nat := [5, 6, 7, 9, 11]

/-- Ring data whose last byte has not been acknowledged over USB is sent again (R349). -/
def Chip.usbUnpop (s : Chip) : Chip := (0 :: 1 :: packetRings).foldl (fun t n => t.unpop n fun e => !t.spiHolds n e) s

/-- What every closing of the USB interface does (R349): unacknowledged data returns, clients close, a suspend ends, a request that is not all there
goes. -/
def Chip.usbClose (s : Chip) (st : Nat) : Chip :=
  let s := (s.usbUnpop).closeInterface false
  let s := { s with hb := { s.hb with wakeK := false, halted := [], testMode := 0, more := s.hb.more.filter (·.hdr.spi), usbOut := [] } }
  (s.put Fld.BRG_USTA_ST st).put Fld.BRG_USTA_RWE 0

/-- The device detaches. -/
def Chip.usbDetach (s : Chip) : Chip := ((s.usbClose 0).put Fld.BRG_USTA_ADDR 0).clr Fld.BRG_USTA_HS

/-- USB_BUS_RESET: a bus reset (`cause` 0, at High-Speed or not), loss of VBUS (1) or SET_CONFIGURATION(0) (2). -/
def Chip.usbReset (s : Chip) (cause : Nat) (hs : Bool) : Chip :=
  match cause with
  | 0 => if s.usbSt = 0 then s
         else (((s.usbClose 2).put Fld.BRG_USTA_ADDR 0).putB Fld.BRG_USTA_HS hs).set Fld.BRG_IST_USBRST
  | 1 => let s := s.usbDetach
         { s with hb := { s.hb with vbus := false } }
  | _ => if s.usbSt = 4 then s.usbClose 3 else s

/-- VBUS goes (R344, R349): a level at a ball, so that an L-die that does not run finds it gone. -/
def Chip.vbusLost (s : Chip) : Chip :=
  if s.fab.lco && !s.fab.standby then s.usbReset 1 false else { s with hb := { s.hb with vbus := false } }

/-- VBUS_DETECT (R344). -/
def Chip.vbusDetect (s : Chip) : Chip := ({ s with hb := { s.hb with vbus := true } }).usbAttach

/-- USB_SUSPEND (R348). -/
def Chip.usbSuspend (s : Chip) : Chip :=
  if s.usbSt = 0 || s.usbSt = 5 then s
  else
    let s := { s with hb := { s.hb with preSusp := s.usbSt, suspFrom := s.nowMs } }
    (s.put Fld.BRG_USTA_ST 5).set Fld.BRG_IST_SUSP

/-- USB_RESUME (R348). -/
def Chip.usbResume (s : Chip) : Chip :=
  if s.usbSt = 5 then
    let s := (s.put Fld.BRG_USTA_ST s.hb.preSusp).set Fld.BRG_IST_RSM
    { s with hb := { s.hb with wakeK := false } }
  else s

/-- USB_REMOTE_WAKEUP (R348): resume is signalled when the host has enabled it and an EVT waits for a client on USB, 5 ms after suspend
began at the earliest. -/
def Chip.usbWakeup (s : Chip) : Chip :=
  let evt := (s.ring 6).ents.any fun e => (s.client (s.entryClient e)).opened && !(s.client (s.entryClient e)).spi
  if s.usbSt = 5 && s.on Fld.BRG_USTA_RWE && evt && s.hb.suspFrom + 5 ≤ s.nowMs then
    { s with hb := { s.hb with wakeK := true } }
  else s

/-! Descriptors (R345). String contents other than the serial number are not given: `Config.usbString`. -/

/-- The device descriptor. -/
def Chip.deviceDesc (s : Chip) : List Byte :=
  [18#8, 1#8] ++ leBytes 2 0x0200 ++ [0#8, 0#8, 0#8, 64#8] ++ leBytes 2 (s.get Fld.BRG_UVID_VID) ++ leBytes 2 (s.get Fld.BRG_UVID_PID) ++
    leBytes 2 (s.get Fld.BRG_UREL_BCD) ++ [1#8, 2#8, 3#8, 1#8]

/-- An endpoint descriptor: address, attributes, packet size, interval. -/
def endpointDesc (addr attr size ival : Nat) : List Byte :=
  leBytes 1 7 ++ leBytes 1 5 ++ leBytes 1 addr ++ leBytes 1 attr ++ leBytes 2 size ++ leBytes 1 ival

/-- The configuration with its interface and endpoints, at a speed; `kind` 2 configuration, 7 other-speed configuration. -/
def configDesc (hs : Bool) (kind : Nat) : List Byte :=
  let bulk := if hs then 512 else 64
  let eps := endpointDesc 0x01 3 (if hs then 1024 else 64) 1 ++ endpointDesc 0x82 2 bulk 0 ++ endpointDesc 0x83 2 bulk 0 ++
    endpointDesc 0x84 3 64 1 ++ endpointDesc 0x05 2 bulk 0
  leBytes 1 9 ++ leBytes 1 kind ++ leBytes 2 (9 + 9 + 35) ++ leBytes 1 1 ++ leBytes 1 1 ++ leBytes 1 0 ++ leBytes 1 0xE0 ++ leBytes 1 0 ++
    (leBytes 1 9 ++ leBytes 1 4 ++ leBytes 1 0 ++ leBytes 1 0 ++ leBytes 1 5 ++ leBytes 1 0xFF ++ leBytes 1 0 ++ leBytes 1 0 ++ leBytes 1 0) ++ eps

/-- The device qualifier. -/
def qualifierDesc : List Byte :=
  leBytes 1 10 ++ leBytes 1 6 ++ leBytes 2 0x0200 ++ [0#8, 0#8, 0#8, 64#8, 1#8, 0#8]

/-- A hexadecimal digit as UTF-16. -/
def hexChar (n : Nat) : List Byte := leBytes 2 (if n < 10 then 48 + n else 55 + n)

/-- A string descriptor: 0 languages, 1 manufacturer, 2 product, 3 serial number (the device identity in 16 hexadecimal digits). -/
def Chip.stringDesc (s : Chip) (i : Nat) : Option (List Byte) :=
  let body : Option (List Byte) := match i with
    | 0 => some (leBytes 2 0x0409)
    | 1 => some (Config.usbString 1)
    | 2 => some (Config.usbString 2)
    | 3 => some (s.devId.flatMap fun (b : Byte) => hexChar (b.toNat / 16) ++ hexChar (b.toNat % 16))
    | _ => none
  body.map fun (b : List Byte) => leBytes 1 (b.length + 2) ++ leBytes 1 3 ++ b

/-- EP0 answers with at most `n` bytes. -/
def Chip.ep0Data (s : Chip) (n : Nat) (bs : List Byte) : Chip := { s with hb := { s.hb with ep0 := some (bs.take n) } }

/-- EP0 answers STALL. -/
def Chip.ep0Stall (s : Chip) : Chip := { s with hb := { s.hb with ep0 := none } }

/-- GET_DESCRIPTOR. -/
def Chip.getDescriptor (s : Chip) (value len : Nat) : Chip :=
  let hs := s.on Fld.BRG_USTA_HS
  match value / 256 with
  | 1 => s.ep0Data len s.deviceDesc
  | 2 => if value % 256 = 0 then s.ep0Data len (configDesc hs 2) else s.ep0Stall
  | 3 => match s.stringDesc (value % 256) with
    | some b => s.ep0Data len b
    | none => s.ep0Stall
  | 6 => s.ep0Data len qualifierDesc
  | 7 => if value % 256 = 0 then s.ep0Data len (configDesc (!hs) 7) else s.ep0Stall
  | _ => s.ep0Stall

/-- Is a number an endpoint address of the device? -/
def isEndpoint (i : Nat) : Bool := [0x00, 0x80, 0x01, 0x82, 0x83, 0x84, 0x05].contains i

/-- USB_STANDARD_REQUEST (R346): bmRequestType, bRequest, wValue, wIndex, wLength. Anything but a supported standard request is
answered STALL. -/
def Chip.usbRequest (s : Chip) (typ req value index len : Nat) : Chip :=
  let st := s.usbSt
  if !(2 ≤ st && st ≤ 4) then s
  else match typ, req with
  | 0x80, 0 => s.ep0Data len (leBytes 2 (1 + if s.on Fld.BRG_USTA_RWE then 2 else 0))
  | 0x81, 0 => if st = 4 && index = 0 then s.ep0Data len (leBytes 2 0) else s.ep0Stall
  | 0x82, 0 => if isEndpoint index && (st = 4 || index % 128 = 0) then
      s.ep0Data len (leBytes 2 (if s.hb.halted.contains index then 1 else 0)) else s.ep0Stall
  | 0x00, 1 => if value = 1 then (s.put Fld.BRG_USTA_RWE 0).ep0Data 0 [] else s.ep0Stall
  | 0x00, 3 =>
    if value = 1 then (s.put Fld.BRG_USTA_RWE 1).ep0Data 0 []
    else if value = 2 && s.on Fld.BRG_USTA_HS && 1 ≤ index / 256 && index / 256 ≤ 5 then
      ({ s with hb := { s.hb with testMode := index / 256 } }).ep0Data 0 []
    else s.ep0Stall
  | 0x02, 1 => if value = 0 && isEndpoint index && (st = 4 || index % 128 = 0) then
      ({ s with hb := { s.hb with halted := s.hb.halted.filter (· != index) } }).ep0Data 0 [] else s.ep0Stall
  | 0x02, 3 => if value = 0 && isEndpoint index && index % 128 != 0 && st = 4 then
      ({ s with hb := { s.hb with halted := index :: s.hb.halted.filter (· != index) } }).ep0Data 0 [] else s.ep0Stall
  | 0x00, 5 => if value < 128 && st < 4 then
      ((s.put Fld.BRG_USTA_ADDR value).put Fld.BRG_USTA_ST (if value = 0 then 2 else 3)).ep0Data 0 [] else s.ep0Stall
  | 0x80, 6 => s.getDescriptor value len
  | 0x80, 8 => s.ep0Data len (leBytes 1 (if st = 4 then 1 else 0))
  | 0x00, 9 =>
    if st = 2 then s.ep0Stall
    else if value = 1 then (({ s with hb := { s.hb with halted := [] } }).put Fld.BRG_USTA_ST 4).ep0Data 0 []
    else if value = 0 then (s.usbReset 2 false).ep0Data 0 []
    else s.ep0Stall
  | 0x81, 10 => if st = 4 && index = 0 then s.ep0Data len [0#8] else s.ep0Stall
  | 0x01, 11 => if st = 4 && index = 0 && value = 0 then ({ s with hb := { s.hb with halted := [] } }).ep0Data 0 [] else s.ep0Stall
  | _, _ => s.ep0Stall

/-- The USB side of a loss of the clock (R490): the interface detaches, and its clients close. -/
def Chip.clockLost (s : Chip) (sub : Nat) : Chip :=
  if s.on Fld.CLK_STA_HOLD then s else (s.clkLoss sub).usbDetach

/-- After a relock the device attaches again. -/
def Chip.clockBack (s : Chip) : Chip := (s.pllRelock).usbAttach

/-- BRG.IFC is written: clearing an interface's enable closes its clients; setting USBE attaches (R344, R349). -/
def Chip.ifcWritten (s : Chip) (old : Word) : Chip :=
  let s := if bitsOf old.toNat 0 1 = 1 && !s.on Fld.BRG_IFC_USBE then s.usbDetach else s
  let s := if bitsOf old.toNat 1 1 = 1 && !s.on Fld.BRG_IFC_SPIE then s.spiClose else s
  s.usbAttach

end Sys2Proof.Machine
end

