-- ==== Sys2Proof/Machine/Hooks.lean ====
section
/-!
DEFINITION. What single blocks add to register accesses: refusals of checks 2 and 3 beyond the common ones (R84), reserved encodings that
depend on other state (check 7), page consistency, the raw registers that follow a BPB, what a committed write then does, and
what a read does. `hooks` gathers them for the accesses of Access.lean.
-/
namespace Sys2Proof.Machine

/-- Index of an address in a run of registers `stride` apart. -/
def runIdx (base stride n a : Nat) : Option Nat :=
  if base ≤ a && a < base + stride * n && (a - base) % stride = 0 then some ((a - base) / stride) else none

/-- Is an address one of a run? -/
def inRun (base stride n a : Nat) : Bool := (runIdx base stride n a).isSome

/-- The first status whose condition holds, else 0x00. -/
def firstRefusal : List (Bool × Status) → Status
  | [] => St.ok
  | (c, st) :: l => if c then st else firstRefusal l

/-- Has a host client no X right on a page? -/
def Chip.lacksX (s : Chip) (m : Master) (page : Nat) : Bool :=
  match m with
  | .host c => !s.mayX c.toNat page
  | _ => false

/-- Is the master a client other than `id`? -/
def otherClient (m : Master) (id : Nat) : Bool :=
  match m with
  | .host c => c.toNat != id
  | _ => false

/-! ### Checks 2 and 3 (R84) -/

/-- Missing rights and forbidden writers of single registers. -/
def Chip.prePerm (s : Chip) (m : Master) (a : Nat) (v : Word) : Bool :=
  let host := mHost m
  let lo := bitsOf v.toNat 0 8
  -- rights words and another client's closing (R362, R377)
  ((a = Reg.CLI_CRT || inRun Reg.CLI_PRL 4 6 a) && s.lacksX m Pg.CLI) ||
  (a = Reg.CLI_CLS && otherClient m lo && s.lacksX m Pg.CLI) || (a = Reg.CLI_OPN && otherClient m lo) ||
  -- commands that need X (R295, R451, R474, R483, R528, R545, R548)
  ((a = Reg.ORR_SWP && bitsOf v.toNat 0 1 = 1) && s.lacksX m Pg.ORR) || (a = Reg.ORC_CMD && s.lacksX m Pg.ORC) ||
  (Pg.UPD + 0x40 ≤ a && a < Pg.UPD + 0x800 && s.lacksX m Pg.UPD) || (a = Reg.RET_REQ && s.lacksX m Pg.RET) ||
  (a = Reg.PPD_REL && s.lacksX m Pg.PPD) || (a = Reg.FLT_INJ && s.lacksX m Pg.FLT) ||
  ((a = Reg.DBG_ULK || a = Reg.DBG_SRST) && s.lacksX m Pg.DBG) ||
  -- writers (R426, R427, R429, R528, R250)
  (a = Reg.FLT_DONE && host) || (a = Reg.NVS_DCFG && !(m = .alm || m = .debug)) ||
  ((a = Reg.NVS_VAL || a = Reg.NVS_ADD) && s.nvsMay m = St.perm) || (a = Reg.NVM_BP && s.on Fld.NVM_BP_BPL) ||
  ((a = Reg.HEL_MCMD || a = Reg.HTB_TDA) && host && !s.on (hXP Pg.HLP))

/-- Does an axis move (R244)? -/
def Chip.axisMoves (s : Chip) : Bool := (s.axis 0).counting || (s.axis 1).counting

/-- State refusals of single registers. -/
def Chip.preState (s : Chip) (m : Master) (a : Nat) (v : Word) : Bool :=
  let busy := !s.noneAdmitted
  let stops (b : Nat) : Bool := a = b + 8 && s.on (hEN b) && bitsOf v.toNat 0 1 = 0
  -- R221, R294
  (mHost m && busy && [Pg.LDR, Pg.HVD, Pg.FUS, Pg.MDR, Pg.SOL, Pg.ORR].any stops) ||
  (a = Reg.ORC_CMD && (busy || (bitsOf v.toNat 8 2 = 2 && !s.on Fld.ORR_CTL_EN))) ||
  -- R195, R234, R255, R342
  (a = Reg.CAL_TDA && busy) || (inRun (Reg.ENC_POS 0) 4 2 a && (busy || s.axisMoves)) ||
  (a = Reg.HTB_TDA && s.get (Fld.HLP_ST_MODE (match s.get Fld.HTB_TAD_I / 512 with | 0 => 0 | 1 => 1 | 2 => 2 | _ => 11)) != 0) ||
  (stops Pg.CST && !s.storeIdle) ||
  (match runIdx (Reg.RNG_RCFG 0) 16 64 a with
    | some n => s.on (Fld.RNG_RCFG_EN n) && bitsOf v.toNat 31 1 = 0 && s.ringReserved n
    | none => false) ||
  -- R426, R528, R529, R545, R548
  ((a = Reg.NVS_VAL || a = Reg.NVS_ADD) && s.nvsMay m = St.state) || (a = Reg.FLT_INJ && s.engine != Eng.service) ||
  (a = Reg.ILK_CFG && (s.fab.ldEn || s.fab.hvEn || s.fab.htrEn)) ||
  (a = Reg.DBG_ULK && bitsOf v.toNat 0 1 = 1 && !s.on Fld.DBG_STA_PERMIT) ||
  (a = Reg.DBG_SRST && bitsOf v.toNat 0 1 = 1 && !s.srstOk)

/-- Checks 2 and 3 of single blocks; a second ARM is refused as busy (R291). -/
def hookPre (m : Master) (a : Nat) (v : Word) (s : Chip) : Status :=
  firstRefusal [(s.prePerm m a v, St.perm), (s.preState m a v, St.state),
    (a = Reg.ORR_SWP && bitsOf v.toNat 0 1 = 1 && (s.on Fld.ORR_STA_MEAS || s.on Fld.ORR_STA_ARMD), St.busy),
    -- the regions are judged when CST.CTL.EN is set, and a bad one refuses the whole write (R329)
    (a = Reg.CST_CTL && bitsOf v.toNat 0 1 = 1 && !s.on (hEN Pg.CST) && !s.regionsOk, St.badArg)]

/-! ### Check 7: encodings that other state reserves -/

/-- The lowest bits of the fields for which a condition holds. -/
def reservedBits (l : List (Bool × Nat)) : List Nat := (l.filter (·.1)).map (·.2)

/-- Rate of a UART setting against its limits (R379, R390), in bit/s: clock ≤ limits × OVS × (DIV + FRAC/64). -/
def baudBad (clock : Nat) (ovs8 : Bool) (div fr hi : Nat) : Bool :=
  let d := (if ovs8 then 8 else 16) * (64 * div + fr)
  div = 0 || 64 * clock < 300 * d || hi * d < 64 * clock

/-- Input sources of the event router (R501). -/
def rselOk (c : Nat) : Bool := c ≤ 0x10 || (0x20 ≤ c && c ≤ 0x25)

/-- Sources of router output lines. -/
def rosrcOk (c : Nat) : Bool := c = 0 || (0x20 ≤ c && c ≤ 0x25)

/-- Frequency of the clock output in Hz (R503), 0 when off. -/
def ckoHz (src div : Nat) : Nat :=
  (match src with
    | 1 => 50000000
    | 2 => 25000000
    | 3 => 32768
    | _ => 0) / (div + 1)

/-- Highest frequency of a slew class (R494). -/
def slewHz (c : Nat) : Nat :=
  match c with
  | 0 => 12500000
  | 1 => 25000000
  | 2 => 50000000
  | _ => 100000000

/-- A role that another sensor input holds (R227). -/
def Chip.roleTaken (s : Chip) (n role : Nat) : Bool :=
  role != 0 && (List.range 6).any fun k => k != n && s.get (Fld.SNS_SCFG_ROLE k) = role

/-- Is one of the `n` low nibbles of a word 0? -/
def zeroNibbles (n v : Nat) : Bool := (List.range n).any fun k => bitsOf v (4 * k) 4 = 0

/-- Reserved encodings of pages MER, SNS, GPI, CLK, PAD, PPD. -/
def Chip.resvPads (s : Chip) (a : Nat) (v : Nat) : List Nat :=
  let f (lo w : Nat) : Nat := bitsOf v lo w
  (if a = Reg.MER_CTL then
    reservedBits [((f Fld.MER_CTL_SEN.lo 3 / 2 % 2 = 1 && !s.on Fld.DOC_BCFG_REAR) ||
      (f Fld.MER_CTL_SEN.lo 3 / 4 % 2 = 1 && !s.on Fld.DOC_BCFG_MARK), Fld.MER_CTL_SEN.lo)]
  else []) ++
  (match runIdx (Reg.SNS_SCFG 0) 4 6 a with
    | some n => reservedBits [(s.roleTaken n (f (Fld.SNS_SCFG_ROLE 0).lo (Fld.SNS_SCFG_ROLE 0).w), (Fld.SNS_SCFG_ROLE 0).lo)]
    | none => []) ++
  (match runIdx (Reg.GPI_PCFG 0) 4 16 a with
    | some n => reservedBits [(4 < f 0 4 || (f 0 4 = 3 && n != 1) || (f 0 4 = 4 && n != 0), 0)]
    | none => []) ++
  (if inRun (Reg.GPI_RSEL 0) 4 4 a then reservedBits [(!rselOk (f 0 8), 0)] else []) ++
  (if inRun (Reg.GPI_ROSRC 0) 4 16 a then reservedBits [(!rosrcOk (f 0 8), 0)] else []) ++
  (if a = Reg.CLK_CKO then
    reservedBits [(slewHz (bitsOf (s.rd (Reg.PAD_SLW 0)).toNat 2 2) < ckoHz (f 0 2) (f 8 8), 0),
      (slewHz (bitsOf (s.rd (Reg.PAD_SLW 0)).toNat 2 2) < ckoHz (f 0 2) (f 8 8), 8)]
  else []) ++
  (if inRun (Reg.PAD_GFL 0) 4 5 a then reservedBits [(zeroNibbles 8 v, 0)]
  else if a = Reg.PAD_GFL5 then reservedBits [(zeroNibbles 3 v, 0)] else []) ++
  (if a = Reg.PAD_ATACT then reservedBits [((List.range 16).any fun k => f (2 * k) 2 = 3, 0)] else [])

/-- Reserved encodings of the serial pages. -/
def resvSerial (a : Nat) (v : Nat) (s : Chip) : List Nat :=
  let f (lo w : Nat) : Nat := bitsOf v lo w
  (if a = Reg.UA0_BAUD || a = Reg.UA1_BAUD then
    let bad := baudBad (if f 31 1 = 1 then 25000000 else 100000000) (f 30 1 = 1) (f 8 16) (f 0 6) 6000000
    reservedBits [(bad, 31), (bad, 30), (bad, 8), (bad, 0)]
  else []) ++
  (if a = Reg.MLK_BAUD then
    let bad := baudBad 8000000 (f 30 1 = 1) (f 8 16) (f 0 6) 1000000
    reservedBits [(bad, 30), (bad, 8), (bad, 0)]
  else []) ++
  (if a = Reg.MLK_FMT then reservedBits [(f 0 1 = 1 && !s.on Fld.MLK_ADDR_MODE, 0)] else []) ++
  (if a = Reg.MLK_ADDR then reservedBits [(f 9 1 = 0 && s.on Fld.MLK_FMT_D7, 9)] else []) ++
  (if a = Reg.UA0_WM || a = Reg.UA1_WM then
    reservedBits [(f 16 6 ≤ f 0 6, 16), (f 16 6 ≤ f 0 6, 0)]
  else [])

/-- Thresholds in use: reserved when they would break an order (R208, R461). -/
def resvLevels (a : Nat) (v : Nat) (s : Chip) : List Nat :=
  (if a = Reg.FUS_TCUT then reservedBits [(bitsOf v 0 12 < s.get Fld.FUS_TCEIL_T + 100, 0)] else []) ++
  (if a = Reg.FUS_TCEIL then reservedBits [(s.get Fld.FUS_TCUT_T < bitsOf v 0 12 + 100, 0)] else []) ++
  (if a = Reg.HRV_THT then
    -- TH_XMIT below TH_NVW (R472): the trims judged with their nominal thresholds
    let t := s.wr Reg.HRV_THT (BitVec.ofNat 32 v)
    reservedBits [(t.threshold 2 < t.threshold 1, Fld.HRV_THT_XMT.lo), (t.threshold 2 < t.threshold 1, Fld.HRV_THT_NVW.lo)]
  else [])

/-- Is the address a dispatch entry (ORC.DSP)? -/
def isDsp (a : Nat) : Bool := (List.range 4).any fun c => inRun (Reg.ORC_DSP c 0) 4 8 a

/-- Does a basic bound lie in the range of its slot (R264)? Slot 11 has no range. -/
def boundLegal (n : Nat) (b : Int) : Bool :=
  if n = 0 then 0 ≤ b && b ≤ 1500
  else if n ≤ 2 then -1000 ≤ b && b ≤ 1000
  else if n = 3 then 0 ≤ b && b ≤ 150
  else if n ≤ 6 then 0 ≤ b && b ≤ 4095
  else if n ≤ 10 then 0 ≤ b && b ≤ 1000
  else true

/-- Reserved encodings of pages RNG, ORC and HLP; a reserved CAPC is not taken, so that EN is judged with the old one (R13, R327). -/
def resvStore (a : Nat) (v : Nat) (s : Chip) : List Nat :=
  (match runIdx (Reg.RNG_RCFG 0) 16 64 a with
    | some n => 
      let asked := bitsOf v 16 5
      let capc := if 1 ≤ asked && asked ≤ 16 then asked else s.get (Fld.RNG_RCFG_CAPC n)
      reservedBits [(bitsOf v 31 1 = 1 && !s.on (Fld.RNG_RCFG_EN n) && !s.arrayOk n capc (s.get (Fld.RNG_RBAS_A n)), 31)]
    | none => []) ++
  (if isDsp a && cndReserved (bitsOf v (Fld.ORC_DSP_COND 0 0).lo (Fld.ORC_DSP_COND 0 0).w) then [(Fld.ORC_DSP_COND 0 0).lo] else []) ++
  (match runIdx (Reg.HLP_BOB 0) 8 12 a with
    | some n => reservedBits [(!boundLegal n (signedOf (bitsOf v (Fld.HLP_BOB_BHI 0).lo 16) 16), (Fld.HLP_BOB_BHI 0).lo),
        (!boundLegal n (signedOf (bitsOf v (Fld.HLP_BOB_BLO 0).lo 16) 16), (Fld.HLP_BOB_BLO 0).lo)]
    | none => []) ++
  (match runIdx (Reg.HLP_TABC 0) 0x70 12 a with
    | some n => reservedBits [(bitsOf v 25 1 = 1 && (tablePair n).isNone, 25), (bitsOf v 24 1 = 1 && (tablePair n).isNone, 24)]
    | none => [])

/-- Check 7 of single blocks. -/
def hookResv (a : Nat) (w : Word) (s : Chip) : List Nat :=
  s.resvPads a w.toNat ++ resvSerial a w.toNat s ++ resvLevels a w.toNat s ++ resvStore a w.toNat s

/-! ### Levels and consistency -/

/-- The laser loops' lower range bound follows APCn at basic level (R259). -/
def Chip.laserRange (s : Chip) : Chip :=
  if s.on (hXP Pg.HLP) then s
  else [0, 1, 2].foldl (fun (t : Chip) k => t.putS (Fld.HLP_YMIN_Y (4 + k)) (t.get (Fld.MRK_APC_C k) * 65536 / 10 : Nat)) s

/-- The raw registers of a page that follow from its BPB. -/
def hookDerive (b : Nat) (s : Chip) : Chip :=
  if b = Pg.MER then s.merDerive
  else if b = Pg.IMG then s.imgDerive
  else if b = Pg.MRK then s.mrkDerive.laserRange
  else if b = Pg.HLP then s.hlpDerive
  else s

/-- Does the PRINT region overlap a run that a reservation holds (R342)? -/
def Chip.printHeld (s : Chip) : Bool :=
  let (b, n) := s.printRegion
  (List.range n).any fun k => s.granuleHeld (b + k)

/-- Is a page judged at a change? MER at each apply event and at each write while EN = 0 (R170); IMG at its apply events (R175); HLP at those and
at a write of a slot's CFG, which holds what R265 judges and takes effect at the end of its write (DEDUCED, log entry 177); MRK where PRB or PRS
applies (R329). -/
def judgedAt (b : Nat) : Change → Bool
  | .write a en => if b = Pg.MER then !en else b = Pg.HLP && inRun (Reg.HLP_CFG 0) 0x70 12 a
  | .apply as => if b = Pg.MRK then as.any fun a => a = Reg.MRK_PRB || a = Reg.MRK_PRS else true
  | .enable => b != Pg.MRK

/-- The IST bits that tell how a page is inconsistent after a change; none when it is consistent (R170, R175, R218, R265, R329). Settling that
fails shows in IMG whichever of MER and IMG is checked (R175). -/
def hookValid (b : Nat) (ch : Change) (s : Chip) : List Field :=
  let bad (ok : Bool) (f : Field) : List Field := if ok then [] else [f]
  if !judgedAt b ch then []
  else if b = Pg.MER then
    (if s.merValid then [] else Fld.MER_IST_CFGERR :: bad s.imgValid Fld.IMG_IST_CFGERR)
  else if b = Pg.IMG then bad s.imgValid Fld.IMG_IST_CFGERR
  else if b = Pg.HLP then bad s.hlpValid Fld.HEL_IST_CFGERR
  else if b = Pg.MRK then bad (s.regionsOk && !s.printHeld) Fld.MRK_IST_CFGERR
  else []

/-- The oldest queued item: the next whose profile the engine program prepares (R193, R218). -/
def Chip.nextQueued (s : Chip) : Option Item := s.doc.items.find? Item.queued

/-- What follows an apply event; one of LGR or PWR is a decision point, which the apply events of one cycle share (R142). -/
def hookApplied (b : Nat) (s : Chip) : Chip :=
  if b = Pg.MER then
    -- TFP written 0 while L0 runs: the engine program commands COAST (R265)
    (let t := s.merSync
     if t.get Fld.MER_TFP_P = 0 && t.get (Fld.HLP_ST_MODE 0) = Mode.run then t.helCmd 0 Mode.coast else t)
  else if b = Pg.LGR || b = Pg.PWR then s.decideSoon
  else if b = Pg.MRK then (match s.nextQueued with
    | some x => (((s.mrkPrepare x).syncClamps).laserRange).syncPool
    | none => ((s.syncClamps).laserRange).syncPool)
  else if b = Pg.HVD || b = Pg.FUS then s.syncClamps
  else if b = Pg.MDR then s.gateDrivers
  else s

/-- Is the address a dispatch entry of the context that writes it (R295)? -/
def ownEntry (m : Master) (a : Nat) : Bool :=
  match m with
  | .orr c => inRun (Reg.ORC_DSP c.val 0) 4 8 a
  | _ => false

/-- ORC's class S is judged against the EN and ENA of ORR (R296). -/
def hookGate (b : Nat) : Option Nat := if b = Pg.ORC then some Pg.ORR else none

/-- Where CTL.EN does not decide class S: loop slots (R266), rings (R327), the buck's switching frequency (R68), the store's regions
(R342); on pages whose CTL.EN reads 1 and that name no condition of their own, class S is open. -/
def hookOpen (m : Master) (a : Nat) (s : Chip) : Option Bool :=
  match (List.range 12).find? (fun n => slotAddr? n a) with
  | some n => some (s.get (Fld.HLP_ST_MODE n) = 0 || !s.on (hEN Pg.HLP))
  | none =>
    if Reg.RNG_RCFG 0 ≤ a && a < Reg.RNG_RCFG 64 then some (!s.on (Fld.RNG_RCFG_EN ((a - Reg.RNG_RCFG 0) / 16)))
    else if a = Reg.PWR_BCK then some (!s.pow.buckOn)
    else if a = Reg.CST_SYSR || a = Reg.CST_HSTR then
      some (!s.on (hEN Pg.CST) && (List.range 8).all fun i => s.get (Fld.CST_RSVI_ITEM i) = 0)
    else if Pg.ORC ≤ a && a < Pg.ORC + 0x4000 then some (!s.on Fld.ORR_CTL_EN || ownEntry m a)
    else none

/-- Shadows of a slot that is OFF apply at the end of their write (R266). -/
def hookAtOnce (x : Shadow) (s : Chip) : Bool :=
  x.bnd == bndBit .sample && (List.range 12).any fun n => slotAddr? n x.addr && s.get (Fld.HLP_ST_MODE n) == 0

/-! ### What committed writes do -/

/-- The oldest admitted item, else the oldest queued one: the item whose profile the raw registers follow. -/
def Chip.profileItem (s : Chip) : Option Item := (s.doc.items.find? Item.admitted).orElse fun _ => s.nextQueued

/-- A page has returned to basic level and is enabled: the engine program rewrites the raw registers that follow from more than its BPB, the
profile of the item in hand and the Heliostat tables set (R79, R193, R218, R243, R264). DESIGN CHOICE (log entry 183): with no item in hand
the profile is profile 0. -/
def Chip.basicAgain (s : Chip) (b : Nat) : Chip :=
  if s.on (hXP b) then s
  else if b = Pg.HLP then
    (let t := s.hlpRestore
     match t.profileItem with
     | some x => t.tuneAxes x.prof
     | none => t)
  else
    let (prof, carriage) := match s.profileItem with
      | some x => (x.prof, x.carriage)
      | none => (0, s.get (Fld.MOT_PROFB_CARR 0) == 1)
    if b = Pg.IMG then s.imgRaw prof
    else if b = Pg.MRK then s.mrkRaw prof
    else if b = Pg.MOT && s.profileFits prof carriage then
      s.setAxis (s.profAxis prof) { s.axis (s.profAxis prof) with raw := s.profRaw prof }
    else s

/-- Control registers: driver gating (R35, R221), the Orrery's start and stop (R292, R294), ENC's restart (R234), serial ports (R403),
DOC (R122), BRG (R344). -/
def Chip.ctlWritten (s : Chip) (b : Nat) (was : Bool) : Chip :=
  let en := s.on (hEN b)
  if b = Pg.LDR || b = Pg.HVD || b = Pg.FUS || b = Pg.MDR || b = Pg.SOL then s.gateDrivers
  else if b = Pg.ORR then (if en && !was then s.orrStart else if was && !en then s.orrStop else s)
  else if b = Pg.ENC then (if en && !was && s.noneAdmitted then s.encoderFound else s)
  else if b = Pg.UA0 then (if was && !en then s.portStop 0 else s)
  else if b = Pg.UA1 then (if was && !en then s.portStop 1 else s)
  else if b = Pg.MLK then (if was && !en then s.portStop 2 else s)
  else if b = Pg.HLP || b = Pg.IMG || b = Pg.MRK || b = Pg.MOT then (if en && !was then s.basicAgain b else s)
  else if b = Pg.MER then (if en && !was then (s.merStart.merSync).bdLine else if was && !en then s.merHalt.merSync else s.merSync)
  else if b = Pg.DOC then (if was && !en then s.docStop else s)
  else if b = Pg.NIM then (if en && !was then s.put Fld.NIM_ST_S 1 else if was && !en then s.nimEnd 0 false else s)
  else if b = Pg.BRG then (if en && !was then s.usbAttach else if was && !en then (s.usbDetach).spiClose else s)
  else s

/-- The entry that CLI.SEL names takes what CLI shows (R377); a writer's own X on CLI stays set. -/
def Chip.rightsWritten (s : Chip) (m : Master) (old : Word) (a : Nat) : Chip :=
  let id := s.get Fld.CLI_SEL_ID
  let c := s.client id
  let mine := match m with
    | .host k => k.toNat = id
    | _ => false
  let pxl := s.get Fld.CLI_PXL_P
  let bit := 2 ^ 4
  let keep := mine && a = Reg.CLI_PXL && bitsOf old.toNat 4 1 = 1 && bitsOf pxl 4 1 = 0
  s.setClient id { c with
    evs := s.on Fld.CLI_CRT_EVS, o := s.on Fld.CLI_CRT_O, g := s.on Fld.CLI_CRT_G, crl := s.get Fld.CLI_CRT_CRL
    prl := s.get Fld.CLI_PRL_P, prp := s.get Fld.CLI_PRP_P, pwl := s.get Fld.CLI_PWL_P, pwp := s.get Fld.CLI_PWP_P
    pxl := if keep then pxl + bit else pxl, pxp := s.get Fld.CLI_PXP_P }

/-- Commands of the document side and the store: what a write to one of their registers does (R200, R220, R322, R324, R327). -/
def Chip.postStore (s : Chip) (m : Master) (a : Nat) (old v : Word) : Option (Status × Chip) :=
  if a = Reg.RNG_HPSH then some (s.hpsh m v)
  else if a = Reg.RNG_HDONE then some (St.ok, s.hdone v)
  else if a = Reg.MRK_JDEL then some (s.jobDelete v.toNat)
  else if inRun (Reg.RNG_RCFG 0) 16 64 a then
    let n := (a - Reg.RNG_RCFG 0) / 16
    some (St.ok, if bitsOf old.toNat 31 1 = 1 && !s.on (Fld.RNG_RCFG_EN n) then s.emptyRing n else s)
  else if a = Reg.CST_SYSR || a = Reg.CST_HSTR then some (St.ok, s.syncPool)
  else if a = Reg.CST_SCRB then some (St.ok, s.syncScrub)
  else none

/-- Commands of the Orrery, Heliostat, the imaging path and ENC. -/
def Chip.postEngine (s : Chip) (a : Nat) (v : Word) : Option (Status × Chip) :=
  if a = Reg.ORR_SWP then some (St.ok, s.swpWrite v)
  else if a = Reg.ORC_CMD then some (St.ok, s.orcCmd v)
  else if isDsp a then some (St.ok, s.dspWritten ((a - Reg.ORC_DSP 0 0) / 0x80))
  else if a = Reg.HEL_MCMD then
    (let n := bitsOf v.toNat 0 4
     let k := bitsOf v.toNat 24 3
     some (if !s.modeAllowed n k then (St.badArg, s)
      else if !s.modeOk n k then (St.state, s)
      else (St.ok, s.helCmd n k)))
  else if a = Reg.HTB_TDA then
    (let i := s.get Fld.HTB_TAD_I
     let t := (s.setTable i (bitsOf v.toNat 0 16)).put Fld.HTB_TAD_I ((i + 1) % 2048)
     some (St.ok, t.putS Fld.HTB_TDA_V (t.tableEntry (t.get Fld.HTB_TAD_I))))
  else if a = Reg.CAL_CMD then some (s.calStart v)
  else if a = Reg.CAL_TDA then (let r := s.calTda (some v); some (r.1.2, r.2))
  else if a = Reg.CAL_TAD then some (St.ok, (s.inc Fld.CAL_SEQ_N).wr Reg.CAL_TDA (s.shade_ (s.get Fld.CAL_TAD_I)))
  else if inRun (Reg.HLP_ST 0) 0x70 12 a then some (St.ok, s.syncHel)
  else if a = Reg.HTB_TAD then some (St.ok, s.putS Fld.HTB_TDA_V (s.tableEntry (s.get Fld.HTB_TAD_I)))
  else none

/-- Commands of the host side, the die bridge, the serial links and GPIO. -/
def Chip.postHost (s : Chip) (m : Master) (a : Nat) (old v : Word) : Option (Status × Chip) :=
  if a = Reg.CLI_OPN then
    (match m with
      | .host c => some (St.ok, s.openClient c.toNat false)
      | _ => some (St.ok, s))
  else if a = Reg.CLI_CLS then some (St.ok, s.closeClient (bitsOf v.toNat 0 8))
  else if a = Reg.CLI_SEL then some (St.ok, s.showClient)
  else if a = Reg.CLI_CRT || inRun Reg.CLI_PRL 4 6 a then some (St.ok, s.rightsWritten m old a)
  else if a = Reg.BRG_IFC then some (St.ok, s.ifcWritten old)
  else if a = Reg.DBR_TRN then some (if bitsOf v.toNat 0 1 = 1 then s.retrain else (St.ok, s))
  else if inRun (Reg.DBR_MSRC 0) 4 8 a then some (St.ok, s.wr a old)
  else if a = Reg.SYS_BES then some (St.ok, if bitsOf v.toNat 31 1 = 1 then s.put Fld.SYS_BES_CNT 0 else s)
  else if a = Reg.PSY_BES then some (St.ok, if bitsOf v.toNat 31 1 = 1 then s.put Fld.PSY_BES_CNT 0 else s)
  else if a = Reg.UA0_DATA then some (s.dataWrite 0 (BitVec.ofNat 8 v.toNat))
  else if a = Reg.UA1_DATA then some (s.dataWrite 1 (BitVec.ofNat 8 v.toNat))
  else if a = Reg.MLK_DATA then some (s.dataWrite 2 (BitVec.ofNat 8 v.toNat))
  else none

/-- Commands of the ferroelectric store and the Almanac. -/
def Chip.postStoreF (s : Chip) (m : Master) (a : Nat) (old v : Word) : Option (Status × Chip) :=
  if a = Reg.NVM_CMD then
    some (match bitsOf v.toNat 0 2 with
      | 1 => s.nvmOpen m
      | 2 => s.nvmCommit m
      | 3 => s.nvmDiscard m
      | _ => (St.badArg, s))
  else if a = Reg.NVM_TPA then some ((s.wr a old).tpaSelect m (bitsOf v.toNat Fld.NVM_TPA_P.lo Fld.NVM_TPA_P.w))
  else if a = Reg.NVM_TWI then some (s.twiWrite m, s)
  else if a = Reg.NVM_TDA then (let r := (s.wr a old).tdaAccess m (some v); some (r.1.2, r.2))
  else if a = Reg.NVS_SEL then some (St.ok, s.showNvs)
  else if a = Reg.NVS_VAL then some (St.ok, ((s.wr a old).nvsStore (s.get Fld.NVS_SEL_ID) v).showNvs)
  else if a = Reg.NVS_ADD then some (St.ok, (s.nvsAdd v).showNvs)
  else if a = Reg.NVS_DCFG then
    -- class S, judged against the value's EN (R68, R429); log entry 168: a write that clears EN is not refused for it
    some (if dirEN old && dirEN v && v ≠ old then (St.cfgIgnored, s.set (hIGN Pg.NVS))
      else (s.wr a old).dirWrite (s.get Fld.NVS_SEL_ID) v)
  else if a = Reg.NVS_SAVE then some (St.ok, if bitsOf v.toNat 0 1 = 1 then s.saveHeld else s)
  else if a = Reg.NIM_CFG then some (St.ok, s.showId)
  else if a = Reg.ALM_MDB then some (s.mailboxGo m v)
  else if a = Reg.UPD_CMD then some (s.updCmd v)
  else if a = Reg.UPD_ARM then some (s.updArm (bitsOf v.toNat Fld.UPD_ARM_EN.lo 1 = 1) (bitsOf v.toNat Fld.UPD_ARM_SLOT.lo Fld.UPD_ARM_SLOT.w))
  else none

/-- Commands of supply, retention, faults and debug. -/
def Chip.postPower (s : Chip) (a : Nat) (old v : Word) : Option (Status × Chip) :=
  let go := bitsOf v.toNat 0 1 = 1
  if a = Reg.RES_TCMD then some (St.ok, if go then s.reserveTest false else s)
  else if a = Reg.RES_CHG then some (St.ok, s.syncCharge)
  else if a = Reg.RTC_SEC then some (St.ok, (s.setRtc v.toNat).rtcAlarm)
  else if a = Reg.HRV_MPPT then some (St.ok, s.mpptWritten)
  else if a = Reg.RTC_ALRM then some (St.ok, s.alarmWritten)
  else if a = Reg.RET_REQ then some (s.retRequest (bitsOf v.toNat 0 8) old)
  else if a = Reg.PPD_REL then some (if go then s.padRelease else (St.ok, s))
  else if a = Reg.ILK_CFG then some (St.ok, s.ilkPol (bitsOf old.toNat Fld.ILK_CFG_POL.lo 2) (bitsOf v.toNat Fld.ILK_CFG_POL.lo 2))
  else if a = Reg.FUS_TCUT then some (St.ok, s.tcutCode)
  else if a = Reg.ILK_LLR then some (if go then s.lastLineRelease else (St.ok, s))
  else if a = Reg.ILK_FRC then some (St.ok, if go then s.forceLL else s)
  else if a = Reg.FLT_DONE then some (s.faultDone v.toNat)
  else if a = Reg.FLT_INJ then some (s.faultInject v)
  else if a = Reg.DBG_ULK then some (St.ok, s.debugUnlock go)
  else if a = Reg.DBG_SRST then some (St.ok, if go then { s with dbg := { s.dbg with srst := true } } else s)
  else if a = Reg.DBG_CMD then some (St.ok, if go then s.pkClear else s)
  else none

/-- The alternatives in order; a register with none only holds its value. -/
def firstPost : List (Option (Status × Chip)) → Option (Status × Chip)
  | [] => none
  | some x :: _ => some x
  | none :: l => firstPost l

/-- What a committed write then does: status and state. -/
def hookPost (m : Master) (a : Nat) (old v : Word) (s : Chip) : Status × Chip :=
  if 0x14000000 ≤ a && a < 0x14010000 then
    (if s.on Fld.ORR_STA_MEAS then (St.busy, s.setWord a old)
     else (St.ok, ({ s with orr := { s.orr with eccStage := s.orr.eccStage.filter (· != (a - 0x14000000) / 16) } }).swapDisarm))
  else match pageAt a with
    | none => (St.ok, s)
    | some p =>
      let s := if p.base = Pg.UA0 then s.portAccess m 0 else if p.base = Pg.UA1 then s.portAccess m 1
        else if p.base = Pg.MLK then s.portAccess m 2 else s
      if a = p.base + 8 then (St.ok, s.ctlWritten p.base (bitsOf old.toNat 0 1 = 1))
      else match firstPost [s.postStore m a old v, s.postEngine a v, s.postHost m a old v, s.postStoreF m a old v, s.postPower a old v] with
        | some r => r
        | none =>
          (St.ok, if p.base = Pg.MER then hookApplied Pg.MER s else s)

/-! ### What reads do -/

/-- A store word with an uncorrectable error (R332): the access returns 0x7F. -/
def Chip.ueRead (s : Chip) (a : Nat) (w : Word) : (Word × Status) × Chip :=
  if s.storeBad (a / 8 * 8) 8 then ((w, St.internal), s.countStoreUe a) else ((w, St.ok), s)

/-- What a read does besides returning a word (R182, R296, R322, R332, R381, R407, R438). -/
def hookRead (m : Master) (a : Nat) (w : Word) (s : Chip) : (Word × Status) × Chip :=
  if 0x80000000 ≤ a then s.ueRead a w
  else if 0x60000000 ≤ a then s.windowRead a
  else if 0x10000000 ≤ a && a < 0x10010000 then
    (if s.orr.ecc.contains ((a - 0x10000000) / 16) then ((w, St.internal), s) else ((w, St.ok), s))
  else if 0x14000000 ≤ a && a < 0x14010000 then
    (if s.orr.eccStage.contains ((a - 0x14000000) / 16) then ((w, St.internal), s) else ((w, St.ok), s))
  else match pageAt a with
    | none => ((w, St.ok), s)
    | some p =>
      let b := p.base
      let o := (a - b) % 0x1000
      let a := b + o
      if b = Pg.UA0 || b = Pg.UA1 || b = Pg.MLK then
        (let k := if b = Pg.UA0 then 0 else if b = Pg.UA1 then 1 else 2
         if o = 0xC then ((w, St.ok), s.staRead m k)
         else if o = (if k = 2 then 0x54 else 0x58) then (let r := s.dataRead m k; ((r.1, St.ok), r.2))
         else ((w, St.ok), s.portAccess m k))
      else if a = Reg.RNG_HPOP then s.hpop
      else if a = Reg.CAL_TDA then s.calTda none
      else if a = Reg.HTB_TDA then
        (let i := s.get Fld.HTB_TAD_I
         let t := s.put Fld.HTB_TAD_I ((i + 1) % 2048)
         ((BitVec.ofNat 32 (codeOf (s.tableEntry i) 16), St.ok), t.putS Fld.HTB_TDA_V (t.tableEntry (t.get Fld.HTB_TAD_I))))
      else if a = Reg.NVM_TDA then s.tdaAccess m none
      else if a = Reg.LOG_TAKE then (let r := s.logTake; ((BitVec.ofNat 32 r.1, St.ok), r.2))
      else if inRun (Reg.ORC_ST 0) 0x80 4 a then ((w, St.ok), s.clr (Fld.ORC_ST_LJIT ((a - Reg.ORC_ST 0) / 0x80)))
      else ((w, St.ok), s)

/-- The block-specific part of register accesses. -/
def hooks : Hooks :=
  { pre := hookPre, resv := hookResv, derive := hookDerive, valid := hookValid, applied := hookApplied, post := hookPost, onRead := hookRead,
    sOpen := hookOpen, gate := hookGate, atOnce := hookAtOnce, settle := Chip.journalIdle }

/-- A write of a master to a register, scratch or store address. -/
def Chip.store32 (s : Chip) (m : Master) (a : Nat) (v : Word) : Status × Chip := s.write32 hooks m a v

/-- A read of a master. -/
def Chip.load32 (s : Chip) (m : Master) (a : Nat) : (Word × Status) × Chip := s.read32 hooks m a

/-- A guarded pair: the value, then its twin (R63). The outcome is the twin's, or the value's where that is refused. -/
def Chip.guardedPair (s : Chip) (m : Master) (a : Nat) (v : Word) : Status × Chip :=
  let (st, t) := s.store32 m a v
  if st = St.ok then t.store32 m (a + 0x800) (~~~v) else (st, t)

end Sys2Proof.Machine
end

