-- ==== Sys2Proof/Machine/Bridge.lean ====
section
/-!
DEFINITION. The host bridge at work: packets and their checks (R356–R366), the two execution queues (R368–R372), early HALT (R373),
delivery of answers (R363), the SPI target (R350–R355) and the print stream (R374). P-die accesses of the other masters (R29–R32)
stand here too.
-/
namespace Sys2Proof.Machine

/-! ### What a packet asks for (R357, R358) -/

/-- Regions of the map and whether they take byte accesses (R37, R38, R358). -/
def blockRegions : List (Nat × Nat × Bool) :=
  [(0x00000000, 0x00008000, false), (0x10000000, 0x10010000, false), (0x14000000, 0x14010000, false), (0x20000000, 0x20040000, true),
   (0x40000000, 0x40070000, false), (0x50000000, 0x5005C000, false), (0x60000000, 0x60200000, false), (0x80000000, 0x84000000, true)]

/-- May a block of `n` bytes at `a` be accessed (R358)? -/
def blockOk (a n : Nat) : Bool :=
  blockRegions.any fun r => r.1 ≤ a && a + n ≤ r.2.1 && (r.2.2 || (a % 4 = 0 && n % 4 = 0))

/-- The KIND of the bus error that a block which breaks R358 is captured with (R41): unmapped where no region holds its address, else width
or alignment. DESIGN CHOICE (log entry 139): one capture, at the block's address. -/
def blockKind (a n : Nat) : Nat := if blockRegions.any (fun r => r.1 ≤ a && a < r.2.1 && 0 < n) then Kind.width else Kind.unmapped

/-- Bytes before the first aligned word of a block. -/
def headBytes (a n : Nat) : Nat := min n ((4 - a % 4) % 4)

/-- The accesses of a block read: 32 bits wide where both ends allow it, bytes at an unaligned head or tail. -/
def blockReads (a n : Nat) : List Access :=
  let h := headBytes a n
  (List.range h).map (fun i => Access.readByte (a + i)) ++ (List.range ((n - h) / 4)).map (fun i => Access.read (a + h + 4 * i)) ++
    (List.range ((n - h) % 4)).map (fun i => Access.readByte (a + h + (n - h) / 4 * 4 + i))

/-- Single-byte writes from address `a` on. -/
def byteWrites (a : Nat) : List Byte → List Access
  | [] => []
  | b :: bs => Access.writeByte a b :: byteWrites (a + 1) bs

/-- Word writes from address `a` on, bytes for what is left. -/
def wordWrites (a : Nat) : List Byte → List Access
  | b0 :: b1 :: b2 :: b3 :: bs => Access.write a (BitVec.ofNat 32 (ofLeBytes [b0, b1, b2, b3])) :: wordWrites (a + 4) bs
  | bs => byteWrites a bs

/-- The accesses of a block write. -/
def blockWrites (a : Nat) (bs : List Byte) : List Access :=
  let h := headBytes a bs.length
  byteWrites a (bs.take h) ++ wordWrites (a + h) (bs.drop h)

/-- Pairs of address and data. -/
def pairWrites : List Word → List Access
  | a :: v :: r => Access.write a.toNat v :: pairWrites r
  | _ => []

/-- What a packet asks for, if LEN is as its op requires (R357). A block that breaks R358 has no access. A tunnel frame behind a byte 1 that is
not 0 counts as empty (R385). -/
def parseWork (op : Nat) (bs : List Byte) : Option Work :=
  let n := bs.length
  let a := ofLeBytes (bs.take 4)
  match op with
  | 1 => if n % 4 = 0 && 1 ≤ n / 4 && n / 4 ≤ 1023 then
      some (.accesses false true ((wordsOf bs).map fun w => Access.read w.toNat)) else none
  | 2 => if n % 8 = 0 && 1 ≤ n / 8 && n / 8 ≤ 512 then some (.accesses false false (pairWrites (wordsOf bs))) else none
  | 3 => if n % 8 = 0 && 1 ≤ n / 8 && n / 8 ≤ 512 then some (.accesses false false (pairWrites (wordsOf bs))) else none
  | 4 =>
    let k := ofLeBytes ((bs.drop 4).take 2)
    if n = 6 && 1 ≤ k && k ≤ 4092 then some (if blockOk a k then .accesses true true (blockReads a k) else .badBlock true a k) else none
  | 5 => if 5 ≤ n && n ≤ 4096 then
      some (if blockOk a (n - 4) then .accesses true false (blockWrites a (bs.drop 4)) else .badBlock false a (n - 4)) else none
  | 6 => if 1 ≤ n then some (.command bs) else none
  | 7 => if 2 ≤ n then some (.tunnel (bs.headD 0#8).toNat (if (bs.drop 1).headD 0#8 = 0#8 then bs.drop 2 else [])) else none
  | 10 => if n = 32 then some (.quote bs) else none
  | _ => none

/-- The address of an access. -/
def Access.addr : Access → Nat
  | .read a => a
  | .write a _ => a
  | .readByte a => a
  | .writeByte a _ => a

/-- Does an access go over the die bridge (R371)? -/
def Access.far (x : Access) : Bool := 0x50000000 ≤ x.addr && x.addr < 0x70000000

/-- The accesses of a request. -/
def Work.accs : Work → List Access
  | .accesses _ _ l => l
  | _ => []

/-- Does an access make its packet non-posted (R368)? -/
def Access.direct (x : Access) : Bool :=
  match locate x.addr with
  | some l => l.page.np || guardedAt l.page (l.off % 0x800)
  | none => false

/-- Header flags (R356). -/
def hdrFlag (h : Hdr) (k : Nat) : Bool := bitsOf h.flags.toNat k 1 = 1

/-- Is a request non-posted (R368)? -/
def nonPosted (h : Hdr) (op : Nat) (w : Work) : Bool :=
  op = 3 || ((op = 2 || op = 5 || op = 7) && (hdrFlag h 0 || w.accs.any Access.direct))

/-- Does a request hold its client's later ones until it is answered (R370)? -/
def Req.holds (r : Req) : Bool := [1, 4, 6, 10].contains r.op || nonPosted r.hdr r.op r.work

/-! ### Accesses of a host client -/

/-- A word write of a client (R361, R362, R84): its own opening and closing need no right. -/
def Chip.hostWrite (s : Chip) (h : Hdr) (answers : Bool) (a : Nat) (v : Word) : Status × Chip :=
  let id := h.clid.toNat
  if a = Reg.CLI_OPN then
    (if bitsOf v.toNat 0 8 = id then (St.ok, s.openClient id h.spi) else s.refuse Pg.CLI (.host h.clid) St.perm)
  else if a = Reg.CLI_CLS && bitsOf v.toNat 0 8 = id then
    (St.ok, if answers then s.setClient id { s.client id with closing := some h.tag } else s.closeClient id)
  else s.store32 (.host h.clid) a v

/-- One access on the L side: status and the bytes that it answers. -/
def Chip.hostAccess (s : Chip) (h : Hdr) (answers : Bool) (x : Access) : (Status × List Byte) × Chip :=
  let word (a : Nat) : (Word × Status) × Chip := s.load32 (.host h.clid) a
  match x with
  | .read a =>
    let r := word a
    ((r.1.2, leBytes 4 (if r.1.2 = St.ok || r.1.2 = St.internal then r.1.1.toNat else 0)), r.2)
  | .readByte a =>
    let r := word (a - a % 4)
    ((r.1.2, leBytes 1 (if r.1.2 = St.ok || r.1.2 = St.internal then r.1.1.toNat / 2 ^ (8 * (a % 4)) else 0)), r.2)
  | .write a v =>
    let r := s.hostWrite h answers a v
    ((r.1, []), r.2)
  | .writeByte a b =>
    let r := s.writeBytes (.host h.clid) a [b]
    ((r.1, []), r.2)

/-! ### Requests as they run -/

/-- Note the outcome of a request's access in hand. -/
def Req.note (r : Req) (st : Status) (bs : List Byte) : Req :=
  let where_ := match r.work with
    | .accesses true _ l => (match l[r.idx]?, l.head? with
        | some x, some y => x.addr - y.addr
        | _, _ => 0)
    | _ => r.idx
  { r with
    idx := r.idx + 1, sent := max r.sent (r.idx + 1), data := r.data ++ bs
    firstBad := if st ≠ St.ok && r.firstBad.isNone then some where_ else r.firstBad
    status := if r.status = St.ok then st else r.status
    ue := r.ue || st = St.internal }

/-- The same request among those that run. -/
def Req.same (r x : Req) : Bool := x.started && x.hdr.clid == r.hdr.clid && x.hdr.tag == r.hdr.tag

/-- Keep how far a request has run. -/
def Chip.saveReq (s : Chip) (r : Req) : Chip := { s with hb := { s.hb with reqs := updFirst r.same (fun _ => r) s.hb.reqs } }

/-- A request is done with (R357, R363, R368): answered, or its credit returns. -/
def Chip.finishReq (s : Chip) (r : Req) : Chip :=
  -- the client may have been closed by the request itself
  let r := match s.hb.reqs.find? r.same with
    | some x => { r with answers := x.answers }
    | none => r
  if !r.answers then
    let s := { s with hb := { s.hb with reqs := eraseFirst r.same s.hb.reqs } }
    if (s.client r.hdr.clid.toNat).tags.contains r.hdr.tag then s.returnCredit r.hdr.clid.toNat r.hdr.tag else s
  else
    let bad := leBytes 2 (r.firstBad.getD 0xFFFF)
    let ue := if r.ue && (r.op = 1 || r.op = 4) then 0x40 else 0
    match r.work with
    | .badBlock true _ n => s.respond r.hdr St.badArg (leBytes 3 0 ++ List.replicate n 0#8)
    | .badBlock false _ _ => s.respond r.hdr St.badArg (leBytes 2 0)
    | .accesses true true _ => s.respondFlags r.hdr ue r.status (leBytes 3 0 ++ r.data)
    | .accesses false true _ => s.respondFlags r.hdr ue r.status (bad ++ r.data)
    | .accesses _ false _ => s.respond r.hdr r.status bad
    | _ => s.respond r.hdr r.status []

/-- P-die writes of the host bridge that wait (R31, R371). -/
def Chip.hostPosted (s : Chip) : Nat := s.fab.posted.countP fun w => mHost w.master

/-- What the die bridge's L-side endpoint makes of a write to the P-die: it judges guarded pairs on the arrival of the two writes (R67).
A value write arms the endpoint's latch and goes no further (`none`); its matching twin sends the pair as one transaction; any other
write to the page fails an armed sequence and goes on by itself. -/
def Chip.endpoint (s : Chip) (m : Master) (a : Nat) (v : Word) : Option PostedWrite × Chip :=
  let alone : Option PostedWrite := some { master := m, addr := a, value := v }
  match locate a with
  | none => (alone, s)
  | some l =>
    let b := l.page.base
    let o := l.off % 0x800
    let fresh (t : Chip) : Option PostedWrite × Chip :=
      if l.alias_ = 0 && l.off < 0x800 && guardedAt l.page o then
        (none, { t with guards := t.guards ++ [{ page := b, off := o, value := v, master := m, far := true }] })
      else (alone, t)
    match s.latch b true with
    | none => fresh s
    | some x =>
      if l.alias_ = 0 && 0x800 ≤ l.off && x.off = o && x.value = ~~~v && decide (x.master = m) then
        (some { master := m, addr := b + o, value := x.value, pair := true }, s.unlatch b true)
      else fresh (s.guardFail b (if 0x800 ≤ l.off then m else x.master) true)

/-- Queue a P-die write (R31); with 16 of its master queued it is the one with which the master stalls. -/
def Chip.postWrite (s : Chip) (m : Master) (a : Nat) (v : Word) : Chip :=
  match s.endpoint m a v with
  | (some w, t) => { t with fab := { t.fab with posted := t.fab.posted ++ [w] } }
  | (none, t) => t

/-- Issue the access in hand to the P-die: a read holds the queue until its data returns; writes enter the host bridge's 16-entry
queue. A guarded value write completes once the endpoint's latch is armed (R66). -/
def Chip.issueFar (s : Chip) (r : Req) (x : Access) : Option (Req × Chip) :=
  match x with
  | .write a v =>
    if 16 ≤ s.hostPosted then none
    else
      let s1 := s.postWrite (.host r.hdr.clid) a v
      if r.answers && s.fab.posted.length < s1.fab.posted.length then some ({ r with sent := r.idx + 1 }, s1)
      else some (r.note St.ok [], s1)
  | .read a => some ({ r with sent := r.idx + 1 },
      { s with fab := { s.fab with reads := s.fab.reads ++ [({ master := .host r.hdr.clid, addr := a, dst := 0 } : HeldRead)] } })
  | _ => some (r.note St.badArg [], s)

/-- Does an HPSH of this request now wait for room in its ring (R324)? -/
def Chip.pushHeld (s : Chip) (x : Access) (st : Status) : Bool :=
  match x with
  | .write a _ => a = Reg.RNG_HPSH && st = St.ok && 
    (let r := s.ring (s.get Fld.RNG_HSEL_RING)
     r.stalled.isSome || !r.held.isEmpty)
  | _ => false

/-- A request that is to be answered waits with a write that is held behind STA.ENA: its status is known when the write takes effect
(R68, R70, R85). -/
def Chip.waitHeld (s : Chip) (r : Req) (x : Access) : Chip :=
  let b := match locate x.addr with
    | some l => l.page.base
    | none => 0
  let asked := match s.held.getLast? with
    | some w => s.held.dropLast ++ [{ w with asked := true }]
    | none => []
  { s.saveReq r with hb := { (s.saveReq r).hb with heldWaits := s.hb.heldWaits ++ [(b, r)] }, held := asked }

/-- A guarded sequence of the host whose twin is not the very next access of the same packet fails (R369; DEDUCED where what lies between is a
read or a write to another page, log entry 167). `next` is the next write of the packet. -/
def Chip.lonePairs (s : Chip) (m : Master) (next : Option Nat) : Chip :=
  (s.guards.filter fun g => decide (g.master = m) && next != some (g.page + g.off + 0x800)).foldl
    (fun t g => if t.guards.contains g then t.guardFail g.page m g.far else t) s

/-- The address that an access writes a word to. -/
def Access.target : Access → Option Nat
  | .write a _ => some a
  | _ => none

/-- Run a request's accesses in order until it is done or must wait. -/
def Chip.runAccs (s : Chip) (r : Req) : Nat → Chip
  | 0 => (s.lonePairs (.host r.hdr.clid) none).finishReq r
  | fuel + 1 =>
    let l := r.work.accs
    let s := s.lonePairs (.host r.hdr.clid) ((l[r.idx]?).bind Access.target)
    match l[r.idx]? with
    | none => s.finishReq r
    | some x =>
      if x.far then
        match s.issueFar r x with
        | none => s.saveReq r
        | some (r', t) => if r'.idx = r.idx then t.saveReq r' else t.runAccs r' fuel
      else
        let ((st, bs), t) := s.hostAccess r.hdr r.answers x
        if t.pushHeld x st then
          { t.saveReq r with hb := { (t.saveReq r).hb with pushWait := some (t.get Fld.RNG_HSEL_RING, r) } }
        else if r.answers && s.held.length < t.held.length then t.waitHeld r x
        else t.runAccs (r.note st bs) fuel

/-! ### Tunnel packets (R385) -/

/-- The judgement of R385 on a host tunnel packet. -/
def Chip.tunCheck (s : Chip) (h : Hdr) (port : Nat) (f : List Byte) : Status :=
  let own := port = 2 && s.on Fld.MLK_ADDR_ROLE && (f[1]?).any (fun b => b.toNat = s.get Fld.MLK_ADDR_A) &&
    (f[2]?).any (fun b => !b.getLsbD 6)
  let len := ofLeBytes ((f.drop 5).take 2)
  if 2 < port || f.isEmpty then St.badArg
  else if s.sevenBits port && f.any (·.msb) then St.badArg
  else if port = 2 && (f.length < 7 || f.length ≠ 7 + len || len = 0 || 1024 < len || own) then St.badArg
  else if h.clid.toNat ≠ s.portClient port then St.perm
  else if !s.portOn port || s.direct port then St.state
  else St.ok

/-- Store a frame in the port's outbound ring; `none`: the ring or the store has no room yet (R324, R572). -/
def Chip.storeFrame (s : Chip) (port : Nat) (f : List Byte) : Option (Status × Chip) :=
  let n := outRing port
  let bs := leBytes 2 f.length ++ f
  let room := (s.ring n).ents.length < s.ringCap n && (s.ring n).stalled.isNone && (s.ring n).held.isEmpty && (s.hostFit false ((bs.length + 31) / 32)).isSome
  if s.get (Fld.RNG_RCFG_PRD n) ≠ RCls.code .host then some (St.perm, s)
  else if !s.ringOpen n then some (St.state, s.refusedPush n)
  else if room then some (St.ok, (s.pushData n .host bs 0 none).2)
  else none

/-- Run a tunnel packet. A controller's frame may go out at once (R392). -/
def Chip.runTunnel (s : Chip) (r : Req) (port : Nat) (f : List Byte) : Chip :=
  let st := s.tunCheck r.hdr port f
  if st ≠ St.ok then s.finishReq (r.note st [])
  else match s.storeFrame port f with
    | some (st, t) =>
      let t := if port = 2 then t.turSend else t.startTx port
      t.finishReq (r.note st [])
    | none =>
      let s := (s.bump (Fld.RNG_STAT_STL (outRing port))).set Fld.RNG_IST_STALL
      { s with hb := { s.hb with pushWait := some (outRing port, r) } }

/-! ### The queues (R370, R371) -/

/-- Begin a request. -/
def Chip.runReq (s : Chip) (r : Req) : Chip :=
  match r.work with
  | .accesses _ _ l => s.runAccs r (l.length + 1)
  | .badBlock _ a n => (s.busError (.host r.hdr.clid) a (blockKind a n)).finishReq r
  | .command bs => s.docDecode r.hdr bs
  | .tunnel p f => s.runTunnel r p f
  | .quote nonce => s.svcRun
      { rqk := 0, rqid := r.hdr.clid.toNat, auth := true, code := Svc.quote, req := nonce, aux := 0, hdr := some r.hdr }

/-- Is the P-side queue taken by a request that has begun? -/
def Chip.farBusy (s : Chip) : Bool := s.hb.reqs.any fun r => r.started && r.pside

/-- May a request begin (R370, R371)? `before` are the requests ahead of it. -/
def Chip.mayBegin (s : Chip) (before : List Req) (r : Req) : Bool :=
  let mine (x : Req) : Bool := x.hdr.clid == r.hdr.clid
  !r.started && !(before.any fun x => mine x && !x.started) && !(s.hb.reqs.any fun x => mine x && x.started && x.holds) &&
    (if r.pside then !s.farBusy else s.hb.pushWait.isNone && s.hb.heldWaits.all (fun x => x.2.pside))

/-- The first request that may begin. -/
def Chip.nextReq (s : Chip) (before : List Req) : List Req → Option Req
  | [] => none
  | r :: rs => if s.mayBegin before r then some r else s.nextReq (before ++ [r]) rs

/-- Begin requests until none may. -/
def Chip.beginReqs (s : Chip) : Nat → Chip
  | 0 => s
  | fuel + 1 =>
    match s.nextReq [] s.hb.reqs with
    | none => s
    | some r =>
      let r' := { r with started := true }
      let s := { s with hb := { s.hb with reqs := updFirst (fun x => !x.started && x.hdr.clid == r.hdr.clid && x.hdr.tag == r.hdr.tag) (fun _ => r') s.hb.reqs } }
      (s.runReq r').beginReqs fuel

/-- A request that waits with a push goes on once its entry is stored, or its ring is closed (R324, R342). -/
def Chip.resumePush (s : Chip) : Chip :=
  match s.hb.pushWait with
  | none => s
  | some (n, r) =>
    let free := { s with hb := { s.hb with pushWait := none } }
    match r.work with
    | .tunnel p f => if (s.storeFrame p f).isSome then free.runTunnel r p f else s
    | _ =>
      if !s.ringOpen n then free.runAccs (r.note St.state []) (r.work.accs.length + 1)
      else if (s.ring n).stalled.isNone && (s.ring n).held.isEmpty then free.runAccs (r.note St.ok []) (r.work.accs.length + 1)
      else s

/-- A non-posted COMMIT is answered when its group ends (R411). -/
def Chip.resumeCommit (s : Chip) : Chip :=
  if s.hb.commitWait && s.gst ≠ 2 then
    let free := { s with hb := { s.hb with commitWait := false } }
    match s.hb.reqs.find? (fun r => r.started && r.pside) with
    | some r => free.runAccs (r.note St.ok []) (r.work.accs.length + 1)
    | none => free
  else s

/-- The P-side request that waits for room in the write queue goes on. -/
def Chip.resumeFar (s : Chip) : Chip :=
  match s.hb.reqs.find? (fun r => r.started && r.pside) with
  | some r =>
    if r.idx < r.sent || s.hb.commitWait || s.hb.pushWait.isSome || s.hb.heldWaits.any (fun x => x.2.pside) || 16 ≤ s.hostPosted then s
    else s.runAccs r (r.work.accs.length + 1)
  | none => s

/-- A request whose held write has been answered goes on. -/
def Chip.wake (s : Chip) (r : Req) (st : Status) : Chip :=
  if s.hb.reqs.any r.same then s.runAccs (r.note st []) (r.work.accs.length + 1) else s

/-- The request that waits for the `i`-th of the held writes of page `b` that are to be answered learns that its write is lost (R64, R87). -/
def Chip.heldLost (s : Chip) (b i : Nat) : Chip :=
  match (s.hb.heldWaits.filter (·.1 == b))[i]? with
  | some x => ({ s with hb := { s.hb with heldWaits := eraseFirst (fun y => decide (y = x)) s.hb.heldWaits } }).wake x.2 St.guard
  | none => s

/-- Requests whose held write has taken effect go on with its status. -/
def Chip.resumeHeld (s : Chip) (b : Nat) (sts : List (HeldWrite × Status)) : Chip :=
  let mine := s.hb.heldWaits.filter (·.1 == b)
  let s := { s with hb := { s.hb with heldWaits := s.hb.heldWaits.filter (·.1 != b) } }
  -- the requests wait in the order in which their writes do
  (mine.zip ((sts.filter fun y => y.1.asked).map (·.2))).foldl (fun t x => t.wake x.1.2 x.2) s

/-- The bridge runs what can run now. -/
def Chip.pumpHost (s : Chip) : Chip :=
  if s.hb.reqs.isEmpty then s
  else
    let s := ((s.resumePush).resumeCommit).resumeFar
    s.beginReqs (s.hb.reqs.length + 1)

/-! ### Packet checks (R361–R367, R373) -/

/-- Can a packet arrive on an interface? -/
def Chip.linkUp (s : Chip) (spi : Bool) : Bool :=
  s.on Fld.BRG_CTL_EN && (if spi then s.on Fld.BRG_IFC_SPIE else s.usbSt = 4)

/-- A refusal by checks 2–4, 6 or 7: a status byte, in a queue of 64 (R366). -/
def Chip.refusePacket (s : Chip) (h : Hdr) (st : Status) : Chip :=
  let r : Rsp := { clid := h.clid, tag := h.tag, credit := false,
                   bytes := devPacket h.clid.toNat h.tag.toNat 0x09 0 h.seq.toNat [st] }
  let q := if h.spi then s.hb.refSpi else s.hb.refUsb
  if 64 ≤ q.length then s.bump Fld.BRG_PERR_ROVF
  else if h.spi then { s with hb := { s.hb with refSpi := q ++ [r] } }
  else { s with hb := { s.hb with refUsb := q ++ [r] } }

/-- Is the request a client's opening write, the only one that a CLOSED client may make (R361)? -/
def isOpn : Work → Bool
  | .accesses _ false [.write a _] => a = Reg.CLI_OPN
  | _ => false

/-- Put a request in order of arrival; a PRI request passes its client's requests that have not begun (R370). -/
def insertReq (pri : Bool) (r : Req) : List Req → List Req
  | [] => [r]
  | x :: xs => if pri && x.hdr.clid == r.hdr.clid && !x.started && !hdrFlag x.hdr 3 then r :: x :: xs else x :: insertReq pri r xs

/-- A packet that passes every check is accepted (R363, R365). -/
def Chip.acceptPacket (s : Chip) (h : Hdr) (op : Nat) (w : Work) : Chip :=
  let id := h.clid.toNat
  let s := s.takeCredit id h.tag
  let c := s.client id
  let s := if c.opened && h.seq.toNat ≠ 0 then
      s.setClient id { c with seqs := (c.seqs ++ [h.seq.toNat]).drop (c.seqs.length - 15), lastSeq := h.seq.toNat }
    else s
  let r : Req := { hdr := h, op := op, work := w, pside := w.accs.any Access.far,
                   answers := [1, 3, 4, 6, 10].contains op || nonPosted h op w || hdrFlag h 1,
                   started := false, idx := 0, sent := 0, data := [], firstBad := none, status := St.ok }
  { s with hb := { s.hb with reqs := insertReq (hdrFlag h 3) r s.hb.reqs } }

/-- HALT is recognised on receipt (R373). -/
def Chip.earlyHalt (s : Chip) (h : Hdr) (w : Work) : Chip :=
  match w with
  | .command bs => if bs = leBytes 1 Cmd.halt && s.mayW h.clid.toNat Pg.DOC then (s.event Ev.halt).haltNow else s
  | _ => s

/-- Checks 2–7 of R366 on a request whose packets have all arrived, then the queues. -/
def Chip.request (s : Chip) (h : Hdr) (op : Nat) (bs : List Byte) : Chip :=
  let id := h.clid.toNat
  let c := s.client id
  if hdrFlag h 6 || hdrFlag h 7 then s.refusePacket h St.badArg
  else match parseWork op bs with
    | none => s.refusePacket h St.badArg
    | some w =>
      if hdrFlag h 4 || hdrFlag h 5 then s.refusePacket h St.exclUnsup
      else if (!c.opened && !isOpn w) || (c.opened && c.spi != h.spi) then s.refusePacket h St.perm
      else if c.tags.contains h.tag then (s.bump Fld.BRG_PERR_TDUP).set Fld.BRG_IST_TAGDUP
      else if c.crl ≤ c.tags.length || 1024 ≤ s.creditsHeld then s.refusePacket h St.noCredit
      else
        let s := s.earlyHalt h w
        if [2, 3, 5, 6, 7].contains op && h.seq.toNat ≠ 0 && c.seqs.contains h.seq.toNat then s.refusePacket h St.already
        else (s.acceptPacket h op w).pumpHost

/-- Is a packet a continuation of the request whose first parts `x` holds (R356)? -/
def MorePart.of (x : MorePart) (h : Hdr) : Bool := x.hdr.spi == h.spi && x.hdr.clid == h.clid && x.hdr.tag == h.tag

/-- A host packet arrives: check 1 of R366; one with MORE, or a continuation, adds its payload to its request, which is checked as a whole when its last
packet is there (R356; DESIGN CHOICE, log entry 197). -/
def Chip.packet (s : Chip) (h : Hdr) (op : Nat) (bs : List Byte) : Chip :=
  if !s.linkUp h.spi then s
  else if 4096 < bs.length then (s.bump Fld.BRG_PERR_MAL).set Fld.BRG_IST_PERR
  else
    let x : MorePart := (s.hb.more.find? (·.of h)).elim { hdr := h, op := op, bytes := bs } fun x => { x with bytes := x.bytes ++ bs }
    let rest := s.hb.more.filter fun x => !x.of h
    if hdrFlag h 2 then { s with hb := { s.hb with more := rest ++ [x] } }
    else ({ s with hb := { s.hb with more := rest } }).request x.hdr x.op x.bytes

/-! ### Delivery (R363) -/

/-- An answer has been delivered: its credit returns, and a client's own closing takes effect (R362). -/
def Chip.delivered (s : Chip) (r : Rsp) : Chip :=
  let id := r.clid.toNat
  let s := if r.credit && (s.client id).tags.contains r.tag then s.returnCredit id r.tag else s
  if r.credit && (s.client id).closing = some r.tag then s.closeClient id else s

/-- RESPONSE_DELIVERED over USB: the oldest refusal or response. -/
def Chip.responseDelivered (s : Chip) (refusal : Bool) : Chip :=
  if !s.linkUp false then s
  else if refusal then { s with hb := { s.hb with refUsb := s.hb.refUsb.tail } }
  else match s.hb.rspUsb with
    | [] => s
    | r :: rs => (({ s with hb := { s.hb with rspUsb := rs } }).delivered r).pumpHost

/-! ### Accesses of the other masters over the die bridge (R29–R32) -/

/-- Can the die bridge bring no answer now: a direction is lost or the lanes are retrained? -/
def Chip.bridgeMute (s : Chip) : Bool := s.fab.retraining || s.fab.lossLP || s.fab.lossPL

/-- Does an access of a master cross the die bridge: one of an L-die master to the P-die, one of the Almanac core to the L-die? -/
def crosses (m : Master) (a : Nat) : Bool :=
  let far := 0x50000000 ≤ a && a < 0x70000000
  if m = .alm then !far && 0x10000000 ≤ a else far

/-- Must an access that crosses the bridge wait: for earlier posted writes of its master, for the end of retraining, or, of the Almanac core, for a
bridge that brings an answer (R30, R32, R570)? -/
def Chip.mustQueue (s : Chip) (m : Master) (a : Nat) : Bool :=
  crosses m a && !s.deadRegion a &&
    (if m = .alm then s.bridgeMute else s.fab.retraining || s.fab.posted.any fun w => mCode w.master == mCode m)

/-- A master writes an address: a P-die address of an L-die master enters its queue, where a full queue stalls the master and nothing is
dropped (R31). The Almanac core's access to the L-die is at once, and waits as a REG transaction while the bridge brings no answer
(R32, R570). -/
def Chip.masterWrite (s : Chip) (m : Master) (a : Nat) (v : Word) : Status × Chip :=
  if m = .alm && crosses m a && s.bridgeMute && !s.deadRegion a then
    (St.ok, { s with fab := { s.fab with posted := s.fab.posted ++ [{ master := m, addr := a, value := v }] } })
  else if crosses m a && m != .alm then (St.ok, s.postWrite m a v)
  else match m with
    | .host c => s.hostWrite { spi := (s.client c.toNat).spi, clid := c, tag := 0#8, flags := 0#8, seq := 0#16 } false a v
    | _ => s.store32 m a v

/-- An access of the debug port that was in progress ends; the outcome of one that a TAP reset has overtaken is lost with the register
(R547, R549). -/
def Chip.dbgEnds (s : Chip) (st : Status) (data : Word) : Chip :=
  if s.dbg.accSts = 1 then
    { s with dbg := { s.dbg with accData := if st = St.ok then data else st.setWidth 32, accSts := if st = St.ok then 0 else 2 } }
  else s

/-- A master that has waited for its guarded pair goes on with the pair's status: a context leaves BUSW, a refusal sets BERR (R31, R306). -/
def Chip.pairDone (s : Chip) (m : Master) (st : Status) : Chip :=
  match m with
  | .orr c =>
    let x := s.ctx c.val
    if x.pairHold then
      (s.setCtx c.val { x with pairHold := false, stopAfter := false, berr := st ≠ St.ok }).setCtxSt c.val
        (if x.stopAfter then CtxSt.stopped else CtxSt.run)
    else s
  | .debug => s.dbgEnds st 0#32
  | _ => s

/-- A context's posted write has been refused, or has got no answer: BERR in its next slot (R303, R306). -/
def Chip.postedError (s : Chip) (m : Master) (st : Status) : Chip :=
  match m with
  | .orr c => if st = St.ok then s else s.setCtx c.val { s.ctx c.val with berr := true }
  | _ => s

/-- An entry of a master's queue has drained. A context that a full queue holds in BUSW and that has been stopped meanwhile stops
(R287, R294); a debug access that a full queue has stalled is complete. -/
def Chip.roomFor (s : Chip) (m : Master) : Chip :=
  match m with
  | .debug =>
    if s.dbg.accSts = 1 && s.fab.reads.all (fun r => r.master != .debug) && !(s.fab.posted.any fun w => w.master == .debug && w.pair) then
      { s with dbg := { s.dbg with accSts := 0 } }
    else s
  | .orr c =>
    if !(s.ctx c.val).pairHold && s.ctxSt c.val = CtxSt.busw && (s.ctx c.val).stopAfter && !(s.fab.reads.any fun r => mCode r.master == mCode m) then
      (s.setCtx c.val { s.ctx c.val with stopAfter := false, memData := none, saved := none }).setCtxSt c.val CtxSt.stopped
    else s
  | _ => s

/-- Remove the oldest queued write of a master (R31). -/
def takePosted (m : Master) : List PostedWrite → Option (PostedWrite × List PostedWrite)
  | [] => none
  | w :: ws =>
    if mCode w.master = mCode m then some (w, ws)
    else (takePosted m ws).map fun r => (r.1, w :: r.2)

/-- The host request whose P-die write was last in the queue learns what became of it; a read still waits for its data (R30). `heldBy` tells
that the write now waits behind STA.ENA. -/
def Chip.hostApplied (s : Chip) (m : Master) (st : Status) (commit heldBy : Bool) : Chip :=
  if !mHost m then s
  else match s.hb.reqs.find? (fun r => r.started && r.pside) with
    | some r =>
      match r.work.accs[r.idx]? with
      | some (.write a v) =>
        if r.idx < r.sent && s.hostPosted = 0 then
          if commit && s.gst = 2 then { s with hb := { s.hb with commitWait := true } }
          else if heldBy then s.waitHeld r (.write a v)
          else s.runAccs (r.note st []) (r.work.accs.length + 1)
        else s
      | _ => s
    | none => s

/-- A transaction that has crossed the bridge is applied: a write, or a guarded pair, which commits atomically (R67). -/
def Chip.applyPosted (s : Chip) (w : PostedWrite) : Status × Chip :=
  if w.pair then s.guardedPair w.master w.addr w.value else s.store32 w.master w.addr w.value

/-- POSTED_WRITE_APPLIED: the oldest write in a master's queue is applied on the P-die (R31). While the lanes are retrained it waits (R570). -/
def Chip.postedApplied (s : Chip) (m : Master) : Chip :=
  if s.fab.retraining then s
  else match takePosted m s.fab.posted with
    | none => s
    | some (w, rest) =>
      -- a PUSH waits for the commit group that is open (R408)
      if w.addr = Reg.UPD_CMD && bitsOf w.value.toNat 0 4 = 2 && s.pushWaits then s
      else
      let n := s.held.length
      let (st, s) := ({ s with fab := { s.fab with posted := rest } }).applyPosted w
      let s := if w.pair then s.pairDone m st else s.postedError m st
      ((s.roomFor m).hostApplied m st (w.addr = Reg.NVM_CMD && st = St.ok && bitsOf w.value.toNat 0 2 = 2)
        (decide (n < s.held.length))).pumpHost

/-- The data of a read goes to its master (R29): a host request, a context in BUSW, the debug port. -/
def Chip.readDone (s : Chip) (rd : HeldRead) (w : Word) (st : Status) : Chip :=
  let s := { s with fab := { s.fab with rdata := w, rstat := st } }
  if rd.dst = 1 then s.cellsRead rd.addr rd.found else
  match rd.master with
  | .host _ =>
    (match s.hb.reqs.find? (fun r => r.started && r.pside) with
      | some r =>
        (s.runAccs (r.note st (leBytes 4 (if st = St.ok || st = St.internal then w.toNat else 0))) (r.work.accs.length + 1)).pumpHost
      | none => s)
  | .orr c =>
    let x := s.ctx c.val
    if x.stopAfter then (s.setCtx c.val { x with stopAfter := false, saved := none }).setCtxSt c.val CtxSt.stopped
    else s.setCtx c.val { x with memData := some w, berr := st ≠ St.ok }
  | .debug => s.dbgEnds st w
  | _ => s

/-- Remove the read that a master's port holds. -/
def Chip.dropRead (s : Chip) (rd : HeldRead) : Chip :=
  { s with fab := { s.fab with reads := eraseFirst (fun x => decide (x = rd)) s.fab.reads } }

/-- P_DIE_READ_RETURN: the read that a master's port holds returns, once that master's earlier writes are applied (R29, R30). While the
lanes are retrained it waits (R570). -/
def Chip.readReturn (s : Chip) (m : Master) : Chip :=
  match s.fab.reads.find? (fun r => mCode r.master == mCode m) with
  | none => s
  | some rd =>
    if s.fab.retraining || s.fab.posted.any (fun w => mCode w.master == mCode m) then s
    else
      let ((w, st), t) := (s.dropRead rd).load32 rd.master rd.addr
      t.readDone rd w st

/-- REG_TIMEOUT (R32): a master's oldest transaction has had no answer for 50 µs and ends in a bus error: a write, or a guarded pair as
one, is lost; a read, which is issued after the writes, returns 0; the host gets 0x30. The limit does not run while the lanes are
retrained (R570). -/
def Chip.regTimeout (s : Chip) (m : Master) : Chip :=
  if s.fab.retraining then s
  else match takePosted m s.fab.posted with
    | some (w, rest) =>
      let s := { s with fab := { s.fab with posted := rest } }
      let s := (s.busError w.master w.addr Kind.timeout).bump Fld.DBR_REGT_N
      let s := if w.pair then s.pairDone m St.timeout else s.postedError m St.timeout
      ((s.roomFor m).hostApplied m St.timeout false false).pumpHost
    | none =>
      match s.fab.reads.find? (fun r => mCode r.master == mCode m) with
      | some rd =>
        let s := (((s.dropRead rd).busError rd.master rd.addr Kind.timeout)).bump Fld.DBR_REGT_N
        s.readDone rd 0#32 St.timeout
      | none => s

/-! ### The print stream (R353, R374) -/

/-- Print bytes go to ring 2 in whole 32-byte units; what is short of one waits for the bytes that follow. A full ring takes nothing. -/
def Chip.printData (s : Chip) (bs : List Byte) : Chip :=
  let all := s.hb.jbuf ++ bs
  let n := min (all.length / 32) 1023 * 32
  let ring := s.get Fld.MRK_RING_PR
  if n = 0 then { s with hb := { s.hb with jbuf := all } }
  else if (s.ring ring).stalled.isSome || !(s.ring ring).held.isEmpty || s.ringCap ring ≤ (s.ring ring).ents.length || (s.hostFit false (n / 32)).isNone then
    (s.bump (Fld.RNG_STAT_STL ring)).set Fld.RNG_IST_STALL
  else
    match s.pushData ring .host (all.take n) 0 none with
    | (.stored, t) => { t with hb := { t.hb with jbuf := all.drop n } }
    | (_, t) => t

/-- EP5_PRINT_DATA: a transaction of print data over USB; NAK has no effect (R374, R375). -/
def Chip.ep5Data (s : Chip) (bs : List Byte) : Chip :=
  if s.linkUp false && !s.on Fld.BRG_IFC_PRTIF && bs.length ≤ 512 then s.printData bs else s

/-! ### The SPI target (R350–R355) -/

/-- May an entry of ring `n` leave over an interface: of the image rings where IMGIF says so, another where its client is (R374, R375)? -/
def Chip.leaves (s : Chip) (spi : Bool) (n : Nat) (e : Entry) : Bool :=
  if n < 2 then s.on Fld.BRG_IFC_IMGIF == spi
  else (s.client (s.entryClient e)).opened && (s.client (s.entryClient e)).spi == spi

/-- Is it an image ring's turn: records are taken from each in turn when both hold entries (R374)? -/
def Chip.imgTurn (s : Chip) (n : Nat) : Bool := 2 ≤ n || (s.ring (1 - n)).ents.isEmpty || s.hb.turn = n

/-- May a ring's head leave over an interface? -/
def Chip.streamHead (s : Chip) (spi : Bool) (n : Nat) : Bool := ((s.ring n).ents.head?).any (s.leaves spi n) && s.imgTurn n

/-- An image record has been taken: the other ring is next (R374). -/
def Chip.turned (s : Chip) (n : Nat) : Chip := if n < 2 then { s with hb := { s.hb with turn := 1 - n } } else s

/-- EVT packets addressed to clients that are closed are discarded (R359). -/
def Chip.dropClosed (s : Chip) : Chip := s.dropEvents fun id => !(s.client id).opened

/-- Mark data with an uncorrectable store error (R360): flag ERR of a packet, bit 7 of a record's KIND. -/
def markBad (n : Nat) (bs : List Byte) : List Byte :=
  match n with
  | 0 => bs.set 0 (bs.headD 0#8 ||| 0x80#8)
  | 1 => bs.set 0 (bs.headD 0#8 ||| 0x80#8)
  | _ => bs.set 3 ((bs.drop 3).headD 0#8 ||| 0x40#8)

/-- The bytes that an entry of ring `n` sends: the whole of a record, the packet of others, which lies in whole 32-byte units, as long as its header
says; marked where the store has lost some of it (R332, R360). -/
def Chip.streamBytes (s : Chip) (n : Nat) (e : Entry) : List Byte :=
  let raw := s.entryBytes e
  let bs := if n < 2 then raw else raw.take (8 + ofLeBytes ((raw.drop 4).take 2))
  if s.storeBad (store + 32 * e.ofs) (32 * e.rlen) then markBad n bs else bs

/-- Take the head of ring `n` for a stream: the entry, its bytes, and the state after, in which lost data has been counted. -/
def Chip.takeHead (s : Chip) (n : Nat) : Option (Entry × List Byte × Chip) :=
  match s.popRing n .host with
  | (.entry e, t) => some (e, t.streamBytes n e, (t.drainErrors (store + 32 * e.ofs) (32 * e.rlen)).turned n)
  | _ => none

/-- Take the head of ring `n` to send over SPI, as an answer that returns no credit. -/
def Chip.takeSpi (s : Chip) (n : Nat) : Option (Rsp × Chip) :=
  (s.takeHead n).map fun x =>
    ({ clid := BitVec.ofNat 8 (s.entryClient x.1), tag := 0#8, bytes := x.2.1, credit := false, ring := some n, val := x.1.val }, x.2.2)

/-- The rings that channel 2 drains (R374). -/
def channel2Rings : List Nat := [5, 7, 9, 11]

/-- The next thing to send on a channel, with the state after taking it. -/
def Chip.nextSpi (s : Chip) (ch : Nat) : Option (Rsp × Chip) :=
  match ch with
  | 2 =>
    (match s.hb.refSpi, s.hb.rspSpi with
      | r :: rs, _ => some (r, { s with hb := { s.hb with refSpi := rs } })
      | [], r :: rs => some (r, { s with hb := { s.hb with rspSpi := rs } })
      | [], [] => (channel2Rings.find? (s.streamHead true)).bind s.takeSpi)
  | 3 => ([0, 1].find? (s.streamHead true)).bind s.takeSpi
  | _ => if s.streamHead true 6 then s.takeSpi 6 else none

/-- RING_POP: a consumer pops a ring. The host drains the streams over USB: while the interface is configured and the stream or the packet's client is
bound to it, and the image rings in turn (R374, R375). -/
def Chip.drain (s : Chip) (n : Nat) (c : RCls) : Chip :=
  if c = .host && (0 :: 1 :: packetRings).contains n && s.ringOpen n && s.get (Fld.RNG_RCFG_CNS n) = RCls.code .host then
    let s := if n = 6 then s.dropClosed else s
    if !s.linkUp false || !s.streamHead false n then s
    else match s.takeHead n with
      | some (_, bs, t) => ({ t with hb := { t.hb with usbOut := bs } }).afterConsume
      | none => s.ringPop n c
  else s.ringPop n c

/-- Queue, consumed and read counts of a channel. -/
def Chip.spiQ (s : Chip) (ch : Nat) : List Rsp × Nat × Nat :=
  match ch with
  | 2 => (s.hb.q2, s.hb.sent2, s.hb.part2)
  | 3 => (s.hb.q3, s.hb.sent3, s.hb.part3)
  | _ => (s.hb.q4, s.hb.sent4, s.hb.part4)

/-- Set them. -/
def Chip.setSpiQ (s : Chip) (ch : Nat) (q : List Rsp) (sent part : Nat) : Chip :=
  match ch with
  | 2 => { s with hb := { s.hb with q2 := q, sent2 := sent, part2 := part } }
  | 3 => { s with hb := { s.hb with q3 := q, sent3 := sent, part3 := part } }
  | _ => { s with hb := { s.hb with q4 := q, sent4 := sent, part4 := part } }

/-- Bytes of a channel's queue. -/
def rspBytes (q : List Rsp) : List Byte := q.flatMap (·.bytes)

/-- Take more to send until `need` bytes are queued on a channel. -/
def Chip.fillSpi (s : Chip) (ch need : Nat) : Nat → Chip
  | 0 => s
  | fuel + 1 =>
    let (q, sent, part) := s.spiQ ch
    if need ≤ (rspBytes q).length then s
    else match s.nextSpi ch with
      | some (r, t) => (t.setSpiQ ch (q ++ [r]) sent part).fillSpi ch need fuel
      | none => s

/-- `n` more bytes of a channel are consumed (R354): what has been sent whole is delivered or complete. -/
def Chip.consumeSpi (s : Chip) (ch n : Nat) : Nat → Chip
  | 0 => s
  | fuel + 1 =>
    let (q, sent, part) := s.spiQ ch
    match q with
    | [] => s.setSpiQ ch [] 0 0
    | r :: rs =>
      if r.bytes.length ≤ sent + n then
        let k := r.bytes.length - sent
        let t := s.setSpiQ ch rs 0 (part - k)
        let t := match r.ring with
          | some m => (t.completeIf m fun e => e.val == r.val).afterConsume
          | none => t.delivered r
        t.consumeSpi ch (n - k) fuel
      else s.setSpiQ ch q (sent + n) (part - n)

/-- Bytes ready on a channel: what is queued and not yet read, and what waits behind it: of a ring, the entries up to the first that does not leave
over SPI. -/
def Chip.spiReady (s : Chip) (ch : Nat) : Nat :=
  let (q, sent, part) := s.spiQ ch
  let ringBytes (n : Nat) : Nat := ((s.ring n).ents.takeWhile (s.leaves true n)).foldl (fun k e =>
    k + if n < 2 then 32 * e.rlen else 8 + s.num (store + 32 * e.ofs + 4) 2) 0
  let waiting := match ch with
    | 2 => (rspBytes (s.hb.refSpi ++ s.hb.rspSpi)).length + channel2Rings.foldl (fun k n => k + ringBytes n) 0
    | 3 => ringBytes 0 + ringBytes 1
    | _ => ringBytes 6
  (rspBytes q).length - sent - part + waiting

/-- The largest block, in bytes, that the lower half of the HOST region has free. -/
def Chip.hostRoom (s : Chip) : Nat :=
  let (lo, hi) := s.hostHalf false
  let bs := s.blocks
  let starts := lo :: (bs.map fun b => b.1 + b.2)
  let inside (p : Nat) : Bool := bs.any fun b => b.1 ≤ p && p < b.1 + b.2
  let gap (p : Nat) : Nat := if p < lo || hi ≤ p || inside p then 0 else
    (bs.foldl (fun e b => if p < b.1 && b.1 < e then b.1 else e) hi) - p
  32 * starts.foldl (fun m p => max m (gap p)) 0

/-- Bytes free on channels 1 and 5. -/
def Chip.spiFree (s : Chip) (ch : Nat) : Nat :=
  if ch = 5 && !s.on Fld.BRG_IFC_PRTIF then 0
  else if ch = 5 && s.ringCap (s.get Fld.MRK_RING_PR) ≤ (s.ring (s.get Fld.MRK_RING_PR)).ents.length then 0
  else s.hostRoom

/-- Causes of HIRQ (R352): channels 2–4 with bytes ready, and the BRG interrupt. -/
def Chip.spiCauses (s : Chip) : Nat :=
  let irq := s.on Fld.BRG_SCFG_HIEN && (s.rd Reg.BRG_IST &&& s.rd Reg.BRG_IEN) != 0#32
  maskOf 4 fun k => if k = 3 then irq else 0 < s.spiReady (k + 2)

/-- Is HIRQ asserted (R355)? HMSK masks the channel causes; HIEN has admitted the BRG interrupt. -/
def Chip.hirq (s : Chip) : Bool := (s.spiCauses &&& (s.get Fld.BRG_SCFG_HMSK ||| 8)) != 0

/-- The level of ball HIRQ: active high where HPOL is 1, else active low (R355). -/
def Chip.hirqLevel (s : Chip) : Bool := s.hirq == s.on Fld.BRG_SCFG_HPOL

/-- CRC of R351 over every byte after the instruction, when it is on. -/
def Chip.spiCrc (s : Chip) (bs : List Byte) : List Byte := if s.on Fld.BRG_SCFG_CRC then leBytes 2 (crc16 bs).toNat else []

/-- The target returns bytes. -/
def Chip.spiSend (s : Chip) (bs : List Byte) : Chip := { s with hb := { s.hb with spiOut := bs } }

/-- Is the SPI target at work? -/
def Chip.spiOn (s : Chip) : Bool := s.linkUp true

/-- An SPI instruction: with a reserved lane or function code the target ignores the transaction and sets SPIFR (R351). -/
def Chip.spiInstr (s : Chip) (h : SpiHead) (f : Chip → Chip) : Chip :=
  if !s.spiOn then s else if h.lanes = 3 || !h.known then s.set Fld.BRG_IST_SPIFR else f s

/-- The STAT block (R352). -/
def Chip.spiStatBlock (s : Chip) : List Byte :=
  let ch (n : Nat) : List Byte := leBytes 2 (min 65535 n)
  ch (s.spiReady 2) ++ ch (s.spiReady 3) ++ ch (s.spiReady 4) ++ ch (s.spiFree 1) ++ ch (s.spiFree 5) ++ leBytes 1 s.spiCauses ++
    leBytes 1 (bitsOf (s.rd Reg.BRG_IST).toNat Fld.BRG_IST_SPIFR.lo 1 + 2 * bitsOf (s.rd Reg.BRG_IST).toNat Fld.BRG_IST_SCRC.lo 1 +
      4 * bitsOf (s.rd Reg.BRG_IST).toNat Fld.BRG_IST_SOVR.lo 1) ++ leBytes 4 0

/-- SPI_STAT (R351, R352). -/
def Chip.spiStat (s : Chip) : Chip :=
  if s.spiOn then s.spiSend (s.spiStatBlock ++ s.spiCrc s.spiStatBlock) else s

/-- The packets in the bytes of a WRITE: each as CLID, TAG, OP, FLAGS, SEQ and payload; with a LEN above 4,096 the rest is lost (R366).
A trailing fragment sets SPIFR (R353). -/
def Chip.spiPackets (s : Chip) (bs : List Byte) : Nat → Chip
  | 0 => s
  | fuel + 1 =>
    if bs.isEmpty then s
    else if bs.length < 8 then s.set Fld.BRG_IST_SPIFR
    else
      let b (k : Nat) : Byte := (bs.drop k).headD 0#8
      let len := ofLeBytes ((bs.drop 4).take 2)
      let h : Hdr := { spi := true, clid := b 0, tag := b 1, flags := b 3, seq := BitVec.ofNat 16 (ofLeBytes ((bs.drop 6).take 2)) }
      if 4096 < len then (s.bump Fld.BRG_PERR_MAL).set Fld.BRG_IST_PERR
      else if bs.length < 8 + len then s.set Fld.BRG_IST_SPIFR
      else (s.packet h (b 2).toNat ((bs.drop 8).take len)).spiPackets (bs.drop (8 + len)) fuel

/-- SPI_WRITE on a channel (R351, R353); `crcOk` tells whether the CRC checked. -/
def Chip.spiWrite (s : Chip) (ch : Nat) (bs : List Byte) (crcOk : Bool) : Chip :=
  if !s.spiOn then s
  else if (ch ≠ 1 && ch ≠ 5) || bs.length = 0 || 8192 < bs.length then s.set Fld.BRG_IST_SPIFR
  else if s.on Fld.BRG_SCFG_CRC && !crcOk then s.set Fld.BRG_IST_SCRC
  else
    let free := s.spiFree ch
    let kept := bs.take free
    let s' := if free < bs.length then s.set Fld.BRG_IST_SOVR else s
    if ch = 5 then s'.printData kept
    else if free < bs.length then
      -- the packet with the first byte lost, and every later one, is discarded
      let t := s'.spiPackets kept (kept.length + 1)
      if s.on Fld.BRG_IST_SPIFR then t else t.clr Fld.BRG_IST_SPIFR
    else s'.spiPackets kept (kept.length + 1)

/-- SPI_READ of at most `m` bytes of a channel (R351, R354). `got` counts the data bytes shifted out when CS rose, none where it rose after
everything. -/
def Chip.spiRead (s : Chip) (ch m : Nat) (got : Option Nat) : Chip :=
  if !s.spiOn then s
  else if ch < 2 || 4 < ch || m = 0 || 8192 < m then s.set Fld.BRG_IST_SPIFR
  else
    let s := if ch = 4 then s.dropClosed else s
    let (_, sent, part) := s.spiQ ch
    let s := s.fillSpi ch (sent + part + m) (m + 1)
    let out := ((rspBytes (s.spiQ ch).1).drop (sent + part)).take m
    let n := min (got.getD out.length) out.length
    let body := leBytes 2 out.length ++ out
    let s := s.spiSend (if got.isNone then body ++ s.spiCrc (leBytes 1 ch ++ leBytes 2 m ++ body) else body.take (2 + n))
    let (q, sent, part) := s.spiQ ch
    if s.on Fld.BRG_SCFG_ACKM then s.setSpiQ ch q sent (part + n)
    else if s.on Fld.BRG_SCFG_CRC && got.isSome then s
    else (s.consumeSpi ch n (q.length + 1)).pumpHost

/-- SPI_ACK (R354). -/
def Chip.spiAck (s : Chip) (ch n : Nat) : Chip :=
  if !s.spiOn then s
  else if ch < 2 || 4 < ch then s.set Fld.BRG_IST_SPIFR
  else if !s.on Fld.BRG_SCFG_ACKM then s
  else
    let (q, _, part) := s.spiQ ch
    (s.consumeSpi ch (min n part) (q.length + 1)).pumpHost

/-- SPI_RESET (R355): ring data taken to send returns to its rings, and a refusal waits again; then every client bound to SPI closes. -/
def Chip.spiReset (s : Chip) : Chip :=
  if !s.spiOn then s
  else
    let s := (0 :: 1 :: packetRings).foldl (fun t n => t.unpop n fun e => s.spiHolds n e) s
    let s := { s with hb := { s.hb with
      refSpi := s.hb.q2.filter Rsp.refusal ++ s.hb.refSpi
      q2 := [], q3 := [], q4 := [], sent2 := 0, sent3 := 0, sent4 := 0, part2 := 0, part3 := 0, part4 := 0 } }
    s.spiClose

/-- SPI_CS_TIMEOUT (R497). -/
def Chip.spiTimeout (s : Chip) : Chip := if s.spiOn then s.set Fld.BRG_IST_SPIFR else s

/-! ### Ring commands whose producers wait -/

/-- RING_PUSH_TIMEOUT (R324): the oldest host push on ring `n` is given up, and its writer gets 0x30. -/
def Chip.pushExpired (s : Chip) (n : Nat) : Chip :=
  let (who, t) := s.pushTimeout n
  match s.hb.pushWait with
  | some (k, r) =>
    (match r.work with
      | .tunnel _ _ => t.answerPush who St.timeout
      | _ => if k = n && who == some (.host r.hdr.clid) then
          (({ t with hb := { t.hb with pushWait := none } }).runAccs (r.note St.timeout []) (r.work.accs.length + 1)).pumpHost
        else t.answerPush who St.timeout)
  | none => t.answerPush who St.timeout

/-- What waits for room or for a group may go on: producers of rings, host requests, services, ports (R324, R384, R408). -/
def Chip.settle (s : Chip) : Chip :=
  let s := s.svcRetry.retryAllHeld
  let s := [0, 1, 2].foldl (fun t p => if !(t.port p).wait.isEmpty || !(t.port p).rx.isEmpty then t.drainPort hooks p 64 else t) s
  (((s.startTx 0).startTx 1).turSend).pumpHost

end Sys2Proof.Machine
end

