-- ==== Sys2Proof/Machine/Pages.lean ====
section
/-!
DEFINITION. Events of a register page that no write makes by itself: the end of a guard window (R64), a block that stops and the writes
held behind it (R58, R68, R79, R87), and the list of pages by their place in R52 and R53.
-/
namespace Sys2Proof.Machine

/-- Base of the page that stands at place `i` of R52 (0–27) and R53 (28–50). -/
def pageBase (i : PageSel) : Nat := if i.val < 28 then 0x40000000 + 0x4000 * i.val else 0x50000000 + 0x4000 * (i.val - 28)

/-- Is a held write the value write of a guarded pair whose twin has not arrived behind it? -/
def Chip.loneHeld (s : Chip) (w : HeldWrite) : Bool :=
  !w.judged && (match locate w.addr with
    | some l => l.alias_ = 0 && l.off < 0x800 && guardedAt l.page l.off
    | none => false) && !(s.held.any fun x => x.addr == w.addr + 0x800 && x.value == ~~~w.value && x.master == w.master)

/-- The held value write of page `b` whose twin has not come. -/
def Chip.loneOn (s : Chip) (b : Nat) : Option HeldWrite :=
  if s.guards.any (·.page == b) then none else s.held.find? fun w => w.page == b && s.loneHeld w

/-- GUARD_WINDOW_EXPIRY (R64): 640 ns have passed without the twin; the latch's own master is named in ERC. On a P-die page the latch may be
the L-side endpoint's (R67). The time that a value write waits behind a held write counts (R87): one still waiting for its twin is lost. -/
def Chip.guardExpiry (s : Chip) (b : Nat) : Chip :=
  match s.guards.find? (·.page == b) with
  | some x => s.guardFail b x.master x.far
  | none =>
    match s.loneOn b with
    | some w => { s with held := eraseFirst (fun x => decide (x = w)) s.held }.guardFail b w.master
    | none => s

/-- Has the block of a page with CTL.EN = 0 come to rest? The Orrery's contexts stop at the end of their slots (R294), Meridian after the
sweeps in progress (R573). -/
def Chip.atRest (s : Chip) (b : Nat) : Bool :=
  if b = Pg.ORR then s.get Fld.ORR_STA_RUNC = 0 else if b = Pg.MER then s.noSweep else true

/-- BLOCK_STOPPED: STA.ENA falls after CTL.EN has been cleared, once the block has stopped (R58). -/
def Chip.blockStopped (s : Chip) (b : Nat) : Chip :=
  if b = Pg.MER then s.merHalt
  else if !s.on (hEN b) && s.on (hENA b) && s.atRest b then s.clr (hENA b)
  else s

/-- One write that has waited takes effect: the class-S write itself has been judged up to check 5, the others are judged now (R84). -/
def Chip.heldOne (s : Chip) (w : HeldWrite) : Status × Chip :=
  match locate w.addr with
  | some l => if w.judged then s.commit hooks w.master l.page l.off l.alias_ w.value else s.writeReg hooks w.master l w.value
  | none => (St.ok, s)

/-- The page whose ENA holds the writes of page `b` (R68, R296). -/
def gateOf (b : Nat) : Nat := (hookGate b).getD b

/-- HELD_WRITE_APPLY (R68, R87): once ENA has fallen the writes that waited take effect in order of arrival. Answers each with its status. -/
def Chip.heldApplied (s : Chip) (b : Nat) : List (HeldWrite × Status) × Chip :=
  if s.on (hENA (gateOf b)) then ([], s)
  else (s.held.filter (·.page == b)).foldl (fun (r : List (HeldWrite × Status) × Chip) w =>
    let (st, t) := r.2.heldOne w
    (r.1 ++ [(w, st)], t)) ([], { s with held := s.held.filter (·.page != b) })

/-- The state after them. -/
def Chip.heldApply (s : Chip) (b : Nat) : Chip := (s.heldApplied b).2

/-- A block is stopped at once by a writer that then waits for ENA to fall (R535, R541). -/
def Chip.stopPage (s : Chip) (m : Master) (b : Nat) : Chip :=
  let s := (s.store32 m (b + 8) ((s.rd (b + 8)) &&& ~~~1#32)).2
  (s.blockStopped b).heldApply b

end Sys2Proof.Machine
end

