-- ==== Sys2Proof/Machine/Retention.lean ====
section
/-!
DEFINITION. Retention levels (R471–R485): entries, the save image and its restore, wakes, and the AON domain going off and coming up
(R465, R466, R477, R478).
-/
namespace Sys2Proof.Machine

/-! ### The save list (R481, R482) -/

/-- Block registers of the save list by page, in the order of R481; CLI's words are saved for clients 0–63. -/
def saveList : List (Nat × List Nat) :=
  let words (lo n : Nat) : List Nat := (List.range n).map fun i => lo + 4 * i
  let uart (b : Nat) : Nat × List Nat := (b, words 0x40 6)
  let slot (n : Nat) : List Nat := [Reg.HLP_CFG n - Pg.HLP, Reg.HLP_TABC n - Pg.HLP, Reg.HLP_TSCL n - Pg.HLP]
  [(Pg.CLK, words 0x40 16), (Pg.PAD, words 0x40 40), (Pg.SYS, []), (Pg.GPI, words 0x40 37),
   (Pg.DBR, (Reg.DBR_MCFG - Pg.DBR) :: (List.range 8).map fun i => Reg.DBR_MSRC (8 + i) - Pg.DBR),
   (Pg.BRG, [Reg.BRG_IFC, Reg.BRG_UVID, Reg.BRG_UREL, Reg.BRG_SCFG].map (· - Pg.BRG)), (Pg.CLI, []), uart Pg.UA0, uart Pg.UA1,
   (Pg.SYN, [Reg.SYN_CFG, Reg.SYN_PER, Reg.SYN_TIM, Reg.SYN_USRO].map (· - Pg.SYN)), (Pg.HEL, []),
   (Pg.HLP, (List.range 12).flatMap slot)]

/-- Offset of IEN in a page (R58). -/
def ienOfs : Nat := 0x14

/-- The words of a client's rights, as CLI would show them: CRT, PRL, PWL, PXL, PRP, PWP, PXP. -/
def Chip.rightsWords (s : Chip) (id : Nat) : List Word :=
  let t := (s.put Fld.CLI_SEL_ID id).showClient
  [t.rd Reg.CLI_CRT, t.rd Reg.CLI_PRL, t.rd Reg.CLI_PWL, t.rd Reg.CLI_PXL, t.rd Reg.CLI_PRP, t.rd Reg.CLI_PWP, t.rd Reg.CLI_PXP]

/-- The registers of a page that the save list holds, with their words. -/
def Chip.savedWords (s : Chip) (p : Nat × List Nat) : List (Nat × Word) :=
  (8 :: ienOfs :: p.2).map fun o => (p.1 + o, s.rd (p.1 + o))

/-- The save image (R476, R481): 630 registers with a CRC-16. -/
def Chip.saveImage (s : Chip) : Chip :=
  let img := saveList.flatMap s.savedWords
  let rights := (List.range 64).map fun id => (id, s.client id)
  let cli := (List.range 64).flatMap fun id => s.rightsWords id
  let bytes := (saveList.flatMap fun p => (s.savedWords p).map (·.2) ++ (if p.1 = Pg.CLI then cli else [])).flatMap fun w => leBytes 4 w.toNat
  let s := { s with ret := { s.ret with image := some img, rights := rights } }
  ((s.put Fld.RET_SAV_N (img.length + cli.length)).put Fld.RET_SAV_CRC (crc16 bytes).toNat).set Fld.RET_STA_IMGV

/-- A write of the restore engine, as the Almanac core; a guarded register by its pair (R482). -/
def Chip.restoreWord (s : Chip) (b o : Nat) (v : Word) : Chip :=
  match locate (b + o) with
  | some l => if guardedAt l.page o then (s.guardedPair .alm (b + o) v).2 else (s.store32 .alm (b + o) v).2
  | none => s

/-- One page of the restore (R482): CTL with EN = 0, block registers in ascending offset, IEN, CTL as saved. -/
def Chip.restorePage (s : Chip) (img : List (Nat × Word)) (p : Nat × List Nat) : Chip :=
  let v (o : Nat) : Word := ((img.find? (·.1 == p.1 + o)).map (·.2)).getD 0#32
  let s := ((s.restoreWord p.1 8 (v 8 &&& ~~~1#32)).blockStopped p.1).heldApply p.1
  let s := if p.1 = Pg.CLI then
      s.ret.rights.foldl (fun t c => t.setClient c.1 { t.client c.1 with
        evs := c.2.evs, o := c.2.o, g := c.2.g, crl := c.2.crl, prl := c.2.prl, prp := c.2.prp, pwl := c.2.pwl, pwp := c.2.pwp, pxl := c.2.pxl,
        pxp := c.2.pxp }) s
    else s
  let s := p.2.foldl (fun t o => t.restoreWord p.1 o (v o)) s
  (s.restoreWord p.1 ienOfs (v ienOfs)).restoreWord p.1 8 (v 8)

/-- The restore after stage LOAD of a wake from HIBERNATE (R47, R482, R483): RSTD, or RSTF with a WARN record, whose code the manual does
not name, when the image is invalid. With AREL Almanac firmware then releases the pads. -/
def Chip.restore (s : Chip) : Chip :=
  let s := match (if s.on Fld.RET_STA_IMGV then s.ret.image else none) with
    | some img =>
      let t := saveList.foldl (fun (u : Chip) p => u.restorePage img p) s
      (((t.put Fld.CLI_SEL_ID 0).showClient).set Fld.RET_STA_RSTD)
    | none =>
      (((s.set Fld.RET_IST_RSTF).drawn).stageLog { kind := 1, cls := FC.warn, code := s.freeWord.toNat % 65536 }).2
  let s := { s with ret := { s.ret with waking := false, image := none, rights := [] } }
  let s := s.clr Fld.RET_STA_IMGV
  if s.on Fld.RET_CFG_AREL then s.padRelease.2 else s

/-! ### Levels (R472) -/

/-- RET.LVL takes a new level. -/
def Chip.toLevel (s : Chip) (l : Nat) : Chip := (s.put Fld.RET_LVL_PREV (s.get Fld.RET_LVL_CUR)).put Fld.RET_LVL_CUR l

/-- The conditions of R473 for IDLE. -/
def Chip.idleReady (s : Chip) : Bool :=
  s.on Fld.RET_CFG_AIDL && s.fab.lco && s.get Fld.RET_LVL_CUR == 1 && (s.engine == Eng.off || s.engine == Eng.fault) &&
    ([0, 1, 2, 3].all fun c => s.ctxSt c == CtxSt.sleep || s.ctxSt c == CtxSt.stopped) &&
    ((List.range 12).all fun n => s.get (Fld.HLP_ST_MODE n) == 0) && (s.cst.rings.all fun r => r.2.stalled.isNone && r.2.held.isEmpty) && s.hb.reqs.isEmpty

/-- IDLE_ENTRY: IDLE changes no register and no state but the level (R473). -/
def Chip.idleEntry (s : Chip) : Chip := if s.idleReady then s.toLevel 2 else s

/-- IDLE_EXIT. -/
def Chip.idleExit (s : Chip) : Chip := if s.get Fld.RET_LVL_CUR = 2 then s.toLevel 1 else s

/-- Does an accepted request wait for its entry? -/
def Chip.entryDue (s : Chip) (l : Nat) : Bool := s.ret.req == some l && s.fab.lco && !s.pow.pfail

/-- STANDBY_ENTRY (R475): sideband lines low, RT frames stopped and the loss rule suspended, self-refresh, PLL stopped. -/
def Chip.standbyEntry (s : Chip) : Chip :=
  if s.entryDue 4 then
    let s := s.sidebands false false false false
    let s := { s with fab := { s.fab with standby := true, downFlight := none, upFlight := none }
                      cst := { s.cst with selfRefresh := true }, ret := { s.ret with req := none } }
    (s.clr Fld.CLK_STA_LOCK).toLevel 4
  else s

/-- What HIBERNATE and SHIP do first (R476, R89): clients close, USB detaches, an L-die master's group is dealt with, armed latches fail,
shadows are discarded. -/
def Chip.closeDown (s : Chip) : Chip :=
  let s := ((s.closeAll).usbDetach).dropLGroup
  let s := s.guards.foldl (fun t g => t.guardFail g.page g.master g.far) s
  let pages := s.shadePages
  pages.foldl (fun t b => t.syncShadow b) { s with shadows := [], ret := { s.ret with req := none } }

/-- L-die pads are latched (R483). -/
def Chip.latchPads (s : Chip) : Chip := ((s.set Fld.RET_STA_PLAT).set Fld.PPD_STA_LAT).clr Fld.RET_STA_RSTD

/-- HIBERNATE_ENTRY (R476). -/
def Chip.hibernateEntry (s : Chip) : Chip :=
  if s.entryDue 8 then
    let s := ((s.closeDown).saveImage).latchPads
    (((s.lDieOff).clr Fld.PWR_STA_VIOG).clr Fld.PWR_STA_VCOREG).toLevel 8
  else s

/-! ### The AON domain goes off (R466, R477) -/

/-- What outlives the AON domain: the F-die's array with its POISON words, spare lines and remap pointers, the OTP bit, VBUS, and the sink that
discharges RES after a safe stop, which RES itself powers (R133). -/
def Chip.aonOff (s : Chip) : Chip :=
  { Chip.reset with
    regs := s.regs.filter fun r => decide (Reg.NVM_SLB 0 ≤ r.1) && decide (r.1 < Reg.NVM_SLB 8)
    mem := s.mem.filter fun c => decide (fDie ≤ c.1) && decide (c.1 < fDie + 0x200000)
    free := s.free
    fab := { Fabric.reset with pst := false, aon := false, fnv := false }
    hb := { HostBridge.reset with vbus := s.hb.vbus }
    fst := { FStore.reset with poison := s.fst.poison, remap := s.fst.remap, broken := s.fst.broken }
    dbg := { Debug.reset with disabled := s.dbg.disabled }
    pow := { Power.reset with resBleed := s.pow.resBleed || s.pow.safeStop }
    ret := { Retention.reset with vin := false } }

/-- SHIP_ENTRY (R477): the volatile-held values, the staged records and one event record that names the entry, whose code and data the
manual does not give; RTC.SEC into NVS value 12; then everything is off. -/
def Chip.shipEntry (s : Chip) : Chip :=
  if s.entryDue 0x20 then
    let s := ((s.closeDown).latchPads).lDieOff
    let s := (s.saveHeld.drawn).drawn
    let s := (s.logEvent (s.freeWord.toNat % 65536) (leBytes 4 s.freeWord.toNat ++ leBytes 4 s.freeWord.toNat)).drawn
    let s := (s.logCommit).nvsStore 12 (s.rd Reg.RTC_SEC)
    let t := s.aonOff
    { t with ret := { t.ret with ship := true } }
  else s

/-- AON_SHUTDOWN (R414, R466, R485): the supply in force has fallen below VAMIN; a commit in progress is torn after `k` word writes. -/
def Chip.aonShutdown (s : Chip) (k : Nat) : Chip :=
  if s.fab.aon && !s.ret.vin then
    let t := (s.tearCommit k).aonOff
    { t with ret := { t.ret with brown := true } }
  else s

/-! ### The AON domain comes up (R465, R478, R530 cause 0x01) -/

/-- A POR of the AON domain from supply `sup` (0 VSYS, 1 VSTO, 2 VBAT): F-die recovery and slot-ring scan (R415, R423), the RTC from NVS
value 12 or from 0. -/
def Chip.aonStart (s : Chip) (sup : Nat) : Chip :=
  let off := s.aonOff
  let t := { off with fab := { off.fab with aon := true, fnv := true, pst := sup == 0 }
                      ret := { off.ret with vin := sup == 0 }, pow := { off.pow with resBleed := off.pow.resBleed && sup != 0 } }
  let t := ((t.recover).scanRings).put Fld.HRV_STA_SRC sup
  let t := if sup = 0 then t else t.toLevel 0x10
  let sec := (t.nvs 12).v
  let t := (t.wr Reg.RTC_SEC sec).set Fld.RTC_STA_LOST
  let t := if sec = 0#32 then t else t.nvsStore 12 0#32
  if s.ret.brown then t.set Fld.HRV_IST_BROWN else t

/-- AON_POR: with the domain unpowered, VIN at VST, VBAT at 2.20 V or VSTO at TH_RUN starts it. SHIP is left by VIN alone (R477). -/
def Chip.aonPor (s : Chip) (sup : Nat) : Chip := if s.fab.aon || (s.ret.ship && sup != 0) then s else s.aonStart sup

/-- Pages whose registers outlive the POR that VIN's return makes in HARVEST (R459, R478). -/
def keptPage (a : Nat) : Bool := [Pg.RTC, Pg.HRV, Pg.UPD].any fun b => decide (b ≤ a) && decide (a < b + 0x4000)

/-- VIN returns in HARVEST (R478): a POR of the AON domain that keeps the RTC, the HRV settings and always-on SRAM; PWR.IST.PFAIL
reads 1 after the boot that follows a power failure (R145). -/
def Chip.harvestReturn (s : Chip) : Chip :=
  let t := s.aonStart 0
  let kept := s.regs.filter fun r => keptPage r.1
  let regs := kept.foldl (fun l r => regInsert l r.1 r.2) (t.regs.filter fun r => !keptPage r.1)
  let t := { t with
    regs := regs, doc := { t.doc with held := s.doc.held }, fst := { t.fst with vals := s.fst.vals, savedAt := s.fst.savedAt }
    alm := { t.alm with staged := s.alm.staged, taken := s.alm.taken, gather := s.alm.gather, kind := s.alm.kind, slot := s.alm.slot,
                        trialRun := s.alm.trialRun }
    ret := { t.ret with rcAt := s.ret.rcAt } }
  ((((t.put Fld.HRV_STA_SRC 0).put Fld.RET_LVL_PREV 0x10).put Fld.RET_LVL_CUR 1).putB Fld.PWR_IST_PFAIL (s.on Fld.PWR_IST_PFAIL)).showNvs

/-- VIN_RETURN (R477, R478, R50): in SHIP, in HARVEST, or noted until the safe stop has ended. -/
def Chip.vinReturn (s : Chip) : Chip :=
  if s.pow.safeStop then { s with pow := { s.pow with vinReturn := true } }
  else if s.ret.ship then s.aonStart 0
  else if s.fab.aon && !s.ret.vin then s.harvestReturn
  else s

/-- SAFE_STOP_END, with the full boot that a VIN back meanwhile asks for (R50). -/
def Chip.safeStopLeave (s : Chip) : Chip :=
  if s.pow.safeStop then
    let back := s.pow.vinReturn
    let s := s.safeStopEnd
    let s := { s with pow := { s.pow with vinReturn := false } }
    if back then s.harvestReturn else s
  else s

/-! ### Wakes (R479, R480) -/

/-- A wake is taken note of: its causes, IST.WAKE, and RET.REQ reads 0x01 (R474, R479). -/
def Chip.wakeNoted (s : Chip) (src : Nat) : Chip := ((s.put Fld.RET_WCAU_C src).set Fld.RET_IST_WAKE).put Fld.RET_REQ_LVL 1

/-- A wake event after the request for level `l` has been committed and before its entry has ended is kept (R485). -/
def Chip.wakeEarly (s : Chip) (l by_ : Nat) : Chip :=
  if s.ret.req == some l then { s with ret := { s.ret with early := s.ret.early ||| by_ } } else s

/-- STANDBY_WAKE by the sources of a mask (R479, R480): the PLL relocks, self-refresh ends, the SPI transaction that woke it is ignored. -/
def Chip.standbyWake (s : Chip) (src : Nat) : Chip :=
  let by_ := src &&& s.get Fld.RET_WSRC_EN
  if s.fab.standby && by_ != 0 then
    let s := { s with fab := { s.fab with standby := false }, cst := { s.cst with selfRefresh := false } }
    let s := ((s.set Fld.CLK_STA_LOCK).toLevel 1).wakeNoted by_
    if bitsOf by_ 6 1 = 1 then s.set Fld.BRG_IST_SPIFR else s
  else s.wakeEarly 4 by_

/-- HIBERNATE_WAKE (R47, R479, R480): sources 0–3 only; the rails come up and the boot re-enters at LDIE. -/
def Chip.hibernateWake (s : Chip) (src : Nat) : Chip :=
  let by_ := src &&& s.get Fld.RET_WSRC_EN &&& 0xF
  if s.get Fld.RET_LVL_CUR = 8 && by_ != 0 then
    let s := { s with ret := { s.ret with waking := true, cause := 5 } }
    let s := ((s.set Fld.PWR_STA_VIOG).set Fld.PWR_STA_VCOREG).wakeNoted by_
    ((s.put Fld.PSY_BST_STG 4).put Fld.PSY_BST_FAIL 0).toLevel 1
  else s.wakeEarly 8 by_

/-- An entry ends, and a wake that came before its end starts at once (R485). -/
def Chip.wakeAfter (s : Chip) (entered : Chip) (wake : Chip → Nat → Chip) : Chip :=
  if entered.get Fld.RET_LVL_CUR = s.get Fld.RET_LVL_CUR || s.ret.early = 0 then entered
  else wake { entered with ret := { entered.ret with early := 0 } } s.ret.early

/-! ### Resets that keep the AON domain (R530 causes 0x02–0x04) -/

/-- The management core restarts with the L-die and D-die: watchdog (cause 2) or UPD REBOOT (cause 3). Of the P-die registers only MSR is
reset. -/
def Chip.coreReset (s : Chip) (cause : Nat) : Chip :=
  let s := s.lDieOff
  let s := { s with
    regs := s.regs.filter fun r => !(decide (Pg.MSR ≤ r.1) && decide (r.1 < Pg.MSR + 0x4000))
    alm := { s.alm with mlog := [], conts := [], mbox := none, waits := [], logHeld := false, nim := Nimora.reset }
    ret := { s.ret with cause := cause, waking := false, req := none } }
  ((s.put Fld.PSY_BST_STG 0).put Fld.PSY_BST_FAIL 0).clr Fld.PSY_BST_FALLBK

/-- SYSTEM_RESET: the reset that SRST or UPD REBOOT has scheduled (R451, R548, R549). The one discards the other. -/
def Chip.systemReset (s : Chip) : Chip :=
  if s.dbg.srst then
    let s := s.lDieOff
    let s := { s with ret := { s.ret with cause := 4, req := none } }
    (s.put Fld.PSY_BST_STG 4).put Fld.PSY_BST_FAIL 0
  else if s.dbg.reboot then s.coreReset 3
  else s

/-- TRIAL_WATCHDOG (R452): a trial slot has not reached DONE 30 s after POR. -/
def Chip.trialWatchdog (s : Chip) : Chip :=
  if s.alm.trialRun && s.get Fld.PSY_BST_STG != 0x0A then s.coreReset 2 else s

end Sys2Proof.Machine
end

