-- ==== Sys2Proof/Machine/Boot.lean ====
section
/-!
DEFINITION. The boot sequence (R43–R47, R530–R537): stages, the boot ROM's choice of slot (R45, R452), the PARAM block (R432), the entry
list of the OEM parameter set (R532–R535), stage LOAD (R537), and DONE.
-/
namespace Sys2Proof.Machine

/-! ### The entry list (R532–R534) -/

/-- Address of entry `i`. -/
def entryAddr (i : Nat) : Nat := paramAt + 0x110 + 12 * i

/-- NENT as the header holds it. -/
def Chip.nent (s : Chip) : Nat := s.num (paramAt + 0x106) 2

/-- May the list be applied (R534)? -/
def Chip.listOk (s : Chip) : Bool :=
  let h := paramAt + 0x100
  s.num h 4 == 0x54455350 && s.num (h + 4) 1 == 1 && decide (s.nent ≤ 5000) &&
    (crc16 (s.bytes h 8 ++ s.bytes (h + 16) (12 * s.nent))).toNat == s.num (h + 8) 2

/-- The entries that are applied, with their index: KIND, ADDR, VALUE. -/
def Chip.entries (s : Chip) : List (Nat × Nat × Nat × Word) :=
  if s.listOk then
    (List.range s.nent).map fun i => (i, s.num (entryAddr i) 1, s.num (entryAddr i + 4) 4, s.word (entryAddr i + 8))
  else []

/-- Is an address a raw register of a page with an expert level (R77)? Answers its page's base. -/
def rawPage (a : Nat) : Option Nat :=
  match locate a with
  | some l => if l.page.bas && 0x40 ≤ l.off && l.off < 0x600 then some l.page.base else none
  | none => none

/-- The pages that XPSEL entries name. -/
def xpPages (l : List (Nat × Nat × Nat × Word)) : List Nat := (l.filter fun e => e.2.1 == 3).map fun e => e.2.2.1

/-- Does Almanac firmware leave an entry to the engine program (R533)? -/
def leftToEngine (xp : List Nat) (kind a : Nat) : Bool :=
  kind == 3 || (match rawPage a with
    | some b => xp.contains b
    | none => false)

/-- Is an entry applied at stage ALM (R533)? -/
def almEntry (a : Nat) : Bool := [Pg.PWR, Pg.RET, Pg.HRV, Pg.RTC].any fun b => decide (b ≤ a) && decide (a < b + 0x4000)

/-- Write one entry as a master: a WR, a GWR as value and complement; a reserved KIND is refused (R533, R534). -/
def Chip.writeEntryAs (s : Chip) (m : Master) (kind a : Nat) (v : Word) : Status × Chip :=
  if kind = 1 then s.store32 m a v
  else if kind = 2 then s.guardedPair m a v
  else (St.badArg, s)

/-- DBG.PSE takes a refusal: counted, the lowest index kept with its status (R534). -/
def Chip.pseRefuse (s : Chip) (i : Nat) (st : Status) : Chip :=
  let s := s.bump Fld.DBG_PSE_NREF
  if i < s.get Fld.DBG_PSE_FIDX then (s.put Fld.DBG_PSE_FIDX i).put Fld.DBG_PSE_FST st.toNat else s

/-- A refusal at stage ALM, where page DBG has no power: kept for DBG.PSE. -/
def Chip.almRefuse (s : Chip) (i : Nat) (st : Status) : Chip :=
  { s with alm := { s.alm with refusedN := s.alm.refusedN + 1,
                               refusedAt := match s.alm.refusedAt with
                                 | some x => if i < x.1 then some (i, st) else some x
                                 | none => some (i, st) } }

/-- The entries of stage ALM. -/
def Chip.almEntries (s : Chip) : Chip :=
  let l := s.entries
  let xp := xpPages l
  let s := { s with alm := { s.alm with refusedN := 0, refusedAt := none } }
  (l.filter fun e => almEntry e.2.2.1 && !leftToEngine xp e.2.1 e.2.2.1).foldl (fun (t : Chip) e =>
    let (st, u) := t.writeEntryAs .alm e.2.1 e.2.2.1 e.2.2.2
    if st = St.ok then u else u.almRefuse e.1 st) s

/-- What DBG.PSE shows of stage ALM and of the list itself (R534). -/
def Chip.startPse (s : Chip) : Chip :=
  let s := s.put Fld.DBG_PSE_NREF s.alm.refusedN
  let s := match s.alm.refusedAt with
    | some x => (s.put Fld.DBG_PSE_FIDX x.1).put Fld.DBG_PSE_FST x.2.toNat
    | none => s
  s.putB Fld.DBG_PSE_LBAD (!s.listOk)

/-- The entries of stage LOAD that Almanac firmware applies (R533). -/
def Chip.loadEntries (s : Chip) : Chip :=
  let l := s.entries
  let xp := xpPages l
  (l.filter fun e => !almEntry e.2.2.1 && !leftToEngine xp e.2.1 e.2.2.1).foldl (fun (t : Chip) e =>
    let (st, u) := t.writeEntryAs .alm e.2.1 e.2.2.1 e.2.2.2
    if st = St.ok then u else u.pseRefuse e.1 st) s

/-- One XPSEL entry (R535): EN cleared, XP set, the raw entries of its page, EN set. -/
def Chip.expertPage (s : Chip) (l : List (Nat × Nat × Nat × Word)) (i b : Nat) : Chip :=
  match locate b with
  | some p =>
    if p.off = 0 && p.alias_ = 0 && p.page.xpa then
      let s := s.stopPage (.orr 0) b
      let s := (s.store32 (.orr 0) (b + 8) (s.rd (b + 8) ||| 2#32)).2
      let mine := l.filter fun e => (e.2.1 == 1 || e.2.1 == 2) && rawPage e.2.2.1 == some b
      let s := mine.foldl (fun (t : Chip) e =>
        let (st, u) := t.writeEntryAs (.orr 0) e.2.1 e.2.2.1 e.2.2.2
        if st = St.ok then u else u.pseRefuse e.1 st) s
      (s.store32 (.orr 0) (b + 8) (s.rd (b + 8) ||| 1#32)).2
    else s.pseRefuse i St.badArg
  | none => s.pseRefuse i St.badArg

/-- The engine program's XPSEL entries, in list order (R535). -/
def Chip.expertEntries (s : Chip) : Chip :=
  let l := s.entries
  (l.filter fun e => e.2.1 == 3).foldl (fun (t : Chip) e => t.expertPage l e.1 e.2.2.1) s

/-- Has an entry of the set written MER.CTL (R537)? -/
def Chip.setWroteMer (s : Chip) : Bool :=
  s.entries.any fun e => e.2.1 == 1 && (match locate e.2.2.1 with
    | some l => l.page.base == Pg.MER && l.off == 8
    | none => false)

/-! ### Stage ROM (R43, R45, R452) -/

/-- The boot ROM starts slot `k`: MS0 is extended (R444). -/
def Chip.startSlot (s : Chip) (k : Nat) : Chip :=
  (s.put Fld.PSY_BST_SLOT k).extend 0 1 (1 + 4 * k) (s.imageVer 1 k) 64 (digest (s.bytes (fDie + imgAt 1 k) 64))

/-- The first slot of a list whose firmware verifies (R450). -/
def Chip.firstGood (s : Chip) (l : List Nat) : Option Nat := l.find? fun k => s.imageErr 1 k == 0

/-- Both slots have failed: FAIL 0x01, and the ROM's own BOOT_FAIL record (R45). -/
def Chip.romFail (s : Chip) : Chip := ((s.logBoot).bootFail 0x01).logCommit

/-- BOOT_FAIL_RECORD_RETRY (R45): the ROM's record is committed at a later rise of VSTO through TH_NVW. -/
def Chip.bootRecordRetry (s : Chip) : Chip := if s.romMode then s.logCommit else s

/-- The boot ROM's choice (R45, R452): the slot that starts, FALLBK, and whether an armed slot has failed. -/
def Chip.romChoice (s : Chip) : Option (Nat × Bool) × Bool × Bool :=
  let act := s.get Fld.UPD_SLOT_ACTIVE
  let arm := s.get Fld.UPD_SLOT_ARMSLOT
  let armed := s.on Fld.UPD_SLOT_ARMED
  let normal := (s.firstGood [act, 1 - act]).map fun k => (k, k != act)
  if s.alm.trialRun then ((s.firstGood [act, 1 - act]).map fun k => (k, true), true, false)
  else if armed && s.imageErr 1 arm = 0 then (some (arm, false), false, true)
  else if armed then (normal.map fun x => (x.1, true), true, false)
  else (normal, false, false)

/-! ### Stage ALM -/

/-- PARAM_BAD (R432). -/
def Chip.paramBad (s : Chip) (sub val : Nat) : Chip := s.raiseP (report 0x0B06 0 sub val)

/-- The thermistor table as the block holds it (R210): empty for none. -/
def Chip.readTtab (s : Chip) : List Int :=
  let t := (List.range 33).map fun j => BitVec.toInt (BitVec.ofNat 16 (s.num (paramAt + 0x30 + 2 * j) 2))
  if s.paramOk && (t.zip t.tail).all fun p => decide (p.2 < p.1) then t else []

/-- The PARAM block is read (R432). -/
def Chip.readParam (s : Chip) : Chip :=
  let flags := s.param 0x21 1
  let bp := s.param 0x22 1
  let twrn := s.param 0x2A 2
  let s := if s.paramOk then s else s.paramBad 0 0
  let s := if 8 ≤ flags then s.paramBad 1 0x21 else s
  let s := if 4 ≤ bp then s.paramBad 1 0x22 else s
  let twBad := twrn != 0 && (decide (twrn < 700) || decide (1200 < twrn))
  let s := if twBad then s.paramBad 1 0x2A else s
  let s := if s.on Fld.NVM_BP_BPL then s
    else (s.put Fld.NVM_BP_BP (if bp < 4 then bp else 0)).putB Fld.NVM_BP_BPL (decide (flags < 8) && bitsOf flags 2 1 == 1)
  let s := if s.param 0x23 1 = 0 then s else s.put Fld.MLK_ADDR_A (s.param 0x23 1)
  let s := if twrn = 0 || twBad then s else s.put Fld.TMP_TWRN_T twrn
  let s := if flags < 8 then (s.putB (hEN Pg.NIM) (bitsOf flags 1 1 == 1)).putB (hENA Pg.NIM) (bitsOf flags 1 1 == 1) else s
  let s := if !s.on (hEN Pg.NIM) then s.nimEnd 0 false else if s.nimSt = 0 then s.put Fld.NIM_ST_S 1 else s
  let s := s.put Fld.NIM_CFG_MFR (s.param 0x20 1)
  let s := ({ s with alm := { s.alm with ttab := s.readTtab } }).tcutCode
  if s.alm.ttab.isEmpty then s.paramBad 2 0x30 else s

/-- LOG.NSEQ at boot (R439): one more than the highest LSEQ in the log area, or than the highest that waits in staging; the kept SEQ of Nimora
writes (R457). -/
def Chip.logStart (s : Chip) : Chip :=
  let s := s.logBoot.nimSeqBoot
  match s.alm.staged.getLast? with
  | some r => (s.put Fld.LOG_NSEQ_N (nextLseq r.lseq)).put Fld.LOG_TAKE_N (nextLseq r.lseq)
  | none => s

/-- Almanac firmware starts (R43 ALM, R432, R434, R442, R451, R533). -/
def Chip.almStart (s : Chip) : Chip :=
  let s := ((s.logStart).readParam).showId.put Fld.ALM_FWV_V (s.imageVer 1 s.bootSlot)
  let s := if s.keyCopy.isSome then s.keygen else s
  let s := if s.get Fld.NVM_RCV_OUT = 0 then s else s.logEvent 3 (leBytes 4 (s.rd Reg.NVM_RCV).toNat)
  let other := 1 - s.bootSlot
  let s := (s.putB Fld.UPD_STA_FWOK (s.imageErr 1 other == 0)).putB Fld.UPD_STA_ENGOK (s.imageErr 2 other == 0)
  (s.almEntries).syncUpd

/-- Stage ROM ends: a slot starts, or the sequence stops. -/
def Chip.romStage (s : Chip) : Chip :=
  let s := s.syncUpd
  let (pick, disarm, trial) := s.romChoice
  match pick with
  | none => s.romFail
  | some (k, fb) =>
    let act := s.get Fld.UPD_SLOT_ACTIVE
    let arm := s.get Fld.UPD_SLOT_ARMSLOT
    let err := s.imageErr 1 arm
    let s := (s.putB Fld.PSY_BST_FALLBK fb).startSlot k
    let s := { s with alm := { s.alm with trialRun := trial } }
    let s := (if disarm then s.setUpd act 0 0 0 else s).put Fld.PSY_BST_STG 2
    let s := s.almStart
    if disarm then (s.drawn).logEvent 5 (leBytes 1 s.freeWord.toNat ++ [1#8] ++ leBytes 1 arm ++ leBytes 1 err) else s

/-! ### Stage LOAD (R537) -/

/-- Does the tables set check (R441)? -/
def Chip.tablesOk (s : Chip) : Bool :=
  s.num tablesAt 4 == 0x53564854 && s.num (tablesAt + 4) 1 == 4 && s.num (tablesAt + 5) 1 == 1 && s.num (tablesAt + 12) 4 == 6464 &&
    (crc16 (s.bytes tablesAt 30)).toNat == s.num (tablesAt + 30) 2 && digest (s.bytes (tablesAt + 64) 6464) == s.bytes (tablesAt + 32) 32

/-- The slot records and tables are loaded (R441); the slots have the assignments and checks of R246 and R259. -/
def Chip.loadTables (s : Chip) : Chip :=
  let body := tablesAt + 64
  let s := (List.range 12).foldl (fun (t : Chip) n => t.slotRecord n) s
  let s := (List.range 2048).foldl (fun (t : Chip) i => t.setTable i (t.num (body + 0x540 + 2 * i) 2)) s
  let s := (List.range 12).foldl (fun (t : Chip) n => t.slotDefaults n) s
  s.extend 2 2 0 0 6528 (digest (s.bytes tablesAt 6528))

/-- Does the active calibration set check (R440)? -/
def Chip.calSetOk (s : Chip) : Bool :=
  let a := fDie + s.calRegion false
  s.num a 4 == 0x53564341 && s.num (a + 4) 1 == 3 && s.num (a + 5) 1 == 1 && s.num (a + 16) 4 == 24192 &&
    (crc16 (s.bytes a 30)).toNat == s.num (a + 30) 2 && digest (s.bytes (a + 64) 96768) == s.bytes (a + 32) 32

/-- Step 3: the active calibration set, or the default of R537. -/
def Chip.loadCal (s : Chip) : Chip :=
  let a := fDie + s.calRegion false
  let s := if s.calSetOk then
      let ents := (List.range 24192).filterMap fun i =>
        let w := (s.word (a + 64 + 4 * i)) &&& 0xFFFF0FFF#32
        if w = 0x10000000#32 then none else some (i, w)
      ({ s with img := { s.img with shading := ents } }).wr Reg.CAL_SEQ (s.word (a + 8))
    else (({ s with img := { s.img with shading := [] } }).wr Reg.CAL_SEQ 0#32).set Fld.DBG_PSE_NOCAL
  s.extend 3 4 0 0 96768 (digest s.shadingBytes)

/-- The directory values 0–15 (R424): NSLT, BASE, VH. -/
def directory : List (Nat × Nat × Bool) :=
  [(16, 128, false), (8, 144, false), (8, 152, false), (8, 160, false), (32, 168, false), (32, 200, false), (32, 232, false), (16, 264, true),
   (16, 280, true), (16, 296, true), (64, 312, false), (4, 376, false), (4, 380, false), (16, 384, false), (8, 400, false), (8, 408, false)]

/-- A directory word (R421, R429). -/
def dirWord (d : Nat × Nat × Bool) : Word := BitVec.ofNat 32 (0x80000000 + (if d.2.2 then 0x40000000 else 0) + d.1 * 0x10000 + d.2.1)

/-- The directory is written where it differs (R424). -/
def Chip.loadDirectory (s : Chip) : Chip :=
  (List.range 16).foldl (fun (t : Chip) i => (t.dirWrite i (dirWord (directory.getD i (4, 128, false)))).2) s

/-- Step 4: MS4 (R532), the directory, the entries. -/
def Chip.loadParam (s : Chip) : Chip :=
  let n := if s.nent ≤ 5000 then 0x110 + 12 * s.nent else 0x110
  let s := s.extend 4 5 0 0 n (digest (s.bytes paramAt n))
  ((s.loadDirectory).startPse).loadEntries

/-- Step 5: ORC.ENTn and CFGn from the image header (R449), then ORR.CTL.EN (R292). -/
def Chip.startEngine (s : Chip) : Chip :=
  let hdr := fDie + imgAt 2 s.bootSlot
  let s := (List.range 4).foldl (fun (t : Chip) c =>
    let w := t.num (hdr + 20 + 2 * c) 2
    (t.put (Fld.ORC_ENT_A c) (bitsOf w 0 12)).put (Fld.ORC_CFG_LOCK c) (bitsOf w 15 1)) s
  let s := (s.clr Fld.ORR_STA_HOSTC).clr Fld.MSR_FLG_HOSTC
  (s.store32 .alm (Pg.ORR + 8) (s.rd (Pg.ORR + 8) ||| 1#32)).2

/-- Enable a page that the set left disabled. -/
def Chip.enablePage (s : Chip) (b : Nat) (more : Word) : Chip :=
  if s.on (hEN b) then s else (s.store32 (.orr 0) (b + 8) (s.rd (b + 8) ||| 1#32 ||| more)).2

/-- SEN as R169 states it, in its place in MER.CTL. -/
def Chip.senWord (s : Chip) : Word :=
  BitVec.ofNat 32 ((1 + 2 * s.get Fld.DOC_BCFG_REAR + 4 * s.get Fld.DOC_BCFG_MARK) * 2 ^ Fld.MER_CTL_SEN.lo)

/-- The standard engine program configures rings 0–13, their arrays packed from the start of the SYS region (R326). -/
def Chip.ringSetup (s : Chip) : Chip :=
  let base := s.get Fld.CST_SYSR_BASE * 65536
  (List.range 14).foldl (fun (t : Chip) n =>
    (t.wr (Reg.RNG_RCFG n) (BitVec.ofNat 32 (ringResetCfg n))).wr (Reg.RNG_RBAS n) (BitVec.ofNat 32 (base + ringResetBase n))) s

/-- Step 6: the rings, XPSEL entries, then the pages of the fitted blocks. -/
def Chip.engineSetup (s : Chip) : Chip :=
  let s := s.ringSetup.expertEntries
  let s := (s.enablePage Pg.HLP 0#32).enablePage Pg.MER (if s.setWroteMer then 0#32 else s.senWord)
  let pages := [Pg.IMG, Pg.CAL, Pg.MOT, Pg.ENC, Pg.SNS, Pg.MDR, Pg.SOL, Pg.LDR] ++
    (if s.on Fld.DOC_BCFG_MARK then [Pg.MRK, Pg.HVD, Pg.FUS] else [])
  pages.foldl (fun (t : Chip) b => t.enablePage b 0#32) s

/-- The work of stage HOST (R345, R43): identifiers, page BRG, both interfaces. -/
def Chip.hostWork (s : Chip) : Chip :=
  let vid := s.param 0x24 2
  let rev := s.get Fld.SYS_REV_LREVN
  let s := if vid = 0 then
      ((s.put Fld.BRG_UVID_VID Config.haldithVid.toNat).put Fld.BRG_UVID_PID 0x2440).put Fld.BRG_UREL_BCD (0x100 + rev)
    else ((s.put Fld.BRG_UVID_VID vid).put Fld.BRG_UVID_PID (s.param 0x26 2)).put Fld.BRG_UREL_BCD (s.param 0x28 2)
  let s := (s.store32 .alm (Pg.BRG + 8) (s.rd (Pg.BRG + 8) ||| 1#32)).2
  ((s.set Fld.BRG_IFC_USBE).set Fld.BRG_IFC_SPIE).usbAttach

/-- A boot failure from the L-die stages on (R46): from BRIDGE on the host's side comes up. -/
def Chip.stageFail (s : Chip) (code : Nat) : Chip :=
  let host := 6 ≤ s.get Fld.PSY_BST_STG && s.get Fld.PSY_BST_STG < 8
  let s := s.bootFail code
  if host then s.hostWork else s

/-- RAIL_FAULT with the work of R46: one that fails stage BRIDGE or LOAD still brings up the host's side. -/
def Chip.railFailed (s : Chip) (r mv : Nat) : Chip :=
  let stg := s.get Fld.PSY_BST_STG
  let t := s.railFault r mv
  if (stg = 6 || stg = 7) && s.get Fld.PSY_BST_FAIL = 0 && t.get Fld.PSY_BST_FAIL != 0 then t.hostWork else t

/-- Steps 1 to 5 of LOAD; none where a step stops the boot. -/
def Chip.loadSteps (s : Chip) : Option Chip :=
  let s := s.loadStart
  let k := s.bootSlot
  let img := fDie + imgAt 2 k
  if s.imageErr 2 k ≠ 0 then none
  else
    let s := (s.copyRange (img + 128) ctlStore 0x10000)
    let s := ({ s with orr := { s.orr with ecc := [] } }).extend 1 2 (1 + 4 * k) (s.imageVer 2 k) 64 (digest (s.bytes img 64))
    if s.tablesOk then some ((((s.loadTables).loadCal).loadParam).startEngine) else none

/-- Stage LOAD completes, with the register restore of a wake from HIBERNATE (R47). -/
def Chip.loadStage (s : Chip) : Chip :=
  match s.loadSteps with
  | none => (s.loadStart).stageFail 0x06
  | some t =>
    let t := t.engineSetup
    (if t.ret.waking then t.restore else t).put Fld.PSY_BST_STG 8

/-- LOAD_TIMEOUT (R537): step 6 is not done within 100 ms of step 5. -/
def Chip.loadTimeout (s : Chip) : Chip :=
  if s.get Fld.PSY_BST_STG = 7 && s.get Fld.PSY_BST_FAIL = 0 then (s.loadSteps.getD s.loadStart).stageFail 0x06 else s

/-! ### LDIE, DSTORE, BRIDGE, HOST and DONE -/

/-- LDIE: the L-die runs from the locked PLL (R43, R531), so the trigger of a lost clock is over (R490). -/
def Chip.lDieStart (s : Chip) : Chip :=
  let s := ({ s with fab := { s.fab with lco := true, lio := true } }).llActive 8 false
  let s := ((s.set Fld.CLK_STA_LOCK).set Fld.CLK_STA_XOK).put Fld.CLK_STA_SSD (s.get Fld.CLK_SSC_DEPTH)
  let s := s.putB Fld.CST_STA_HOT (s.on Fld.TMP_STA_HOT)
  ((s.put Fld.DBG_RST_CAUSE s.ret.cause).putB Fld.DBG_STA_PERMIT (s.permit Eng.off)).put Fld.PSY_BST_STG 5

/-- A trial slot that reaches DONE is confirmed (R452). -/
def Chip.confirmTrial (s : Chip) : Chip :=
  if s.alm.trialRun then
    let k := s.bootSlot
    let rbk (kind : Nat) : Nat := s.num (fDie + imgAt kind k + 12) 4
    let top := max (s.nvs 1).v.toNat (max (rbk 1) (rbk 2))
    let s := { s with alm := { s.alm with trialRun := false } }
    let s := if top = (s.nvs 1).v.toNat then s else s.nvsStore 1 (BitVec.ofNat 32 top)
    s.setUpd k 0 0 0
  else s

/-- DONE (R43, R92, R94, R112, R114, R122, R452, R509). A fault that the journal has raised keeps the engine in FAULT. -/
def Chip.bootDone (s : Chip) : Chip :=
  let s := s.put Fld.PSY_BST_STG 0x0A
  let nid := (s.nvs 0).v.toNat
  let s := s.put Fld.DOC_NID_ID (if (s.nvs 0).valid && nid != 0 then nid else 1)
  let s := s.doc.held.foldl (fun (t : Chip) h => t.closeRetry h.item.id) s
  let s := s.journalBoot
  let s := (s.store32 .alm (Pg.DOC + 8) (s.rd (Pg.DOC + 8) ||| 1#32)).2
  let s := (if s.engine = Eng.fault then s else s.enter Eng.off 0x09).confirmTrial
  let s := (s.logEvent 1 (leBytes 4 (s.rd Reg.PSY_BST).toNat ++ leBytes 4 s.bootSlot)).nvsCount 2
  s.raiseCauses (s.rd Reg.ILK_LLC).toNat

/-- HOST: the host's interfaces and the charger; RESERVE is run unless a wake from HIBERNATE finds VRES at 30.0 V (R47, R134). -/
def Chip.hostStage (s : Chip) : Chip :=
  let keep := s.ret.cause == 5 && decide (30000 ≤ s.get Fld.RES_VRES_MV)
  let s := ((s.hostWork).set Fld.RES_CHG_CHEN).syncCharge
  if keep then s.bootDone
  else ({ s with pow := { s.pow with passed := false, bootFails := 0 } }).put Fld.PSY_BST_STG 9

/-- The start threshold VST in mV (R125). -/
def Chip.vst (s : Chip) : Nat := max 6000 (s.get Fld.PWR_VPF_VPF * 100 + 500)

/-- Is VIN in the operating range, as stage ALM waits for (R43, R125)? That VIN is present is VST's own event. DEDUCED (log entry 153): a reading of
PWR.VIN since then that lies below VST keeps the boot in ALM; 0 is no reading. -/
def Chip.vinStarts (s : Chip) : Bool := s.ret.vin && (s.get Fld.PWR_VIN_MV = 0 || s.vst ≤ s.get Fld.PWR_VIN_MV)

/-- BOOT_STAGE_COMPLETE: the stage in progress ends, or fails (R43, R46). Stages LDIE, DSTORE and BRIDGE fail with 0x03, 0x04 and 0x05. -/
def Chip.bootStage (s : Chip) (ok : Bool) : Chip :=
  let stg := s.get Fld.PSY_BST_STG
  if !s.fab.aon || s.get Fld.PSY_BST_FAIL != 0 || s.pow.pfail then s
  else if !ok then
    if stg = 3 then s.bootFail 0x02
    else if 4 ≤ stg && stg ≤ 7 then (if stg = 7 then s.loadStart else s).stageFail (stg - 1)
    else s
  else if stg = 0 then s.put Fld.PSY_BST_STG 1
  else if stg = 1 then s.romStage
  else if stg = 2 then
    if s.vinStarts then ({ s with pow := { s.pow with buckOn := true } }).put Fld.PSY_BST_STG 3 else s
  else if stg = 3 then (((s.setRail 0 true).setRail 1 true).setRail 2 true).put Fld.PSY_BST_STG 4
  else if stg = 4 then s.lDieStart
  else if stg = 5 then (({ s with fab := { s.fab with dst := true } }).storeStart).put Fld.PSY_BST_STG 6
  else if stg = 6 then (((s.set Fld.DBR_LST_TRND).put Fld.DBR_LST_UP 15).llActive 5 false).put Fld.PSY_BST_STG 7
  else if stg = 7 then s.loadStage
  else if stg = 8 then s.hostStage
  else if stg = 9 && s.pow.passed then s.bootDone
  else s

end Sys2Proof.Machine
end

