-- ==== Sys2Proof/Machine/Microword.lean ====
section
/-!
DEFINITION. The execution of a microword (chapters 10 and 11): one slot of a context with its fetch, holds, dispatch and the order in
which the fields of a word act (R269–R290, R297–R319).
-/
namespace Sys2Proof.Machine

/-! ### Strobes (R311–R317) -/

/-- ACT0 (R312): GCLR before the ARM bits, which then arm for the next facet; UVOFF holds GP0 low until the next ARM0 or ARM1. -/
def Chip.actGates (s : Chip) (v : Nat) : Chip :=
  let clear := bitsOf v 3 1 = 1
  let s := if clear then s.gclr else s
  let s := [0, 1, 2].foldl (fun (t : Chip) i => if bitsOf v i 1 = 1 then (if clear then t.armNext i else t.armGate i) else t) s
  if bitsOf v 4 1 = 1 then ({ s with orr := { s.orr with uvOff := true }, mer := { s.mer with gp0 := false } }).markUnlit
  else if bitsOf v 0 2 ≠ 0 then { s with orr := { s.orr with uvOff := false } }
  else s

/-- ACT1 (R313). -/
def Chip.actMotion (s : Chip) (c : Fin 4) (v : Nat) (r : Word) : Chip :=
  if v = 0 then s
  else if v = 0xF0 || v = 0xF1 then
    -- the loaded speed is commanded as it stands: the engine program's ramp of that axis is over
    let a := v % 16
    let w := signedOf (r.toNat % 2 ^ 24) 24
    (s.setAxis a { s.axis a with goal := w, start := w, age := 0 }).putS (Fld.MOT_CM_SPD a) w
  else if s.modeOk (v / 16) (v % 8) then s.helCmd (v / 16) (v % 8)
  else s.erc Pg.HEL (.orr c) St.badArg

/-- ACT3 (R315): solenoids and sensor snapshots, which travel in the next RT frame, and router output lines. -/
def Chip.actLines (s : Chip) (v : Nat) : Chip :=
  let low := bitsOf v 0 6
  let line := bitsOf v 0 4
  let out := s.get Fld.GPI_ROUT_O
  match v / 64 with
  | 0 => s
  | 1 => { s with mot := { s.mot with solCmd := s.mot.solCmd ||| low } }
  | 2 => s.solOff low
  | _ =>
    match bitsOf v 4 2 with
    | 0 => s
    | 1 => s.put Fld.GPI_ROUT_O (out ||| 2 ^ line)
    | 2 => s.put Fld.GPI_ROUT_O (out &&& (0xFFFF - 2 ^ line))
    | _ => { s with mot := { s.mot with snaps := s.mot.snaps ||| 2 ^ line } }

/-- TMR (R316). -/
def Chip.actTimer (s : Chip) (c v : Nat) (r : Word) : Chip :=
  if bitsOf v 3 1 = 1 then s.startTimer c (bitsOf v 0 2) (r.toNat % 2 ^ 24) (bitsOf v 2 1 == 1) else s

/-- MODE (R317): LOCK or EVENT from the next word on. -/
def Chip.actMode (s : Chip) (c v : Nat) : Chip :=
  match bitsOf v 0 2 with
  | 1 => s.put (Fld.ORC_ST_LOCK c) 0
  | 2 => s.put (Fld.ORC_ST_LOCK c) 1
  | _ => s

/-! ### Results (R306, R289) -/

/-- DST = CSW: the word is written in the cycle after `cyc`; a fetch in that cycle still gets the old one (R289). -/
def Chip.csWrite (s : Chip) (c a cyc : Nat) : Chip :=
  let at_ := ctlStore + 16 * (a % 4096)
  let old := s.bytes at_ 16
  let new := [8, 9, 10, 11].flatMap fun j => leBytes 4 (s.rd (Reg.ORC_W c j)).toNat
  let s := s.setBytes at_ new
  { s with orr := { s.orr with stale := some { cyc := (cyc + 1) % 2 ^ 32, addr := a % 4096, bytes := old },
                               ecc := s.orr.ecc.filter fun x => x != a % 4096 } }

/-- Is an address on the P-die or F-die? -/
def farAddr (a : Nat) : Bool := 0x50000000 ≤ a && a < 0x70000000

/-- Must a word's MEM write wait for room in the context's queue (R287)? -/
def Chip.queueFull (s : Chip) (c : Fin 4) (m : MWord) : Bool :=
  m.dst == 3 && farAddr (s.rd (Reg.ORC_W c.val 13)).toNat && decide (16 ≤ s.fab.posted.countP fun w => mCode w.master == mCode (.orr c))

/-- DST = MEM (R287, R306): posted into the context's queue for the P-die; a refusal sets BERR. A guarded pair is not posted: the context
goes into BUSW at the end of the word until the P-die has applied it (R31). No microword writes the staging bank. -/
def Chip.memWriteBy (s : Chip) (c : Fin 4) (a : Nat) (r : Word) : Chip :=
  if farAddr a then
    let t := s.postWrite (.orr c) a r
    match t.fab.posted.getLast? with
    | some w => if w.pair && s.fab.posted.length < t.fab.posted.length then t.updCtx c.val fun x => { x with pairHold := true } else t
    | none => t
  else if 0x14000000 ≤ a && a < 0x14010000 then (s.busError (.orr c) a Kind.refused).updCtx c.val fun x => { x with berr := true }
  else
    let (st, t) := s.store32 (.orr c) a r
    if st = St.ok then t else t.updCtx c.val fun x => { x with berr := true }

/-- Write the result where DST says; `w13` is W13 as it stood at the start of the cycle. V7 is Heliostat's while a slot with actuator
0x0C runs (R285). -/
def Chip.writeDst (s : Chip) (c : Fin 4) (dst w13 cyc : Nat) (r : Word) : Chip :=
  if dst = 0 then s
  else if dst = 1 then s.updCtx c.val fun x => { x with lc := r }
  else if dst = 2 then s.csWrite c.val r.toNat cyc
  else if dst = 3 then s.memWriteBy c w13 r
  else if dst < 0x10 then
    let owned := (List.range 12).any fun n => s.get (Fld.HLP_CFG_ACT n) == 12 && s.get (Fld.HLP_ST_MODE n) != 0
    if dst = 0x0F && owned then s.set Fld.ORR_IST_V7W else s.wr (Reg.ORR_V (dst - 8)) r
  else s.wr (Reg.ORC_W c.val (dst - 0x10)) r

/-! ### The next address (R300, R301) -/

/-- The pending entry that a DISPATCH or YIELD takes, or what follows with none pending. -/
def Chip.dispatchOr (s : Chip) (c back : Nat) (none_ : Chip) : Chip :=
  match s.lowestPending c with
  | some n => s.takeEntry c n back
  | none => none_

/-- SEQ: `lc` is the loop counter and `t` the branch condition as they stood at the start of the cycle. -/
def Chip.nextWord (s : Chip) (c : Nat) (m : MWord) (lc : Word) (t : Bool) : Chip :=
  let next := s.pc c + 1
  match m.seq with
  | 1 => s.setPc c m.tgt
  | 2 => s.setPc c (if t then m.tgt else next)
  | 3 => (s.setStack c ({ addr := next % 4096, entry := none } :: (s.ctx c).stack)).setPc c m.tgt
  | 4 =>
    (match (s.ctx c).stack with
      | f :: rest =>
        let s := s.setStack c rest
        let s := match f.entry with
          | some n => s.put (Fld.ORC_PEND_INSV c) (s.get (Fld.ORC_PEND_INSV c) &&& (255 - 2 ^ n))
          | none => s
        s.setPc c f.addr
      | [] => s)
  | 5 =>
    if lc = 0#32 then s.setPc c next
    else (if m.dst = 1 then s else s.updCtx c fun x => { x with lc := lc - 1 }).setPc c m.tgt
  | 6 => s.dispatchOr c next (s.setPc c m.tgt)
  | 7 => s.dispatchOr c next (s.setCtxSt c CtxSt.sleep)
  | _ => s.setPc c next

/-! ### One execute cycle (R299) -/

/-- The ring operation of ACT2 (R286, R314): state, and what a pop writes to W14. -/
def Chip.actRing (s : Chip) (c : Nat) (v : Nat) (r : Word) : Option Word × Chip :=
  match v / 64 with
  | 1 =>
    (match s.push (v % 64) .orr { val := r } with
      | (.stored, t) => (none, t)
      | (_, t) => (none, t.updCtx c fun x => { x with rref := true }))
  | 2 =>
    (match s.popRing (v % 64) .orr with
      | (.entry e, t) => (some e.val, t)
      | (_, t) => (some 0xFFFFFFFF#32, t.updCtx c fun x => { x with remp := true }))
  | _ => (none, s)

/-- Does a stack fault stop the word before any field acts (R281, R319)? -/
def Chip.stackFault (s : Chip) (c : Nat) (m : MWord) : Bool :=
  (m.seq == 3 && decide (8 ≤ (s.ctx c).stack.length)) || (m.seq == 4 && (s.ctx c).stack.isEmpty)

/-- What a word reads at the start of its execute cycle, with `t` its branch condition (R299). A MEM operand across the bridge is still to come; one
on the L-die is `mem`. -/
def Chip.snapshot (s : Chip) (c : Nat) (m : MWord) (t : Bool) (mem : Option Word) : Snap :=
  let f := s.flagsOf c
  { t := t, a := if m.asel = 0x1F then mem else some (s.operand c m.asel m.imm), b := s.operand c m.bsel m.imm, lc := (s.ctx c).lc
    fz := f.z, fn := f.n, fc := f.c, fv := f.v, w13 := (s.rd (Reg.ORC_W c 13)).toNat
    seen := cndEvent m.cnd && !m.cpol && s.cond c m.cnd }

/-- The fields of a word act on what it has read, `a` being its A operand (R299). `again` are the events that become visible in this
cycle, `cyc` the cycle. -/
def Chip.wordActs (s : Chip) (c : Fin 4) (m : MWord) (p : Snap) (a : Word) (again : List Nat) (cyc : Nat) : Chip :=
  let f : Flags := { z := p.fz, n := p.fn, c := p.fc, v := p.fv }
  let lock := s.on (Fld.ORC_ST_LOCK c.val)
  let o := (alu m.alu a p.b f.c).getD { r := a }
  let s := s.updCtx c.val fun x => { x with
    evl := if p.seen && !again.contains m.cnd then x.evl.filter (· != m.cnd) else x.evl, dz := o.dz || (x.dz && m.flg != 7),
    rref := false, remp := false, berr := false, memData := none, saved := none }
  let s := s.setCtxSt c.val CtxSt.run
  let ring := s.actRing c.val m.act2 o.r
  let s := (ring.2.writeDst c m.dst p.w13 cyc o.r).setFlags c.val (flagsAfter m.flg o f)
  let s := s.nextWord c.val m p.lc p.t
  let s := match ring.1 with
    | some w => s.wr (Reg.ORC_W c.val 14) w
    | none => s
  let s := (((s.raiseSevs m.evt).actGates m.act0).actMotion c m.act1 o.r).actLines m.act3
  let s := (s.actTimer c.val m.tmr o.r).actMode c.val m.mode
  s.iff ((s.ctx c.val).pairHold && s.ctxSt c.val == CtxSt.run) fun t =>
    (t.iff lock fun u => u.set (Fld.ORC_ST_LJIT c.val)).setCtxSt c.val CtxSt.busw

/-- The context is held in BUSW with what its word has read (R287, R299); a LOCK-mode one has its jitter bit set (R274). -/
def Chip.busWait (s : Chip) (c : Nat) (p : Snap) : Chip :=
  let s := s.updCtx c fun x => { x with rref := false, remp := false, berr := false, memData := none, saved := some p }
  (s.iff (s.on (Fld.ORC_ST_LOCK c)) fun t => t.set (Fld.ORC_ST_LJIT c)).setCtxSt c CtxSt.busw

/-- A word goes on with what it has read: a MEM operand on the P-die holds it in BUSW until its data returns, a MEM write until its queue has
room (R287). -/
def Chip.goOn (s : Chip) (c : Fin 4) (m : MWord) (p : Snap) (again : List Nat) (cyc : Nat) : Chip :=
  match p.a with
  | none => ({ s with fab := { s.fab with reads := s.fab.reads ++ [({ master := .orr c, addr := p.w13, dst := 0 } : HeldRead)] } }).busWait c.val p
  | some a => if s.queueFull c m then s.busWait c.val p else s.wordActs c m p a again cyc

/-- A word executes (R298, R299), with `t` its branch condition. -/
def Chip.execWord (s : Chip) (c : Fin 4) (m : MWord) (t : Bool) (again : List Nat) (cyc : Nat) : Chip :=
  let a := (s.rd (Reg.ORC_W c.val 13)).toNat
  if m.reserved then s.ctxFault c.val 0x0704
  else if s.stackFault c.val m then s.ctxFault c.val 0x0701
  else if m.asel = 0x1F && !farAddr a then
    let ((w, st), u) := s.load32 (.orr c) a
    let u := u.goOn c m (s.snapshot c.val m t (some w)) again cyc
    if st = St.ok then u else u.updCtx c.val fun x => { x with berr := true }
  else s.goOn c m (s.snapshot c.val m t none) again cyc

/-! ### Holds (R274–R276) -/

/-- The conditions that are true for one slot only end with a slot in which no word executes. -/
def Chip.quiet (s : Chip) (c : Nat) : Chip := s.updCtx c fun x => { x with rref := false, remp := false, berr := false }

/-- A wait expires in its slot T: no field acts, TMOX, the next address in sequence. -/
def Chip.expire (s : Chip) (c : Nat) : Chip :=
  let s := (((s.quiet c).set (Fld.ORC_FLG_TMOX c)).bump (Fld.ORC_TMXC_N c)).set Fld.ORR_IST_TMOX
  (s.setPc c (s.pc c + 1)).setCtxSt c CtxSt.run

/-- Slot `k` of a word with WAIT = 1: it acts, expires or is held. -/
def Chip.holdSlot (s : Chip) (c : Fin 4) (k : Nat) (again : List Nat) (cyc : Nat) : Chip :=
  let x := s.ctx c.val
  let m := mword x.word
  let held := ((s.quiet c.val).updCtx c.val fun x => { x with k := k }).setCtxSt c.val CtxSt.wait
  if s.on (Fld.ORC_ST_LOCK c.val) then
    if x.limit ≤ k then s.execWord c m (s.test c.val m) again cyc else held
  else if s.test c.val m then s.execWord c m true again cyc
  else if x.limit ≠ 0 && x.limit ≤ k then s.expire c.val
  else held

/-! ### Fetch (R270, R289, R290) -/

/-- The word that a fetch in cycle `cyc` gets at address `a`. -/
def Chip.fetchWord (s : Chip) (a cyc : Nat) : Nat :=
  match s.orr.stale with
  | some x => if x.cyc = cyc && x.addr = a then ofLeBytes x.bytes else s.num (ctlStore + 16 * a) 16
  | none => s.num (ctlStore + 16 * a) 16

/-- A context fetches its next word and executes it or begins its hold. `err` tells how the word's check bits read: 0 good, 1 a
corrected error, 2 two bits wrong. -/
def Chip.fetchSlot (s : Chip) (c : Fin 4) (err : Nat) (again : List Nat) (cyc : Nat) : Chip :=
  let a := s.pc c.val
  if err = 2 || s.orr.ecc.contains a then
    let s := { s with orr := { s.orr with ecc := a :: s.orr.ecc.filter fun x => x != a } }
    ((s.put Fld.ORR_ECE_ADDR a).set Fld.ORR_IST_ECC2).ctxFault c.val 0x0703
  else
    let s := if err = 1 then (s.bump Fld.ORR_ECE_CE).set Fld.ORR_IST_ECC1 else s
    let w := s.fetchWord a cyc
    let m := mword w
    if m.wait then
      let s := s.clr (Fld.ORC_FLG_TMOX c.val)
      let lim := s.limitOf c.val m
      (s.updCtx c.val fun x => { x with word := w, limit := lim }).holdSlot c 0 again cyc
    else (s.updCtx c.val fun x => { x with word := w }).execWord c m (s.test c.val m) again cyc

/-! ### A slot -/

/-- The dispatch compare of a slot selects an entry that the next slot takes, if it is still pending then (R282). -/
def Chip.select (s : Chip) (c : Nat) (p : Option Nat) : Chip :=
  let st := s.ctxSt c
  if st = CtxSt.stopped || st = CtxSt.fault then s
  else s.updCtx c fun x => { x with sel := p.filter fun n => s.pends c n && (List.range (n + 1)).all fun i => !s.inService c i }

/-- The next slot of context `c` (R269–R283). -/
def Chip.slotOf (s : Chip) (c : Fin 4) (err : Nat) : Chip :=
  let k := c.val
  let old := (s.ctx k).evl
  let cyc := s.nextCycle k
  let again := ((s.orr.evq.filter fun x => (cyc + 2 ^ 32 - x.1) % 2 ^ 32 == 2).map (·.2)).filter old.contains
  let s := (s.atSlot k 0).latchLevels k
  let x := s.ctx k
  let st := s.ctxSt k
  let p := s.preemptor k
  if st = CtxSt.stopped || st = CtxSt.fault then s
  else if st = CtxSt.busw then
    let m := mword x.word
    if x.pairHold || (s.fab.reads.any fun r => mCode r.master == mCode (.orr c)) || s.queueFull c m then s
    else
      let s := match x.saved with
        | some q => s.goOn c m { q with a := q.a.or x.memData } again cyc
        | none => s.setCtxSt k CtxSt.run
      let s := if x.berr then s.updCtx k fun x => { x with berr := true } else s
      match (x.sel.filter fun n => s.pends k n).or (s.preemptor k) with
      | some n => if s.ctxSt k = CtxSt.run || s.ctxSt k = CtxSt.sleep then s.takeEntry k n (s.backAddr k) else s
      | none => s
  else match x.sel.filter (fun n => s.pends k n) with
    | some n => (s.quiet k).takeEntry k n (s.backAddr k)
    | none =>
      if st = CtxSt.sleep then
        match s.lowestPending k with
        | some n => (((s.quiet k).setPc k (s.pc k + 1)).setCtxSt k CtxSt.run).updCtx k fun x => { x with sel := some n }
        | none => s.quiet k
      else if st = CtxSt.wait then (s.holdSlot c (x.k + 1) again cyc).select k p
      else (s.fetchSlot c err again cyc).select k p

/-- MICROWORD_EXECUTE: the next slot of a context, which its watchdog counts (R269–R284). -/
def Chip.runSlot (s : Chip) (c : Fin 4) (err : Nat) : Chip := (s.slotOf c err).wdgCount c.val 1

/-! ### The other commands of a context -/

/-- Does context `c` wait in EVENT mode, undisturbed? -/
def Chip.waits (s : Chip) (c : Nat) : Bool :=
  s.ctxSt c == CtxSt.wait && !s.on (Fld.ORC_ST_LOCK c) && (s.ctx c).sel.isNone && (s.preemptor c).isNone

/-- WAIT_TIMEOUT: the condition stays false up to slot T, in which the wait expires (R275, R276), unless the
watchdog is reached first (R284). -/
def Chip.waitTimeout (s : Chip) (c : Fin 4) : Chip :=
  let x := s.ctx c.val
  let m := mword x.word
  let skip := x.limit - x.k - 1
  if s.waits c.val && x.limit ≠ 0 && x.k < x.limit && s.orr.evq.isEmpty && !s.test c.val m &&
      (s.get (Fld.ORC_WDG_US c.val) = 0 || x.wdg + skip < s.wdgSlots c.val) then
    let s := if skip = 0 then s
      else ((s.atSlot c.val (skip - 1)).updCtx c.val fun x => { x with k := x.k + skip, rref := false, remp := false, berr := false }).wdgCount
        c.val skip
    s.runSlot c 0
  else s

/-- WAIT_SATISFIED: the condition of a word that waits is true in its next slot, and its fields act once (R275). -/
def Chip.waitSatisfied (s : Chip) (c : Fin 4) : Chip :=
  if s.waits c.val && s.test c.val (mword (s.ctx c.val).word) then s.runSlot c 0 else s

/-- DISPATCH_PREEMPT: the compare slot and the slot that loads the vector (R279, R280, R282). -/
def Chip.dispatchPreempt (s : Chip) (c : Fin 4) : Chip :=
  let st := s.ctxSt c.val
  if (st = CtxSt.run || st = CtxSt.wait || st = CtxSt.sleep) && ((s.preemptor c.val).isSome || (s.ctx c.val).sel.isSome) then
    if (s.ctx c.val).sel.isSome then s.runSlot c 0 else (s.runSlot c 0).runSlot c 0
  else s

/-- YIELD_WAKE: a sleeping context leaves SLEEP and takes its lowest pending entry (R283). -/
def Chip.yieldWake (s : Chip) (c : Fin 4) : Chip :=
  if s.ctxSt c.val = CtxSt.sleep && (s.lowestPending c.val).isSome then (s.runSlot c 0).runSlot c 0 else s

end Sys2Proof.Machine
end

