-- ==== Sys2Proof/Machine/CmdBase.lean ====
section
/-!
DEFINITION. What every command shares: it changes the chip and leaves the queue, it needs the power domain in which its event happens
(R22, R23), and an access names the master that makes it.
-/
namespace Sys2Proof.Machine

/-- A command's effect on the chip. -/
def State.act (s : State) (f : Chip → Chip) : Host.Outcome State Fault Refusal := .next { s with chip := f s.chip }

/-- Does the L-die run: powered (R22) and not in STANDBY, where its clocks stand still (R475)? -/
def Chip.lRuns (s : Chip) : Bool := s.fab.lco && !s.fab.standby

/-- An event of the L-die. -/
def Chip.onL (s : Chip) (f : Chip → Chip) : Chip := if s.lRuns then f s else s

/-- Is L-die pad `n` read: its input enabled (R503), and not latched, which the host interface's pads 30–36 and 42 never are (R483, R554)? -/
def Chip.padIn (s : Chip) (n : Nat) : Bool :=
  bitsOf (s.rd (Reg.PAD_INE0 + 4 * (n / 32))).toNat (n % 32) 1 = 1 && (!s.padsLatched || (30 ≤ n && n ≤ 36) || n = 42)

/-- An event that reaches the L-die through pads. -/
def Chip.onPads (s : Chip) (pads : List Nat) (f : Chip → Chip) : Chip := if s.lRuns && pads.all s.padIn then f s else s

/-- An event of the always-on domain or the F-die (R22). -/
def Chip.onA (s : Chip) (f : Chip → Chip) : Chip := if s.fab.aon then f s else s

/-- An event of the P-die power stage (R22). -/
def Chip.onP (s : Chip) (f : Chip → Chip) : Chip := if s.fab.aon && s.fab.pst then f s else s

/-- Can a master access anything: Almanac while the AON domain runs, the others while the L-die runs. -/
def Chip.canAccess (s : Chip) (m : Master) : Bool := if m = .alm then s.fab.aon else s.lRuns

/-- A write by its address: one to the P-die goes into its master's queue (R31). -/
def Chip.busWrite (s : Chip) (m : Master) (a : Nat) (v : Word) : Chip :=
  if s.canAccess m then (s.masterWrite m a v).2.settle else s

/-- A write of a register with a row of its own, as the register's page takes it; one that must wait for the bridge is queued (R30, R31, R570). -/
def Chip.regWrite (s : Chip) (m : Master) (a : Nat) (v : Word) : Chip :=
  if s.canAccess m then (if s.mustQueue m a then (s.masterWrite m a v).2.settle else (s.store32 m a v).2.settle) else s

/-- A guarded pair on a register with a row of its own (R63); it is queued where it must wait for the bridge (R67). -/
def Chip.regPair (s : Chip) (m : Master) (a : Nat) (v : Word) : Chip :=
  if s.canAccess m then
    (if s.mustQueue m a then ((s.masterWrite m a v).2.masterWrite m (a + 0x800) (~~~v)).2.settle else (s.guardedPair m a v).2.settle)
  else s

/-- A read of a register with a row of its own; its data and status are held for the reader. One that must wait for the bridge is issued after
its master's earlier posted writes (R30) and returns then. -/
def Chip.regRead (s : Chip) (m : Master) (a : Nat) : Chip :=
  if s.canAccess m then
    if s.mustQueue m a then { s with fab := { s.fab with reads := s.fab.reads ++ [{ master := m, addr := a, dst := 1 }] } }
    else
      let ((w, st), t) := s.load32 m a
      { t with fab := { t.fab with rdata := w, rstat := st } }.settle
  else s

/-- Write with data, read without. -/
def Chip.regAccess (s : Chip) (m : Master) (a : Nat) : Option Word → Chip
  | some v => s.regWrite m a v
  | none => s.regRead m a

/-- With no command waiting the block idles: one tick of the RTC, the only clock that runs whatever is commanded (R484). -/
def Chip.idle (s : Chip) : Chip := s.onA Chip.rtcTick

end Sys2Proof.Machine
end

