-- ==== Sys2Proof/Machine/CmdAlmanac.lean ====
section
/-!
DEFINITION. Commands of the Almanac (chapter 16): mailbox, services, sensors, log, keys, updates, Nimora.
-/
namespace Sys2Proof.Machine

/-- A service request by its carrier (R430): in the mailbox the request stands in MBUF, and the service ends as MAILBOX_DONE has it;
otherwise it is the payload of a Turradar frame for this node or the data of a Nimora APDU. -/
def Chip.serve (s : Chip) (via : Carrier) (code : Nat) (req : List Byte) : Chip :=
  s.onA fun s => (match via with
    | .mailbox => s.mailboxSvc code
    | .turradar src seq =>
      s.turFrame hooks (BitVec.ofNat 8 (s.get Fld.MLK_ADDR_A)) src 0#8 seq.toNat (BitVec.ofNat 8 code :: req) true
    | .nimora p12 le => s.apduSvc p12.toNat le.toNat code req).settle

/-- MAILBOX_GO (R431). -/
def execMailboxGo (m : Master) (s : State) : Host.Outcome State Fault Refusal := s.act fun c => c.regWrite m Reg.ALM_MDB 1#32

/-- MAILBOX_DONE (R431). -/
def execMailboxDone (s : State) : Host.Outcome State Fault Refusal := s.act fun c => c.onA fun c => c.mailboxDone.settle

/-- STATUS_SERVICE (R430). -/
def execStatusService (via : Carrier) (s : State) : Host.Outcome State Fault Refusal := s.act fun c => c.serve via Svc.status []

/-- IDENT (R430). -/
def execIdent (via : Carrier) (s : State) : Host.Outcome State Fault Refusal := s.act fun c => c.serve via Svc.ident []

/-- LOG_READ (R430). -/
def execLogRead (via : Carrier) (lseq : BitVec 32) (n : Byte) (s : State) : Host.Outcome State Fault Refusal :=
  s.act fun c => c.serve via Svc.logRead (leBytes 4 lseq.toNat ++ [n])

/-- PARAM_READ (R430). -/
def execParamRead (via : Carrier) (part : Byte) (ofs : BitVec 32) (n : Byte) (s : State) : Host.Outcome State Fault Refusal :=
  s.act fun c => c.serve via Svc.paramRead (part :: leBytes 3 ofs.toNat ++ [n])

/-- PARAM_WRITE (R430). -/
def execParamWrite (via : Carrier) (seq : BitVec 16) (part : Byte) (ofs : BitVec 32) (data : List Byte) (s : State) :
    Host.Outcome State Fault Refusal :=
  s.act fun c => c.serve via Svc.paramWrite (leBytes 2 seq.toNat ++ part :: leBytes 3 ofs.toNat ++ data)

/-- TIME (R430). -/
def execTime (via : Carrier) (seq : BitVec 16) (sec : BitVec 32) (s : State) : Host.Outcome State Fault Refusal :=
  s.act fun c => c.serve via Svc.time (leBytes 2 seq.toNat ++ leBytes 4 sec.toNat)

/-- UPD_SERVICE (R430, R451). -/
def execUpdService (via : Carrier) (seq : BitVec 16) (op : Byte) (args : List Byte) (s : State) : Host.Outcome State Fault Refusal :=
  s.act fun c => c.serve via Svc.upd (leBytes 2 seq.toNat ++ op :: args)

/-- CONT (R431). -/
def execCont (via : Carrier) (s : State) : Host.Outcome State Fault Refusal := s.act fun c => c.serve via Svc.cont []

/-- SENSOR_SCAN (R433). -/
def execSensorScan (vals : List (BitVec 16)) (s : State) : Host.Outcome State Fault Refusal := s.act fun c => c.onA fun c => c.sensorScan vals

/-- TAMPER (R434). -/
def execTamper (n : Fin 2) (s : State) : Host.Outcome State Fault Refusal := s.act fun c => c.onA fun c => c.tamper n.val

/-- TEMP_HOT (R436). -/
def execTempHot (die : Fin 4) (t : BitVec 12) (s : State) : Host.Outcome State Fault Refusal :=
  s.act fun c => c.onA fun c => (c.setTemp die.val t).tempHot

/-- OVERTEMP_W (R436). -/
def execOvertempW (die : Fin 4) (t : BitVec 12) (s : State) : Host.Outcome State Fault Refusal :=
  s.act fun c => c.onA fun c => (c.setTemp die.val t).tempWarn

/-- OVERTEMP (R436). -/
def execOvertemp (die : Fin 4) (t : BitVec 12) (s : State) : Host.Outcome State Fault Refusal :=
  s.act fun c => c.onA fun c => (c.setTemp die.val t).tempCrit

/-- LOG_TAKE (R438). -/
def execLogTake (m : Master) (s : State) : Host.Outcome State Fault Refusal := s.act fun c => c.regRead m Reg.LOG_TAKE

/-- LOG_GAP_TIMEOUT (R438). -/
def execLogGapTimeout (s : State) : Host.Outcome State Fault Refusal := s.act fun c => c.onA Chip.gapTimeout

/-- LOG_COMMIT (R439). -/
def execLogCommit (s : State) : Host.Outcome State Fault Refusal := s.act fun c => c.onA Chip.logCommit

/-- KEYGEN (R442, R446). -/
def execKeygen (s : State) : Host.Outcome State Fault Refusal := s.act fun c => c.onA Chip.keygen

/-- UPD_BEGIN (R451). -/
def execUpdBegin (m : Master) (kind : Byte) (s : State) : Host.Outcome State Fault Refusal :=
  s.act fun c => c.regWrite m Reg.UPD_CMD (BitVec.ofNat 32 (kind.toNat * 256 + 1))

/-- UPD_PUSH (R451): it waits while another commit group is open (R408). -/
def execUpdPush (m : Master) (s : State) : Host.Outcome State Fault Refusal :=
  s.act fun c => if c.pushWaits then c else c.regWrite m Reg.UPD_CMD 2#32

/-- UPD_VERIFY (R451). -/
def execUpdVerify (m : Master) (s : State) : Host.Outcome State Fault Refusal := s.act fun c => c.regWrite m Reg.UPD_CMD 3#32

/-- UPD_VERIFY_DONE (R451). -/
def execUpdVerifyDone (s : State) : Host.Outcome State Fault Refusal := s.act fun c => c.onA fun c => c.updVerified.settle

/-- UPD_ABORT (R451). -/
def execUpdAbort (m : Master) (s : State) : Host.Outcome State Fault Refusal := s.act fun c => c.regWrite m Reg.UPD_CMD 4#32

/-- UPD_CLONE (R451). -/
def execUpdClone (m : Master) (kind : Byte) (s : State) : Host.Outcome State Fault Refusal :=
  s.act fun c => c.regWrite m Reg.UPD_CMD (BitVec.ofNat 32 (kind.toNat * 256 + 5))

/-- UPD_REBOOT (R451). -/
def execUpdReboot (m : Master) (s : State) : Host.Outcome State Fault Refusal := s.act fun c => c.regWrite m Reg.UPD_CMD 6#32

/-- UPD_ARM (R452). -/
def execUpdArm (m : Master) (v : Word) (s : State) : Host.Outcome State Fault Refusal := s.act fun c => c.regPair m Reg.UPD_ARM v

/-- TRIAL_WATCHDOG (R452). -/
def execTrialWatchdog (s : State) : Host.Outcome State Fault Refusal := s.act fun c => c.onA Chip.trialWatchdog

/-- NIMORA_REQA (R454). -/
def execNimoraReqa (wupa : Bool) (s : State) : Host.Outcome State Fault Refusal := s.act fun c => c.onA fun c => c.nimReqa wupa

/-- NIMORA_ANTICOLLISION (R454). -/
def execNimoraAnticollision (level : Fin 2) (bits : List Byte) (s : State) : Host.Outcome State Fault Refusal :=
  s.act fun c => c.onA fun c => c.nimSelect (level.val + 1) bits

/-- NIMORA_RATS (R454). -/
def execNimoraRats (cid : Fin 16) (s : State) : Host.Outcome State Fault Refusal := s.act fun c => c.onA fun c => c.nimRats cid.val

/-- NIMORA_HLTA (R454). -/
def execNimoraHlta (s : State) : Host.Outcome State Fault Refusal := s.act fun c => c.onA Chip.nimHlta

/-- NIMORA_DESELECT (R456). -/
def execNimoraDeselect (s : State) : Host.Outcome State Fault Refusal := s.act fun c => c.onA Chip.nimDeselect

/-- SELECT (R455, R456). -/
def execSelect (p1 : Byte) (p2 : Byte) (aid : List Byte) (s : State) : Host.Outcome State Fault Refusal :=
  s.act fun c => c.onA fun c => c.apduSelect p1 p2 aid

/-- GET_CHALLENGE (R455). -/
def execGetChallenge (p12 : BitVec 16) (le : BitVec 9) (s : State) : Host.Outcome State Fault Refusal :=
  s.act fun c => c.onA fun c => c.apduChallenge p12.toNat le.toNat

/-- AUTH (R456). -/
def execAuth (p12 : BitVec 16) (data : List Byte) (s : State) : Host.Outcome State Fault Refusal :=
  s.act fun c => c.onA fun c => c.apduAuth p12.toNat data

/-- GET_RESPONSE (R455). -/
def execGetResponse (le : BitVec 9) (s : State) : Host.Outcome State Fault Refusal := s.act fun c => c.onA fun c => c.apduMore le.toNat

/-- NIMORA_FIELD_LOST (R456, R458). -/
def execNimoraFieldLost (s : State) : Host.Outcome State Fault Refusal := s.act fun c => c.onA Chip.nimFieldLost

/-- RF_FIELD_DETECT (R464). -/
def execRfFieldDetect (s : State) : Host.Outcome State Fault Refusal := s.act fun c => c.onA Chip.rfField

end Sys2Proof.Machine
end

