-- ==== Sys2Proof/Machine/CmdBridge.lean ====
section
/-!
DEFINITION. Commands of the dies and the die bridge (R28–R36, R570) and of the boot sequence (R43–R46, R465, R537).
-/
namespace Sys2Proof.Machine

/-- RT_FRAME_RECEIVED (R28, R33). -/
def execRtFrameReceived (dir : BridgeDir) (q : FrameQuality) (t : BitVec 16) (s : State) : Host.Outcome State Fault Refusal :=
  s.act fun c => c.onL fun c => c.rtReceived (dir = .lToP) q t.toNat

/-- RT_FRAME_LAUNCH (R28). -/
def execRtFrameLaunch (meas : Readings) (s : State) : Host.Outcome State Fault Refusal := s.act fun c => c.rtLaunch meas

/-- BRIDGE_LOSS (R33). -/
def execBridgeLoss (dir : BridgeDir) (s : State) : Host.Outcome State Fault Refusal :=
  s.act fun c => c.onL fun c => c.bridgeLoss (dir = .lToP)

/-- REG_TIMEOUT (R32). -/
def execRegTimeout (m : Master) (s : State) : Host.Outcome State Fault Refusal := s.act fun c => c.onL fun c => c.regTimeout m

/-- P_DIE_READ_RETURN (R29, R30). -/
def execPDieReadReturn (m : Master) (s : State) : Host.Outcome State Fault Refusal := s.act fun c => c.onL fun c => c.readReturn m

/-- POSTED_WRITE_APPLIED (R31). -/
def execPostedWriteApplied (m : Master) (s : State) : Host.Outcome State Fault Refusal :=
  s.act fun c => c.onL fun c => (c.postedApplied m).settle

/-- RETRAIN (R570). -/
def execRetrain (m : Master) (s : State) : Host.Outcome State Fault Refusal := s.act fun c => c.regWrite m Reg.DBR_TRN 1#32

/-- RETRAIN_DONE (R570). -/
def execRetrainDone (s : State) : Host.Outcome State Fault Refusal := s.act fun c => c.onL Chip.retrainDone

/-- RETRAIN_TIMEOUT (R570). -/
def execRetrainTimeout (s : State) : Host.Outcome State Fault Refusal := s.act fun c => c.onL Chip.retrainTimeout

/-- MIRROR_UPDATE (R36). -/
def execMirrorUpdate (ms : BitVec 16) (s : State) : Host.Outcome State Fault Refusal := s.act fun c => c.mirrors ms.toNat

/-- AON_POR (R465). -/
def execAonPor (sup : Supply) (s : State) : Host.Outcome State Fault Refusal :=
  s.act fun c => c.aonPor (match sup with | .vsys => 0 | .vsto => 1 | .vbat => 2)

/-- BOOT_STAGE_COMPLETE (R43). -/
def execBootStageComplete (ok : Bool) (s : State) : Host.Outcome State Fault Refusal := s.act fun c => c.onA fun c => c.bootStage ok

/-- BOOT_FAIL_RECORD_RETRY (R45). -/
def execBootFailRecordRetry (s : State) : Host.Outcome State Fault Refusal := s.act fun c => c.onA Chip.bootRecordRetry

/-- LOAD_TIMEOUT (R537). -/
def execLoadTimeout (s : State) : Host.Outcome State Fault Refusal := s.act fun c => c.onA Chip.loadTimeout

end Sys2Proof.Machine
end

