-- ==== Sys2Proof/Machine/CmdDoc.lean ====
section
/-!
DEFINITION. Commands of the document engine (chapter 3). An engine command arrives in a CMD packet (op 0x06): the bridge makes its checks
(R366), the DOC decoder its own (R100), and the answer goes to the client.
-/
namespace Sys2Proof.Machine

/-- A CMD packet with an engine command's code and the bytes that follow it (R98). -/
def Chip.engineCmd (s : Chip) (h : Hdr) (code : Nat) (args : List Byte) : Chip :=
  s.onL fun s => s.packet h 6 (BitVec.ofNat 8 code :: args)

/-- WAKE (R98). -/
def execWake (h : Hdr) (args : List Byte) (s : State) : Host.Outcome State Fault Refusal :=
  s.act fun c => c.engineCmd h Cmd.wake args

/-- OFF (R98, R108). -/
def execOff (h : Hdr) (args : List Byte) (s : State) : Host.Outcome State Fault Refusal :=
  s.act fun c => c.engineCmd h Cmd.off args

/-- START (R99). -/
def execStart (h : Hdr) (args : List Byte) (s : State) : Host.Outcome State Fault Refusal :=
  s.act fun c => c.engineCmd h Cmd.start args

/-- ABORT (R108). -/
def execAbort (h : Hdr) (args : List Byte) (s : State) : Host.Outcome State Fault Refusal :=
  s.act fun c => c.engineCmd h Cmd.abort args

/-- DRAIN (R98). -/
def execDrain (h : Hdr) (args : List Byte) (s : State) : Host.Outcome State Fault Refusal :=
  s.act fun c => c.engineCmd h Cmd.drain args

/-- HALT (R108). -/
def execHalt (h : Hdr) (args : List Byte) (s : State) : Host.Outcome State Fault Refusal :=
  s.act fun c => c.engineCmd h Cmd.halt args

/-- RESUME (R108). -/
def execResume (h : Hdr) (args : List Byte) (s : State) : Host.Outcome State Fault Refusal :=
  s.act fun c => c.engineCmd h Cmd.resume args

/-- CLEAR (R519). -/
def execClear (h : Hdr) (args : List Byte) (s : State) : Host.Outcome State Fault Refusal :=
  s.act fun c => c.engineCmd h Cmd.clear args

/-- SERVICE (R98). -/
def execService (h : Hdr) (args : List Byte) (s : State) : Host.Outcome State Fault Refusal :=
  s.act fun c => c.engineCmd h Cmd.service args

/-- EXIT (R98). -/
def execExit (h : Hdr) (args : List Byte) (s : State) : Host.Outcome State Fault Refusal :=
  s.act fun c => c.engineCmd h Cmd.exit args

/-- STATUS (R104). -/
def execStatus (h : Hdr) (args : List Byte) (s : State) : Host.Outcome State Fault Refusal :=
  s.act fun c => c.engineCmd h Cmd.status args

/-- REPGET (R118). -/
def execRepget (h : Hdr) (args : List Byte) (s : State) : Host.Outcome State Fault Refusal :=
  s.act fun c => c.engineCmd h Cmd.repget args

/-- REPACK (R118). -/
def execRepack (h : Hdr) (args : List Byte) (s : State) : Host.Outcome State Fault Refusal :=
  s.act fun c => c.engineCmd h Cmd.repack args

/-- WAKE_COMPLETE (R92). -/
def execWakeComplete (s : State) : Host.Outcome State Fault Refusal := s.act fun c => c.onL Chip.wakeComplete

/-- WAKE_TIMEOUT (R92). -/
def execWakeTimeout (s : State) : Host.Outcome State Fault Refusal :=
  s.act fun c => c.onL fun c => if c.engine = Eng.waking then c.timeoutFault else c

/-- WARMUP_TIMEOUT (R92). -/
def execWarmupTimeout (s : State) : Host.Outcome State Fault Refusal :=
  s.act fun c => c.onL fun c => if c.engine = Eng.warmup then c.timeoutFault else c

/-- IDLE_TIMEOUT (R93). -/
def execIdleTimeout (s : State) : Host.Outcome State Fault Refusal := s.act fun c => c.onL Chip.idleTimeout

/-- HEAT_BAND_ENTER (R92, R137). -/
def execHeatBandEnter (s : State) : Host.Outcome State Fault Refusal := s.act fun c => c.onL Chip.heatEnter

/-- HEAT_BAND_LEAVE (R92, R137). -/
def execHeatBandLeave (s : State) : Host.Outcome State Fault Refusal := s.act fun c => c.onL Chip.heatLeave

/-- The report of the last admitted item brings a document boundary (R73), before the decision point of its cycle (R142). -/
def Chip.reported (before s : Chip) : Chip :=
  (if !before.noneAdmitted && s.noneAdmitted then s.docBoundary hooks else s).journalIdle

/-- JOURNAL_COMMIT_DONE (R111, R569). -/
def execJournalCommitDone (s : State) : Host.Outcome State Fault Refusal :=
  s.act fun c => c.onL fun c => (Chip.reported c c.journalDone).settle

/-- JOURNAL_CLOSE_RETRY (R112). -/
def execJournalCloseRetry (item : BitVec 32) (s : State) : Host.Outcome State Fault Refusal :=
  s.act fun c => c.onA fun c => c.closeRetry item.toNat

/-- ADMIT_WAIT_EXPIRY (R110). -/
def execAdmitWaitExpiry (item : BitVec 32) (s : State) : Host.Outcome State Fault Refusal :=
  s.act fun c => c.onL fun c => c.admitExpiry item.toNat

/-- HOST_DRAIN_TIMEOUT (R106). -/
def execHostDrainTimeout (item : BitVec 32) (s : State) : Host.Outcome State Fault Refusal :=
  s.act fun c => c.onL fun c => c.drainTimeout item.toNat

/-- ITEM_REPORT_ISSUE (R105, R118). -/
def execItemReportIssue (item : BitVec 32) (s : State) : Host.Outcome State Fault Refusal :=
  s.act fun c => c.onL fun c => Chip.reported c (c.reportIssue item.toNat)

end Sys2Proof.Machine
end

