-- ==== Sys2Proof/Machine/CmdHost.lean ====
section
/-!
DEFINITION. Commands of the host link (chapter 13): USB, SPI, packets. A packet row gives the header and payload as they arrive; the
bridge reads LEN from the payload and makes its checks (R357, R366).
-/
namespace Sys2Proof.Machine

/-- USB_BUS_RESET (R349). VBUS is a level at a ball, noted whatever is powered. -/
def execUsbBusReset (cause : Fin 3) (hs : Bool) (s : State) : Host.Outcome State Fault Refusal :=
  s.act fun c => if cause.val = 1 then c.vbusLost else c.onL fun c => c.usbReset cause.val hs

/-- USB_STANDARD_REQUEST (R346). -/
def execUsbStandardRequest (typ : Byte) (req : Byte) (value : BitVec 16) (index : BitVec 16) (len : BitVec 16) (s : State) :
    Host.Outcome State Fault Refusal :=
  s.act fun c => c.onL fun c => c.usbRequest typ.toNat req.toNat value.toNat index.toNat len.toNat

/-- USB_SUSPEND (R348). -/
def execUsbSuspend (s : State) : Host.Outcome State Fault Refusal := s.act fun c => c.onL Chip.usbSuspend

/-- USB_RESUME (R348). -/
def execUsbResume (s : State) : Host.Outcome State Fault Refusal := s.act fun c => c.onL Chip.usbResume

/-- USB_REMOTE_WAKEUP (R348). -/
def execUsbRemoteWakeup (s : State) : Host.Outcome State Fault Refusal := s.act fun c => c.onL Chip.usbWakeup

/-- The pads of an SPI transaction: CS, SCLK and IO0 (R554). -/
abbrev spiPads : List Nat := [30, 31, 32]

/-- SPI_STAT (R352). -/
def execSpiStat (s : State) : Host.Outcome State Fault Refusal :=
  s.act fun c => c.onPads spiPads Chip.spiStat

/-- SPI_WRITE (R353). -/
def execSpiWrite (head : SpiHead) (data : List Byte) (crcOk : Bool) (s : State) : Host.Outcome State Fault Refusal :=
  s.act fun c => c.onPads spiPads fun c => c.spiInstr head fun c => c.spiWrite head.ch.val data crcOk

/-- SPI_READ (R354). -/
def execSpiRead (head : SpiHead) (m : BitVec 16) (got : Option (BitVec 16)) (s : State) :
    Host.Outcome State Fault Refusal :=
  s.act fun c => c.onPads spiPads fun c => (c.spiInstr head fun c => c.spiRead head.ch.val m.toNat (got.map (·.toNat))).settle

/-- SPI_ACK (R354). -/
def execSpiAck (head : SpiHead) (n : BitVec 16) (s : State) : Host.Outcome State Fault Refusal :=
  s.act fun c => c.onPads spiPads fun c => (c.spiInstr head fun c => c.spiAck head.ch.val n.toNat).settle

/-- SPI_RESET (R355). -/
def execSpiReset (s : State) : Host.Outcome State Fault Refusal :=
  s.act fun c => c.onPads spiPads Chip.spiReset

/-- SPI_CS_TIMEOUT (R497). -/
def execSpiCsTimeout (s : State) : Host.Outcome State Fault Refusal := s.act fun c => c.onL Chip.spiTimeout

/-- RD, op 0x01 (R357). -/
def execRd (h : Hdr) (payload : List Byte) (s : State) : Host.Outcome State Fault Refusal :=
  s.act fun c => c.onL fun c => c.packet h 1 payload

/-- WR, op 0x02 (R357). -/
def execWr (h : Hdr) (payload : List Byte) (s : State) : Host.Outcome State Fault Refusal :=
  s.act fun c => c.onL fun c => c.packet h 2 payload

/-- WRN, op 0x03 (R357). -/
def execWrn (h : Hdr) (payload : List Byte) (s : State) : Host.Outcome State Fault Refusal :=
  s.act fun c => c.onL fun c => c.packet h 3 payload

/-- BLKRD, op 0x04 (R358). -/
def execBlkrd (h : Hdr) (payload : List Byte) (s : State) : Host.Outcome State Fault Refusal :=
  s.act fun c => c.onL fun c => c.packet h 4 payload

/-- BLKWR, op 0x05 (R358). -/
def execBlkwr (h : Hdr) (payload : List Byte) (s : State) : Host.Outcome State Fault Refusal :=
  s.act fun c => c.onL fun c => c.packet h 5 payload

/-- TUN, op 0x07 (R385). -/
def execTun (h : Hdr) (payload : List Byte) (s : State) : Host.Outcome State Fault Refusal :=
  s.act fun c => c.onL fun c => c.packet h 7 payload

/-- QUOTE, op 0x0A (R447). -/
def execQuote (h : Hdr) (payload : List Byte) (s : State) : Host.Outcome State Fault Refusal :=
  s.act fun c => c.onL fun c => c.packet h 10 payload

/-- The payload of a WRN that writes one word. -/
def onePair (a v : Nat) : List Byte := leBytes 4 a ++ leBytes 4 v

/-- CLIENT_OPEN (R361): a WRN that writes the sender's own ID to CLI.OPN. -/
def execClientOpen (h : Hdr) (s : State) : Host.Outcome State Fault Refusal :=
  s.act fun c => c.onL fun c => c.packet h 3 (onePair Reg.CLI_OPN h.clid.toNat)

/-- CLIENT_CLOSE (R362): a WRN that writes an ID to CLI.CLS. -/
def execClientClose (h : Hdr) (id : Byte) (s : State) : Host.Outcome State Fault Refusal :=
  s.act fun c => c.onL fun c => c.packet h 3 (onePair Reg.CLI_CLS id.toNat)

/-- RESPONSE_DELIVERED (R363). -/
def execResponseDelivered (refusal : Bool) (s : State) : Host.Outcome State Fault Refusal :=
  s.act fun c => c.onL fun c => (c.responseDelivered refusal).settle

/-- VBUS_DETECT (R344): a level at a ball, noted whatever is powered. -/
def execVbusDetect (s : State) : Host.Outcome State Fault Refusal := s.act Chip.vbusDetect

/-- EP5_PRINT_DATA (R374). -/
def execEp5PrintData (data : List Byte) (s : State) : Host.Outcome State Fault Refusal := s.act fun c => c.onL fun c => c.ep5Data data

end Sys2Proof.Machine
end

