-- ==== Sys2Proof/Machine/CmdMark.lean ====
section
/-!
DEFINITION. Commands of the marking station (chapter 7).
-/
namespace Sys2Proof.Machine

/-- JOB_LOAD (R197). -/
def execJobLoad (s : State) : Host.Outcome State Fault Refusal := s.act fun c => c.onL fun c => c.jobLoad.settle

/-- JOB_LOAD_DONE (R197, R199). -/
def execJobLoadDone (s : State) : Host.Outcome State Fault Refusal := s.act fun c => c.onL fun c => c.jobLoadDone.settle

/-- JOB_DELETE (R200, R220). -/
def execJobDelete (m : Master) (v : Word) (s : State) : Host.Outcome State Fault Refusal :=
  s.act fun c => c.regWrite m Reg.MRK_JDEL v

/-- BAND_FETCH (R202). -/
def execBandFetch (s : State) : Host.Outcome State Fault Refusal := s.act fun c => c.onL Chip.bandFetch

/-- HV_CHANNEL_SETTLED (R204). -/
def execHvChannelSettled (ch : Fin 4) (s : State) : Host.Outcome State Fault Refusal := s.act fun c => c.onL fun c => c.hvChannel ch.val

/-- HV_OV (R203). -/
def execHvOv (ch : Fin 4) (s : State) : Host.Outcome State Fault Refusal := s.act fun c => c.onP fun c => c.hvOver ch.val

/-- FUSER_CUT (R208). -/
def execFuserCut (cause : Fin 3) (s : State) : Host.Outcome State Fault Refusal := s.act fun c => c.onP fun c => c.fuserCut cause.val

/-- TH_DISAG (R209). -/
def execThDisag (s : State) : Host.Outcome State Fault Refusal := s.act fun c => c.onP Chip.thDisag

/-- HEAT (R211). -/
def execHeat (s : State) : Host.Outcome State Fault Refusal := s.act fun c => c.onL Chip.heatFail

end Sys2Proof.Machine
end

