-- ==== Sys2Proof/Machine/CmdMotion.lean ====
section
/-!
DEFINITION. Commands of motion and transport (chapter 8) and of the Heliostat (chapter 9).
-/
namespace Sys2Proof.Machine

/-- SENSOR_EDGE (R226). -/
def execSensorEdge (n : Fin 6) (v : BitVec 10) (raw : Nat) (level : BitVec 10) (t : BitVec 16) (s : State) :
    Host.Outcome State Fault Refusal := s.act fun c => c.onL fun c => c.sensorEdge n.val v.toNat raw level.toNat t.toNat

/-- EDGE_WINDOW_EXPIRY (R230). -/
def execEdgeWindowExpiry (item : BitVec 32) (role : Fin 8) (lead : Bool) (s : State) : Host.Outcome State Fault Refusal :=
  s.act fun c => c.onL fun c => c.windowExpiry item.toNat role.val lead

/-- TRANSPORT_STOPPED (R240). -/
def execTransportStopped (s : State) : Host.Outcome State Fault Refusal := s.act fun c => c.onL Chip.transportStopped

/-- The quadrature pads of an axis (R554). -/
abbrev encPads (a : Nat) : List Nat := [22 + 3 * a, 23 + 3 * a]

/-- ENCODER_COUNT (R234); of an axis that runs open-loop, a microstep, which needs no pad (R236). -/
def execEncoderCount (axis : Fin 2) (up : Bool) (t : Nat) (s : State) : Host.Outcome State Fault Refusal :=
  s.act fun c => c.onPads (if (c.axis axis.val).openLoop then [] else encPads axis.val) fun c => c.encoderCount hooks axis.val up t

/-- ENCODER_INDEX (R234). -/
def execEncoderIndex (axis : Fin 2) (s : State) : Host.Outcome State Fault Refusal := 
  s.act fun c => c.onPads [24 + 3 * axis.val] fun c => c.encoderIndex axis.val

/-- ENCODER_LOST (R234). -/
def execEncoderLost (axis : Fin 2) (n : BitVec 8) (s : State) : Host.Outcome State Fault Refusal :=
  s.act fun c => c.onPads (encPads axis.val) fun c => c.encoderErrors axis.val n.toNat

/-- STALL (R241). -/
def execStall (axis : Fin 2) (s : State) : Host.Outcome State Fault Refusal := s.act fun c => c.onL fun c => c.stall axis.val

/-- BRIDGE_OC (R235). -/
def execBridgeOc (bridge : Fin 4) (ma : BitVec 16) (s : State) : Host.Outcome State Fault Refusal :=
  s.act fun c => c.onP fun c => c.bridgeOc bridge.val ma.toNat

/-- POLY_ALIGN_DONE (R237). -/
def execPolyAlignDone (s : State) : Host.Outcome State Fault Refusal := s.act fun c => c.onP Chip.polyAligned

/-- POLY_HANDOVER (R237). -/
def execPolyHandover (s : State) : Host.Outcome State Fault Refusal := s.act fun c => c.onP Chip.polyHandover

/-- POLY_START_TIMEOUT (R237). -/
def execPolyStartTimeout (s : State) : Host.Outcome State Fault Refusal := s.act fun c => c.onP Chip.polyTimeout

/-- POLY_OVSPD (R238). -/
def execPolyOvspd (rpm : BitVec 16) (s : State) : Host.Outcome State Fault Refusal := s.act fun c => c.onP fun c => c.polyOverspeed rpm.toNat

/-- SOL_PEAK_END (R239). -/
def execSolPeakEnd (n : Fin 6) (s : State) : Host.Outcome State Fault Refusal := s.act fun c => c.onP fun c => c.solPeakEnd n.val

/-- SOL_OC (R239). -/
def execSolOc (n : Fin 6) (s : State) : Host.Outcome State Fault Refusal := s.act fun c => c.onP fun c => c.solOc n.val

/-- SOL_OPEN_LOAD (R239). -/
def execSolOpenLoad (n : Fin 6) (s : State) : Host.Outcome State Fault Refusal := s.act fun c => c.onP fun c => c.solOpenLoad n.val

/-- HELIOSTAT_FRAME (R249). -/
def execHeliostatFrame (t : Nat) (comm : BitVec 32) (s : State) : Host.Outcome State Fault Refusal :=
  s.act fun c => c.onL fun c => c.helFrame hooks t comm.toNat

/-- MCMD (R250). -/
def execMcmd (m : Master) (v : Word) (s : State) : Host.Outcome State Fault Refusal := s.act fun c => c.regWrite m Reg.HEL_MCMD v

/-- TABLE_ACCESS (R268). -/
def execTableAccess (m : Master) (w : Option Word) (s : State) : Host.Outcome State Fault Refusal :=
  s.act fun c => c.regAccess m Reg.HTB_TDA w

end Sys2Proof.Machine
end

