-- ==== Sys2Proof/Machine/CmdOrrery.lean ====
section
/-!
DEFINITION. Commands of the Orrery (chapters 10 and 11).
-/
namespace Sys2Proof.Machine

/-- MICROWORD_EXECUTE (R270). -/
def execMicrowordExecute (ctx : Fin 4) (err : Fin 3) (s : State) : Host.Outcome State Fault Refusal :=
  s.act fun c => c.onL fun c => c.runSlot ctx err.val

/-- WAIT_TIMEOUT (R276). -/
def execWaitTimeout (ctx : Fin 4) (s : State) : Host.Outcome State Fault Refusal := s.act fun c => c.onL fun c => c.waitTimeout ctx

/-- WAIT_SATISFIED (R275). -/
def execWaitSatisfied (ctx : Fin 4) (s : State) : Host.Outcome State Fault Refusal := s.act fun c => c.onL fun c => c.waitSatisfied ctx

/-- DISPATCH_PREEMPT (R279). -/
def execDispatchPreempt (ctx : Fin 4) (s : State) : Host.Outcome State Fault Refusal :=
  s.act fun c => c.onL fun c => c.dispatchPreempt ctx

/-- YIELD_WAKE (R283). -/
def execYieldWake (ctx : Fin 4) (s : State) : Host.Outcome State Fault Refusal := s.act fun c => c.onL fun c => c.yieldWake ctx

/-- CONTEXT_WATCHDOG (R284). -/
def execContextWatchdog (ctx : Fin 4) (s : State) : Host.Outcome State Fault Refusal := s.act fun c => c.onL fun c => c.ctxWatchdog ctx.val

/-- CONTEXT_TIMER_EXPIRY (R316). -/
def execContextTimerExpiry (ctx : Fin 4) (n : Fin 4) (s : State) : Host.Outcome State Fault Refusal :=
  s.act fun c => c.onL fun c => c.timerExpiry ctx.val n.val

/-- SWAP_ARM (R291). -/
def execSwapArm (m : Master) (s : State) : Host.Outcome State Fault Refusal := s.act fun c => c.regWrite m Reg.ORR_SWP 1#32

/-- SWAP_MEASURE_DONE (R291); a QUOTE that waited for the measurement runs (R448). -/
def execSwapMeasureDone (s : State) : Host.Outcome State Fault Refusal := s.act fun c => c.onL fun c => c.swapMeasured.settle

/-- SWAP_DISARM (R291). -/
def execSwapDisarm (m : Master) (s : State) : Host.Outcome State Fault Refusal := s.act fun c => c.regWrite m Reg.ORR_SWP 2#32

/-- BANK_SWAP (R291). -/
def execBankSwap (s : State) : Host.Outcome State Fault Refusal := s.act fun c => c.onL fun c => c.bankSwap hooks

/-- CONTEXT_STOP (R296). -/
def execContextStop (m : Master) (ctx : Fin 4) (s : State) : Host.Outcome State Fault Refusal :=
  s.act fun c => c.regWrite m Reg.ORC_CMD (BitVec.ofNat 32 (0x100 + ctx.val))

/-- CONTEXT_RESTART (R296). -/
def execContextRestart (m : Master) (ctx : Fin 4) (s : State) : Host.Outcome State Fault Refusal :=
  s.act fun c => c.regWrite m Reg.ORC_CMD (BitVec.ofNat 32 (0x200 + ctx.val))

end Sys2Proof.Machine
end

