-- ==== Sys2Proof/Machine/CmdPages.lean ====
section
/-!
DEFINITION. Commands of the register pages (chapter 2): writes by address, aliases, guarded registers, pending shadows, held writes,
ownership.
-/
namespace Sys2Proof.Machine

/-- REGISTER_WRITE (R84). -/
def execRegisterWrite (m : Master) (addr : BitVec 32) (v : Word) (s : State) : Host.Outcome State Fault Refusal :=
  s.act fun c => c.busWrite m addr.toNat v

/-- SET_ALIAS_WRITE (R60): the alias of the register at `addr`. -/
def execSetAliasWrite (m : Master) (addr : BitVec 32) (v : Word) (s : State) : Host.Outcome State Fault Refusal :=
  s.act fun c => c.busWrite m (addr.toNat + 0x1000) v

/-- CLR_ALIAS_WRITE (R60). -/
def execClrAliasWrite (m : Master) (addr : BitVec 32) (v : Word) (s : State) : Host.Outcome State Fault Refusal :=
  s.act fun c => c.busWrite m (addr.toNat + 0x2000) v

/-- TOG_ALIAS_WRITE (R60). -/
def execTogAliasWrite (m : Master) (addr : BitVec 32) (v : Word) (s : State) : Host.Outcome State Fault Refusal :=
  s.act fun c => c.busWrite m (addr.toNat + 0x3000) v

/-- GUARD_VALUE_WRITE (R63). -/
def execGuardValueWrite (m : Master) (addr : BitVec 32) (v : Word) (s : State) : Host.Outcome State Fault Refusal :=
  s.act fun c => c.busWrite m addr.toNat v

/-- GUARD_TWIN_WRITE (R63): `v` at the twin of the guarded register at `addr`. -/
def execGuardTwinWrite (m : Master) (addr : BitVec 32) (v : Word) (s : State) : Host.Outcome State Fault Refusal :=
  s.act fun c => c.busWrite m (addr.toNat + 0x800) v

/-- The window of page `b` ends; a request that waits for the held value write that is lost gets 0x32. -/
def Chip.windowEnds (s : Chip) (b : Nat) : Chip :=
  match s.loneOn b with
  | some w =>
    let i := ((s.held.filter (·.page == b)).takeWhile fun x => x != w).countP (·.asked)
    if w.asked then ((s.guardExpiry b).heldLost b i).settle else s.guardExpiry b
  | none => s.guardExpiry b

/-- GUARD_WINDOW_EXPIRY (R64). -/
def execGuardWindowExpiry (pg : PageSel) (s : State) : Host.Outcome State Fault Refusal :=
  s.act fun c => c.onA fun c => c.windowEnds (pageBase pg)

/-- CFS_DROP (R58). -/
def execCfsDrop (m : Master) (pg : PageSel) (s : State) : Host.Outcome State Fault Refusal :=
  s.act fun c => c.regWrite m (pageBase pg + 0x1C) 8#32

/-- HELD_WRITE_APPLY (R68, R87). -/
def execHeldWriteApply (pg : PageSel) (s : State) : Host.Outcome State Fault Refusal :=
  s.act fun c => c.onA fun c =>
    if c.on (hENA (gateOf (pageBase pg))) then c
    else
      let (sts, t) := c.heldApplied (pageBase pg)
      (t.resumeHeld (pageBase pg) sts).settle

/-- BLOCK_STOPPED (R58). -/
def execBlockStopped (pg : PageSel) (s : State) : Host.Outcome State Fault Refusal :=
  s.act fun c => c.onA fun c => c.blockStopped (pageBase pg)

/-- OWNERSHIP_WRITE (R82). -/
def execOwnershipWrite (m : Master) (pg : PageSel) (v : Word) (s : State) : Host.Outcome State Fault Refusal :=
  s.act fun c => c.regWrite m (pageBase pg + 0x20) v

end Sys2Proof.Machine
end

