-- ==== Sys2Proof/Machine/CmdPower.lean ====
section
/-!
DEFINITION. Commands of supply, hold-up reserve and Energy Ledger (chapter 4).
-/
namespace Sys2Proof.Machine

/-- VIN_OVERVOLTAGE (R125). -/
def execVinOvervoltage (mv : BitVec 16) (s : State) : Host.Outcome State Fault Refusal :=
  s.act fun c => c.onP fun c => c.vinOver mv.toNat

/-- BROWNOUT_WARNING (R125). -/
def execBrownoutWarning (mv : BitVec 16) (s : State) : Host.Outcome State Fault Refusal :=
  s.act fun c => c.onP fun c => c.vinBrownout mv.toNat

/-- POWER_FAIL (R126, R132). -/
def execPowerFail (mv : BitVec 16) (s : State) : Host.Outcome State Fault Refusal :=
  s.act fun c => c.onP fun c => c.powerFail mv.toNat

/-- SAFE_STOP_SAVES (R132, R571). The safe stop runs to its end (R126), also where VSYS has collapsed before it (R131). -/
def execSafeStopSaves (s : State) : Host.Outcome State Fault Refusal := s.act fun c => c.onA Chip.safeStopSaves

/-- SAFE_STOP_L_DIE_OFF (R132). -/
def execSafeStopLDieOff (s : State) : Host.Outcome State Fault Refusal := s.act fun c => c.onA Chip.safeStopOff

/-- SAFE_STOP_END (R50, R132, R133, R478). -/
def execSafeStopEnd (s : State) : Host.Outcome State Fault Refusal := s.act fun c => c.onA Chip.safeStopLeave

/-- RAIL_FAULT (R124): the host's side comes up with a failure from stage BRIDGE on (R46, R344). -/
def execRailFault (rail : Fin 4) (mv : BitVec 16) (s : State) : Host.Outcome State Fault Refusal :=
  s.act fun c => c.onP fun c => c.railFailed rail.val mv.toNat

/-- RAIL_RECOVERY (R124, R530). -/
def execRailRecovery (s : State) : Host.Outcome State Fault Refusal := s.act fun c => c.onP Chip.railRecovery

/-- LIMITER_SHED (R127). -/
def execLimiterShed (pin : BitVec 16) (iin : BitVec 16) (s : State) : Host.Outcome State Fault Refusal :=
  s.act fun c => c.onP fun c => c.shed pin.toNat iin.toNat

/-- SHED_END (R127). -/
def execShedEnd (pin : BitVec 16) (iin : BitVec 16) (s : State) : Host.Outcome State Fault Refusal :=
  s.act fun c => c.onP fun c => c.shedEnd pin.toNat iin.toNat

/-- PWR_LIMIT (R127). -/
def execPwrLimit (pin : BitVec 16) (s : State) : Host.Outcome State Fault Refusal :=
  s.act fun c => c.onP fun c => c.pwrLimit pin.toNat

/-- ILIM_TRIP (R127). -/
def execIlimTrip (iin : BitVec 16) (s : State) : Host.Outcome State Fault Refusal :=
  s.act fun c => c.onP fun c => c.ilimTrip iin.toNat

/-- RESERVE_TEST_START (R129). -/
def execReserveTestStart (s : State) : Host.Outcome State Fault Refusal := s.act fun c => c.onP fun c => c.reserveTest c.testPeriodic

/-- TCMD_RUN (R129). -/
def execTcmdRun (m : Master) (s : State) : Host.Outcome State Fault Refusal := s.act fun c => c.regWrite m Reg.RES_TCMD 1#32

/-- RESERVE_TEST_DONE (R130, R142); the host's side comes up with a boot failure at stage RESERVE (R46, R344). -/
def execReserveTestDone (esr : BitVec 12) (c : BitVec 16) (s : State) : Host.Outcome State Fault Refusal :=
  s.act fun k => k.onP fun k => (k.reserveDone esr.toNat c.toNat).usbAttach

/-- RESERVE_VALID_EXPIRY (R130). -/
def execReserveValidExpiry (vres : BitVec 16) (s : State) : Host.Outcome State Fault Refusal :=
  s.act fun c => c.onP fun c => c.validExpiry vres.toNat

/-- LEDGER_DECISION_TICK (R142). -/
def execLedgerDecisionTick (s : State) : Host.Outcome State Fault Refusal := s.act fun c => c.onL Chip.decision

/-- A commit of an ADMITTED record counts its item's start bin down with the bins. -/
def Commit.aged (c : Commit) : Commit :=
  match c.kind with
  | .admission t0 => { c with kind := .admission (t0 - 1) }
  | _ => c

/-- The timeline advances by a bin (R136, R140, R143): windows move on, those that end are released, items whose start bin has come
start (R229), and TICK is raised. -/
def Chip.binTick (s : Chip) : Chip :=
  let segs := (s.pow.segs.map fun x => { x with lo := x.lo - 1, hi := x.hi - 1 }).filter fun x => 0 < x.hi
  let zones := (s.pow.zones.map fun x => { x with lo := x.lo - 1, hi := x.hi - 1 }).filter fun x => 0 < x.hi
  let nips := (s.pow.nips.map fun x => { x with lo := x.lo - 1, hi := x.hi - 1 }).filter fun x => 0 < x.hi
  let s := { s with pow := { s.pow with segs := segs, zones := zones, nips := nips },
                    doc := { s.doc with commits := s.doc.commits.map Commit.aged } }
  (s.event Ev.tick).ageTracks

/-- LEDGER_BIN_TICK (R143). -/
def execLedgerBinTick (s : State) : Host.Outcome State Fault Refusal := s.act fun c => c.onL Chip.binTick

end Sys2Proof.Machine
end

