-- ==== Sys2Proof/Machine/CmdRetain.lean ====
section
/-!
DEFINITION. Commands of harvest and retention (chapter 17) and of clocks and pads (chapter 18).
-/
namespace Sys2Proof.Machine

/-- VSTO_THRESHOLD_CROSS (R461). -/
def execVstoThresholdCross (th : Fin 6) (up : Bool) (s : State) : Host.Outcome State Fault Refusal :=
  s.act fun c => c.onA fun c => c.vstoCross th.val up

/-- SUPPLY_SWITCH (R466). -/
def execSupplySwitch (vsto : BitVec 16) (vbat : BitVec 16) (run : Bool) (s : State) : Host.Outcome State Fault Refusal :=
  s.act fun c => c.onA fun c => c.supplySwitch vsto.toNat vbat.toNat run

/-- LDARK_EXPIRY (R466). -/
def execLdarkExpiry (vbat : BitVec 16) (s : State) : Host.Outcome State Fault Refusal :=
  s.act fun c => c.onA fun c => c.ldarkExpiry vbat.toNat

/-- AON_SHUTDOWN (R414, R466). -/
def execAonShutdown (k : Nat) (s : State) : Host.Outcome State Fault Refusal := s.act fun c => c.onA fun c => c.aonShutdown k

/-- MPPT_SAMPLE (R463). -/
def execMpptSample (voc : BitVec 16) (s : State) : Host.Outcome State Fault Refusal := s.act fun c => c.onA fun c => c.mpptSample voc.toNat

/-- IDLE_ENTRY (R473). -/
def execIdleEntry (s : State) : Host.Outcome State Fault Refusal := s.act fun c => c.onL Chip.idleEntry

/-- IDLE_EXIT (R473). -/
def execIdleExit (s : State) : Host.Outcome State Fault Refusal := s.act fun c => c.onL Chip.idleExit

/-- STANDBY_REQUEST (R474). -/
def execStandbyRequest (m : Master) (s : State) : Host.Outcome State Fault Refusal := s.act fun c => c.regPair m Reg.RET_REQ 0x04#32

/-- HIBERNATE_REQUEST (R474). -/
def execHibernateRequest (m : Master) (s : State) : Host.Outcome State Fault Refusal := s.act fun c => c.regPair m Reg.RET_REQ 0x08#32

/-- SHIP_REQUEST (R474). -/
def execShipRequest (m : Master) (s : State) : Host.Outcome State Fault Refusal := s.act fun c => c.regPair m Reg.RET_REQ 0x20#32

/-- STANDBY_ENTRY (R475, R485). -/
def execStandbyEntry (s : State) : Host.Outcome State Fault Refusal := s.act fun c => c.onL fun c => c.wakeAfter c.standbyEntry Chip.standbyWake

/-- HIBERNATE_ENTRY (R476, R485). -/
def execHibernateEntry (s : State) : Host.Outcome State Fault Refusal := s.act fun c => c.onL fun c => c.wakeAfter c.hibernateEntry Chip.hibernateWake

/-- SHIP_ENTRY (R477). -/
def execShipEntry (s : State) : Host.Outcome State Fault Refusal := s.act fun c => c.onL Chip.shipEntry

/-- STANDBY_WAKE (R479, R480). -/
def execStandbyWake (src : BitVec 9) (s : State) : Host.Outcome State Fault Refusal := s.act fun c => c.onA fun c => c.standbyWake src.toNat

/-- HIBERNATE_WAKE (R47, R480). -/
def execHibernateWake (src : BitVec 9) (s : State) : Host.Outcome State Fault Refusal :=
  s.act fun c => c.onA fun c => c.hibernateWake src.toNat

/-- PAD_RELEASE (R483). -/
def execPadRelease (m : Master) (s : State) : Host.Outcome State Fault Refusal := s.act fun c => c.regPair m Reg.PPD_REL 1#32

/-- VIN_RETURN (R50, R477, R478): VIN-detect works whatever is powered. -/
def execVinReturn (s : State) : Host.Outcome State Fault Refusal := s.act Chip.vinReturn

/-- RTC_ALARM (R484). -/
def execRtcAlarm (s : State) : Host.Outcome State Fault Refusal := s.act fun c => c.onA Chip.rtcAlarm

/-- RTC_SET (R484). -/
def execRtcSet (m : Master) (v : Word) (s : State) : Host.Outcome State Fault Refusal := s.act fun c => c.regWrite m Reg.RTC_SEC v

/-- XTAL32_LOSS (R489). -/
def execXtal32Loss (s : State) : Host.Outcome State Fault Refusal := s.act fun c => c.onA Chip.xtalLoss

/-- XTAL32_RETURN (R484). -/
def execXtal32Return (s : State) : Host.Outcome State Fault Refusal := s.act fun c => c.onA Chip.xtalReturn

/-- RC_CALIBRATION (R484). -/
def execRcCalibration (s : State) : Host.Outcome State Fault Refusal := s.act fun c => c.onA Chip.rcCalibrate

/-- CLK_LOSS (R490). -/
def execClkLoss (sub : Fin 2) (s : State) : Host.Outcome State Fault Refusal :=
  s.act fun c => c.onL fun c => c.clockLost sub.val

/-- PLL_RELOCK (R490). -/
def execPllRelock (s : State) : Host.Outcome State Fault Refusal := s.act fun c => c.onL Chip.clockBack

/-- FREQ_MONITOR_WINDOW (R491). -/
def execFreqMonitorWindow (n : Fin 10) (dev : BitVec 16) (s : State) : Host.Outcome State Fault Refusal :=
  s.act fun c => c.onL fun c => c.freqWindow n.val dev.toNat

/-- SSC_DEPTH_CHANGE (R492). -/
def execSscDepthChange (s : State) : Host.Outcome State Fault Refusal := s.act fun c => c.onL Chip.sscChange

/-- GP_EDGE (R498). -/
def execGpEdge (pad : Fin 16) (level : Bool) (s : State) : Host.Outcome State Fault Refusal :=
  s.act fun c => c.onL fun c => c.gpEdge pad.val level

/-- ACTIVITY_TIMEOUT (R499). -/
def execActivityTimeout (w : Fin 16) (s : State) : Host.Outcome State Fault Refusal := s.act fun c => c.onL fun c => c.watcherExpired w.val

end Sys2Proof.Machine
end

