-- ==== Sys2Proof/Machine/CmdSafety.lean ====
section
/-!
DEFINITION. Commands of faults, safety, reset and debug (chapters 19 and 20).
-/
namespace Sys2Proof.Machine

/-- SAFE_TMO (R516). -/
def execSafeTmo (us : BitVec 16) (s : State) : Host.Outcome State Fault Refusal := s.act fun c => c.onL fun c => c.safeTimeout us.toNat

/-- FLT_DONE (R511). -/
def execFltDone (m : Master) (v : Word) (s : State) : Host.Outcome State Fault Refusal := s.act fun c => c.regWrite m Reg.FLT_DONE v

/-- FLT_INJ (R528). -/
def execFltInj (m : Master) (v : Word) (s : State) : Host.Outcome State Fault Refusal := s.act fun c => c.regWrite m Reg.FLT_INJ v

/-- ILK_OPEN (R521). -/
def execIlkOpen (ch : Fin 2) (s : State) : Host.Outcome State Fault Refusal := s.act fun c => c.onA fun c => c.ilkOpen ch.val

/-- ILK_DISC (R520). -/
def execIlkDisc (ch : Fin 2) (ms : BitVec 16) (s : State) : Host.Outcome State Fault Refusal :=
  s.act fun c => c.onA fun c => c.ilkDisc ch.val ms.toNat

/-- ILK_CLOSE (R520). -/
def execIlkClose (ch : Fin 2) (together : Bool) (s : State) : Host.Outcome State Fault Refusal :=
  s.act fun c => c.onA fun c => c.ilkClose ch.val together

/-- LAST_LINE_RELEASE (R519). -/
def execLastLineRelease (m : Master) (s : State) : Host.Outcome State Fault Refusal := s.act fun c => c.regPair m Reg.ILK_LLR 1#32

/-- LL_FORCE (R517, R529). -/
def execLlForce (m : Master) (s : State) : Host.Outcome State Fault Refusal := s.act fun c => c.regPair m Reg.ILK_FRC 1#32

/-- DEBUG_UNLOCK (R545). -/
def execDebugUnlock (m : Master) (en : Bool) (s : State) : Host.Outcome State Fault Refusal :=
  s.act fun c => c.regPair m Reg.DBG_ULK (if en then 1#32 else 0#32)

/-- SRST (R548). -/
def execSrst (m : Master) (s : State) : Host.Outcome State Fault Refusal := s.act fun c => c.regPair m Reg.DBG_SRST 1#32

/-- SYSTEM_RESET (R451, R548, R549). -/
def execSystemReset (s : State) : Host.Outcome State Fault Refusal := s.act fun c => c.onA Chip.systemReset

/-- PKCLR (R538). -/
def execPkclr (m : Master) (s : State) : Host.Outcome State Fault Refusal := s.act fun c => c.regWrite m Reg.DBG_CMD 1#32

/-- The outcome that Capture-DR loads (R547): STS and DATA. -/
def Chip.dbgOutcome (s : Chip) (sts : Nat) (data : Word) : Chip := { s with dbg := { s.dbg with accSts := sts, accData := data } }

/-- The outcome of an access by its status: done, or refused with the status code. -/
def Chip.dbgDone (s : Chip) (st : Status) (data : Word) : Chip :=
  if st = St.ok then s.dbgOutcome 0 data else s.dbgOutcome 2 (st.setWidth 32)

/-- An Update-DR of DBGACC (R546, R547): OP 1 reads, 2 writes, 0 and 3 make no access. A read of the P-die is in progress until its data
returns (R29); a write to it goes into the debug port's queue (R31): with the queue full, or as the twin of a guarded pair, it is in
progress until an entry drains or the P-die has applied it. -/
def Chip.dbgAccess (s : Chip) (op : Nat) (a : Nat) (v : Word) : Chip :=
  let far := 0x50000000 ≤ a && a < 0x70000000
  if s.dbg.accSts = 1 || op = 0 || op = 3 then s
  else if !s.on Fld.DBG_STA_UNL then s.dbgOutcome 3 0#32
  else if op = 1 then
    if far then
      let s := s.dbgOutcome 1 0#32
      { s with fab := { s.fab with reads := s.fab.reads ++ [{ master := .debug, addr := a, dst := 0 }] } }
    else
      let ((w, st), t) := s.load32 .debug a
      t.dbgDone st w
  else
    let (st, t) := s.masterWrite .debug a v
    let waits := far && (decide (16 < t.fab.posted.countP (fun w => w.master == .debug)) ||
      (s.fab.posted.length < t.fab.posted.length && t.fab.posted.getLast?.any (·.pair)))
    (if waits then t.dbgOutcome 1 0#32 else t.dbgDone st 0#32).settle

/-- The pads that shift the TAP: TCK, TMS and TDI (R554). -/
abbrev tapPads : List Nat := [37, 38, 39]

/-- DBGACC (R546, R547). -/
def execDbgacc (op : Fin 4) (addr : BitVec 32) (data : Word) (s : State) : Host.Outcome State Fault Refusal :=
  s.act fun c => c.onPads tapPads fun c => c.dbgAccess op.val addr.toNat data

/-- EXTEST (R543). -/
def execExtest (s : State) : Host.Outcome State Fault Refusal := s.act fun c => c.onPads tapPads Chip.extest

/-- TAP_RESET (R531). -/
def execTapReset (s : State) : Host.Outcome State Fault Refusal := s.act fun c => c.onL Chip.tapReset

end Sys2Proof.Machine
end

