-- ==== Sys2Proof/Machine/CmdScan.lean ====
section
/-!
DEFINITION. Commands of Meridian (chapter 5) and of the imaging path (chapter 6).
-/
namespace Sys2Proof.Machine

/-- The BD at `t` starts a line of every station (R154): the line boundary of their shadows (R73), pixel 0, the line and write triggers and a
calibration run (R179, R181, R201). DEDUCED (log entry 159): the line start of a station is its accepted or synthesised BD. -/
def Chip.lineStart (s : Chip) (t : Nat) (fly : Bool) : Chip :=
  (((((s.boundary hooks (bndBit .line) (fun _ => true)).newLine t fly).imgBd t).calBd).markBd t)

/-- A BD pulse with leading edge at `t` and active width `w` (R147–R151). -/
def Chip.bdPulse (s : Chip) (t w : Nat) : Chip :=
  if !s.on Fld.MER_STA_ENA then s
  else
    let (t, s) := s.bdStamp t
    let u := match s.bdJudge t w with
      | .accepted => (s.bdAccept t).lineStart t false
      | _ => s.bdReject
    (Chip.lockFell s u).bdLine

/-- BD_PULSE (R147). -/
def execBdPulse (t : Nat) (w : BitVec 16) (s : State) : Host.Outcome State Fault Refusal :=
  s.act fun c => c.onPads [28] fun c => c.bdPulse t w.toNat

/-- A window closes with no accepted pulse (R149): flywheel, or the BD input is lost and loop L0 with it (R258, R260). -/
def Chip.flywheel (s : Chip) : Chip :=
  if !s.on Fld.MER_STA_ENA || !s.mer.tracking || !s.mer.meas then s
  else
    let u :=
      if s.get Fld.MER_BDF_MISS < s.get Fld.MER_FST_FLYC + 1 then
        let u := s.bdLost
        if u.get (Fld.HLP_ST_MODE 0) ≠ Mode.off && !u.on (Fld.HLP_ST_LOSS 0) then u.loopLoss 0 2 (u.getS (Fld.HLP_FB_Y 0)) else u
      else
        let u := s.bdSynth
        u.lineStart u.mer.pBd true
    (Chip.lockFell s u).bdLine

/-- FLYWHEEL_SYNTH (R149). -/
def execFlywheelSynth (s : State) : Host.Outcome State Fault Refusal := s.act fun c => c.onL Chip.flywheel

/-- BD_WINDOW_OPEN (R152). -/
def execBdWindowOpen (s : State) : Host.Outcome State Fault Refusal := s.act fun c => c.onL fun c => c.openBdWindow.bdLine

/-- PIX_PULSE (R150). -/
def execPixPulse (ns : BitVec 16) (s : State) : Host.Outcome State Fault Refusal := s.act fun c => c.onPads [29] fun c => c.pixPulse ns.toNat

/-- INDEX_LOST (R150). -/
def execIndexLost (s : State) : Host.Outcome State Fault Refusal := s.act fun c => c.onL Chip.indexLost

/-- A station begins its sweep (R162), and its modulation line takes the level of pixel 0 (R163); the write station takes its line (R202). -/
def Chip.beginSweep (s : Chip) (n : Nat) : Chip :=
  let u := s.sweepStart n
  if n = 2 then (if !(s.stn 2).sweeping && (u.stn 2).sweeping then (let v := u.markSweepStart; v.modLines v.firstLit) else u)
  else if !(s.stn n).sweeping && (u.stn n).sweeping then ({ u with mer := { u.mer with edges := u.pixelEdges n 0 } }).bdLine
  else u.bdLine

/-- SWEEP_START (R162). -/
def execSweepStart (stn : Fin 3) (s : State) : Host.Outcome State Fault Refusal := s.act fun c => c.onL fun c => c.beginSweep stn.val

/-- A laser's monitor at sweep end (R213, R258): lit time in ns and mean code. A sweep lit for less than MINL delivers no sample. -/
def Chip.apcSample (s : Chip) (k : Fin 3) (lit : Nat) (code : BitVec 12) : Chip :=
  if s.get Fld.LDR_APCM_MINL ≤ lit then
    let s := (s.put (Fld.LDR_MON_C k.val) code.toNat).set (Fld.LDR_MON_VLD k.val)
    let lit := s.hel.litSeq.set k ((s.hel.litSeq.get k) + 1)
    let mon := s.hel.monP.set k ((s.hel.monP.get k) + 1)
    { s with hel := { s.hel with litSeq := lit, monP := mon } }
  else s.clr (Fld.LDR_MON_VLD k.val)

/-- The monitors of the lasers whose readings a sweep gives, LD0 first. -/
def Chip.apcSamples (s : Chip) (mon : List (BitVec 24 × BitVec 12)) : Chip :=
  [(0 : Fin 3), 1, 2].foldl (fun u k => match mon[k.val]? with
    | some x => u.apcSample k x.1.toNat x.2
    | none => u) s

/-- A station's last pixel ends (R162): a read station hands its samples on (R176–R189), the write station closes its line (R202), the
laser monitors deliver (R213). -/
def Chip.endSweep (s : Chip) (n : Nat) (raw : List (List (BitVec 12))) (mon : List (BitVec 24 × BitVec 12)) : Chip :=
  if !(s.stn n).sweeping then s
  else
    let u := s.sweepStop n
    let u := if n = 2 then u.markSweepEnd else u.imgSweep n raw
    ((u.apcSamples mon).bdLine).merHalt

/-- SWEEP_END (R162). -/
def execSweepEnd (stn : Fin 3) (raw : List (List (BitVec 12))) (mon : List (BitVec 24 × BitVec 12)) (s : State) :
    Host.Outcome State Fault Refusal := s.act fun c => c.onL fun c => c.endSweep stn.val raw mon

/-- MERIDIAN_DISABLE (R573): MER.CTL.EN is cleared; with no sweep in progress everything stops, else BLOCK_STOPPED ends it. -/
def execMeridianDisable (m : Master) (s : State) : Host.Outcome State Fault Refusal :=
  s.act fun c => if c.canAccess m then ((c.store32 m (Reg.MER_CTL + 0x2000) 1#32).2.merHalt).settle else c

/-- RECORD_PUSH (R187). -/
def execRecordPush (stn : Fin 2) (s : State) : Host.Outcome State Fault Refusal :=
  s.act fun c => c.onL fun c => (c.recordPush stn.val).settle

/-- CAL_DARK (R179): CAL.CMD with KIND DARK. -/
def execCalDark (m : Master) (v : Word) (s : State) : Host.Outcome State Fault Refusal :=
  s.act fun c => c.regWrite m Reg.CAL_CMD (v &&& 0xFFFFFFFC#32 ||| 1#32)

/-- CAL_WHITE (R179): CAL.CMD with KIND WHITE. -/
def execCalWhite (m : Master) (v : Word) (s : State) : Host.Outcome State Fault Refusal :=
  s.act fun c => c.regWrite m Reg.CAL_CMD (v &&& 0xFFFFFFFC#32 ||| 2#32)

/-- CAL_SAVE (R179): CAL.CMD with KIND SAVE. -/
def execCalSave (m : Master) (v : Word) (s : State) : Host.Outcome State Fault Refusal :=
  s.act fun c => c.regWrite m Reg.CAL_CMD (v &&& 0xFFFFFFFC#32 ||| 3#32)

/-- A SAVE ends (R179, R440). One whose commit was refused is not completed; it waits while another group is open (R408). -/
def Chip.saveEnded (s : Chip) : Chip :=
  if s.gst ≠ 0 then s
  else
  let s := ({ s with img := { s.img with run := none } }).clr Fld.CAL_STA_BUSY
  let (ok, u) := s.calSaved
  if ok then ((u.put Fld.CAL_CRS_RSLT 0).inc Fld.CAL_SEQ_N).set Fld.CAL_IST_DONE else u

/-- The calibration run in progress ends with its sums (R179). -/
def Chip.calEnded (s : Chip) (sums : List (BitVec 32)) : Chip :=
  match s.img.run with
  | none => s
  | some r => if r.kind = 3 then s.saveEnded else s.calMeasured r sums

/-- CAL_RUN_DONE (R179). -/
def execCalRunDone (sums : List (BitVec 32)) (s : State) : Host.Outcome State Fault Refusal :=
  s.act fun c => c.onL fun c => c.calEnded sums

/-- SHADING_TABLE_ACCESS (R178). -/
def execShadingTableAccess (m : Master) (w : Option Word) (s : State) : Host.Outcome State Fault Refusal :=
  s.act fun c => c.regAccess m Reg.CAL_TDA w

end Sys2Proof.Machine
end

