-- ==== Sys2Proof/Machine/CmdSerial.lean ====
section
/-!
DEFINITION. Commands of the serial ports, the Turradar link and the sync chain (chapter 14).
-/
namespace Sys2Proof.Machine

/-- An event of port 0 A0, 1 A1 on the L-die, or 2 ML in the AON domain (R22). -/
def Chip.onPort (s : Chip) (p : Nat) (f : Chip → Chip) : Chip := if p = 2 then s.onA f else s.onL f

/-- What a port receives comes through A0RX or A1RX (R554); ML's balls are outside the L-die. -/
def Chip.onRx (s : Chip) (p : Nat) (f : Chip → Chip) : Chip := if p = 2 then s.onA f else s.onPads [17 + 2 * p] f

/-- Address of a port's DATA. -/
def portData (p : Nat) : Nat := portPage p + (if p = 2 then 0x54 else 0x58)

/-- UART_RX_CHAR (R380, R383, R387). -/
def execUartRxChar (port : Fin 3) (c : Byte) (pe : Bool) (fe : Bool) (s : State) : Host.Outcome State Fault Refusal :=
  s.act fun k => k.onRx port.val fun k => k.rxChar hooks port.val c pe fe

/-- UART_BREAK (R380, R387). -/
def execUartBreak (port : Fin 3) (s : State) : Host.Outcome State Fault Refusal :=
  s.act fun k => k.onRx port.val fun k => k.rxBreak hooks port.val

/-- UART_STATUS_READ (R381). -/
def execUartStatusRead (m : Master) (port : Fin 3) (s : State) : Host.Outcome State Fault Refusal :=
  s.act fun k => k.regRead m (portPage port.val + 0xC)

/-- UART_DATA_READ (R381, R382). -/
def execUartDataRead (m : Master) (port : Fin 3) (s : State) : Host.Outcome State Fault Refusal :=
  s.act fun k => k.regRead m (portData port.val)

/-- UART_DATA_WRITE (R382). -/
def execUartDataWrite (m : Master) (port : Fin 3) (v : Word) (s : State) : Host.Outcome State Fault Refusal :=
  s.act fun k => k.regWrite m (portData port.val) v

/-- XOFF_TIMEOUT (R383). -/
def execXoffTimeout (port : Fin 2) (s : State) : Host.Outcome State Fault Refusal := s.act fun c => c.onL fun c => c.xoffTimeout port.val

/-- TUNNEL_IDLE_CUT (R387). -/
def execTunnelIdleCut (port : Fin 2) (s : State) : Host.Outcome State Fault Refusal :=
  s.act fun c => c.onL fun c => (c.idleCut hooks port.val).settle

/-- UART_FRAME_SENT (R385, R389): room in the outbound ring lets what waits for it go on. -/
def execUartFrameSent (fin : FrameEnd) (s : State) : Host.Outcome State Fault Refusal :=
  match fin with
  | .sent p => s.act fun k => k.onPort p.val fun k => (k.frameSent hooks p.val false).settle
  | .collided => s.act fun k => k.onPort 2 fun k => (k.frameSent hooks 2 true).settle

/-- TURRADAR_FRAME_RECEIVED (R391–R393). -/
def execTurradarFrameReceived (dst : Byte) (src : Byte) (ctl : Byte) (seq : BitVec 16) (payload : List Byte) (crcOk : Bool) (s : State) :
    Host.Outcome State Fault Refusal := s.act fun c => c.onA fun c => (c.turFrame hooks dst src ctl seq.toNat payload crcOk).settle

/-- TURRADAR_RESPONSE_TIMEOUT (R392, R395). -/
def execTurradarResponseTimeout (s : State) : Host.Outcome State Fault Refusal :=
  s.act fun c => c.onA fun c => c.turTimeout.settle

/-- TURRADAR_RESPONSE_SEND (R389, R392). -/
def execTurradarResponseSend (late : Bool) (coll : Bool) (s : State) : Host.Outcome State Fault Refusal :=
  s.act fun c => c.onA fun c => c.turAnswerOut hooks late coll

/-- SYNC_WORD_RECEIVED (R399–R401). -/
def execSyncWordReceived (w : Word) (crc : Byte) (s : State) : Host.Outcome State Fault Refusal := 
  s.act fun c => c.onPads [20] fun c => c.syncRx w crc

/-- SYNC_PERIOD_TICK (R399). -/
def execSyncPeriodTick (s : State) : Host.Outcome State Fault Refusal := s.act fun c => c.onL Chip.syncTick

/-- SYNC_EPOCH_TICK (R400). -/
def execSyncEpochTick (s : State) : Host.Outcome State Fault Refusal := s.act fun c => c.onL Chip.syncEpoch

/-- SYNC_URGENT_WORD (R401). -/
def execSyncUrgentWord (s : State) : Host.Outcome State Fault Refusal := s.act fun c => c.onL Chip.syncUrgent

/-- SYNC_LOST (R402). -/
def execSyncLost (s : State) : Host.Outcome State Fault Refusal := s.act fun c => c.onL Chip.syncLost

end Sys2Proof.Machine
end

