-- ==== Sys2Proof/Machine/CmdStore.lean ====
section
/-!
DEFINITION. Commands of the Central Store (chapter 12) and of the ferroelectric store (chapter 15).
-/
namespace Sys2Proof.Machine

/-- RING_PUSH (R321). -/
def execRingPush (n : Fin 64) (cls : Fin 7) (v : Word) (data : List Byte) (s : State) : Host.Outcome State Fault Refusal :=
  s.act fun c => c.onL fun c => (c.ringPush n.val (rclsOf cls.val) v data).settle

/-- RING_POP (R321). -/
def execRingPop (n : Fin 64) (cls : Fin 7) (s : State) : Host.Outcome State Fault Refusal :=
  s.act fun c => c.onL fun c => (c.drain n.val (rclsOf cls.val)).settle

/-- HPSH (R324). -/
def execHpsh (m : Master) (v : Word) (s : State) : Host.Outcome State Fault Refusal := s.act fun c => c.regWrite m Reg.RNG_HPSH v

/-- HPOP (R322, R323). -/
def execHpop (m : Master) (s : State) : Host.Outcome State Fault Refusal := s.act fun c => c.regRead m Reg.RNG_HPOP

/-- HDONE (R325). -/
def execHdone (m : Master) (v : Word) (s : State) : Host.Outcome State Fault Refusal := s.act fun c => c.regWrite m Reg.RNG_HDONE v

/-- RING_PUSH_TIMEOUT (R324). -/
def execRingPushTimeout (n : Fin 64) (s : State) : Host.Outcome State Fault Refusal :=
  s.act fun c => c.onL fun c => (c.pushExpired n.val).settle

/-- DATA_ENTRY_CONSUMED (R325, R339). -/
def execDataEntryConsumed (n : Fin 64) (s : State) : Host.Outcome State Fault Refusal :=
  s.act fun c => c.onL fun c => (c.entryConsumed n.val).settle

/-- RECORD_DISCARD (R340). -/
def execRecordDiscard (item : BitVec 32) (s : State) : Host.Outcome State Fault Refusal :=
  s.act fun c => c.onL fun c => (c.recordDiscard item.toNat).settle

/-- REFRESH (R330). -/
def execRefresh (rtWaiting : Bool) (s : State) : Host.Outcome State Fault Refusal := s.act fun c => c.onL fun c => c.refresh rtWaiting

/-- INIT_SWEEP_DONE (R331). -/
def execInitSweepDone (s : State) : Host.Outcome State Fault Refusal := s.act fun c => c.onL Chip.sweepDone

/-- SCRUB_PASS (R332, R333). -/
def execScrubPass (ofs : BitVec 26) (kind : Fin 3) (s : State) : Host.Outcome State Fault Refusal :=
  s.act fun c => c.onL fun c => c.scrub ofs.toNat kind.val

/-- NVM_OPEN (R408). -/
def execNvmOpen (m : Master) (s : State) : Host.Outcome State Fault Refusal := s.act fun c => c.regWrite m Reg.NVM_CMD 1#32

/-- NVM_COMMIT (R408, R410). -/
def execNvmCommit (m : Master) (s : State) : Host.Outcome State Fault Refusal := s.act fun c => c.regWrite m Reg.NVM_CMD 2#32

/-- NVM_DISCARD (R408). -/
def execNvmDiscard (m : Master) (s : State) : Host.Outcome State Fault Refusal := s.act fun c => c.regWrite m Reg.NVM_CMD 3#32

/-- NVM_COMMIT_DONE (R411): what waited for the group goes on (R408). -/
def execNvmCommitDone (s : State) : Host.Outcome State Fault Refusal := s.act fun c => c.onA fun c => c.commitDone.settle

/-- A group still OPEN GTO ms after its OPEN is discarded (R408). -/
def Chip.groupTimeout (s : Chip) : Chip := if s.gst = 1 then (s.closeGroup).set Fld.NVM_IST_GTO else s

/-- GROUP_TIMEOUT (R408). -/
def execGroupTimeout (s : State) : Host.Outcome State Fault Refusal := s.act fun c => c.onA fun c => c.groupTimeout.settle

/-- TPA_SELECT (R409). -/
def execTpaSelect (m : Master) (p : BitVec 15) (s : State) : Host.Outcome State Fault Refusal :=
  s.act fun c => c.regWrite m Reg.NVM_TPA (p.setWidth 32)

/-- PAGE_PRELOAD_DONE (R409). -/
def execPagePreloadDone (s : State) : Host.Outcome State Fault Refusal := s.act fun c => c.onA Chip.preloadDone

/-- TDA_ACCESS (R409). -/
def execTdaAccess (m : Master) (w : Option Word) (s : State) : Host.Outcome State Fault Refusal :=
  s.act fun c => c.regAccess m Reg.NVM_TDA w

/-- F_DIE_WINDOW_READ (R407, R413, R418, R419). One that must wait for the bridge finds what it
finds when it returns (R30). -/
def execFDieWindowRead (m : Master) (ofs : BitVec 21) (r : WindowRead) (s : State) : Host.Outcome State Fault Refusal :=
  s.act fun c =>
    let a := 0x60000000 + ofs.toNat
    if !c.canAccess m then c
    else
      let t := c.iff r.past Chip.passPoint
      if t.mustQueue m a then { t with fab := { t.fab with reads := t.fab.reads ++ [{ master := m, addr := a, dst := 1, found := r.found }] } }
      else (t.regRead m a).cellsRead a r.found

/-- SENSE_LINE_REMAP (R418). -/
def execSenseLineRemap (bank : Fin 8) (s : State) : Host.Outcome State Fault Refusal :=
  s.act fun c => c.onA fun c => c.remapBlock bank.val

/-- NVS_VALUE_WRITE (R422, R425, R426). -/
def execNvsValueWrite (m : Master) (v : Word) (s : State) : Host.Outcome State Fault Refusal := s.act fun c => c.regWrite m Reg.NVS_VAL v

/-- NVS_VALUE_ADD (R426). -/
def execNvsValueAdd (m : Master) (d : Word) (s : State) : Host.Outcome State Fault Refusal := s.act fun c => c.regWrite m Reg.NVS_ADD d

/-- NVS_SAVE_ALL (R425). -/
def execNvsSaveAll (m : Master) (s : State) : Host.Outcome State Fault Refusal := s.act fun c => c.regWrite m Reg.NVS_SAVE 1#32

/-- NVS_PERIODIC_SAVE (R425): with VHP = 0 there is none, nor while the core is held asleep (R468). -/
def execNvsPeriodicSave (s : State) : Host.Outcome State Fault Refusal :=
  s.act fun c => c.onA fun c => if c.get Fld.NVS_VHP_S = 0 || c.coreAsleep then c else c.saveHeld

end Sys2Proof.Machine
end

