-- ==== Sys2Proof/Machine/Dispatch.lean ====
section
/-!
DEFINITION. The effect of each command on everything but the queue, one direct call of its meaning per constructor.
-/
namespace Sys2Proof.Machine

def exec (i : Instr) (s : State) : Host.Outcome State Fault Refusal :=
  match i with
  | .rtFrameReceived dir q t => Sys2Proof.Machine.execRtFrameReceived dir q t s
  | .rtFrameLaunch meas => Sys2Proof.Machine.execRtFrameLaunch meas s
  | .bridgeLoss dir => Sys2Proof.Machine.execBridgeLoss dir s
  | .regTimeout m => Sys2Proof.Machine.execRegTimeout m s
  | .pDieReadReturn m => Sys2Proof.Machine.execPDieReadReturn m s
  | .postedWriteApplied m => Sys2Proof.Machine.execPostedWriteApplied m s
  | .retrain m => Sys2Proof.Machine.execRetrain m s
  | .retrainDone => Sys2Proof.Machine.execRetrainDone s
  | .retrainTimeout => Sys2Proof.Machine.execRetrainTimeout s
  | .mirrorUpdate ms => Sys2Proof.Machine.execMirrorUpdate ms s
  | .aonPor sup => Sys2Proof.Machine.execAonPor sup s
  | .bootStageComplete ok => Sys2Proof.Machine.execBootStageComplete ok s
  | .bootFailRecordRetry => Sys2Proof.Machine.execBootFailRecordRetry s
  | .registerWrite m addr v => Sys2Proof.Machine.execRegisterWrite m addr v s
  | .setAliasWrite m addr v => Sys2Proof.Machine.execSetAliasWrite m addr v s
  | .clrAliasWrite m addr v => Sys2Proof.Machine.execClrAliasWrite m addr v s
  | .togAliasWrite m addr v => Sys2Proof.Machine.execTogAliasWrite m addr v s
  | .guardValueWrite m addr v => Sys2Proof.Machine.execGuardValueWrite m addr v s
  | .guardTwinWrite m addr v => Sys2Proof.Machine.execGuardTwinWrite m addr v s
  | .guardWindowExpiry pg => Sys2Proof.Machine.execGuardWindowExpiry pg s
  | .cfsDrop m pg => Sys2Proof.Machine.execCfsDrop m pg s
  | .heldWriteApply pg => Sys2Proof.Machine.execHeldWriteApply pg s
  | .blockStopped pg => Sys2Proof.Machine.execBlockStopped pg s
  | .ownershipWrite m pg v => Sys2Proof.Machine.execOwnershipWrite m pg v s
  | .wake h args => Sys2Proof.Machine.execWake h args s
  | .off h args => Sys2Proof.Machine.execOff h args s
  | .start h args => Sys2Proof.Machine.execStart h args s
  | .abort h args => Sys2Proof.Machine.execAbort h args s
  | .drain h args => Sys2Proof.Machine.execDrain h args s
  | .halt h args => Sys2Proof.Machine.execHalt h args s
  | .resume h args => Sys2Proof.Machine.execResume h args s
  | .clear h args => Sys2Proof.Machine.execClear h args s
  | .service h args => Sys2Proof.Machine.execService h args s
  | .exit h args => Sys2Proof.Machine.execExit h args s
  | .status h args => Sys2Proof.Machine.execStatus h args s
  | .repget h args => Sys2Proof.Machine.execRepget h args s
  | .repack h args => Sys2Proof.Machine.execRepack h args s
  | .wakeComplete => Sys2Proof.Machine.execWakeComplete s
  | .wakeTimeout => Sys2Proof.Machine.execWakeTimeout s
  | .warmupTimeout => Sys2Proof.Machine.execWarmupTimeout s
  | .idleTimeout => Sys2Proof.Machine.execIdleTimeout s
  | .heatBandEnter => Sys2Proof.Machine.execHeatBandEnter s
  | .heatBandLeave => Sys2Proof.Machine.execHeatBandLeave s
  | .journalCommitDone => Sys2Proof.Machine.execJournalCommitDone s
  | .journalCloseRetry item => Sys2Proof.Machine.execJournalCloseRetry item s
  | .admitWaitExpiry item => Sys2Proof.Machine.execAdmitWaitExpiry item s
  | .hostDrainTimeout item => Sys2Proof.Machine.execHostDrainTimeout item s
  | .itemReportIssue item => Sys2Proof.Machine.execItemReportIssue item s
  | .vinOvervoltage mv => Sys2Proof.Machine.execVinOvervoltage mv s
  | .brownoutWarning mv => Sys2Proof.Machine.execBrownoutWarning mv s
  | .powerFail mv => Sys2Proof.Machine.execPowerFail mv s
  | .safeStopSaves => Sys2Proof.Machine.execSafeStopSaves s
  | .safeStopLDieOff => Sys2Proof.Machine.execSafeStopLDieOff s
  | .safeStopEnd => Sys2Proof.Machine.execSafeStopEnd s
  | .railFault rail mv => Sys2Proof.Machine.execRailFault rail mv s
  | .railRecovery => Sys2Proof.Machine.execRailRecovery s
  | .limiterShed pin iin => Sys2Proof.Machine.execLimiterShed pin iin s
  | .shedEnd pin iin => Sys2Proof.Machine.execShedEnd pin iin s
  | .pwrLimit pin => Sys2Proof.Machine.execPwrLimit pin s
  | .ilimTrip iin => Sys2Proof.Machine.execIlimTrip iin s
  | .reserveTestStart => Sys2Proof.Machine.execReserveTestStart s
  | .tcmdRun m => Sys2Proof.Machine.execTcmdRun m s
  | .reserveTestDone esr c => Sys2Proof.Machine.execReserveTestDone esr c s
  | .reserveValidExpiry vres => Sys2Proof.Machine.execReserveValidExpiry vres s
  | .ledgerDecisionTick => Sys2Proof.Machine.execLedgerDecisionTick s
  | .ledgerBinTick => Sys2Proof.Machine.execLedgerBinTick s
  | .bdPulse t w => Sys2Proof.Machine.execBdPulse t w s
  | .flywheelSynth => Sys2Proof.Machine.execFlywheelSynth s
  | .bdWindowOpen => Sys2Proof.Machine.execBdWindowOpen s
  | .pixPulse ns => Sys2Proof.Machine.execPixPulse ns s
  | .indexLost => Sys2Proof.Machine.execIndexLost s
  | .sweepStart stn => Sys2Proof.Machine.execSweepStart stn s
  | .sweepEnd stn raw mon => Sys2Proof.Machine.execSweepEnd stn raw mon s
  | .meridianDisable m => Sys2Proof.Machine.execMeridianDisable m s
  | .recordPush stn => Sys2Proof.Machine.execRecordPush stn s
  | .calDark m v => Sys2Proof.Machine.execCalDark m v s
  | .calWhite m v => Sys2Proof.Machine.execCalWhite m v s
  | .calSave m v => Sys2Proof.Machine.execCalSave m v s
  | .calRunDone sums => Sys2Proof.Machine.execCalRunDone sums s
  | .shadingTableAccess m w => Sys2Proof.Machine.execShadingTableAccess m w s
  | .jobLoad => Sys2Proof.Machine.execJobLoad s
  | .jobLoadDone => Sys2Proof.Machine.execJobLoadDone s
  | .jobDelete m v => Sys2Proof.Machine.execJobDelete m v s
  | .bandFetch => Sys2Proof.Machine.execBandFetch s
  | .hvChannelSettled ch => Sys2Proof.Machine.execHvChannelSettled ch s
  | .hvOv ch => Sys2Proof.Machine.execHvOv ch s
  | .fuserCut cause => Sys2Proof.Machine.execFuserCut cause s
  | .thDisag => Sys2Proof.Machine.execThDisag s
  | .heat => Sys2Proof.Machine.execHeat s
  | .sensorEdge n v raw level t => Sys2Proof.Machine.execSensorEdge n v raw level t s
  | .edgeWindowExpiry item role lead => Sys2Proof.Machine.execEdgeWindowExpiry item role lead s
  | .transportStopped => Sys2Proof.Machine.execTransportStopped s
  | .encoderCount axis up t => Sys2Proof.Machine.execEncoderCount axis up t s
  | .encoderIndex axis => Sys2Proof.Machine.execEncoderIndex axis s
  | .encoderLost axis n => Sys2Proof.Machine.execEncoderLost axis n s
  | .stall axis => Sys2Proof.Machine.execStall axis s
  | .bridgeOc bridge ma => Sys2Proof.Machine.execBridgeOc bridge ma s
  | .polyAlignDone => Sys2Proof.Machine.execPolyAlignDone s
  | .polyHandover => Sys2Proof.Machine.execPolyHandover s
  | .polyStartTimeout => Sys2Proof.Machine.execPolyStartTimeout s
  | .polyOvspd rpm => Sys2Proof.Machine.execPolyOvspd rpm s
  | .solPeakEnd n => Sys2Proof.Machine.execSolPeakEnd n s
  | .solOc n => Sys2Proof.Machine.execSolOc n s
  | .heliostatFrame t comm => Sys2Proof.Machine.execHeliostatFrame t comm s
  | .mcmd m v => Sys2Proof.Machine.execMcmd m v s
  | .tableAccess m w => Sys2Proof.Machine.execTableAccess m w s
  | .microwordExecute ctx err => Sys2Proof.Machine.execMicrowordExecute ctx err s
  | .waitTimeout ctx => Sys2Proof.Machine.execWaitTimeout ctx s
  | .waitSatisfied ctx => Sys2Proof.Machine.execWaitSatisfied ctx s
  | .dispatchPreempt ctx => Sys2Proof.Machine.execDispatchPreempt ctx s
  | .yieldWake ctx => Sys2Proof.Machine.execYieldWake ctx s
  | .contextWatchdog ctx => Sys2Proof.Machine.execContextWatchdog ctx s
  | .contextTimerExpiry ctx n => Sys2Proof.Machine.execContextTimerExpiry ctx n s
  | .swapArm m => Sys2Proof.Machine.execSwapArm m s
  | .swapMeasureDone => Sys2Proof.Machine.execSwapMeasureDone s
  | .swapDisarm m => Sys2Proof.Machine.execSwapDisarm m s
  | .bankSwap => Sys2Proof.Machine.execBankSwap s
  | .contextStop m ctx => Sys2Proof.Machine.execContextStop m ctx s
  | .contextRestart m ctx => Sys2Proof.Machine.execContextRestart m ctx s
  | .ringPush n cls v data => Sys2Proof.Machine.execRingPush n cls v data s
  | .ringPop n cls => Sys2Proof.Machine.execRingPop n cls s
  | .hpsh m v => Sys2Proof.Machine.execHpsh m v s
  | .hpop m => Sys2Proof.Machine.execHpop m s
  | .hdone m v => Sys2Proof.Machine.execHdone m v s
  | .ringPushTimeout n => Sys2Proof.Machine.execRingPushTimeout n s
  | .dataEntryConsumed n => Sys2Proof.Machine.execDataEntryConsumed n s
  | .recordDiscard item => Sys2Proof.Machine.execRecordDiscard item s
  | .refresh rtWaiting => Sys2Proof.Machine.execRefresh rtWaiting s
  | .initSweepDone => Sys2Proof.Machine.execInitSweepDone s
  | .scrubPass ofs kind => Sys2Proof.Machine.execScrubPass ofs kind s
  | .usbBusReset cause hs => Sys2Proof.Machine.execUsbBusReset cause hs s
  | .usbStandardRequest typ req value index len => Sys2Proof.Machine.execUsbStandardRequest typ req value index len s
  | .usbSuspend => Sys2Proof.Machine.execUsbSuspend s
  | .usbResume => Sys2Proof.Machine.execUsbResume s
  | .usbRemoteWakeup => Sys2Proof.Machine.execUsbRemoteWakeup s
  | .spiStat => Sys2Proof.Machine.execSpiStat s
  | .spiWrite head data crcOk => Sys2Proof.Machine.execSpiWrite head data crcOk s
  | .spiRead head m got => Sys2Proof.Machine.execSpiRead head m got s
  | .spiAck head n => Sys2Proof.Machine.execSpiAck head n s
  | .spiReset => Sys2Proof.Machine.execSpiReset s
  | .spiCsTimeout => Sys2Proof.Machine.execSpiCsTimeout s
  | .rd h payload => Sys2Proof.Machine.execRd h payload s
  | .wr h payload => Sys2Proof.Machine.execWr h payload s
  | .wrn h payload => Sys2Proof.Machine.execWrn h payload s
  | .blkrd h payload => Sys2Proof.Machine.execBlkrd h payload s
  | .blkwr h payload => Sys2Proof.Machine.execBlkwr h payload s
  | .tun h payload => Sys2Proof.Machine.execTun h payload s
  | .quote h payload => Sys2Proof.Machine.execQuote h payload s
  | .clientOpen h => Sys2Proof.Machine.execClientOpen h s
  | .clientClose h id => Sys2Proof.Machine.execClientClose h id s
  | .responseDelivered refusal => Sys2Proof.Machine.execResponseDelivered refusal s
  | .uartRxChar port c pe fe => Sys2Proof.Machine.execUartRxChar port c pe fe s
  | .uartBreak port => Sys2Proof.Machine.execUartBreak port s
  | .uartStatusRead m port => Sys2Proof.Machine.execUartStatusRead m port s
  | .uartDataRead m port => Sys2Proof.Machine.execUartDataRead m port s
  | .uartDataWrite m port v => Sys2Proof.Machine.execUartDataWrite m port v s
  | .xoffTimeout port => Sys2Proof.Machine.execXoffTimeout port s
  | .tunnelIdleCut port => Sys2Proof.Machine.execTunnelIdleCut port s
  | .uartFrameSent fin => Sys2Proof.Machine.execUartFrameSent fin s
  | .turradarFrameReceived dst src ctl seq payload crcOk => Sys2Proof.Machine.execTurradarFrameReceived dst src ctl seq payload crcOk s
  | .turradarResponseTimeout => Sys2Proof.Machine.execTurradarResponseTimeout s
  | .turradarResponseSend late coll => Sys2Proof.Machine.execTurradarResponseSend late coll s
  | .syncWordReceived w crc => Sys2Proof.Machine.execSyncWordReceived w crc s
  | .syncPeriodTick => Sys2Proof.Machine.execSyncPeriodTick s
  | .syncEpochTick => Sys2Proof.Machine.execSyncEpochTick s
  | .syncUrgentWord => Sys2Proof.Machine.execSyncUrgentWord s
  | .syncLost => Sys2Proof.Machine.execSyncLost s
  | .nvmOpen m => Sys2Proof.Machine.execNvmOpen m s
  | .nvmCommit m => Sys2Proof.Machine.execNvmCommit m s
  | .nvmDiscard m => Sys2Proof.Machine.execNvmDiscard m s
  | .nvmCommitDone => Sys2Proof.Machine.execNvmCommitDone s
  | .groupTimeout => Sys2Proof.Machine.execGroupTimeout s
  | .tpaSelect m p => Sys2Proof.Machine.execTpaSelect m p s
  | .pagePreloadDone => Sys2Proof.Machine.execPagePreloadDone s
  | .tdaAccess m w => Sys2Proof.Machine.execTdaAccess m w s
  | .fDieWindowRead m ofs r => Sys2Proof.Machine.execFDieWindowRead m ofs r s
  | .senseLineRemap bank => Sys2Proof.Machine.execSenseLineRemap bank s
  | .nvsValueWrite m v => Sys2Proof.Machine.execNvsValueWrite m v s
  | .nvsValueAdd m d => Sys2Proof.Machine.execNvsValueAdd m d s
  | .nvsSaveAll m => Sys2Proof.Machine.execNvsSaveAll m s
  | .nvsPeriodicSave => Sys2Proof.Machine.execNvsPeriodicSave s
  | .mailboxGo m => Sys2Proof.Machine.execMailboxGo m s
  | .mailboxDone => Sys2Proof.Machine.execMailboxDone s
  | .statusService via => Sys2Proof.Machine.execStatusService via s
  | .ident via => Sys2Proof.Machine.execIdent via s
  | .logRead via lseq n => Sys2Proof.Machine.execLogRead via lseq n s
  | .paramRead via part ofs n => Sys2Proof.Machine.execParamRead via part ofs n s
  | .paramWrite via seq part ofs data => Sys2Proof.Machine.execParamWrite via seq part ofs data s
  | .time via seq sec => Sys2Proof.Machine.execTime via seq sec s
  | .updService via seq op args => Sys2Proof.Machine.execUpdService via seq op args s
  | .cont via => Sys2Proof.Machine.execCont via s
  | .sensorScan vals => Sys2Proof.Machine.execSensorScan vals s
  | .tamper n => Sys2Proof.Machine.execTamper n s
  | .tempHot die t => Sys2Proof.Machine.execTempHot die t s
  | .overtempW die t => Sys2Proof.Machine.execOvertempW die t s
  | .overtemp die t => Sys2Proof.Machine.execOvertemp die t s
  | .logTake m => Sys2Proof.Machine.execLogTake m s
  | .logGapTimeout => Sys2Proof.Machine.execLogGapTimeout s
  | .logCommit => Sys2Proof.Machine.execLogCommit s
  | .keygen => Sys2Proof.Machine.execKeygen s
  | .updBegin m kind => Sys2Proof.Machine.execUpdBegin m kind s
  | .updPush m => Sys2Proof.Machine.execUpdPush m s
  | .updVerify m => Sys2Proof.Machine.execUpdVerify m s
  | .updVerifyDone => Sys2Proof.Machine.execUpdVerifyDone s
  | .updAbort m => Sys2Proof.Machine.execUpdAbort m s
  | .updClone m kind => Sys2Proof.Machine.execUpdClone m kind s
  | .updReboot m => Sys2Proof.Machine.execUpdReboot m s
  | .updArm m v => Sys2Proof.Machine.execUpdArm m v s
  | .trialWatchdog => Sys2Proof.Machine.execTrialWatchdog s
  | .nimoraReqa wupa => Sys2Proof.Machine.execNimoraReqa wupa s
  | .nimoraAnticollision level bits => Sys2Proof.Machine.execNimoraAnticollision level bits s
  | .nimoraRats cid => Sys2Proof.Machine.execNimoraRats cid s
  | .nimoraHlta => Sys2Proof.Machine.execNimoraHlta s
  | .nimoraDeselect => Sys2Proof.Machine.execNimoraDeselect s
  | .select p1 p2 aid => Sys2Proof.Machine.execSelect p1 p2 aid s
  | .getChallenge p12 le => Sys2Proof.Machine.execGetChallenge p12 le s
  | .auth p12 data => Sys2Proof.Machine.execAuth p12 data s
  | .getResponse le => Sys2Proof.Machine.execGetResponse le s
  | .nimoraFieldLost => Sys2Proof.Machine.execNimoraFieldLost s
  | .vstoThresholdCross th up => Sys2Proof.Machine.execVstoThresholdCross th up s
  | .supplySwitch vsto vbat run => Sys2Proof.Machine.execSupplySwitch vsto vbat run s
  | .ldarkExpiry vbat => Sys2Proof.Machine.execLdarkExpiry vbat s
  | .aonShutdown k => Sys2Proof.Machine.execAonShutdown k s
  | .mpptSample voc => Sys2Proof.Machine.execMpptSample voc s
  | .idleEntry => Sys2Proof.Machine.execIdleEntry s
  | .idleExit => Sys2Proof.Machine.execIdleExit s
  | .standbyRequest m => Sys2Proof.Machine.execStandbyRequest m s
  | .hibernateRequest m => Sys2Proof.Machine.execHibernateRequest m s
  | .shipRequest m => Sys2Proof.Machine.execShipRequest m s
  | .standbyEntry => Sys2Proof.Machine.execStandbyEntry s
  | .hibernateEntry => Sys2Proof.Machine.execHibernateEntry s
  | .shipEntry => Sys2Proof.Machine.execShipEntry s
  | .standbyWake src => Sys2Proof.Machine.execStandbyWake src s
  | .hibernateWake src => Sys2Proof.Machine.execHibernateWake src s
  | .padRelease m => Sys2Proof.Machine.execPadRelease m s
  | .rtcAlarm => Sys2Proof.Machine.execRtcAlarm s
  | .rtcSet m v => Sys2Proof.Machine.execRtcSet m v s
  | .xtal32Loss => Sys2Proof.Machine.execXtal32Loss s
  | .clkLoss sub => Sys2Proof.Machine.execClkLoss sub s
  | .pllRelock => Sys2Proof.Machine.execPllRelock s
  | .freqMonitorWindow n dev => Sys2Proof.Machine.execFreqMonitorWindow n dev s
  | .sscDepthChange => Sys2Proof.Machine.execSscDepthChange s
  | .gpEdge pad level => Sys2Proof.Machine.execGpEdge pad level s
  | .activityTimeout w => Sys2Proof.Machine.execActivityTimeout w s
  | .safeTmo us => Sys2Proof.Machine.execSafeTmo us s
  | .fltDone m v => Sys2Proof.Machine.execFltDone m v s
  | .fltInj m v => Sys2Proof.Machine.execFltInj m v s
  | .ilkOpen ch => Sys2Proof.Machine.execIlkOpen ch s
  | .ilkDisc ch ms => Sys2Proof.Machine.execIlkDisc ch ms s
  | .lastLineRelease m => Sys2Proof.Machine.execLastLineRelease m s
  | .llForce m => Sys2Proof.Machine.execLlForce m s
  | .debugUnlock m en => Sys2Proof.Machine.execDebugUnlock m en s
  | .srst m => Sys2Proof.Machine.execSrst m s
  | .systemReset => Sys2Proof.Machine.execSystemReset s
  | .pkclr m => Sys2Proof.Machine.execPkclr m s
  | .dbgacc op addr data => Sys2Proof.Machine.execDbgacc op addr data s
  | .extest => Sys2Proof.Machine.execExtest s
  | .tapReset => Sys2Proof.Machine.execTapReset s
  | .vbusDetect => Sys2Proof.Machine.execVbusDetect s
  | .ep5PrintData data => Sys2Proof.Machine.execEp5PrintData data s
  | .vinReturn => Sys2Proof.Machine.execVinReturn s
  | .rfFieldDetect => Sys2Proof.Machine.execRfFieldDetect s
  | .ilkClose ch together => Sys2Proof.Machine.execIlkClose ch together s
  | .solOpenLoad n => Sys2Proof.Machine.execSolOpenLoad n s
  | .xtal32Return => Sys2Proof.Machine.execXtal32Return s
  | .rcCalibration => Sys2Proof.Machine.execRcCalibration s
  | .loadTimeout => Sys2Proof.Machine.execLoadTimeout s

end Sys2Proof.Machine
end

