-- ==== Sys2Proof/Safety.lean ====
section
/-!
DEFINITION. The terms in which statements speak of runs: the domains that must be powered, a block in which nothing waits, an access that
passes every check of R84, a command that completes, and what may not change.
-/
namespace Sys2Proof.Machine

/-- The L-die is powered and its clocks run (R22, R475). -/
abbrev LOn (c : Chip) : Prop := c.fab.lco = true ∧ c.fab.standby = false

/-- The always-on domain is powered (R22). -/
abbrev AOn (c : Chip) : Prop := c.fab.aon = true

/-- The always-on domain and the power stage are powered (R22). -/
abbrev POn (c : Chip) : Prop := c.fab.aon = true ∧ c.fab.pst = true

/-- Neither the power stage nor the always-on domain nor the L-die is powered. -/
abbrev Unpowered (c : Chip) : Prop := c.fab.pst = false ∧ c.fab.aon = false ∧ c.fab.lco = false

/-- No host request, service request, log commit, directory write, held push or tunnelled frame waits for something else to go on. -/
abbrev Settled (c : Chip) : Prop :=
  c.alm.waits = [] ∧ c.alm.logHeld = false ∧ c.fst.heldDirs = [] ∧ c.hb.reqs = [] ∧ (c.cst.rings.all fun r => r.2.held.isEmpty) = true ∧
    ([0, 1, 2].all fun p => (c.port p).wait.isEmpty && (c.port p).rx.isEmpty && (c.ring (outRing p)).ents.isEmpty) = true

/-- No register write waits: no shadow (R71), no held write (R68), no armed guard (R63). -/
abbrev NoneWaiting (c : Chip) : Prop := c.shadows = [] ∧ c.held = [] ∧ c.guards = []

/-- The command completes: a next state, with the queue as it was, in which `P` holds. -/
def Runs (i : Instr) (s : State) (P : Chip → Prop) : Prop := ∃ c : Chip, exec i s = .next { s with chip := c } ∧ P c

/-- The command completes and leaves exactly this chip. -/
def Gives (i : Instr) (s : State) (c : Chip) : Prop := exec i s = .next { s with chip := c }

/-- Registers apart, nothing has changed, and of the registers only those at the listed addresses. -/
def OnlyRegs (c d : Chip) (l : List Nat) : Prop := d = { c with regs := d.regs } ∧ ∀ a, a ∉ l → d.rd a = c.rd a

/-- Of the registers only those at the listed addresses have changed. -/
def RegsKept (c d : Chip) (l : List Nat) : Prop := ∀ a, a ∉ l → d.rd a = c.rd a

/-- Every byte of memory reads as before. -/
def MemKept (c d : Chip) : Prop := ∀ a, d.byte a = c.byte a

/-- Every byte of memory outside `lo … hi - 1` reads as before. -/
def MemKeptOutside (c d : Chip) (lo hi : Nat) : Prop := ∀ a, (a < lo ∨ hi ≤ a) → d.byte a = c.byte a

/-- A plain write of `v` at `a` by master `m` passes every check of R84 on a page where no write waits: the region is powered (R42), nothing
makes the write wait for the bridge (R30, R570), the master has the rights (R78–R83), and the block's own checks pass. -/
def Accepts (c : Chip) (m : Master) (a : Nat) (v : Word) : Prop :=
  c.canAccess m = true ∧ c.mustQueue m a = false ∧ c.deadRegion a = false ∧ a % 4 = 0 ∧ NoneWaiting c ∧
    ∃ l, locate a = some l ∧ l.alias_ = 0 ∧ l.off < 0x800 ∧ c.permits m l.page l.off v = true ∧
      (l.off = 0x20 → c.ownOk m l.page.base v = true) ∧ hookPre m a v c = St.ok ∧ c.stateOk m l.page l.off v = true

/-- May the master complete a guarded pair (R66)? A client needs its G right. -/
def Chip.guardRight (c : Chip) (m : Master) : Bool :=
  match m with
  | .host x => (c.client x.toNat).g
  | _ => true

/-- What ends every accepted write: with no item admitted a document boundary (R73), and the decision point that is due (R142). -/
def Chip.afterCommit (c : Chip) : Chip := (if c.noneAdmitted then c.docBoundary hooks else c).journalIdle

/-- What follows every accepted write: its end, then whatever waited goes on. -/
def Chip.afterWrite (c : Chip) : Chip := c.afterCommit.settle

/-- The command writes one register: it completes, the register reads `w`, and before what follows every accepted write nothing else has changed. -/
def Writes (i : Instr) (s : State) (a : Nat) (w : Word) : Prop :=
  Runs i s fun c => ∃ d, OnlyRegs s.chip d [a] ∧ d.rd a = w ∧ c = d.afterWrite

/-- Registers of a page whose words follow from others and are brought up to date after every write to the page. -/
def derivedRegs (b : Nat) : List Nat := if b = Pg.MER then [Reg.MER_RQR, Pg.MER + 0xC] else []

/-- May this master read the page at `b` (R79, R84)? -/
def MayRead (c : Chip) (m : Master) (b : Nat) : Prop :=
  match m with
  | .host x => c.mayR x.toNat b = true
  | .debug => c.on Fld.DBG_STA_UNL = true
  | _ => True

/-- A microword that only computes: no wait, no reserved field, no event strobe, act, timer or mode change, its A operand no MEM read (R297). -/
def MWord.plain (m : MWord) : Bool :=
  !m.wait && !m.reserved && m.evt == 0 && m.act0 == 0 && m.act1 == 0 && m.act2 == 0 && m.act3 == 0 && m.tmr == 0 && bitsOf m.mode 0 2 == 0 &&
    m.asel != 0x1F && m.flg != 7

/-- Context `k` has nothing to dispatch and no event is on its way. -/
abbrev NoDispatch (c : Chip) (k : Nat) : Prop :=
  (c.ctx k).sel = none ∧ c.orr.evq = [] ∧ c.get (Fld.ORC_PEND_PND k) = 0 ∧ ∀ n < 8, c.on (Fld.ORC_DSP_EN k n) = false

/-- The watchdog of context `k` does not run out within the next `n` slots (R284). -/
abbrev WatchdogQuiet (c : Chip) (k n : Nat) : Prop := c.get (Fld.ORC_WDG_US k) = 0 ∨ (c.ctx k).wdg + n < c.wdgSlots k

/-- Context `k` runs, has nothing to dispatch and no guarded pair to wait for, the word at its address is good and not just being written, and its
watchdog does not run out with this slot. -/
abbrev SlotQuiet (c : Chip) (k : Nat) : Prop :=
  c.ctxSt k = CtxSt.run ∧ (c.ctx k).pairHold = false ∧ NoDispatch c k ∧ c.orr.stale = none ∧ c.pc k ∉ c.orr.ecc ∧ WatchdogQuiet c k 1

/-- A host packet of `h` is let in by the checks of R366 that do not depend on its payload; it is a request of its own (R356). -/
abbrev LetIn (c : Chip) (h : Hdr) : Prop :=
  LOn c ∧ c.linkUp h.spi = true ∧ hdrFlag h 2 = false ∧ c.hb.more = [] ∧ hdrFlag h 4 = false ∧ hdrFlag h 5 = false ∧ hdrFlag h 6 = false ∧ hdrFlag h 7 = false ∧
    (c.client h.clid.toNat).opened = true ∧ (c.client h.clid.toNat).spi = h.spi ∧
    h.tag ∉ (c.client h.clid.toNat).tags ∧ (c.client h.clid.toNat).tags.length < (c.client h.clid.toNat).crl ∧ c.creditsHeld < 1024 ∧
    (h.seq.toNat ≠ 0 → h.seq.toNat ∉ (c.client h.clid.toNat).seqs)

/-- The bridge has nothing in hand and no push or commit to resume. -/
abbrev BridgeIdle (c : Chip) : Prop := c.hb.reqs = [] ∧ c.hb.pushWait = none ∧ c.hb.commitWait = false ∧ c.hb.heldWaits = []

/-- The chip with the packet's request in hand (R364, R366): its credit and tag taken, its SEQ remembered, the request begun. -/
def Chip.inHand (c : Chip) (h : Hdr) (op : Nat) (w : Work) : Chip :=
  let d := c.acceptPacket h op w
  { d with hb := { d.hb with reqs := d.hb.reqs.map fun r => { r with started := true } } }

/-- The request that an accepted packet becomes (R364, R368). -/
def requestOf (h : Hdr) (op : Nat) (w : Work) : Req :=
  { hdr := h, op := op, work := w, pside := w.accs.any Access.far,
    answers := [1, 3, 4, 6, 10].contains op || nonPosted h op w || hdrFlag h 1, started := false, idx := 0, sent := 0,
    data := [], firstBad := none, status := St.ok }

/-- What an accepted packet does on an idle bridge: its request, with its credit and tag taken, runs, and the bridge goes on (R364, R366). -/
def Chip.served (c : Chip) (h : Hdr) (op : Nat) (w : Work) : Chip :=
  ((c.inHand h op w).runReq { requestOf h op w with started := true }).beginReqs 1

/-- An engine command in hand, its event gone to the contexts (R98, R100). -/
def Chip.command (c : Chip) (h : Hdr) (bs : List Byte) : Chip := (c.inHand h 6 (.command bs)).event Ev.cmd

/-- After a request the bridge takes up what waits behind it. -/
def Chip.bridgeOn (c : Chip) : Chip := c.beginReqs 1

/-- An engine command of `h` is let in and DOC takes commands: the bridge is idle and DOC.CTL.EN is set. -/
abbrev CommandIn (c : Chip) (h : Hdr) : Prop := LetIn c h ∧ BridgeIdle c ∧ c.on Fld.DOC_CTL_EN = true

end Sys2Proof.Machine

namespace Sys2Proof

open Sys2Proof.Machine

/-- The commands that act on an unpowered device: a supply that starts it, and VBUS, noted when it comes and when it goes. -/
def Instr.powersUp : Instr → Bool
  | .aonPor _ | .vinReturn | .vbusDetect => true
  | .usbBusReset cause _ => cause.val = 1
  | _ => false

/-- The command rows that are host packets with a payload of their own, each with its op (R357). -/
def PacketRow (i : Instr) (op : Nat) (h : Hdr) (bs : List Byte) : Prop :=
  (op = 1 ∧ i = .rd h bs) ∨ (op = 2 ∧ i = .wr h bs) ∨ (op = 3 ∧ i = .wrn h bs) ∨ (op = 4 ∧ i = .blkrd h bs) ∨ (op = 5 ∧ i = .blkwr h bs) ∨
    (op = 7 ∧ i = .tun h bs) ∨ (op = 10 ∧ i = .quote h bs) ∨ (op = 3 ∧ bs = onePair Reg.CLI_OPN h.clid.toNat ∧ i = .clientOpen h) ∨
    (op = 3 ∧ ∃ id : Byte, bs = onePair Reg.CLI_CLS id.toNat ∧ i = .clientClose h id)

/-- The command rows that are Almanac service requests, each with its carrier, its SVC code and its request (R430). -/
def ServiceRow (i : Instr) (via : Carrier) (code : Nat) (req : List Byte) : Prop :=
  (code = Svc.status ∧ req = [] ∧ i = .statusService via) ∨ (code = Svc.ident ∧ req = [] ∧ i = .ident via) ∨
    (code = Svc.cont ∧ req = [] ∧ i = .cont via) ∨
    (code = Svc.logRead ∧ ∃ (q : BitVec 32) (n : Byte), req = leBytes 4 q.toNat ++ [n] ∧ i = .logRead via q n) ∨
    (code = Svc.paramRead ∧ ∃ (p : Byte) (o : BitVec 32) (n : Byte), req = p :: leBytes 3 o.toNat ++ [n] ∧ i = .paramRead via p o n) ∨
    (code = Svc.paramWrite ∧ ∃ (q : BitVec 16) (p : Byte) (o : BitVec 32) (bs : List Byte),
      req = leBytes 2 q.toNat ++ p :: leBytes 3 o.toNat ++ bs ∧ i = .paramWrite via q p o bs) ∨
    (code = Svc.time ∧ ∃ (q : BitVec 16) (t : BitVec 32), req = leBytes 2 q.toNat ++ leBytes 4 t.toNat ∧ i = .time via q t) ∨
    (code = Svc.upd ∧ ∃ (q : BitVec 16) (op : Byte) (bs : List Byte), req = leBytes 2 q.toNat ++ op :: bs ∧ i = .updService via q op bs)

/-- Events and accesses that need the L-die (R22, R42): host packets, engine commands, masters other than Almanac, L-die events. VBUS is a level at a
ball, whose loss is noted whatever runs (R344). -/
def Instr.needsLDie : Instr → Bool
  | .wake _ _ | .off _ _ | .start _ _ | .abort _ _ | .drain _ _ | .halt _ _ | .resume _ _ | .clear _ _ | .service _ _ | .exit _ _
  | .status _ _ | .repget _ _ | .repack _ _ | .rd _ _ | .wr _ _ | .wrn _ _ | .blkrd _ _ | .blkwr _ _ | .tun _ _ | .quote _ _
  | .clientOpen _ | .clientClose _ _ | .responseDelivered _ | .ep5PrintData _ | .spiStat | .spiWrite _ _ _
  | .spiRead _ _ _ | .spiAck _ _ | .spiReset | .spiCsTimeout | .usbStandardRequest _ _ _ _ _ | .usbSuspend | .usbResume
  | .usbRemoteWakeup | .microwordExecute _ _ | .waitTimeout _ | .waitSatisfied _ | .dispatchPreempt _ | .yieldWake _
  | .contextWatchdog _ | .contextTimerExpiry _ _ | .swapMeasureDone | .bankSwap | .heliostatFrame _ _ | .ringPush _ _ _ _
  | .ringPop _ _ | .ringPushTimeout _ | .dataEntryConsumed _ | .recordDiscard _ | .refresh _ | .initSweepDone | .scrubPass _ _
  | .bdPulse _ _ | .flywheelSynth | .bdWindowOpen | .pixPulse _ | .indexLost | .sweepStart _ | .sweepEnd _ _ _ | .recordPush _
  | .calRunDone _ | .jobLoad | .jobLoadDone | .bandFetch | .hvChannelSettled _ | .heat | .sensorEdge _ _ _ _ _
  | .edgeWindowExpiry _ _ _ | .transportStopped | .encoderCount _ _ _ | .encoderIndex _ | .encoderLost _ _ | .stall _
  | .ledgerDecisionTick | .ledgerBinTick | .wakeComplete | .wakeTimeout | .warmupTimeout | .idleTimeout | .heatBandEnter
  | .heatBandLeave | .journalCommitDone | .admitWaitExpiry _ | .hostDrainTimeout _ | .itemReportIssue _ | .rtFrameReceived _ _ _
  | .bridgeLoss _ | .regTimeout _ | .pDieReadReturn _ | .postedWriteApplied _ | .retrainDone | .retrainTimeout
  | .xoffTimeout _ | .tunnelIdleCut _ | .syncWordReceived _ _ | .syncPeriodTick | .syncEpochTick | .syncUrgentWord | .syncLost
  | .idleEntry | .idleExit | .standbyEntry | .hibernateEntry | .shipEntry | .clkLoss _ | .pllRelock | .freqMonitorWindow _ _
  | .sscDepthChange | .gpEdge _ _ | .activityTimeout _ | .safeTmo _ | .dbgacc _ _ _ | .extest | .tapReset => true
  | .usbBusReset cause _ => cause.val ≠ 1
  | .registerWrite m _ _ | .setAliasWrite m _ _ | .clrAliasWrite m _ _ | .togAliasWrite m _ _ | .guardValueWrite m _ _
  | .guardTwinWrite m _ _ | .cfsDrop m _ | .ownershipWrite m _ _ | .retrain m | .mcmd m _ | .tableAccess m _ | .swapArm m
  | .swapDisarm m | .contextStop m _ | .contextRestart m _ | .hpsh m _ | .hpop m | .hdone m _ | .jobDelete m _ | .calDark m _
  | .calWhite m _ | .calSave m _ | .shadingTableAccess m _ | .meridianDisable m | .tcmdRun m | .nvmOpen m | .nvmCommit m
  | .nvmDiscard m | .tpaSelect m _ | .tdaAccess m _ | .fDieWindowRead m _ _ | .nvsValueWrite m _ | .nvsValueAdd m _ | .nvsSaveAll m
  | .mailboxGo m | .logTake m | .updBegin m _ | .updPush m | .updVerify m | .updAbort m | .updClone m _ | .updReboot m | .updArm m _
  | .standbyRequest m | .hibernateRequest m | .shipRequest m | .padRelease m | .rtcSet m _ | .fltDone m _ | .fltInj m _
  | .lastLineRelease m | .llForce m | .debugUnlock m _ | .srst m | .pkclr m | .uartStatusRead m _ | .uartDataRead m _
  | .uartDataWrite m _ _ => m ≠ .alm
  | _ => false

end Sys2Proof
end

