-- ==== Sys2Proof/Certificates/Slice0/Obligations.lean ====
section
/-!
DEFINITION. The statements for the provers. `Gives i s c` says that command `i` on `s` ends in a next state whose chip is exactly `c`, so it is
the command's result and its frame at once; `Runs i s P` that it ends in a next state whose chip has `P` (Safety.lean).
-/
open Sys2Proof Sys2Proof.Machine

/-! ### The queue -/

/-- STEP_RUNS_FRONT: a step takes the command at the front of the queue and runs it with the rest of the queue. -/
def Obligations.StepRunsFrontCommand : Prop :=
  ∀ (c : Instr) (rest : List Instr) (s : State), step { s with pending := c :: rest } = exec c { s with pending := rest }

/-- With nothing waiting a step is a tick of the RTC while the always-on domain runs, and nothing else (the model's choice, notes/assumptions/7.md). Every
command ends in a next state and leaves the rest of the queue as it is: no command stops the machine. -/
def Obligations.StepsAlwaysAnswer : Prop :=
  (∀ s : State, s.pending = [] →
    (AOn s.chip → step s = .next { s with chip := s.chip.rtcTick }) ∧ (s.chip.fab.aon = false → step s = .next s)) ∧
  (∀ s : State, ∃ t : State, step s = .next t ∧ t.pending = s.pending.drop 1)

/-! ### Reset (R14, R22, R43) -/

/-- What reset leaves: PST, AON and FNV on, L-die and D-die off, every sideband line low, boot stage POR, memory with nothing listed, every register at
its reset word (R14, R22, R34, R43). -/
def Obligations.ResetState : Prop :=
  State.reset.pending = [] ∧ State.reset.chip.fab.pst = true ∧ State.reset.chip.fab.aon = true ∧ State.reset.chip.fab.fnv = true ∧
    State.reset.chip.fab.lco = false ∧ State.reset.chip.fab.lio = false ∧ State.reset.chip.fab.dst = false ∧
    (State.reset.chip.fab.ldEn, State.reset.chip.fab.hvEn, State.reset.chip.fab.htrEn, State.reset.chip.fab.mtrEn) =
      (false, false, false, false) ∧
    State.reset.chip.get Fld.PSY_BST_STG = 0 ∧ (∀ a, State.reset.chip.rd a = resetWord a) ∧
    Memory.wf State.reset.chip.mem = true ∧ State.reset.chip.mem = []

/-! ### Power domains (R22, R42) -/

/-- UNPOWERED STAYS UNPOWERED: with the power stage, the always-on domain and the L-die off, every step whose command is none of AON_POR, VIN_RETURN and
VBUS_DETECT leaves the whole chip as it is; so does a step on an empty queue. -/
def Obligations.UnpoweredStays : Prop :=
  ∀ s t : State, Unpowered s.chip → (∀ c ∈ s.pending, c.powersUp = false) → step s = .next t →
    Unpowered t.chip ∧ (∀ c ∈ t.pending, c.powersUp = false) ∧ t.chip = s.chip

/-- NOTHING ON A DARK L-DIE: while the L-die is off or in STANDBY, no host, no debugger, no Orrery or Heliostat access and no L-die event changes anything
(R22, R42, R475). -/
def Obligations.DarkLDieInert : Prop :=
  ∀ (i : Instr) (s : State), s.chip.lRuns = false → i.needsLDie = true → exec i s = .next s

/-! ### The die bridge and the boot sequence (R28–R36, R43–R46, R465, R537, R570) -/

/-- RT_FRAME_LAUNCH samples both frames, each die's own, with the readings of the P-die; RT_FRAME_RECEIVED applies the frame in flight, counts a bad or
missing one and drops it, and at the third in a row is a loss of its direction (R28, R33). A good frame restarts the count of the bad ones.
BRIDGE_LOSS: a loss from L to P trips Last Line bit 5 on the P-die; one from P to L drops the four sideband lines, asserts the dedicated line, trips
bit 5 and raises BRIDGE_LOSS with UNIT 1; with both lost, whichever came first, the P-die's own detection goes into the log. A direction that is lost
already only sets DBR.IST.LOSS again (R33, R517). While the lanes are retrained the rule is suspended (R570). -/
def Obligations.RtFramesAndLoss : Prop :=
  ((∀ (s : State) (r : Readings), s.chip.fab.pst = true →
    (let d := s.chip.setReadings r
     LOn d → d.fab.retraining = false → d.on Fld.DBR_LST_TRND = true →
      Gives (.rtFrameLaunch r) s
        { d with fab := { d.fab with downFlight := some d.downFrame, upFlight := some (d.upFrame r) }, flt := { d.flt with pReports := [] },
                 mot := { d.mot with snaps := 0 }, hel := { d.hel with oppSeq := d.hel.litSeq } } ∧
      Runs (.rtFrameLaunch r) s fun c => c.fab.downFlight = some d.downFrame ∧ (∃ f, c.fab.upFlight = some f ∧ f.meas = r ∧
        f.modes = d.fab.down.modes ∧ f.pfail = d.pow.pfail ∧ f.lossLP = d.fab.lossLP ∧ f.reports = d.flt.pReports) ∧ c.flt.pReports = [])) ∧
  (∀ (s : State) (t : BitVec 16) (f : DownFrame), LOn s.chip → s.chip.fab.downFlight = some f →
    Gives (.rtFrameReceived .lToP .good t) s (({ s.chip with fab := { s.chip.fab with downFlight := none } }).applyDown f) ∧
    Runs (.rtFrameReceived .lToP .good t) s fun c => c.fab.down = f ∧ c.fab.badLP = 0 ∧ c.fab.downFlight = none ∧ c.mem = s.chip.mem) ∧
  (∀ (s : State) (t : BitVec 16) (f : UpFrame), LOn s.chip → s.chip.fab.upFlight = some f →
    Gives (.rtFrameReceived .pToL .good t) s (({ s.chip with fab := { s.chip.fab with upFlight := none } }).applyUp f t.toNat) ∧
    (f.reports = [] → f.lossLP = false → f.pfail = false → s.chip.on Fld.FLT_STA_ENTRY = false → s.chip.get Fld.PSY_BST_STG ≠ 0x0A →
      Gives (.rtFrameReceived .pToL .good t) s
        { s.chip with fab := { s.chip.fab with up := f, badPL := 0, upFlight := none }
                      hel := { s.chip.hel with rtSeq := s.chip.hel.rtSeq + 1, monSeq := Vector.ofFn fun k => (f.monN[k.val]?).getD 0 } })) ∧
  (∀ (s : State) (t : BitVec 16), LOn s.chip → s.chip.fab.retraining = false → s.chip.on Fld.DBR_LST_TRND = true → s.chip.fab.badLP < 2 →
    Gives (.rtFrameReceived .lToP .badCrc t) s
      (let d := (s.chip.bump Fld.DBR_RTE_CRC).set Fld.DBR_IST_RTERR
       { d with fab := { d.fab with badLP := s.chip.fab.badLP + 1, downFlight := none } })) ∧
  (∀ (s : State) (t : BitVec 16), LOn s.chip → s.chip.fab.retraining = false → s.chip.on Fld.DBR_LST_TRND = true → s.chip.fab.badLP = 2 →
    Gives (.rtFrameReceived .lToP .missing t) s
      (let d := (s.chip.bump Fld.DBR_RTE_MISS).set Fld.DBR_IST_RTERR
       ({ d with fab := { d.fab with badLP := 3, downFlight := none } }).bridgeLoss true)) ∧
  (∀ (s : State) (t : BitVec 16) (f : UpFrame), LOn s.chip → s.chip.fab.retraining = false → s.chip.on Fld.DBR_LST_TRND = true →
    s.chip.fab.badPL < 2 → s.chip.fab.upFlight = some f →
    Gives (.rtFrameReceived .pToL .missing t) s
      (let d := (s.chip.bump Fld.DBR_RTE_MISS).set Fld.DBR_IST_RTERR
       { d with fab := { d.fab with badPL := s.chip.fab.badPL + 1, upFlight := none }
                flt := { d.flt with pReports := f.reports ++ s.chip.flt.pReports } }))) ∧
  (∀ s : State, LOn s.chip →
    (s.chip.fab.retraining = false →
      (s.chip.fab.lossLP = false →
        Gives (.bridgeLoss .lToP) s
          (let d := s.chip.set Fld.DBR_IST_LOSS
           let e := (({ d with fab := { d.fab with lossLP := true, downFlight := none } }).llActive 5 true).tripLL 5
           if s.chip.fab.lossPL then (e.stageLog (report 0x0203 0).body).2 else e) ∧
        Runs (.bridgeLoss .lToP) s fun c => c.fab.lossLP = true ∧ c.on Fld.DBR_IST_LOSS = true ∧ c.on Fld.ILK_STA_LL = true ∧
          bitsOf (c.get Fld.ILK_LLC_C) 5 1 = 1 ∧ c.get Fld.LDR_STA_ON = 0 ∧ c.get Fld.HVD_STA_ON = 0 ∧ c.on Fld.FUS_STA_HTON = false ∧
          c.get Fld.MDR_STA_HON = 0) ∧
      (s.chip.fab.lossPL = false →
        Gives (.bridgeLoss .pToL) s
          (let d := ((((({ s.chip.set Fld.DBR_IST_LOSS with fab := { s.chip.fab with lossPL := true, llLine := true, upFlight := none } }).sidebands
             false false false false).llActive 5 true).tripLL 5).raise (report 0x0203 1))
           if d.fab.lossLP then (d.stageLog (report 0x0203 0).body).2 else d)) ∧
      (s.chip.fab.lossLP = true → Gives (.bridgeLoss .lToP) s (s.chip.set Fld.DBR_IST_LOSS)) ∧
      (s.chip.fab.lossPL = true → Gives (.bridgeLoss .pToL) s (s.chip.set Fld.DBR_IST_LOSS))) ∧
    (s.chip.fab.retraining = true → ∀ dir, Gives (.bridgeLoss dir) s s.chip))

/-- The register queue of a master other than the host: POSTED_WRITE_APPLIED makes its oldest write, or guarded pair, and the entry it held is free;
P_DIE_READ_RETURN ends the debugger's read, and a read that a command row made, with the register's word and status once the master's writes are made;
REG_TIMEOUT ends its oldest transaction in a bus error of kind TIMEOUT that counts in DBR.REGT, a write before a read (R29–R32). RETRAIN, in OFF or
FAULT, drops the four lines, TRND and both frames in flight and keeps the levels the lines had; while it runs a second one changes nothing;
RETRAIN_DONE brings TRND, the lanes and those levels back with every loss ended; RETRAIN_TIMEOUT is a loss in both directions (R570). -/
def Obligations.BridgeQueueAndRetraining : Prop :=
  (∀ (s : State) (m : Master), mHost m = false → LOn s.chip → s.chip.hb.reqs = [] → s.chip.fab.retraining = false →
    (∀ (w : PostedWrite) (rest : List PostedWrite), takePosted m s.chip.fab.posted = some (w, rest) →
      (w.addr = Reg.UPD_CMD → bitsOf w.value.toNat 0 4 = 2 → s.chip.pushWaits = false) →
      Gives (.postedWriteApplied m) s
        (let d := { s.chip with fab := { s.chip.fab with posted := rest } }
         let r := if w.pair then d.guardedPair w.master w.addr w.value else d.store32 w.master w.addr w.value
         ((((if w.pair then r.2.pairDone m r.1 else r.2.postedError m r.1).roomFor m).pumpHost).settle))) ∧
    (∀ (w : PostedWrite) (rest : List PostedWrite), takePosted m s.chip.fab.posted = some (w, rest) →
      Gives (.regTimeout m) s
        (let d := (({ s.chip with fab := { s.chip.fab with posted := rest } }).busError w.master w.addr Kind.timeout).bump Fld.DBR_REGT_N
         (if w.pair then d.pairDone m St.timeout else d.postedError m St.timeout).roomFor m)) ∧
    (∀ rd : HeldRead, rd.master = m → rd.dst = 1 → s.chip.fab.reads = [rd] → s.chip.fab.posted = [] →
      Gives (.pDieReadReturn m) s
        (let r := (s.chip.dropRead rd).load32 rd.master rd.addr
         { r.2 with fab := { r.2.fab with rdata := r.1.1, rstat := r.1.2 } }.cellsRead rd.addr rd.found)) ∧
    (∀ rd : HeldRead, rd.master = .debug → m = .debug → rd.dst = 0 → s.chip.dbg.accSts = 1 → s.chip.fab.reads = [rd] → s.chip.fab.posted = [] →
      Runs (.pDieReadReturn m) s fun c =>
        let r := (s.chip.dropRead rd).load32 rd.master rd.addr
        c.fab.rdata = r.1.1 ∧ c.fab.rstat = r.1.2 ∧ c.dbg.accData = (if r.1.2 = St.ok then r.1.1 else r.1.2.setWidth 32) ∧
          c.dbg.accSts = (if r.1.2 = St.ok then 0 else 2) ∧ c.regs = r.2.regs ∧ c.mem = r.2.mem) ∧
    (∀ rd : HeldRead, rd.master = .debug → m = .debug → s.chip.fab.reads = [rd] → takePosted m s.chip.fab.posted = none →
      Runs (.regTimeout m) s fun c => c.fab.rdata = 0#32 ∧ c.fab.rstat = St.timeout ∧ c.fab.reads = [] ∧
        c.regs = (((s.chip.dropRead rd).busError .debug rd.addr Kind.timeout).bump Fld.DBR_REGT_N).regs)) ∧
  ((∀ (s : State) (m : Master), Accepts s.chip m Reg.DBR_TRN 1#32 → s.chip.fab.retraining = false →
    (s.chip.engine = Eng.off ∨ s.chip.engine = Eng.fault) →
    Gives (.retrain m) s
      (Chip.afterWrite
        (((({ s.chip with fab := { s.chip.fab with retraining := true, wantLd := s.chip.fab.ldEn, wantHv := s.chip.fab.hvEn,
                                                   wantHtr := s.chip.fab.htrEn, wantMtr := s.chip.fab.mtrEn, downFlight := none,
                                                   upFlight := none } }).driveLines false false false false).clr Fld.DBR_LST_TRND).put
          Fld.DBR_LST_UP 0))) ∧
  (∀ (s : State) (m : Master), Accepts s.chip m Reg.DBR_TRN 1#32 → s.chip.fab.retraining = true →
    (s.chip.engine = Eng.off ∨ s.chip.engine = Eng.fault) → Gives (.retrain m) s s.chip.afterWrite) ∧
  (∀ s : State, LOn s.chip → s.chip.fab.retraining = true →
    Gives .retrainDone s
      (((((({ s.chip with fab := { s.chip.fab with retraining := false, badLP := 0, badPL := 0, lossLP := false, lossPL := false,
                                                   llLine := false } }).set Fld.DBR_LST_TRND).put Fld.DBR_LST_UP 15).llActive 5 false)).sidebands
        s.chip.fab.wantLd s.chip.fab.wantHv s.chip.fab.wantHtr s.chip.fab.wantMtr)) ∧
  (∀ s : State, LOn s.chip → s.chip.fab.retraining = true →
    Gives .retrainTimeout s ((({ s.chip with fab := { s.chip.fab with retraining := false } }).bridgeLoss true).bridgeLoss false)))

/-- MIRROR_UPDATE: every enabled slot holds what its source holds, 0 where the source is no P-die register, and every other slot's value is as before: a
mirror is the latest value, never a queue (R36). Where mirror 5 shows the reserve become valid the decision point follows (R142), and while the lanes
are retrained mirrors wait (R570). -/
def Obligations.MirrorsHoldLatest : Prop :=
  ∀ (s : State) (ms : BitVec 16), LOn s.chip →
    (s.chip.fab.retraining = false →
      Runs (.mirrorUpdate ms) s fun c => ∃ d,
        (∀ n < 16,
          (s.chip.on (Fld.DBR_MSRC_EN n) = true →
            d.rd (Reg.DBR_MVAL n) =
              if pRegister (0x50000000 + 4 * s.chip.get (Fld.DBR_MSRC_WOFS n)) then
                s.chip.rd (0x50000000 + 4 * s.chip.get (Fld.DBR_MSRC_WOFS n))
              else 0#32) ∧
          (s.chip.on (Fld.DBR_MSRC_EN n) = false → d.rd (Reg.DBR_MVAL n) = s.chip.rd (Reg.DBR_MVAL n))) ∧
        d.mem = s.chip.mem ∧
        c = if bitsOf (s.chip.get (Fld.DBR_MVAL_V 5)) 8 1 = 0 ∧ bitsOf (d.get (Fld.DBR_MVAL_V 5)) 8 1 = 1 then d.decision else d) ∧
    (s.chip.fab.retraining = true → Gives (.mirrorUpdate ms) s s.chip)

/-- BOOT_STAGE_COMPLETE: a stage done does its work and puts its successor into PSY.BST.STG: POR; ROM, which starts the slot it chooses, with a record
where an armed slot has failed, or fails with 0x01; ALM, once VIN starts the buck; RAILS; LDIE, from which the L-die runs; DSTORE; BRIDGE; LOAD, with
the restore of a wake, or its failure 0x06; HOST, from which a wake with VRES at 30.0 V is done; RESERVE, once the test has passed. A failed stage
RAILS to BRIDGE leaves STG and puts its code into FAIL; before BRIDGE it writes a BOOT_FAIL record, from BRIDGE on it takes the engine to FAULT,
raises BOOT_FAIL and brings up the host's side; of LOAD the failure follows the start of the load (R43, R45, R46, R537). A power-on reset of the
always-on domain: the domain and the F-die are up, the power stage exactly where VIN feeds it, RTC.STA.LOST is set and HRV.STA.SRC names the supply
(R465). The boot ROM commits its BOOT_FAIL record, and what is staged with it, where no group is open and the supply check passes (R45). Stage LOAD
not done in time fails with FAIL = 0x06 (R46, R537). -/
def Obligations.BootSequence : Prop :=
  (∀ s : State, AOn s.chip → s.chip.get Fld.PSY_BST_FAIL = 0 → s.chip.pow.pfail = false →
    (s.chip.get Fld.PSY_BST_STG = 0 → Gives (.bootStageComplete true) s (s.chip.put Fld.PSY_BST_STG 1)) ∧
    (s.chip.get Fld.PSY_BST_STG = 1 → s.chip.syncUpd.romChoice.1 = none →
      Gives (.bootStageComplete true) s ((s.chip.syncUpd.logBoot.bootFail 0x01).logCommit)) ∧
    (∀ (k : Nat) (fb trial : Bool), s.chip.get Fld.PSY_BST_STG = 1 → s.chip.syncUpd.romChoice = (some (k, fb), false, trial) →
      Gives (.bootStageComplete true) s
        (let d := (s.chip.syncUpd.putB Fld.PSY_BST_FALLBK fb).startSlot k
         (({ d with alm := { d.alm with trialRun := trial } }).put Fld.PSY_BST_STG 2).almStart)) ∧
    (∀ (k : Nat) (fb trial : Bool), s.chip.get Fld.PSY_BST_STG = 1 → s.chip.syncUpd.romChoice = (some (k, fb), true, trial) →
      Gives (.bootStageComplete true) s
        (let c := s.chip.syncUpd
         let arm := c.get Fld.UPD_SLOT_ARMSLOT
         let d := (c.putB Fld.PSY_BST_FALLBK fb).startSlot k
         let e := (((Chip.setUpd { d with alm := { d.alm with trialRun := trial } } (c.get Fld.UPD_SLOT_ACTIVE) 0 0 0).put
           Fld.PSY_BST_STG 2).almStart)
         (e.drawn).logEvent 5 (leBytes 1 e.freeWord.toNat ++ [1#8] ++ leBytes 1 arm ++ leBytes 1 (c.imageErr 1 arm)))) ∧
    (s.chip.get Fld.PSY_BST_STG = 2 → s.chip.vinStarts = true →
      Gives (.bootStageComplete true) s (({ s.chip with pow := { s.chip.pow with buckOn := true } }).put Fld.PSY_BST_STG 3)) ∧
    (s.chip.get Fld.PSY_BST_STG = 3 →
      Gives (.bootStageComplete true) s ((((s.chip.setRail 0 true).setRail 1 true).setRail 2 true).put Fld.PSY_BST_STG 4)) ∧
    (s.chip.get Fld.PSY_BST_STG = 4 →
      Runs (.bootStageComplete true) s fun c => c.fab.lco = true ∧ c.fab.lio = true ∧ c.on Fld.CLK_STA_LOCK = true ∧
        c.get Fld.CLK_STA_SSD = s.chip.get Fld.CLK_SSC_DEPTH ∧ c.get Fld.DBG_RST_CAUSE = s.chip.ret.cause % 256 ∧
        c.get Fld.PSY_BST_STG = 5 ∧ c.mem = s.chip.mem) ∧
    (s.chip.get Fld.PSY_BST_STG = 5 →
      Gives (.bootStageComplete true) s
        ((({ s.chip with fab := { s.chip.fab with dst := true } }).storeStart).put Fld.PSY_BST_STG 6)) ∧
    (s.chip.get Fld.PSY_BST_STG = 6 →
      Gives (.bootStageComplete true) s ((((s.chip.set Fld.DBR_LST_TRND).put Fld.DBR_LST_UP 15).llActive 5 false).put Fld.PSY_BST_STG 7)) ∧
    (s.chip.get Fld.PSY_BST_STG = 7 →
      (s.chip.loadSteps = none → Gives (.bootStageComplete true) s (s.chip.loadStart.stageFail 0x06)) ∧
      (∀ t, s.chip.loadSteps = some t →
        (t.engineSetup.ret.waking = false → Gives (.bootStageComplete true) s (t.engineSetup.put Fld.PSY_BST_STG 8)) ∧
        (t.engineSetup.ret.waking = true → Gives (.bootStageComplete true) s (t.engineSetup.restore.put Fld.PSY_BST_STG 8)))) ∧
    (s.chip.get Fld.PSY_BST_STG = 8 →
      (let d := (s.chip.hostWork.set Fld.RES_CHG_CHEN).syncCharge
       (s.chip.ret.cause ≠ 5 ∨ s.chip.get Fld.RES_VRES_MV < 30000 →
        Gives (.bootStageComplete true) s (({ d with pow := { d.pow with passed := false, bootFails := 0 } }).put Fld.PSY_BST_STG 9)) ∧
       (s.chip.ret.cause = 5 → 30000 ≤ s.chip.get Fld.RES_VRES_MV → Gives (.bootStageComplete true) s d.bootDone))) ∧
    (s.chip.get Fld.PSY_BST_STG = 9 → s.chip.pow.passed = true → Gives (.bootStageComplete true) s s.chip.bootDone) ∧
    (∀ g, 3 ≤ g → g < 6 → s.chip.get Fld.PSY_BST_STG = g →
      Gives (.bootStageComplete false) s
        ((s.chip.put Fld.PSY_BST_FAIL (g - 1)).stageLog (report 0x0107 (g - 1) g).body).2) ∧
    (s.chip.get Fld.PSY_BST_STG = 6 → s.chip.fab.lco = true →
      Gives (.bootStageComplete false) s
        ((((((s.chip.put Fld.PSY_BST_FAIL 5).set Fld.BRG_CTL_EN).set Fld.BRG_IFC_USBE).set Fld.BRG_IFC_SPIE).goto Eng.fault 0x09).raise
          (report 0x0107 5 6)).hostWork) ∧
    (s.chip.get Fld.PSY_BST_STG = 7 → Gives (.bootStageComplete false) s (s.chip.loadStart.stageFail 0x06))) ∧
  (∀ (s : State) (sup : Supply), s.chip.fab.aon = false → (s.chip.ret.ship = false ∨ sup = .vsys) →
    Runs (.aonPor sup) s fun c => c.fab.aon = true ∧ c.fab.fnv = true ∧ c.fab.pst = decide (sup = .vsys) ∧
      c.on Fld.RTC_STA_LOST = true ∧ c.ret.vin = decide (sup = .vsys) ∧
      c.get Fld.HRV_STA_SRC = (match sup with | .vsys => 0 | .vsto => 1 | .vbat => 2)) ∧
  ((∀ s : State, AOn s.chip → s.chip.romMode = true → s.chip.logReady ≠ [] → s.chip.gst = 0 →
    (s.chip.ownGroup false (s.chip.logPages s.chip.logIndex s.chip.logReady)).1 = St.ok →
    Gives .bootFailRecordRetry s
      ((s.chip.ownGroup false (s.chip.logPages s.chip.logIndex s.chip.logReady)).2.logCommitted s.chip.logReady)) ∧
  (∀ s : State, AOn s.chip → s.chip.get Fld.PSY_BST_STG = 7 → s.chip.get Fld.PSY_BST_FAIL = 0 →
    Gives .loadTimeout s ((s.chip.loadSteps.getD s.chip.loadStart).stageFail 0x06)))

/-! ### Register pages (R40, R54–R76, R82, R84) -/

/-- R55. The first bus error after VLD is cleared fills BEA and BES, sets VLD, sets CNT to 1 and sets BERR of the page's IST; each later one increments
CNT only (which R54 lets saturate at 127). SYS captures for the masters on the L-die side, PSY for the Almanac core. -/
def Obligations.BusErrorCapture : Prop :=
  ∀ (c : Chip) (m : Master) (addr kind : Nat), addr < 2 ^ 32 → kind < 4 →
    (m ≠ .alm →
      (c.on Fld.SYS_BES_VLD = false →
        (c.busError m addr kind).get Fld.SYS_BEA_ADDR = addr ∧ (c.busError m addr kind).get Fld.SYS_BES_KIND = kind ∧
          (c.busError m addr kind).get Fld.SYS_BES_MST = mCode m ∧ (c.busError m addr kind).get Fld.SYS_BES_CLID = mClid m ∧
          (c.busError m addr kind).get Fld.SYS_BES_CNT = 1 ∧ (c.busError m addr kind).on Fld.SYS_BES_VLD = true ∧
          (c.busError m addr kind).on Fld.SYS_IST_BERR = true ∧
          OnlyRegs c (c.busError m addr kind) [Reg.SYS_BEA, Reg.SYS_BES, Pg.SYS + 0x10]) ∧
      (c.on Fld.SYS_BES_VLD = true →
        (c.busError m addr kind).get Fld.SYS_BES_CNT = min 127 (c.get Fld.SYS_BES_CNT + 1) ∧
          (c.busError m addr kind).get Fld.SYS_BES_KIND = c.get Fld.SYS_BES_KIND ∧
          (c.busError m addr kind).get Fld.SYS_BES_MST = c.get Fld.SYS_BES_MST ∧
          (c.busError m addr kind).get Fld.SYS_BES_CLID = c.get Fld.SYS_BES_CLID ∧
          (c.busError m addr kind).on Fld.SYS_BES_VLD = true ∧ OnlyRegs c (c.busError m addr kind) [Reg.SYS_BES])) ∧
    (c.on Fld.PSY_BES_VLD = false →
      (c.busError .alm addr kind).get Fld.PSY_BEA_ADDR = addr ∧ (c.busError .alm addr kind).get Fld.PSY_BES_KIND = kind ∧
        (c.busError .alm addr kind).get Fld.PSY_BES_MST = 0x10 ∧ (c.busError .alm addr kind).get Fld.PSY_BES_CLID = 0 ∧
        (c.busError .alm addr kind).get Fld.PSY_BES_CNT = 1 ∧ (c.busError .alm addr kind).on Fld.PSY_BES_VLD = true ∧
        (c.busError .alm addr kind).on Fld.PSY_IST_BERR = true ∧
        OnlyRegs c (c.busError .alm addr kind) [Reg.PSY_BEA, Reg.PSY_BES, Pg.PSY + 0x10]) ∧
    (c.on Fld.PSY_BES_VLD = true →
      (c.busError .alm addr kind).get Fld.PSY_BES_CNT = min 127 (c.get Fld.PSY_BES_CNT + 1) ∧
        (c.busError .alm addr kind).get Fld.PSY_BES_KIND = c.get Fld.PSY_BES_KIND ∧
        (c.busError .alm addr kind).get Fld.PSY_BES_MST = c.get Fld.PSY_BES_MST ∧
        (c.busError .alm addr kind).get Fld.PSY_BES_CLID = c.get Fld.PSY_BES_CLID ∧
        (c.busError .alm addr kind).on Fld.PSY_BES_VLD = true ∧ OnlyRegs c (c.busError .alm addr kind) [Reg.PSY_BES])

/-- R57. A read at an alias answers what a read at the register's own address answers; a read of a complement twin answers the complement of the guarded
register's word in force; the twin of any other offset reads 0. -/
def Obligations.AliasAndTwinReads : Prop :=
  ∀ (c : Chip) (m : Master) (b o : Nat) (p : PageDesc), pageAt b = some p → p.base = b → c.deadRegion b = false → o % 4 = 0 →
    (∀ k, k < 4 → o < 0x1000 → c.load32 m (b + k * 0x1000 + o) = c.load32 m (b + o)) ∧
    (MayRead c m b → o < 0x800 → guardedAt p o = true → (c.load32 m (b + 0x800 + o)).1 = (~~~ (c.rd (b + o)), St.ok)) ∧
    (MayRead c m b → o < 0x800 → guardedAt p o = false → (c.load32 m (b + 0x800 + o)).1 = (0#32, St.ok))

/-- REGISTER_WRITE and the three alias writes, by an Orrery context at a raw register of an enabled page: the register holds the value, or its old word
with the bits set, cleared or inverted (R60, R61, R84). A class-S field that the write would change while the block is enabled stays as it is, with
CFS.IGN set and status 0x31 in ERC (R68, R84), and an access outside every region is a bus error and changes nothing else (R41, R84). -/
def Obligations.PlainAliasAndRefusedWrites : Prop :=
  (∀ (s : State) (x : Fin 4) (v : Word), LOn s.chip → NoneWaiting s.chip → s.chip.on (hEN Pg.IMG) = true →
    Writes (.registerWrite (.orr x) (BitVec.ofNat 32 Reg.IMG_PITCH) v) s Reg.IMG_PITCH v ∧
    Writes (.setAliasWrite (.orr x) (BitVec.ofNat 32 Reg.IMG_PITCH) v) s Reg.IMG_PITCH (s.chip.rd Reg.IMG_PITCH ||| v) ∧
    Writes (.clrAliasWrite (.orr x) (BitVec.ofNat 32 Reg.IMG_PITCH) v) s Reg.IMG_PITCH (s.chip.rd Reg.IMG_PITCH &&& ~~~v) ∧
    Writes (.togAliasWrite (.orr x) (BitVec.ofNat 32 Reg.IMG_PITCH) v) s Reg.IMG_PITCH (s.chip.rd Reg.IMG_PITCH ^^^ v)) ∧
  ((∀ (s : State) (x : Fin 4) (v : Word), LOn s.chip → NoneWaiting s.chip → s.chip.on (hEN Pg.ENC) = true → v ≠ s.chip.rd (Reg.ENC_OLS 0) →
    Runs (.registerWrite (.orr x) (BitVec.ofNat 32 (Reg.ENC_OLS 0)) v) s fun c => ∃ d,
      OnlyRegs s.chip d [Pg.ENC + 0x10, Pg.ENC + 0x18, Pg.ENC + 0x1C] ∧ d.on (hIGN Pg.ENC) = true ∧
        d.rd (Pg.ENC + 0x18) = BitVec.ofNat 32 (2 ^ 31 + x.val * 256 + 0x31) ∧ d.on (hERR Pg.ENC) = true ∧ c = d.afterWrite) ∧
  (∀ (s : State) (m : Master) (a : BitVec 32) (v : Word), s.chip.canAccess m = true → mHost m = false → (m = .alm → s.chip.bridgeMute = false) → Settled s.chip →
    0x84000000 ≤ a.toNat → a.toNat % 4 = 0 → Gives (.registerWrite m a v) s (s.chip.busError m a.toNat Kind.unmapped)))

/-- A guarded register takes a value only by the pair: the value write arms the page's latch and changes no register; the twin with the complement commits
and frees the latch; a twin with another value, or the end of the 640 ns, leaves the register, sets both GERR bits and puts 0x32 into ERC (R63, R64). -/
def Obligations.GuardedPair : Prop :=
  (∀ (s : State) (x : Fin 4) (v : Word), LOn s.chip → Settled s.chip → s.chip.held = [] → s.chip.latch Pg.FLT = none →
    Gives (.guardValueWrite (.orr x) (BitVec.ofNat 32 Reg.FLT_SSTO) v) s
      { s.chip with guards := s.chip.guards ++ [{ page := Pg.FLT, off := 0x5C, value := v, master := .orr x }] }) ∧
  (∀ (s : State) (x : Fin 4) (v : Word), LOn s.chip → s.chip.shadows = [] → s.chip.held = [] → 50 ≤ bitsOf v.toNat 0 13 →
    bitsOf v.toNat 0 13 ≤ 5000 → s.chip.guards = [{ page := Pg.FLT, off := 0x5C, value := v, master := .orr x }] →
    Runs (.guardTwinWrite (.orr x) (BitVec.ofNat 32 Reg.FLT_SSTO) (~~~v)) s fun c => ∃ d, d.guards = [] ∧
      d.get Fld.FLT_SSTO_US = bitsOf v.toNat 0 13 ∧ RegsKept s.chip d [Reg.FLT_SSTO] ∧ d.mem = s.chip.mem ∧ c = d.afterWrite) ∧
  (∀ (s : State) (x : Fin 4) (v w : Word), LOn s.chip → Settled s.chip → s.chip.held = [] → w ≠ ~~~v →
    s.chip.guards = [{ page := Pg.FLT, off := 0x5C, value := v, master := .orr x }] →
    Gives (.guardTwinWrite (.orr x) (BitVec.ofNat 32 Reg.FLT_SSTO) w) s
      ((({ s.chip with guards := [] }.set (hCGERR Pg.FLT)).set (hGERR Pg.FLT)).erc Pg.FLT (.orr x) St.guard)) ∧
  (∀ (s : State) (g : GuardLatch) (pg : PageSel), AOn s.chip → g.page = pageBase pg → s.chip.guards = [g] →
    Gives (.guardWindowExpiry pg) s
      ((({ s.chip with guards := [] }.set (hCGERR (pageBase pg))).set (hGERR (pageBase pg))).erc (pageBase pg) g.master St.guard))

/-- CFS.DROP discards every waiting shadow of the page with no apply event, and those of other pages stay (R58). A held write is made when STA.ENA has
fallen, by the checks that it had not passed when it was held, and its answer, where a host request waits for one, is given then (R68, R70, R85, R87):
a held offset of the encoder stands in its register. While ENA stands it stays held. A block that has stopped loses ENA (R58), Meridian only once no
sweep is left, and then it is out of tracking with no station armed (R573). A client with O and W claims an unowned page for itself, and its owner
lets it go (R82). -/
def Obligations.PageHeaderCommands : Prop :=
  (∀ (s : State) (x : Fin 4) (pg : PageSel), LOn s.chip → AOn s.chip → s.chip.guards = [] → s.chip.held = [] →
    s.chip.mustQueue (.orr x) (pageBase pg + 0x1C) = false → s.chip.noneAdmitted = false → s.chip.on (hEN (pageBase pg)) = true →
    Runs (.cfsDrop (.orr x) pg) s fun c => ∃ d, d.shadows = s.chip.shadows.filter (fun h => h.page != pageBase pg) ∧
      d.on (hPEND (pageBase pg)) = false ∧ RegsKept s.chip d ((pageBase pg + 0x1C) :: derivedRegs (pageBase pg)) ∧ d.mem = s.chip.mem ∧
      c = d.journalIdle.settle) ∧
  ((∀ (s : State) (pg : PageSel) (w : HeldWrite) (l : Loc), AOn s.chip → s.chip.on (hENA (gateOf (pageBase pg))) = false → w.page = pageBase pg →
    s.chip.held = [w] → locate w.addr = some l →
    Gives (.heldWriteApply pg) s
      (let d := { s.chip with held := [] }
       let r := if w.judged then d.commit hooks w.master l.page l.off l.alias_ w.value else d.writeReg hooks w.master l w.value
       (r.2.resumeHeld (pageBase pg) [(w, r.1)]).settle)) ∧
  (∀ (s : State) (pg : PageSel) (x : Fin 4) (v : Word), AOn s.chip → pageBase pg = Pg.ENC → s.chip.on (hENA Pg.ENC) = false →
    s.chip.on (hEN Pg.ENC) = false → s.chip.shadows = [] →
    s.chip.held = [{ page := Pg.ENC, addr := Reg.ENC_OLS 0, value := v, master := .orr x }] →
    Runs (.heldWriteApply pg) s fun c => ∃ d, OnlyRegs { s.chip with held := [] } d [Reg.ENC_OLS 0] ∧ d.rd (Reg.ENC_OLS 0) = v ∧
      c = (d.afterCommit.resumeHeld Pg.ENC
        [({ page := Pg.ENC, addr := Reg.ENC_OLS 0, value := v, master := .orr x }, St.ok)]).settle) ∧
  (∀ (s : State) (pg : PageSel), s.chip.on (hENA (gateOf (pageBase pg))) = true → Gives (.heldWriteApply pg) s s.chip) ∧
  (∀ (s : State) (pg : PageSel), AOn s.chip → pageBase pg ≠ Pg.MER → s.chip.on (hEN (pageBase pg)) = false →
    s.chip.on (hENA (pageBase pg)) = true → s.chip.atRest (pageBase pg) = true →
    Gives (.blockStopped pg) s (s.chip.clr (hENA (pageBase pg)))) ∧
  (∀ (s : State) (pg : PageSel), AOn s.chip → pageBase pg = Pg.MER →
    Gives (.blockStopped pg) s s.chip.merHalt ∧
    (s.chip.on Fld.MER_CTL_EN = false → s.chip.on Fld.MER_STA_ENA = true → s.chip.noSweep = true → s.chip.on Fld.MER_STA_LOCK = false →
      Runs (.blockStopped pg) s fun c => ∃ m, OnlyRegs { s.chip with mer := m } c [Pg.MER + 0xC] ∧ c.on Fld.MER_STA_ENA = false ∧
        c.on Fld.MER_STA_FLY = false ∧ c.mer.tracking = false ∧ c.mer.windowOpen = false ∧ c.mer.bdLaser = false ∧
        c.mer.s0.armed = false ∧ c.mer.s1.armed = false ∧ c.mer.s2.armed = false))) ∧
  (∀ (s : State) (x : BitVec 8) (pg : PageSel),
    (∀ b : Bool, Accepts s.chip (.host x) (pageBase pg + 0x20) (BitVec.ofNat 32 (256 * b.toNat + x.toNat)) →
      s.chip.on (hEN (pageBase pg)) = true →
      Runs (.ownershipWrite (.host x) pg (BitVec.ofNat 32 (256 * b.toNat + x.toNat))) s fun c => ∃ d, d.get (hOCLID (pageBase pg)) = x.toNat ∧
        d.on (hOVLD (pageBase pg)) = b ∧ d.on (hOSHR (pageBase pg)) = false ∧ RegsKept s.chip d ((pageBase pg + 0x20) :: derivedRegs (pageBase pg)) ∧
        d.mem = s.chip.mem ∧ c = d.afterWrite) ∧
    (s.chip.canAccess (.host x) = true → s.chip.mustQueue (.host x) (pageBase pg + 0x20) = false → Settled s.chip → s.chip.held = [] → s.chip.deadRegion (pageBase pg) = false →
      s.chip.latch (pageBase pg) = none → s.chip.on (hOVLD (pageBase pg)) = true → s.chip.get (hOCLID (pageBase pg)) ≠ x.toNat →
      ∀ v : Word, Gives (.ownershipWrite (.host x) pg v) s (s.chip.erc (pageBase pg) (.host x) St.perm)))

/-! ### The document engine (R92, R93, R98–R118) -/

/-- WAKE, OFF, DRAIN, RESUME, CLEAR, SERVICE and EXIT from a client with X on DOC, in a state of the legality matrix that takes them: the engine enters
the state of the transition table and the answer is 0x00 (R92, R98, R102, R108, R519). Where items are still open, OFF, CLEAR and EXIT enter OFF once
the last of them has gone (R91, R120). -/
def Obligations.EngineStateCommands : Prop :=
  ∀ (s : State) (h : Hdr), CommandIn s.chip h → s.chip.mayX h.clid.toNat Pg.DOC = true →
    (s.chip.engine = Eng.off → s.chip.dbg.extest = false → s.chip.get Fld.PSY_BST_STG = 0x0A →
      Gives (.wake h []) s ((((s.chip.command h (leBytes 1 Cmd.wake)).enter Eng.waking 0x01).respond h St.ok []).bridgeOn)) ∧
    ([Eng.waking, Eng.warmup, Eng.ready, Eng.run, Eng.drain, Eng.halt].contains s.chip.engine = true →
      Gives (.off h []) s (((s.chip.command h (leBytes 1 Cmd.off)).offNow.respond h St.ok []).bridgeOn)) ∧
    (s.chip.engine = Eng.run →
      Gives (.drain h []) s
        (let d := s.chip.command h (leBytes 1 Cmd.drain)
         ((((d.enter Eng.drain 0x01).dropUntested).settleSingles).respond h St.ok []).bridgeOn)) ∧
    (s.chip.engine = Eng.halt → (s.chip.command h (leBytes 1 Cmd.resume)).pathEmpty = true →
      Gives (.resume h []) s ((((s.chip.command h (leBytes 1 Cmd.resume)).enter Eng.waking 0x01).respond h St.ok []).bridgeOn)) ∧
    (s.chip.engine = Eng.fault → (s.chip.command h (leBytes 1 Cmd.clear)).clearable = true →
      (let d := (((s.chip.command h (leBytes 1 Cmd.clear)).releaseLL).clr Fld.FUS_STA_CUT).clr Fld.FLT_STA_SAFE
       Gives (.clear h []) s ((d.offAfterItems.respond h St.ok []).bridgeOn) ∧
       (d.doc.items = [] → d.doc.cand = [] → d.engine = Eng.fault →
        Gives (.clear h []) s (((({ d with doc := { d.doc with drainToOff := true } }).enter Eng.off 0x01).respond h St.ok []).bridgeOn)))) ∧
    ((s.chip.engine = Eng.ready ∨ s.chip.engine = Eng.off) → s.chip.dbg.extest = false → s.chip.get Fld.PSY_BST_STG = 0x0A →
      Gives (.service h []) s
        ((((((s.chip.command h (leBytes 1 Cmd.service)).withdrawQueued).startClosings).enter Eng.service 0x01).settleSingles.respond
          h St.ok []).bridgeOn)) ∧
    (s.chip.engine = Eng.service →
      (let d := s.chip.command h (leBytes 1 Cmd.exit)
       Gives (.exit h []) s ((d.offAfterItems.respond h St.ok []).bridgeOn) ∧
       (d.doc.items = [] → d.doc.cand = [] → d.engine = Eng.service →
        Gives (.exit h []) s (((({ d with doc := { d.doc with drainToOff := true } }).enter Eng.off 0x01).respond h St.ok []).bridgeOn))))

/-- START from a client with W: the item declared by the command waits for its OPEN record, and its answer for the record's commit (R99, R110, R111); in
any state but READY and RUN it is refused with 0x21 and named in DOC.LREF (R44, R102, R114). ABORT ends the caller's item, HALT every item, at once
and in every state that has motion to stop; both answer 0x00 (R108, R366). -/
def Obligations.ItemCommands : Prop :=
  (∀ (s : State) (h : Hdr) (args : List Byte), CommandIn s.chip h → s.chip.mayW h.clid.toNat Pg.DOC = true → args.length = 19 →
    ((s.chip.engine = Eng.ready ∨ s.chip.engine = Eng.run) →
      (let d := s.chip.command h (leBytes 1 Cmd.start ++ args)
       d.startCheck (leBytes 1 Cmd.start ++ args) (d.declared h.clid (leBytes 1 Cmd.start ++ args)) = St.ok →
        Gives (.start h args) s ((d.startItem h (d.declared h.clid (leBytes 1 Cmd.start ++ args))).bridgeOn))) ∧
    (s.chip.engine ≠ Eng.ready → s.chip.engine ≠ Eng.run →
      Gives (.start h args) s
        ((((s.chip.inHand h 6 (.command (leBytes 1 Cmd.start ++ args))).cmdRefused h.clid Cmd.start).respond h St.state []).bridgeOn))) ∧
  (∀ (s : State) (h : Hdr), CommandIn s.chip h → s.chip.mayW h.clid.toNat Pg.DOC = true →
    (∀ args : List Byte, args.length = 4 → s.chip.ownerOf (ofLeBytes args) = some h.clid.toNat →
      ofLeBytes args ≠ lostId →
      Gives (.abort h args) s
        ((((s.chip.command h (leBytes 1 Cmd.abort ++ args)).abortItems h.clid (ofLeBytes args)).settleSingles.respond h St.ok []).bridgeOn)) ∧
    (let d := ((s.chip.event Ev.halt).haltNow).inHand h 6 (.command (leBytes 1 Cmd.halt))
     BridgeIdle ((s.chip.event Ev.halt).haltNow) → d.mayW h.clid.toNat Pg.DOC = true →
      Gives (.halt h []) s (((d.event Ev.cmd).haltNow.settleSingles.respond h St.ok []).bridgeOn)))

/-- STATUS, REPGET and REPACK raise no CMD event: STATUS answers the status block, REPGET the first closed report from the item on, REPACK of a closed
item queues the freeing of its records (R104, R118). The ID 0xFFFF_FFFF names the lost items, of which REPGET answers the oldest (R115). -/
def Obligations.StatusAndReports : Prop :=
  ∀ (s : State) (h : Hdr), CommandIn s.chip h →
    (s.chip.mayR h.clid.toNat Pg.DOC = true →
      Gives (.status h []) s
        (let d := s.chip.inHand h 6 (.command (leBytes 1 Cmd.status))
         (d.respond h St.ok d.statusBlock).bridgeOn)) ∧
    (∀ args : List Byte, args.length = 4 → s.chip.mayW h.clid.toNat Pg.DOC = true → ofLeBytes args ≠ lostId →
      (let d := s.chip.inHand h 6 (.command (leBytes 1 Cmd.repget ++ args))
       (d.ownerOf (ofLeBytes args)).isSome = true →
        Gives (.repget h args) s ((d.respond h St.ok (d.repgetBytes (ofLeBytes args))).bridgeOn)) ∧
      (let d := s.chip.inHand h 6 (.command (leBytes 1 Cmd.repack ++ args))
       (d.ownerOf (ofLeBytes args)).isSome = true → d.repackPages h.clid (ofLeBytes args) ≠ [] →
        Gives (.repack h args) s
          ({ d with doc := { d.doc with commits :=
              d.doc.commits ++ [(⟨.free h (d.repackPages h.clid (ofLeBytes args)), 0⟩ : Commit)] } }.bridgeOn))) ∧
    (∀ args : List Byte, args.length = 4 → s.chip.mayX h.clid.toNat Pg.DOC = true → ofLeBytes args = lostId →
      (let d := s.chip.inHand h 6 (.command (leBytes 1 Cmd.repget ++ args))
       (d.lostPages = [] → Gives (.repget h args) s ((d.respond h St.badArg []).bridgeOn)) ∧
       (∀ j rest, d.lostPages = j :: rest → Gives (.repget h args) s ((d.respond h St.ok (d.reportAt j)).bridgeOn))) ∧
      (let d := s.chip.inHand h 6 (.command (leBytes 1 Cmd.repack ++ args))
       d.lostPages ≠ [] →
        Gives (.repack h args) s
          ({ d with doc := { d.doc with commits := d.doc.commits ++ [(⟨.free h d.lostPages, 0⟩ : Commit)] } }.bridgeOn)))

/-- Events of the engine's states: WAKE_COMPLETE takes WAKING to READY with every role present, the polygon in lock and the axes homed, the two time
limits end in FAULT, IDLE_TIMEOUT takes an idle READY to OFF, and the heater's band moves WARMUP and READY (R92, R93, R137). What waits on an item: a
committed CLOSED record readies its report, a record held for supply is written later and then reported, the wait for admission and for the host's
draining end the item, and an issued report removes it, with the records that the host has not drained discarded where that ended it (R105, R106,
R110–R112, R118). -/
def Obligations.EngineAndItemEvents : Prop :=
  ((∀ s : State, LOn s.chip → s.chip.engine = Eng.waking → s.chip.missingRole = none → s.chip.on Fld.MER_STA_LOCK = true →
    s.chip.homed = true → (s.chip.on Fld.DOC_BCFG_MARK = false ∨ s.chip.doc.heatBand = true) →
    Gives .wakeComplete s (s.chip.enter Eng.ready 0x02).decision) ∧
  (∀ s : State, LOn s.chip → s.chip.engine = Eng.waking → Gives .wakeTimeout s s.chip.timeoutFault) ∧
  (∀ s : State, LOn s.chip → s.chip.engine = Eng.warmup → Gives .warmupTimeout s s.chip.timeoutFault) ∧
  (∀ s : State, LOn s.chip → s.chip.engine = Eng.ready → s.chip.doc.items = [] → s.chip.doc.cand = [] → s.chip.get Fld.DOC_BIDT_T ≠ 0 →
    Gives .idleTimeout s (s.chip.enter Eng.off 0x0A)) ∧
  (∀ s : State, LOn s.chip → s.chip.engine = Eng.warmup → s.chip.th0InBand = true → s.chip.doc.heatBand = false →
    Gives .heatBandEnter s (({ s.chip with doc := { s.chip.doc with heatBand := true } }.enter Eng.ready 0x03).decision)) ∧
  (∀ s : State, LOn s.chip → s.chip.th0InBand = false → s.chip.doc.heatBand = true → s.chip.engine = Eng.ready →
    s.chip.granted = 0 → s.chip.on Fld.DOC_BCFG_MARK = true →
    Gives .heatBandLeave s ({ s.chip with doc := { s.chip.doc with heatBand := false } }.enter Eng.warmup 0x0B))) ∧
  ((∀ (s : State) (x : Item) (rest : List Commit), LOn s.chip → s.chip.gst = 0 → s.chip.doc.commits = ⟨.close, x.id⟩ :: rest →
    s.chip.item x.id = some x →
    Gives .journalCommitDone s
      ((Chip.reported s.chip ({ s.chip with doc := { s.chip.doc with commits := rest } }.commitClose x).journalIdle).settle)) ∧
  (∀ (s : State) (i : BitVec 32) (r : HeldRec), AOn s.chip → s.chip.doc.held = [r] → r.item.id = i.toNat →
    (s.chip.jCommit r.item.page (r.stamped s.chip.doc.jseq)).1 = St.ok →
    Gives (.journalCloseRetry i) s
      (let t := (s.chip.jCommit r.item.page (r.stamped s.chip.doc.jseq)).2
       { t with doc := { t.doc with held := eraseFirst (fun q => q.item.id == i.toNat) t.doc.held } }.finalReport r) ∧
    (r.item.rcv = false → r.item.id ≠ lostId → s.chip.fab.lco = true →
      Gives (.journalCloseRetry i) s
        (let t := (s.chip.jCommit r.item.page (r.stamped s.chip.doc.jseq)).2
         ({ t with doc := { t.doc with held := eraseFirst (fun q => q.item.id == i.toNat) t.doc.held } }.sendReport r.item.client
           ((r.bytes.drop 24).take 32)).syncJournal))) ∧
  (∀ (s : State) (i : BitVec 32) (x : Item), LOn s.chip → s.chip.item i.toNat = some x → x.queued = true → x.settled = false →
    s.chip.isGranted i.toNat = false → x.await ≠ 0 →
    Gives (.admitWaitExpiry i) s ((s.chip.endItem i.toNat Out.withdrawn Rsn.none x.refusal 0 false).startClosings)) ∧
  (∀ (s : State) (i : BitVec 32) (x : Item), LOn s.chip → s.chip.item i.toNat = some x → x.phase = 5 → x.settled = false →
    s.chip.drained i.toNat = false →
    Gives (.hostDrainTimeout i) s
      (s.chip.endItem i.toNat Out.failed Rsn.hostDrain St.ok 0 false).startClosings) ∧
  (∀ (s : State) (i : BitVec 32) (x : Item) (rep : List Byte) (rest : List (Nat × List Byte)), LOn s.chip →
    s.chip.doc.ready = (i.toNat, rep) :: rest → s.chip.item i.toNat = some x →
    Gives (.itemReportIssue i) s
      (let t := (({ s.chip with doc := { s.chip.doc with ready := rest } }.sendReport x.client rep).nvsCount 4).itemGone x
       Chip.reported s.chip (if x.ending.any (fun e => e.reason == Rsn.hostDrain) then t.discardItem i.toNat else t).decideSoon)))

/-! ### Supply, hold-up reserve and Energy Ledger (R124–R143) -/

/-- VIN crossings: over 42.0 V sets OV, activates Last Line cause 2 and reports 0x0102, and OV ends at 41.0 V; below VPF + BWO sets BW, which ends 0.2 V
above (R125). Power fail latches once and starts the safe stop: IST.PFAIL set, a reserve test ended, the charger stopped, an open commit group closed,
Last Line tripped by cause 12 and the power-loss record staged; a latched PFAIL only notes VIN (R126, R132). The safe stop's later steps: the saves
and the safe-stop groups, the L-die off with VIO and VCORE, and the end, after which the device acts on a VIN that came back (R50, R132, R571). -/
def Obligations.SupplyAndSafeStop : Prop :=
  ((∀ (s : State) (mv : BitVec 16), POn s.chip → (s.chip.put Fld.PWR_VIN_MV mv.toNat).on Fld.PWR_STA_OV = false → 42000 < mv.toNat →
    Gives (.vinOvervoltage mv) s
      (((((s.chip.put Fld.PWR_VIN_MV mv.toNat).set Fld.PWR_STA_OV).set Fld.PWR_IST_OV).llActive 2 true).raiseP (report 0x0102 0 0 mv.toNat))) ∧
  (∀ (s : State) (mv : BitVec 16), POn s.chip → s.chip.on Fld.PWR_STA_OV = true → mv.toNat ≤ 41000 →
    Gives (.vinOvervoltage mv) s (((s.chip.put Fld.PWR_VIN_MV mv.toNat).clr Fld.PWR_STA_OV).llActive 2 false)) ∧
  (∀ (s : State) (mv : BitVec 16), POn s.chip → s.chip.on Fld.PWR_STA_BW = false →
    mv.toNat < (s.chip.get Fld.PWR_VPF_VPF + s.chip.get Fld.PWR_VPF_BWO) * 100 →
    Gives (.brownoutWarning mv) s (((s.chip.put Fld.PWR_VIN_MV mv.toNat).set Fld.PWR_STA_BW).set Fld.PWR_IST_BW)) ∧
  (∀ (s : State) (mv : BitVec 16), POn s.chip → s.chip.on Fld.PWR_STA_BW = true →
    (s.chip.get Fld.PWR_VPF_VPF + s.chip.get Fld.PWR_VPF_BWO) * 100 + 200 ≤ mv.toNat →
    Gives (.brownoutWarning mv) s ((s.chip.put Fld.PWR_VIN_MV mv.toNat).clr Fld.PWR_STA_BW))) ∧
  (∀ (s : State) (mv : BitVec 16), POn s.chip →
    (s.chip.pow.pfail = false → mv.toNat < s.chip.get Fld.PWR_VPF_VPF * 100 →
      Gives (.powerFail mv) s
        (let c := s.chip.setVin mv.toNat
         let d := { c with pow := { c.pow with pfail := true, safeStop := true, resSwitch := true }
                           fst := { c.fst with validAtPfail := s.chip.on Fld.RES_STA_VALID, safeGroups := 0 }
                           ret := { c.ret with req := none } }
         let e := (((d.set Fld.PWR_IST_PFAIL).clr Fld.RES_STA_TBUSY).clr Fld.RET_STA_IMGV).syncCharge
         let f := ((if e.gst = 1 then e.closeGroup else e).llActive 12 true).tripLL 12
         f.stageLoss { kind := 2, cls := 0, code := 2, data := leBytes 2 mv.toNat ++ leBytes 2 (f.get Fld.RES_VRES_MV), mst := 0x10 }) ∧
      Runs (.powerFail mv) s fun c => c.pow.pfail = true ∧ c.pow.safeStop = true ∧ c.on Fld.PWR_IST_PFAIL = true ∧
        c.on Fld.RES_STA_TBUSY = false ∧ c.on Fld.ILK_STA_LL = true ∧ bitsOf (c.get Fld.ILK_LLC_C) 12 1 = 1) ∧
    (s.chip.pow.pfail = true → Gives (.powerFail mv) s (s.chip.setVin mv.toNat))) ∧
  (∀ s : State, AOn s.chip → s.chip.pow.safeStop = true →
    (Gives .safeStopSaves s
      (let d := ((s.chip.commitDone).saveHeld).nvsCount 3
       let d := d.safeGroup (d.alm.staged.take d.logRoom) []
       d.safeGroup (d.alm.staged.take 2) d.doc.held)) ∧
    Gives .safeStopLDieOff s (((s.chip.lDieOff).clr Fld.PWR_STA_VIOG).clr Fld.PWR_STA_VCOREG) ∧
    (s.chip.pow.vinReturn = false →
      Gives .safeStopEnd s { s.chip.safeStopEnd with pow := { s.chip.safeStopEnd.pow with vinReturn := false } }) ∧
    (s.chip.pow.vinReturn = true →
      Gives .safeStopEnd s ({ s.chip.safeStopEnd with pow := { s.chip.safeStopEnd.pow with vinReturn := false } }).harvestReturn))

/-- A rail below its good threshold after boot activates Last Line cause 4, takes the L-die off and reports the rail and its level; in the first boot
stages it stops the sequence with FAIL = 0x02 (R43, R46); its recovery clears STG to RAILS and FAIL to 0 and marks the rails good (R54, R124, R530).
The input limiter: over PLIM or over ILIM it pauses the charger and, where that is not enough, lowers the heater duty, and reports 0x0104; while it
sheds it goes on so; shedding ends when both are met again; more than 1.05 times PLIM with the duty at 0 reports 0x0105 and 1.25 times ILIM 0x0103
(R127). -/
def Obligations.RailsAndLimiter : Prop :=
  ((∀ (s : State) (r : Fin 4) (mv : BitVec 16), POn s.chip → mv.toNat < railGood r.val →
    (0x0A ≤ s.chip.get Fld.PSY_BST_STG →
      Gives (.railFault r mv) s
        (((({ s.chip.setRail r.val false with
              pow := { s.chip.pow with railsFailed := true, failRail := r.val, failMv := mv.toNat } }).llActive 4 true).lDieOff).raiseP
          (report 0x0101 r.val 0 mv.toNat))) ∧
    (s.chip.get Fld.PSY_BST_STG < 6 → s.chip.get Fld.PSY_BST_FAIL = 0 →
      Gives (.railFault r mv) s
        (({ s.chip.setRail r.val false with
              pow := { s.chip.pow with railsFailed := true, failRail := r.val, failMv := mv.toNat } }).bootFail 0x02))) ∧
  (∀ s : State, POn s.chip → s.chip.pow.railsFailed = true →
    Gives .railRecovery s
      (let c := if s.chip.fab.lco then s.chip.lDieOff else s.chip
       let c := { c with pow := { c.pow with railsFailed := false } }
       let c := ((c.llActive 4 false).put Fld.PSY_BST_STG 3).put Fld.PSY_BST_FAIL 0
       ((({ c with ret := { c.ret with cause := 6 } }.setRail 0 true).setRail 1 true).setRail 2 true)))) ∧
  ((∀ (s : State) (p i : BitVec 16), POn s.chip →
    (let c := s.chip.setInput p.toNat i.toNat
     let d := if c.ilim < i.toNat then c.set Fld.PWR_STA_ILIMA else c
     (c.plim < p.toNat ∨ c.ilim < i.toNat) →
      (c.on Fld.PWR_STA_SHED = false →
        Gives (.limiterShed p i) s
          (((((d.shedStep (p.toNat - c.plim) (decide (c.ilim < i.toNat))).set Fld.PWR_STA_SHED).set Fld.PWR_IST_SHED).syncCharge).raiseP
            (report 0x0104 0 0 p.toNat))) ∧
      (c.on Fld.PWR_STA_SHED = true →
        Gives (.limiterShed p i) s (d.shedStep (p.toNat - c.plim) (decide (c.ilim < i.toNat)))) ∧
      (c.on Fld.PWR_STA_SHED = true → c.on Fld.RES_STA_CHRG = true → p.toNat ≤ c.plim + c.chargeDraw →
        Runs (.limiterShed p i) s fun e => e.pow.chargerPaused = true ∧ e.get Fld.FUS_DTY_D = s.chip.get Fld.FUS_DTY_D ∧ e.mem = s.chip.mem) ∧
      (c.on Fld.PWR_STA_SHED = true → c.on Fld.RES_STA_CHRG = false → 0 < s.chip.get Fld.FUS_DTY_D →
        Runs (.limiterShed p i) s fun e => e.get Fld.FUS_DTY_D < s.chip.get Fld.FUS_DTY_D ∧ e.pow.heaterCap = e.get Fld.FUS_DTY_D ∧
          e.mem = s.chip.mem))) ∧
  (∀ (s : State) (p i : BitVec 16), POn s.chip →
    (let c := s.chip.setInput p.toNat i.toNat
     c.on Fld.PWR_STA_SHED = true → p.toNat + (if c.pow.chargerPaused then c.chargeDraw else 0) ≤ c.plim → i.toNat ≤ c.ilim →
      Gives (.shedEnd p i) s
        (((({ c with pow := { c.pow with chargerPaused := false, heaterCap := 1000 } }).clr Fld.PWR_STA_SHED).clr
          Fld.PWR_STA_ILIMA).syncCharge))) ∧
  (∀ (s : State) (p : BitVec 16), POn s.chip →
    (let c := s.chip.put Fld.PWR_PIN_CW p.toNat
     c.on Fld.PWR_STA_SHED = true → c.get Fld.FUS_DTY_D = 0 → c.plim * 105 < p.toNat * 100 → Gives (.pwrLimit p) s (c.raiseP (report 0x0105 0 0 p.toNat)))) ∧
  (∀ (s : State) (i : BitVec 16), POn s.chip →
    (let c := s.chip.put Fld.PWR_IIN_MA i.toNat
     c.ilim * 5 < i.toNat * 4 → Gives (.ilimTrip i) s (c.raiseP (report 0x0103 0 0 i.toNat)))))

/-- RESERVE_TEST_START without PFAIL and with no test running starts a test: a periodic one with VRES at 30.0 V, one at boot or after a failure whatever
VRES is; so does TCMD.RUN. RESERVE_TEST_DONE with the measured C and ESR ends the test: within the limits it passes, TFAIL falls, and VALID follows
VRES at 22.0 V; outside them it fails, TFAIL and IST.TFAIL are set, VALID falls and 0x0106 is reported, and the third failure in a row at boot stage
RESERVE fails the boot. RESERVE_VALID_EXPIRY ends VALID (R46, R129, R130). LEDGER_DECISION_TICK in READY or RUN without PFAIL: with the journal writer
busy it waits; with the writer idle it decides each item in turn, so that the one queued item for which a start offset fits is granted there, and with
nothing queued nothing else changes; in another state the ledger admits nothing. LEDGER_BIN_TICK moves every window a bin on, drops those that have
ended and raises TICK (R136, R142, R143). -/
def Obligations.ReserveAndLedger : Prop :=
  ((∀ s : State, POn s.chip → s.chip.pow.pfail = false → s.chip.on Fld.RES_STA_TBUSY = false →
    (s.chip.get Fld.PSY_BST_STG = 9 ∨ s.chip.on Fld.RES_STA_TFAIL = true ∨ 30000 ≤ s.chip.get Fld.RES_VRES_MV) →
    Gives .reserveTestStart s (s.chip.set Fld.RES_STA_TBUSY)) ∧
  (∀ (s : State) (m : Master), Accepts s.chip m Reg.RES_TCMD 1#32 → s.chip.pow.pfail = false → s.chip.on Fld.RES_STA_TBUSY = false →
    Gives (.tcmdRun m) s (s.chip.set Fld.RES_STA_TBUSY).afterWrite) ∧
  (∀ (s : State) (esr : BitVec 12) (c : BitVec 16), POn s.chip → s.chip.on Fld.RES_STA_TBUSY = true →
    s.chip.get Fld.RES_TCFG_CMIN ≤ c.toNat → esr.toNat ≤ s.chip.get Fld.RES_TCFG_EMAX →
    Runs (.reserveTestDone esr c) s fun d => d.on Fld.RES_STA_VALID = decide (22000 ≤ s.chip.get Fld.RES_VRES_MV) ∧
      d.on Fld.RES_STA_TFAIL = false ∧ d.on Fld.RES_STA_TBUSY = false ∧ d.get Fld.RES_TRES_C = c.toNat ∧
      d.get Fld.RES_TRES_ESR = esr.toNat ∧ d.pow.passed = true ∧ d.pow.bootFails = 0 ∧ d.mem = s.chip.mem) ∧
  (∀ (s : State) (esr : BitVec 12) (c : BitVec 16), POn s.chip → s.chip.on Fld.RES_STA_TBUSY = true →
    (c.toNat < s.chip.get Fld.RES_TCFG_CMIN ∨ s.chip.get Fld.RES_TCFG_EMAX < esr.toNat) →
    (let b := ((s.chip.put Fld.RES_TRES_ESR esr.toNat).put Fld.RES_TRES_C c.toNat).clr Fld.RES_STA_TBUSY
     let d := (((({ b with pow := { b.pow with passed := false, bootFails := b.pow.bootFails + 1 } }).set Fld.RES_STA_TFAIL).set
       Fld.RES_IST_TFAIL).setValid false)
     let e := d.raiseP (report 0x0106 0 0 (d.rd Reg.RES_TRES).toNat)
     (e.get Fld.PSY_BST_STG = 9 → 3 ≤ e.pow.bootFails → e.get Fld.PSY_BST_FAIL = 0 →
       Gives (.reserveTestDone esr c) s (e.bootFail 0x07).usbAttach) ∧
     ((e.get Fld.PSY_BST_STG ≠ 9 ∨ e.pow.bootFails < 3 ∨ e.get Fld.PSY_BST_FAIL ≠ 0) → Gives (.reserveTestDone esr c) s e.usbAttach)) ∧
    (s.chip.fab.lco = true → s.chip.fab.standby = false → s.chip.fab.lossPL = false → s.chip.get Fld.PSY_BST_STG ≠ 9 →
      Runs (.reserveTestDone esr c) s fun d => d.on Fld.RES_STA_VALID = false ∧ d.on Fld.RES_STA_TFAIL = true ∧
        d.on Fld.RES_IST_TFAIL = true ∧ d.on Fld.RES_STA_TBUSY = false ∧
        d.flt.pReports = s.chip.flt.pReports ++ [report 0x0106 0 0 (d.rd Reg.RES_TRES).toNat] ∧ d.mem = s.chip.mem)) ∧
  (∀ (s : State) (mv : BitVec 16), POn s.chip →
    Runs (.reserveValidExpiry mv) s fun d => d.on Fld.RES_STA_VALID = false ∧ d.get Fld.RES_VRES_MV = mv.toNat ∧ d.mem = s.chip.mem)) ∧
  ((∀ s : State, LOn s.chip → (s.chip.engine = Eng.ready ∨ s.chip.engine = Eng.run) → s.chip.fab.up.pfail = false →
    (s.chip.doc.commits ≠ [] → s.chip.doc.singles = [] → s.chip.doc.items = [] →
      Gives .ledgerDecisionTick s { s.chip with pow := { s.chip.pow with decideDue := true } }) ∧
    (s.chip.doc.commits = [] →
      Gives .ledgerDecisionTick s
        ((s.chip.doc.items.map Item.id).foldl (fun (t : Chip) (id : Nat) => t.decideItem id)
          { s.chip with pow := { s.chip.pow with decideDue := false } }).settleSingles) ∧
    (s.chip.doc.commits = [] → s.chip.doc.singles = [] → s.chip.doc.items = [] →
      Gives .ledgerDecisionTick s { s.chip with pow := { s.chip.pow with decideDue := false } }) ∧
    (∀ (x : Item) (st : TestRes) (t0 : Nat), s.chip.doc.commits = [] → s.chip.doc.items = [x] → x.queued = true → x.settled = false →
      (let d := { s.chip with pow := { s.chip.pow with decideDue := false } }
       d.tryOffsets x (d.get Fld.LGR_SCHED_LEAD) none (d.get Fld.LGR_SCHED_DEFER / 5 + 1) = (st, some t0) →
        Gives .ledgerDecisionTick s (d.grant x t0 st).settleSingles))) ∧
  (∀ s : State, LOn s.chip → s.chip.engine ≠ Eng.ready → s.chip.engine ≠ Eng.run →
    Gives .ledgerDecisionTick s ({ s.chip with pow := { s.chip.pow with decideDue := false } }).settleSingles) ∧
  (∀ s : State, LOn s.chip → s.chip.mot.tracks = [] →
    Runs .ledgerBinTick s fun d =>
      d.pow.segs = (s.chip.pow.segs.map fun x => { x with lo := x.lo - 1, hi := x.hi - 1 }).filter (fun x => 0 < x.hi) ∧
      d.pow.zones = (s.chip.pow.zones.map fun x => { x with lo := x.lo - 1, hi := x.hi - 1 }).filter (fun x => 0 < x.hi) ∧
      d.pow.nips = (s.chip.pow.nips.map fun x => { x with lo := x.lo - 1, hi := x.hi - 1 }).filter (fun x => 0 < x.hi) ∧
      (s.chip.on Fld.ORR_CTL_EN = true → (s.chip.get Fld.ORR_CYC_N, Ev.tick) ∈ d.orr.evq) ∧
      (s.chip.on Fld.ORR_CTL_EN = false → ∀ k < 4, Ev.tick ∈ (d.ctx k).evl) ∧
      d.mem = s.chip.mem))

/-! ### Meridian, imaging path, calibration (R147–R189, R573) -/

/-- BD_PULSE with the BD input enabled: a pulse shorter than WMIN, or outside the window once a facet period has been measured, is counted in FST.REJ and
sets IST.BDREJ; any other is accepted and starts a line of every station, with the line boundary of the shadows; a fall of lock reaches the triggers,
and the modulation lines follow. The pulse is judged at the timebase's reading of its edge, which is the edge's own time where there is no spread and
no offset has built up (R147, R148, R149, R152, R154, R156). FLYWHEEL_SYNTH, a window that has closed with no accepted pulse: a line is synthesised at
the predicted time while fewer than MISS have been made in a row; after that BD is lost, lock and tracking fall, and loop L0, where it runs, loses its
feedback. BD_WINDOW_OPEN opens the window and turns the BD laser on (R149, R152). -/
def Obligations.BeamAndFlywheel : Prop :=
  (∀ (s : State) (t : Nat) (w : BitVec 16), LOn s.chip → s.chip.padIn 28 = true → s.chip.on Fld.MER_STA_ENA = true →
    (s.chip.get Fld.CLK_STA_SSD = 0 → s.chip.get Fld.MER_SSC_MODE ≠ 2 → s.chip.mer.tbOff = 0 → (s.chip.bdStamp t).1 = t) ∧
    (let d := (s.chip.bdStamp t).2
     let u := (s.chip.bdStamp t).1
     (w.toNat < s.chip.get Fld.MER_BDF_WMIN → Gives (.bdPulse t w) s (((d.bump Fld.MER_FST_REJ).set Fld.MER_IST_BDREJ).bdLine)) ∧
     (s.chip.get Fld.MER_BDF_WMIN ≤ w.toNat → s.chip.mer.tracking = true → s.chip.mer.meas = true → s.chip.inWindow u = false →
       Gives (.bdPulse t w) s (((d.bump Fld.MER_FST_REJ).set Fld.MER_IST_BDREJ).bdLine)) ∧
     (s.chip.get Fld.MER_BDF_WMIN ≤ w.toNat → (s.chip.mer.tracking = false ∨ s.chip.mer.meas = false ∨ s.chip.inWindow u = true) →
       Gives (.bdPulse t w) s ((Chip.lockFell d ((d.bdAccept u).lineStart u false)).bdLine)))) ∧
  ((∀ s : State, LOn s.chip → s.chip.on Fld.MER_STA_ENA = true → s.chip.mer.tracking = true → s.chip.mer.meas = true →
    (s.chip.get Fld.MER_FST_FLYC + 1 ≤ s.chip.get Fld.MER_BDF_MISS →
      Gives .flywheelSynth s ((Chip.lockFell s.chip (s.chip.bdSynth.lineStart s.chip.bdSynth.mer.pBd true)).bdLine)) ∧
    (s.chip.get Fld.MER_BDF_MISS < s.chip.get Fld.MER_FST_FLYC + 1 →
      (let u := s.chip.bdLost
       u.on Fld.MER_STA_LOCK = false ∧ u.mer.tracking = false ∧ u.mer.bdLaser = true ∧
       ((u.get (Fld.HLP_ST_MODE 0) = Mode.off ∨ u.on (Fld.HLP_ST_LOSS 0) = true) →
         Gives .flywheelSynth s ((Chip.lockFell s.chip u).bdLine)) ∧
       (u.get (Fld.HLP_ST_MODE 0) ≠ Mode.off → u.on (Fld.HLP_ST_LOSS 0) = false →
         Gives .flywheelSynth s ((Chip.lockFell s.chip (u.loopLoss 0 2 (u.getS (Fld.HLP_FB_Y 0)))).bdLine))))) ∧
  (∀ s : State, LOn s.chip → s.chip.on Fld.MER_STA_ENA = true → s.chip.mer.tracking = true →
    Runs .bdWindowOpen s fun c => c.regs = s.chip.regs ∧ c.mem = s.chip.mem ∧ c.mer.windowOpen = true ∧ c.mer.accepted = false ∧
      c.mer.bdLaser = true ∧
      (s.chip.noSweep = true → c.mer.mod0 = !s.chip.on Fld.MER_GEO_BDSRC ∧ c.mer.mod2 = s.chip.on Fld.MER_GEO_BDSRC)))

/-- PIX_PULSE of 20 ns or more on an enabled input sets IDXOK and restarts the count of facets without one; INDEX_LOST, two revolutions without one,
clears IDXOK, raises IDXLOST and counts afresh (R150). SWEEP_START of an enabled station in lock with its line armed places pixel 0 anew, starts the
sweep and raises the station's start event; a read station takes the edges of its first pixel, the write station the line that its trigger has fired.
SWEEP_END raises the end event; a read station's samples go to the imaging path, the write station's line is closed, the monitors that came with it
are stored, and Meridian stops if it has been disabled and no sweep is left (R161, R162, R202, R213, R258, R573). -/
def Obligations.FacetAndSweep : Prop :=
  ((∀ (s : State) (ns : BitVec 16), LOn s.chip → s.chip.padIn 29 = true → s.chip.on Fld.MER_STA_ENA = true →
    s.chip.on Fld.MER_GEO_IDXE = true → 20 ≤ ns.toNat →
    Gives (.pixPulse ns) s
      (let c := s.chip.set Fld.MER_STA_IDXOK
       { c with mer := { c.mer with pixPending := true, noPix := 0 } }.merSync)) ∧
  (∀ s : State, LOn s.chip → s.chip.on Fld.MER_GEO_IDXE = true → 2 * s.chip.nfac ≤ s.chip.mer.noPix →
    Gives .indexLost s
      (let c := (s.chip.clr Fld.MER_STA_IDXOK).set Fld.MER_IST_IDXLOST
       { c with mer := { c.mer with noPix := 0 } }.merSync))) ∧
  ((∀ (s : State) (n : Fin 3), LOn s.chip → s.chip.on Fld.MER_STA_LOCK = true → s.chip.on Fld.MER_STA_ENA = true →
    s.chip.on Fld.MER_CTL_EN = true → s.chip.stnEmits n.val = true → (s.chip.stn n.val).armed = true → (s.chip.stn n.val).sweeping = false →
    (let d := s.chip.placeLine n.val
     let u := (d.setStn n.val { d.stn n.val with
          armed := false, sweeping := true,
          inval := (d.stn n.val).inval || !d.sourcesLit n.val || d.polyLost }).event (0x23 + 2 * n.val)
     (n.val < 2 → Gives (.sweepStart n) s ({ u with mer := { u.mer with edges := u.pixelEdges n.val 0 } }).bdLine) ∧
     (n.val = 2 → Gives (.sweepStart n) s (u.markSweepStart.modLines u.markSweepStart.firstLit)))) ∧
  (∀ (s : State) (n : Fin 3) (raw : List (List (BitVec 12))) (mon : List (BitVec 24 × BitVec 12)), LOn s.chip →
    (s.chip.stn n.val).sweeping = true →
    (let u := (s.chip.setStn n.val { s.chip.stn n.val with
          sweeping := false,
          inval := (s.chip.stn n.val).inval || !s.chip.sourcesLit n.val }).event (0x24 + 2 * n.val)
     Gives (.sweepEnd n raw mon) s
       ((((if n.val = 2 then u.markSweepEnd else u.imgSweep n.val raw).apcSamples mon).bdLine).merHalt))))

/-- MERIDIAN_DISABLE by a master that passes the page's checks, with no sweep in progress: MER.CTL.EN and STA.ENA are 0 and no tracking, window, armed
line or modulation is left; registers outside pages MER and IMG keep their words and memory is untouched (R573). A line record of an item with room in
its reservation goes to the store; one whose item has no reservation is dropped and reported 0x0801 (R187, R324, R331). A trailer returns what its run
does not need (R339). A rear record waits for the front one of its facet (R194). -/
def Obligations.LinesAndMeridianStop : Prop :=
  (∀ (s : State) (x : Fin 4), LOn s.chip → NoneWaiting s.chip → Settled s.chip → s.chip.on Fld.MER_CTL_EN = true →
    s.chip.on Fld.MER_STA_ENA = true → s.chip.on Fld.MER_STA_LOCK = false → s.chip.noSweep = true → s.chip.noneAdmitted = false → s.chip.pow.decideDue = false →
    Runs (.meridianDisable (.orr x)) s fun c => c.on Fld.MER_CTL_EN = false ∧ c.on Fld.MER_STA_ENA = false ∧ c.mer.tracking = false ∧
      c.mer.windowOpen = false ∧ c.mer.mod0 = false ∧ c.mer.mod1 = false ∧ c.mer.mod2 = false ∧ c.mer.s0.armed = false ∧
      c.mer.s1.armed = false ∧ c.mer.s2.armed = false ∧ MemKept s.chip c ∧ ∀ a, a / 0x4000 ≠ 0x1000A → a / 0x4000 ≠ 0x1000B → c.rd a = s.chip.rd a) ∧
  (∀ (s : State) (stn : Fin 2) (r : Rec), LOn s.chip → s.chip.img.recs = [r] → r.stn = stn.val →
    (let done (c : Chip) : Chip := if r.bytes.headD 0#8 = 0x03#8 then (c.trimRun r.item stn.val).tryDone r.item else c
     s.chip.behindFront r = false →
      (∀ i, s.chip.rsvOf r.item = some i →
        Gives (.recordPush stn) s ((done ({ s.chip with img := { s.chip.img with recs := [] } }.storeRecord r i)).settle)) ∧
      (s.chip.rsvOf r.item = none →
        Gives (.recordPush stn) s
          ((done ((((({ s.chip with img := { s.chip.img with recs := [] } }.bump (Fld.RNG_STAT_REF (s.chip.imgRing stn.val))).bump
            Fld.IMG_DROP_SDROP).set Fld.IMG_IST_SOVF).set Fld.RNG_IST_DROP).raise
              (report 0x0801 (s.chip.imgRing stn.val) 0 0 r.item))).settle))) ∧
    (s.chip.behindFront r = true → Gives (.recordPush stn) s s.chip.settle))

/-- CAL.CMD with KIND DARK, WHITE or SAVE starts a run in READY or SERVICE with the polygon in lock and no item admitted (R179). A loss of lock ends a run
with result 2. A DARK or WHITE run that has fired on all its facets clears BUSY, updates the shading set, counts its bad pixels, its result and
CAL.SEQ and raises DONE; a SAVE ends with its commit, which waits while another group is open (R179, R408). The shading table is read and written at
CAL.TAD, which moves on by one modulo 24192 (R178). -/
def Obligations.Calibration : Prop :=
  (∀ (s : State) (m : Master) (v : Word), (s.chip.engine = Eng.ready ∨ s.chip.engine = Eng.service) → s.chip.noneAdmitted = true →
    s.chip.on Fld.MER_STA_LOCK = true → s.chip.on Fld.CAL_STA_BUSY = false → bitsOf v.toNat 12 3 ≤ 4 →
    (let started (k : Nat) : Chip :=
       ({ s.chip with img := { s.chip.img with run := some { kind := k, stn := bitsOf v.toNat 4 2, smsk := bitsOf v.toNat 8 4,
                                                             navg := 16 * 2 ^ bitsOf v.toNat 12 3,
                                                             left := if k = 3 then 0 else 16 * 2 ^ bitsOf v.toNat 12 3 } } }.set
         Fld.CAL_STA_BUSY).afterWrite
     (Accepts s.chip m Reg.CAL_CMD (v &&& 0xFFFFFFFC#32 ||| 1#32) →
       Gives (.calDark m v) s (started 1)) ∧
     (Accepts s.chip m Reg.CAL_CMD (v &&& 0xFFFFFFFC#32 ||| 2#32) →
       Gives (.calWhite m v) s (started 2)) ∧
     (Accepts s.chip m Reg.CAL_CMD (v &&& 0xFFFFFFFC#32 ||| 3#32) →
       Gives (.calSave m v) s (started 3)))) ∧
  ((∀ (c : Chip) (r : CalRun), c.img.run = some r →
    c.calLost = (({ c with img := { c.img with run := none } }.clr Fld.CAL_STA_BUSY).put Fld.CAL_CRS_RSLT 2)) ∧
  (∀ (s : State) (sums : List (BitVec 32)) (r : CalRun), LOn s.chip → s.chip.img.run = some r → r.kind ≠ 3 → r.left ≠ 0 →
    Gives (.calRunDone sums) s s.chip) ∧
  (∀ (s : State) (sums : List (BitVec 32)) (r : CalRun), LOn s.chip → s.chip.img.run = some r → r.kind = 3 →
    (s.chip.gst ≠ 0 → Gives (.calRunDone sums) s s.chip) ∧
    (s.chip.gst = 0 →
      (let e := ({ s.chip with img := { s.chip.img with run := none } }.clr Fld.CAL_STA_BUSY).calSaved
       Gives (.calRunDone sums) s
         (if e.1 = true then (((e.2.put Fld.CAL_CRS_RSLT 0).inc Fld.CAL_SEQ_N).set Fld.CAL_IST_DONE) else e.2)))) ∧
  (∀ (s : State) (sums : List (BitVec 32)) (r : CalRun), LOn s.chip → s.chip.img.run = some r → r.left = 0 → (r.kind = 1 ∨ r.kind = 2) →
    Runs (.calRunDone sums) s fun c =>
      let e := { s.chip with img := { s.chip.img with run := none } }.clr Fld.CAL_STA_BUSY
      let d := if r.kind = 1 then e.calDark r sums else e.calWhite r sums
      c.get Fld.CAL_CRS_RSLT = (if s.chip.get Fld.CAL_CFG_BADMAX < d.badCount r then 1 else 0) ∧ c.on Fld.CAL_IST_DONE = true ∧
        c.on Fld.CAL_STA_BUSY = false ∧ c.img.shading = d.img.shading ∧ c.mem = s.chip.mem) ∧
  (∀ (s : State) (x : Fin 4), LOn s.chip → Settled s.chip →
    Gives (.shadingTableAccess (.orr x) none) s
      (let v := s.chip.shade_ (s.chip.get Fld.CAL_TAD_I)
       let t := (s.chip.wr Reg.CAL_TDA v).put Fld.CAL_TAD_I ((s.chip.get Fld.CAL_TAD_I + 1) % 24192)
       { t with fab := { t.fab with rdata := v, rstat := St.ok } })) ∧
  (∀ (s : State) (x : Fin 4) (v : Word), LOn s.chip → NoneWaiting s.chip → s.chip.noneAdmitted = true → s.chip.on (hEN Pg.CAL) = true →
    Runs (.shadingTableAccess (.orr x) (some v)) s fun c => ∃ d, c = d.afterWrite ∧
      d.shade_ (s.chip.get Fld.CAL_TAD_I) = v &&& 0xFFFF0FFF#32 ∧ d.get Fld.CAL_TAD_I = (s.chip.get Fld.CAL_TAD_I + 1) % 24192 ∧
      (∀ j, j ≠ s.chip.get Fld.CAL_TAD_I → d.shade_ j = s.chip.shade_ j) ∧ RegsKept s.chip d [Reg.CAL_TDA, Reg.CAL_TAD] ∧
      d.mem = s.chip.mem))

/-! ### Marking station (R197–R217) -/

/-- JOB_LOAD: a job header in the stream takes a free entry while no job loads (R197). JOB_LOAD_DONE: a job whose bytes are all there and parse becomes
READY, its data in the store and its bands known (R199). JOB_DELETE: a READY or erroneous job that is named by its handle frees its entry (R200). -/
def Obligations.PrintJobs : Prop :=
  (∀ (s : State) (i : Nat), LOn s.chip → s.chip.on Fld.MRK_CTL_EN = true →
    (let d := (s.chip.pullPrint 65536).skipPrint
     d.jobAt (fun j => j.st == .loading) = none → d.mrk.skip = 0 → 32 ≤ d.mrk.stream.length → d.jobAt (fun j => j.st == .free) = some i →
      Gives .jobLoad s (d.jobHeader i).settle)) ∧
  (∀ (s : State) (i : Nat) (l : List Band), LOn s.chip → s.chip.jobAt (fun j => j.st == .loading) = some i →
    (let d := s.chip.pullPrint 65536
     let j := d.job i
     j.len ≤ d.mrk.stream.length → d.mrk.badData = false →
      parseBands j.npx j.wlpi (j.base + 32) 0 0 ((d.mrk.stream.take j.len).drop 32) j.nband = some l →
      Gives .jobLoadDone s
        (({ d with mrk := { d.mrk with badData := false, stream := d.mrk.stream.drop j.len } }.storeBytes j.base (d.mrk.stream.take j.len)).setJob
          i { j with st := .ready, bands := l }).settle)) ∧
  (∀ (s : State) (m : Master) (v : Word) (i : Nat), Accepts s.chip m Reg.MRK_JDEL v →
    s.chip.jobAt (fun j => j.st != .free && j.handle == v.toNat) = some i → ((s.chip.job i).st = .ready ∨ (s.chip.job i).st = .error) →
    Gives (.jobDelete m v) s (s.chip.setJob i freeJob).afterWrite)

/-- BAND_FETCH fetches for the first admitted item whose job has bands left, and changes nothing where none has (R202). HV_CHANNEL_SETTLED: a channel that
has ramped up is settled, and the next of the ramp follows; a channel ramped down goes off and the next follows, TRN with what was kept up for the
transfer (R204–R206). An HV channel at its ceiling is cut with its loop and reported 0x0505 (R203); a fuser cut latches STA.CUT, drops HTG and is
reported 0x0206 with TH1 (R208); TH0 and TH1 apart by more than TDIF with the heater on are reported 0x0506 (R209); a fuser too cold fails each item
in it with 0x0502, and runs the abort-mark sequence where a band has not finished its transfer (R211, R214). -/
def Obligations.MarkingPower : Prop :=
  ((∀ (s : State) (i : Nat), LOn s.chip →
    s.chip.fetchJobs.find? (fun k => decide ((s.chip.job k).fetch / 4096 < (s.chip.job k).bands.length)) = some i →
    Gives .bandFetch s (s.chip.bandFetch1 i 40) ∧
    (∀ b : Band, (s.chip.job i).bands[(s.chip.job i).fetch / 4096]? = some b → (s.chip.job i).fetch % 4096 < b.nline →
      16 ≤ (s.chip.ring 3).ents.length → Gives .bandFetch s s.chip)) ∧
  (∀ s : State, LOn s.chip → s.chip.fetchJobs = [] → Gives .bandFetch s s.chip) ∧
  (∀ (s : State) (n : Fin 4), LOn s.chip → s.chip.hv n.val = .ramp → s.chip.hvSettled n.val = true → n.val ≠ 3 →
    Gives (.hvChannelSettled n) s (s.chip.setHv n.val .settled).hvNext) ∧
  (∀ (s : State) (n : Fin 4), LOn s.chip → s.chip.hv n.val = .ramp → s.chip.hvSettled n.val = true → n.val = 3 →
    Gives (.hvChannelSettled n) s (s.chip.setHv n.val .settled)) ∧
  (∀ (s : State) (n : Fin 4), LOn s.chip → s.chip.hv n.val = .down → n.val ≠ 3 →
    Gives (.hvChannelSettled n) s (((s.chip.setHv n.val .off).helCmd (7 + n.val) Mode.off).hvDown)) ∧
  (∀ (s : State) (n : Fin 4), LOn s.chip → s.chip.hv n.val = .down → n.val = 3 →
    Gives (.hvChannelSettled n) s ((((s.chip.setHv n.val .off).helCmd (7 + n.val) Mode.off).clr Fld.MRK_STA_TRNON).hvRelease))) ∧
  ((∀ (s : State) (n : Fin 4), POn s.chip → s.chip.get (Fld.HVD_CEIL_C n.val) ≤ s.chip.get (Fld.HVD_HVF_C n.val) →
    bitsOf (s.chip.get Fld.HVD_STA_ON) n.val 1 = 1 →
    Gives (.hvOv n) s
      ((((s.chip.set ⟨Reg.HVD_IST, 8 + n.val, 1⟩).put Fld.HVD_STA_ON (s.chip.get Fld.HVD_STA_ON - 2 ^ n.val)).helCmd (7 + n.val)
        Mode.off).raiseP (report 0x0505 n.val 0 (s.chip.get (Fld.HVD_HVF_C n.val))))) ∧
  (∀ (s : State) (k : Fin 3), POn s.chip →
    Gives (.fuserCut k) s
      (let d := ((s.chip.set Fld.FUS_STA_CUT).set Fld.FUS_IST_CUT).clr Fld.FUS_STA_HTON
       let d := if k.val = 0 then d else d.set Fld.FUS_IST_SENS
       d.raiseP (report 0x0206 0 k.val (s.chip.get (Fld.FUS_TH_T 1))))) ∧
  (∀ s : State, POn s.chip → s.chip.on Fld.FUS_STA_HTON = true →
    10 * s.chip.get Fld.FUS_TDIF_T < ((s.chip.get (Fld.FUS_TH_T 0) : Int) - s.chip.get (Fld.FUS_TH_T 1)).natAbs →
    Gives .thDisag s
      ((s.chip.set Fld.FUS_IST_DISAG).raiseP
        (report 0x0506 0 0 ((s.chip.get (Fld.FUS_TH_T 0) : Int) - s.chip.get (Fld.FUS_TH_T 1)).natAbs))) ∧
  (∀ (s : State) (w : WriteTrig), LOn s.chip → s.chip.mrk.wts = [w] → w.ended = false → (s.chip.item w.item).any Item.mark = true → s.chip.inFuser w = true →
    (s.chip.get (Fld.FUS_TH_T 0) : Int) < (s.chip.tset : Int) - 5 * s.chip.get Fld.LGR_HEAT_BLO →
    (let u := (s.chip.set Fld.MRK_IST_HEAT).raise (report 0x0502 0 0 (codeOf (s.chip.get (Fld.FUS_TH_T 0)) 32) w.item)
     Gives .heat s (if w.tband < (s.chip.bandsOf w).length ∧ u.on Fld.MRK_STA_ABRT = false then u.abortMark else u))))

/-! ### Motion, transport, Heliostat (R226–R268) -/

/-- SENSOR_EDGE: a level that does not turn the comparator only shows in MON. One that turns it is a qualified edge, taken with the encoder position at
the time of its raw change; on an input with no role it shows the new state, that position and the mean level before it, sets its interrupt and raises
its event (R226, R228). The checks of an item's track: an edge window of a fitted role that has passed unused is a jam of that input (R230), and an
item not picked within TPICK fails with 0x0303 (R228). -/
def Obligations.SensorEdgesAndWindows : Prop :=
  (∀ (s : State) (n : Fin 6) (v : BitVec 10) (raw : Nat) (l : BitVec 10) (t : BitVec 16), LOn s.chip →
    (let cov := s.chip.comparator n.val v.toNat
     let was := bitsOf (s.chip.get Fld.SNS_LVL_COV) n.val 1 == 1
     let pos := s.chip.posAt (s.chip.inputAxis n.val) raw
     (cov = was → Gives (.sensorEdge n v raw l t) s (s.chip.put (Fld.SNS_MON_V n.val) v.toNat)) ∧
     (cov ≠ was →
      Gives (.sensorEdge n v raw l t) s ((s.chip.put (Fld.SNS_MON_V n.val) v.toNat).qualified n.val cov pos l.toNat t.toNat)) ∧
     (cov ≠ was → s.chip.get (Fld.SNS_SCFG_ROLE n.val) = 0 →
      Gives (.sensorEdge n v raw l t) s
        (let lvl := s.chip.get Fld.SNS_LVL_COV
         let d := (((s.chip.put (Fld.SNS_MON_V n.val) v.toNat).put Fld.SNS_LVL_COV
             (if cov then lvl ||| 2 ^ n.val else lvl - (if bitsOf lvl n.val 1 = 1 then 2 ^ n.val else 0))).putS
           (Fld.SNS_EPOS_P n.val) pos).set ⟨Reg.SNS_IST, 8 + n.val, 1⟩
         ((if cov then d.put (Fld.SNS_MON_LO n.val) l.toNat else d.put (Fld.SNS_MON_LC n.val) l.toNat).event (0x36 + n.val)).applyThreshold
           n.val)))) ∧
  (∀ (s : State) (i : BitVec 32) (t : Track), LOn s.chip → s.chip.track i.toNat = some t → s.chip.checking = true → t.feeder = true →
    (∀ (role : Fin 8) (n : Nat) (w : Window), role.val ≠ Role.pickx → s.chip.roleInput role.val = some n → s.chip.leadWin t role.val = some w →
      0 < posDiff (s.chip.getS (Fld.ENC_POS_P (s.chip.profAxis t.prof))) w.hi →
      Gives (.edgeWindowExpiry i role true) s
        ((s.chip.jam true n role.val (s.chip.getS (Fld.ENC_POS_P (s.chip.profAxis t.prof))) i.toNat).applyThreshold n)) ∧
    (∀ role : Fin 8, role.val = Role.pickx → t.pick = none → (s.chip.get (Fld.MOT_PROFC_TPICK t.prof) : Int) ≤ t.age →
      Gives (.edgeWindowExpiry i role true) s
        ((s.chip.dropTrack i.toNat).raise (report 0x0303 ((s.chip.roleInput role.val).getD 0) 0 0 i.toNat))))

/-- ENCODER_COUNT moves the position by one in the direction that DIR and INV give, not at all once the encoder is lost, and by OLS per microstep on an
axis that runs open-loop; ENCODER_INDEX latches the position; ENCODER_LOST adds its errors to ERR, saturating, and ERRMAX of them mark the encoder
lost (R234, R236). An encoder input counts while its pads are read. TRANSPORT_STOPPED ends the jam stop and lets what waited for the stop go on
(R240). A stalled axis that carries an admitted item, commanded at STL.V or faster, raises STALL and 0x0306 with its position (R241); a bridge current
over 1.25 times HICL releases that bridge and reports 0x0308 with the current (R235). POLY_ALIGN_DONE goes from align to ramp, POLY_HANDOVER from the
ramp, or from the coast of a polygon caught fast enough, to the closed loop. POLY_START_TIMEOUT in align or ramp is a failed start: a coast that lasts
200,000 frames, PSTF, and from the third in a row 0x0309 (R237). POLY_OVSPD over POVS turns the drive off with 0x030A (R238). A solenoid goes from
peak to hold; over-current while it is driven latches it off with its interrupt and 0x030B; an open load is seen on one that is not driven (R239). -/
def Obligations.MotionEvents : Prop :=
  ((∀ (s : State) (a : Fin 2) (up : Bool) (t : Nat), LOn s.chip → (encPads a.val).all s.chip.padIn = true →
    (s.chip.axis a.val).openLoop = false → s.chip.on Fld.ENC_CTL_EN = true → bitsOf (s.chip.get Fld.ENC_STA_LOST) a.val 1 = 0 →
    Gives (.encoderCount a up t) s
      (let d : Int := if ((up != s.chip.on (Fld.MOT_AX_DIR a.val)) != s.chip.on (Fld.ENC_CFG_INV a.val)) then 1 else -1
       let x := s.chip.axis a.val
       (s.chip.setAxis a.val { x with lastT := t, cnt := x.cnt + d, edges := x.edges + 1 }).moved hooks a.val
         (s.chip.getS (Fld.ENC_POS_P a.val) + d) t)) ∧
  (∀ (s : State) (a : Fin 2) (up : Bool) (t : Nat), LOn s.chip → (s.chip.axis a.val).openLoop = true →
    Gives (.encoderCount a up t) s
      (let f := (s.chip.axis a.val).frac + s.chip.get (Fld.ENC_OLS_S a.val)
       let k : Int := if ((up != s.chip.on (Fld.MOT_AX_DIR a.val)) != s.chip.on (Fld.ENC_CFG_INV a.val)) then (f / 65536 : Nat)
         else -(f / 65536 : Nat)
       (s.chip.setAxis a.val { s.chip.axis a.val with frac := f % 65536 }).moved hooks a.val
         (s.chip.getS (Fld.ENC_POS_P a.val) + k) t)) ∧
  (∀ (s : State) (a : Fin 2) (up : Bool) (t : Nat), LOn s.chip → (s.chip.axis a.val).openLoop = false →
    bitsOf (s.chip.get Fld.ENC_STA_LOST) a.val 1 = 1 → Gives (.encoderCount a up t) s s.chip) ∧
  (∀ (s : State) (a : Fin 2), LOn s.chip → s.chip.padIn (24 + 3 * a.val) = true → s.chip.on Fld.ENC_CTL_EN = true →
    s.chip.on (Fld.ENC_CFG_IDXE a.val) = true →
    Gives (.encoderIndex a) s
      ((((s.chip.putS (Fld.ENC_IDX_P a.val) (s.chip.getS (Fld.ENC_POS_P a.val))).set ⟨Reg.ENC_STA, 8 + a.val, 1⟩).set
        ⟨Reg.ENC_IST, 8 + a.val, 1⟩).event (0x40 + a.val))) ∧
  (∀ (s : State) (a : Fin 2) (n : BitVec 8), LOn s.chip → (encPads a.val).all s.chip.padIn = true → s.chip.on Fld.ENC_CTL_EN = true →
    (let f := if a.val = 0 then Fld.ENC_ERR_A else Fld.ENC_ERR_B
     let d := s.chip.put f (satAdd (s.chip.get f) n.toNat 8)
     (s.chip.get (Fld.ENC_CFG_ERRMAX a.val) ≤ n.toNat →
       Gives (.encoderLost a n) s ((d.set ⟨Reg.ENC_STA, 10 + a.val, 1⟩).set ⟨Reg.ENC_IST, 10 + a.val, 1⟩)) ∧
     (n.toNat < s.chip.get (Fld.ENC_CFG_ERRMAX a.val) → Gives (.encoderLost a n) s d))) ∧
  (∀ s : State, LOn s.chip →
    Gives .transportStopped s
      ((({ s.chip with mot := { s.chip.mot with
            stopped := true, jamStop := false, axA := { s.chip.mot.axA with counting := false },
            axB := { s.chip.mot.axB with counting := false } } }).clr Fld.MOT_STA_JAMST).releaseWaits))) ∧
  ((∀ (s : State) (a : Fin 2) (t : Track) (x : Item), LOn s.chip → (s.chip.engine = Eng.run ∨ s.chip.engine = Eng.drain) → t ∈ s.chip.mot.tracks →
    s.chip.profAxis t.prof = a.val → s.chip.item t.item = some x → x.admitted = true → (s.chip.axis a.val).openLoop = false →
    s.chip.fab.mtrEn = true → s.chip.get Fld.MOT_STL_V ≤ (signedOf (s.chip.get (Fld.MOT_CM_SPD a.val)) 24).natAbs →
    Gives (.stall a) s
      (((s.chip.set Fld.MOT_IST_STALL).event Ev.stall).raise (report 0x0306 a.val 0 (s.chip.get (Fld.ENC_POS_P a.val))))) ∧
  (∀ (s : State) (b : Fin 4) (ma : BitVec 16), POn s.chip → 10 * s.chip.get (Fld.MDR_HICL_I b.val) * 5 < ma.toNat * 4 →
    Gives (.bridgeOc b ma) s
      (let d := s.chip.put Fld.MDR_STA_HON (s.chip.get Fld.MDR_STA_HON -
          (if bitsOf (s.chip.get Fld.MDR_STA_HON) b.val 1 = 1 then 2 ^ b.val else 0))
       (((({ d with mot := { d.mot with bridgeTrip := d.mot.bridgeTrip ||| 2 ^ b.val } }).syncBridges).set ⟨Reg.MDR_IST, 12 + b.val, 1⟩).raiseP
        (report 0x0308 b.val 0 ma.toNat))))) ∧
  ((∀ s : State, POn s.chip → s.chip.mot.polyOn = true → s.chip.get Fld.MDR_PSTA_ST = 1 → Gives .polyAlignDone s (s.chip.polyState 2)) ∧
  (∀ s : State, POn s.chip → s.chip.mot.polyOn = true →
    (s.chip.get Fld.MDR_PSTA_ST = 2 ∨
      (s.chip.get Fld.MDR_PSTA_ST = 4 ∧ s.chip.mot.polyFails = 0 ∧ s.chip.get Fld.MDR_PRMP_PHOV ≤ 2 * s.chip.get Fld.MDR_PSTA_RPM)) →
    Gives .polyHandover s (({ s.chip with mot := { s.chip.mot with polyFails := 0 } }).polyState 3)) ∧
  (∀ s : State, POn s.chip → s.chip.mot.polyOn = true → (s.chip.get Fld.MDR_PSTA_ST = 1 ∨ s.chip.get Fld.MDR_PSTA_ST = 2) → s.chip.mot.polyFails < 2 →
    Gives .polyStartTimeout s
      ((({ s.chip with mot := { s.chip.mot with polyFails := s.chip.mot.polyFails + 1, polyWait := 200000 } }).polyState 4).set Fld.MDR_IST_PSTF)) ∧
  (∀ s : State, POn s.chip → s.chip.mot.polyOn = true → (s.chip.get Fld.MDR_PSTA_ST = 1 ∨ s.chip.get Fld.MDR_PSTA_ST = 2) → s.chip.mot.polyFails = 2 →
    Gives .polyStartTimeout s
      (((({ s.chip with mot := { s.chip.mot with polyFails := 3, polyWait := 200000 } }).polyState 4).set Fld.MDR_IST_PSTF).raiseP (report 0x0309 0 0 3))) ∧
  (∀ (s : State) (rpm : BitVec 16), POn s.chip → s.chip.get Fld.MDR_POVS_RPM < rpm.toNat →
    Gives (.polyOvspd rpm) s
      (((({ s.chip with mot := { s.chip.mot with polyTrip := true } }).polyDrive false).set Fld.MDR_IST_POVS).raiseP (report 0x030A 0 0 rpm.toNat)))) ∧
  (∀ (s : State) (n : Fin 6), POn s.chip →
    (s.chip.mot.sols[n.val] = .peak → Gives (.solPeakEnd n) s (s.chip.setSol n.val .hold)) ∧
    ((s.chip.mot.sols[n.val] = .peak ∨ s.chip.mot.sols[n.val] = .hold) →
      Gives (.solOc n) s (((s.chip.setSol n.val .latched).set ⟨Reg.SOL_IST, 8 + n.val, 1⟩).raiseP (report 0x030B n.val))) ∧
    ((s.chip.mot.sols[n.val] = .opened ∨ s.chip.mot.sols[n.val] = .latched) →
      Gives (.solOpenLoad n) s (s.chip.set ⟨Reg.SOL_IST, 14 + n.val, 1⟩)))

/-- HELIOSTAT_FRAME moves the ramps of the HV channels and the axes on and counts in HEL.FRM; while HLP is enabled the mode commands that wait at its
start are applied, then the twelve slots run in order, each with its checks suspended as it stood then (R249, R250, R265). MCMD with a mode that its
slot allows and may enter now leaves the command waiting for the next frame (R250, R255). A table entry is read and written at HTB.TAD, which moves on
by one modulo 2048; after a read TDA shows the next entry (R268). -/
def Obligations.Heliostat : Prop :=
  ((∀ (s : State) (t : Nat) (k : BitVec 32), LOn s.chip →
    (let a := (((s.chip.restAxis 0 t).restAxis 1 t).rampTick).inc Fld.HEL_FRM_N
     (a.on Fld.HLP_CTL_EN = false → Gives (.heliostatFrame t k) s a) ∧
     (a.on Fld.HLP_CTL_EN = true →
      (let b := (List.range 12).foldl (fun u n => u.holdGated n) ((List.range 12).foldl (fun u n => u.applyCmd n t) a)
       Gives (.heliostatFrame t k) s
        (((List.range 12).foldl (fun u n => u.slotFrame hooks t k.toNat n ((((List.range 12).map fun i => b.suspended i)[n]?).getD false)) b).noteCycles
          ((List.range 12).filter fun n => (b.due n).1).length))))) ∧
  (∀ (s : State) (m : Master) (v : Word), Accepts s.chip m Reg.HEL_MCMD v → bitsOf v.toNat 24 3 ≤ 5 →
    s.chip.modeAllowed (bitsOf v.toNat 0 4) (bitsOf v.toNat 24 3) = true → s.chip.modeOk (bitsOf v.toNat 0 4) (bitsOf v.toNat 24 3) = true →
    Gives (.mcmd m v) s (s.chip.helCmd (bitsOf v.toNat 0 4) (bitsOf v.toNat 24 3)).afterWrite)) ∧
  ((∀ (s : State) (x : Fin 4), LOn s.chip → Settled s.chip →
    Gives (.tableAccess (.orr x) none) s
      (let i := s.chip.get Fld.HTB_TAD_I
       let t := s.chip.put Fld.HTB_TAD_I ((i + 1) % 2048)
       let u := t.putS Fld.HTB_TDA_V (t.tableEntry (t.get Fld.HTB_TAD_I))
       { u with fab := { u.fab with rdata := BitVec.ofNat 32 (codeOf (s.chip.tableEntry i) 16), rstat := St.ok } })) ∧
  (∀ (s : State) (x : Fin 4) (v : Word), LOn s.chip → NoneWaiting s.chip → s.chip.on (hEN Pg.HTB) = true →
    s.chip.get (Fld.HLP_ST_MODE (match s.chip.get Fld.HTB_TAD_I / 512 with | 0 => 0 | 1 => 1 | 2 => 2 | _ => 11)) = 0 →
    Runs (.tableAccess (.orr x) (some v)) s fun c => ∃ d, c = d.afterWrite ∧
      d.tableEntry (s.chip.get Fld.HTB_TAD_I) = signedOf (bitsOf v.toNat 0 16) 16 ∧
      d.get Fld.HTB_TAD_I = (s.chip.get Fld.HTB_TAD_I + 1) % 2048 ∧
      (∀ j, j ≠ s.chip.get Fld.HTB_TAD_I → d.tableEntry j = s.chip.tableEntry j) ∧ RegsKept s.chip d [Reg.HTB_TDA, Reg.HTB_TAD] ∧
      d.mem = s.chip.mem))

/-! ### Orrery (R269–R316) -/

/-- The arithmetic of the ALU against the integers: ADD and SUB wrap, with C the carry or the absence of a borrow and V the signed overflow; the
saturating forms clamp; a rotate is a rotate; division by zero saturates by the dividend's sign and sets DZ (R308, R309). -/
def Obligations.AluArithmetic : Prop :=
  ∀ (a b : Word) (ci : Bool),
    (∃ o, alu 0x02 a b ci = some o ∧ o.r.toNat + (if o.c then 2 ^ 32 else 0) = a.toNat + b.toNat ∧
      (o.v = false → o.r.toInt = a.toInt + b.toInt) ∧ (o.v = true → o.r.toInt ≠ a.toInt + b.toInt)) ∧
    (∃ o, alu 0x04 a b ci = some o ∧ o.r.toNat + b.toNat = a.toNat + (if o.c then 0 else 2 ^ 32) ∧
      (o.v = false → o.r.toInt = a.toInt - b.toInt) ∧ (o.v = true → o.r.toInt ≠ a.toInt - b.toInt)) ∧
    (∃ o, alu 0x06 a b ci = some o ∧ o.r.toNat + (if o.c then 2 ^ 32 else 0) = a.toNat + b.toNat + (if ci then 1 else 0)) ∧
    (∃ o, alu 0x07 a b ci = some o ∧ o.r.toNat + b.toNat + (if ci then 0 else 1) = a.toNat + (if o.c then 0 else 2 ^ 32)) ∧
    (∃ o, alu 0x03 a b ci = some o ∧ o.r.toInt = max (-2147483648) (min 2147483647 (a.toInt + b.toInt))) ∧
    (∃ o, alu 0x05 a b ci = some o ∧ o.r.toInt = max (-2147483648) (min 2147483647 (a.toInt - b.toInt))) ∧
    (∃ o, alu 0x16 a b ci = some o ∧ o.r.toInt = max (-2147483648) (min 2147483647 (a.toInt * b.toInt))) ∧
    (∃ o, alu 0x08 a b ci = some o ∧ (a ≠ 0x80000000#32 → o.r = -a ∧ o.v = false) ∧
      (a = 0x80000000#32 → o.r = 0x7FFFFFFF#32 ∧ o.v = true)) ∧
    (∃ o, alu 0x14 a b ci = some o ∧ o.r.rotateLeft (b.toNat % 32) = a) ∧
    (b = 0#32 → ∃ o, alu 0x18 a b ci = some o ∧ o.r = (if a.toInt < 0 then 0x80000000#32 else 0x7FFFFFFF#32) ∧ o.v = true ∧ o.dz = true)

/-- MICROWORD_EXECUTE of a word that only computes into a W register, next address in sequence: the register holds the ALU's result, the flags are those
of FLG, the other W registers, all registers outside ORR and ORC and memory are kept, and the context runs on at the next address (R270, R299, R300,
R306–R308). -/
def Obligations.MicrowordComputes : Prop :=
  ∀ (s : State) (k : Fin 4) (o : AluOut), LOn s.chip → SlotQuiet s.chip k.val →
    (let m := s.chip.mwordAt (s.chip.pc k.val)
     m.plain = true → m.seq = 0 → 0x10 ≤ m.dst → m.dst < 0x20 → m.asel < 0x10 → m.bsel < 0x10 →
      alu m.alu (s.chip.rd (Reg.ORC_W k.val m.asel)) (s.chip.rd (Reg.ORC_W k.val m.bsel)) (s.chip.flagsOf k.val).c = some o →
      Runs (.microwordExecute k 0) s fun c =>
        c.rd (Reg.ORC_W k.val (m.dst - 0x10)) = o.r ∧ c.flagsOf k.val = flagsAfter m.flg o (s.chip.flagsOf k.val) ∧
          c.pc k.val = (s.chip.pc k.val + 1) % 4096 ∧ c.ctxSt k.val = CtxSt.run ∧
          (∀ j < 16, j ≠ m.dst - 0x10 → c.rd (Reg.ORC_W k.val j) = s.chip.rd (Reg.ORC_W k.val j)) ∧
          (∀ a, a / 0x4000 ≠ 0x10008 → a / 0x4000 ≠ 0x10009 → c.rd a = s.chip.rd a) ∧ MemKept s.chip c)

/-- The sequencer with such a word and no destination: JUMP goes to the target, BRANCH to the target or in sequence by its condition, CALL pushes the next
address and jumps, RETURN pops it, LOOP counts down to 0 (R300, R301). -/
def Obligations.SequencerAddresses : Prop :=
  ∀ (s : State) (k : Fin 4), LOn s.chip → SlotQuiet s.chip k.val →
    (let m := s.chip.mwordAt (s.chip.pc k.val)
     m.plain = true → m.dst = 0 →
      (m.seq = 1 → Runs (.microwordExecute k 0) s fun c => c.pc k.val = m.tgt) ∧
      (m.seq = 2 → m.cnd = 0x20 → m.cpol = false →
        Runs (.microwordExecute k 0) s fun c =>
          c.pc k.val = if s.chip.on Fld.MER_STA_LOCK then m.tgt else (s.chip.pc k.val + 1) % 4096) ∧
      (m.seq = 3 → (s.chip.ctx k.val).stack.length < 8 →
        Runs (.microwordExecute k 0) s fun c => c.pc k.val = m.tgt ∧
          (c.ctx k.val).stack = { addr := (s.chip.pc k.val + 1) % 4096, entry := none } :: (s.chip.ctx k.val).stack) ∧
      (∀ (a : Nat) (rest : List Frame), m.seq = 4 → a < 4096 → (s.chip.ctx k.val).stack = { addr := a, entry := none } :: rest →
        Runs (.microwordExecute k 0) s fun c => c.pc k.val = a ∧ (c.ctx k.val).stack = rest) ∧
      (m.seq = 5 → (s.chip.ctx k.val).lc ≠ 0#32 →
        Runs (.microwordExecute k 0) s fun c => c.pc k.val = m.tgt ∧ (c.ctx k.val).lc = (s.chip.ctx k.val).lc - 1))

/-- MICROWORD_EXECUTE of a reserved word, of a CALL with a full and of a RETURN with an empty stack stops the context before any field acts, with 0x0704
or 0x0701 (R281, R298, R319); an uncorrectable control-store error stops it with 0x0703 and its address in ORR.ECE (R290). WAIT_TIMEOUT and
WAIT_SATISFIED of a word that waits for the lock: slot T ends it with TMOX and the next address, no field acting (R276); with the lock there, it acts
once and the context goes on (R275). -/
def Obligations.ContextFaultsAndWaits : Prop :=
  (∀ (s : State) (k : Fin 4), LOn s.chip → SlotQuiet s.chip k.val →
    (let m := s.chip.mwordAt (s.chip.pc k.val)
     let d := ((s.chip.atSlot k.val 0).latchLevels k.val).updCtx k.val fun x => { x with word := s.chip.num (ctlStore + 16 * s.chip.pc k.val) 16 }
     m.wait = false →
      (m.reserved = true → Gives (.microwordExecute k 0) s (((d.ctxFault k.val 0x0704).select k.val none).wdgCount k.val 1)) ∧
      (m.reserved = false → m.seq = 3 → 8 ≤ (s.chip.ctx k.val).stack.length →
        Gives (.microwordExecute k 0) s (((d.ctxFault k.val 0x0701).select k.val none).wdgCount k.val 1)) ∧
      (m.reserved = false → m.seq = 4 → (s.chip.ctx k.val).stack = [] →
        Gives (.microwordExecute k 0) s (((d.ctxFault k.val 0x0701).select k.val none).wdgCount k.val 1))) ∧
    (let d := (s.chip.atSlot k.val 0).latchLevels k.val
     Gives (.microwordExecute k 2) s
      (((((({ d with orr := { d.orr with ecc := s.chip.pc k.val :: s.chip.orr.ecc.filter (fun x => x != s.chip.pc k.val) } }).put Fld.ORR_ECE_ADDR
        (s.chip.pc k.val)).set Fld.ORR_IST_ECC2).ctxFault k.val 0x0703).select k.val none).wdgCount k.val 1))) ∧
  (∀ (s : State) (k : Fin 4), LOn s.chip → s.chip.ctxSt k.val = CtxSt.wait → s.chip.on (Fld.ORC_ST_LOCK k.val) = false → NoDispatch s.chip k.val →
    (s.chip.ctx k.val).pairHold = false → WatchdogQuiet s.chip k.val ((s.chip.ctx k.val).limit - (s.chip.ctx k.val).k + 1) →
    (let m := mword (s.chip.ctx k.val).word
     m.cnd = 0x20 → m.cpol = false →
      (s.chip.on Fld.MER_STA_LOCK = false → (s.chip.ctx k.val).k < (s.chip.ctx k.val).limit →
        Runs (.waitTimeout k) s fun c => c.on (Fld.ORC_FLG_TMOX k.val) = true ∧ c.on Fld.ORR_IST_TMOX = true ∧
          c.pc k.val = (s.chip.pc k.val + 1) % 4096 ∧ c.ctxSt k.val = CtxSt.run ∧ MemKept s.chip c ∧
          ∀ j < 16, c.rd (Reg.ORC_W k.val j) = s.chip.rd (Reg.ORC_W k.val j)) ∧
      (s.chip.on Fld.MER_STA_LOCK = true → ({ m with wait := false }).plain = true → m.seq = 0 → m.dst = 0 →
        Runs (.waitSatisfied k) s fun c => c.pc k.val = (s.chip.pc k.val + 1) % 4096 ∧ c.ctxSt k.val = CtxSt.run ∧ MemKept s.chip c)))

/-- DISPATCH_PREEMPT of a selected entry of kind CALL goes to its vector, pushes the address of the word that was next, marked with the entry, and puts
the entry in service (R279, R280). YIELD_WAKE: a sleeping context takes its pending entry of kind CALL, and the address behind its YIELD is pushed
(R283). CONTEXT_WATCHDOG: a watchdog that is set and runs out on a context for which it runs stops it with 0x0702 (R284). CONTEXT_TIMER_EXPIRY: a
timer that runs out is free again and raises its event (R316). CONTEXT_STOP stops a context at once, one in BUSW when what it waits for is there
(R294); CONTEXT_RESTART starts one at its entry with everything cleared (R296). -/
def Obligations.DispatchAndControl : Prop :=
  ((∀ (s : State) (k : Fin 4) (n : Fin 8), LOn s.chip → s.chip.ctxSt k.val = CtxSt.run → (s.chip.ctx k.val).sel = some n.val →
    s.chip.orr.evq = [] → WatchdogQuiet s.chip k.val 1 → bitsOf (s.chip.get (Fld.ORC_PEND_PND k.val)) n.val 1 = 1 → s.chip.on (Fld.ORC_DSP_EN k.val n.val) = true →
    s.chip.on (Fld.ORC_DSP_KIND k.val n.val) = false → (s.chip.ctx k.val).stack.length < 8 →
    Runs (.dispatchPreempt k) s fun c => c.pc k.val = s.chip.get (Fld.ORC_DSP_VEC k.val n.val) ∧ c.ctxSt k.val = CtxSt.run ∧
      (c.ctx k.val).stack = { addr := s.chip.pc k.val, entry := some n.val } :: (s.chip.ctx k.val).stack ∧
      (c.ctx k.val).sel = none ∧ bitsOf (c.get (Fld.ORC_PEND_PND k.val)) n.val 1 = 0 ∧
      bitsOf (c.get (Fld.ORC_PEND_INSV k.val)) n.val 1 = 1) ∧
  (∀ (s : State) (k : Fin 4) (n : Fin 8), LOn s.chip → s.chip.ctxSt k.val = CtxSt.sleep → (s.chip.ctx k.val).sel = none → s.chip.orr.evq = [] →
    WatchdogQuiet s.chip k.val 2 →
    (∀ j < 8, s.chip.on (Fld.ORC_DSP_EN k.val j) = decide (j = n.val)) → s.chip.get (Fld.ORC_PEND_PND k.val) = 2 ^ n.val →
    s.chip.on (Fld.ORC_DSP_KIND k.val n.val) = false → (s.chip.ctx k.val).stack.length < 8 →
    Runs (.yieldWake k) s fun c => c.pc k.val = s.chip.get (Fld.ORC_DSP_VEC k.val n.val) ∧ c.ctxSt k.val = CtxSt.run ∧
      (c.ctx k.val).stack = { addr := (s.chip.pc k.val + 1) % 4096, entry := some n.val } :: (s.chip.ctx k.val).stack)) ∧
  ((∀ (s : State) (k : Fin 4), LOn s.chip → s.chip.wdgRuns k.val = true → s.chip.get (Fld.ORC_WDG_US k.val) ≠ 0 →
    Gives (.contextWatchdog k) s (((s.chip.updCtx k.val fun x => { x with wdg := 0 }).set Fld.ORR_IST_WDG).ctxFault k.val 0x0702)) ∧
  (∀ (s : State) (k n : Fin 4), LOn s.chip → ((s.chip.ctx k.val).timer n.val).isSome = true →
    Gives (.contextTimerExpiry k n) s ((s.chip.updCtx k.val fun x => x.setTimer n.val none).eventTo k.val (0x70 + n.val))) ∧
  (∀ (s : State) (m : Master) (k : Fin 4), Accepts s.chip m Reg.ORC_CMD (BitVec.ofNat 32 (0x100 + k.val)) →
    ((s.chip.ctxSt k.val ≠ CtxSt.busw ∨ s.chip.awaits k.val = false) →
      Gives (.contextStop m k) s ((s.chip.updCtx k.val fun x => { x with memData := none, saved := none }).setCtxSt k.val CtxSt.stopped).afterWrite) ∧
    (s.chip.ctxSt k.val = CtxSt.busw → s.chip.awaits k.val = true →
      Gives (.contextStop m k) s (s.chip.updCtx k.val fun x => { x with stopAfter := true }).afterWrite)) ∧
  (∀ (s : State) (m : Master) (k : Fin 4), Accepts s.chip m Reg.ORC_CMD (BitVec.ofNat 32 (0x200 + k.val)) →
    Gives (.contextRestart m k) s (s.chip.startCtx k.val).afterWrite))

/-- SWAP_ARM starts the measurement of the staging bank, SWAP_MEASURE_DONE extends MS5 and arms the swap, SWAP_DISARM takes it back; BANK_SWAP, armed and
at a document boundary with no commit under way and no context in BUSW, exchanges both banks, starts the contexts and marks HOSTC (R291, R447). -/
def Obligations.BankSwap : Prop :=
  (∀ (s : State) (m : Master), Accepts s.chip m Reg.ORR_SWP 1#32 → Gives (.swapArm m) s (s.chip.set Fld.ORR_STA_MEAS).afterWrite) ∧
  (∀ (s : State) (m : Master), Accepts s.chip m Reg.ORR_SWP 2#32 → s.chip.on Fld.ORR_STA_ARMD = true →
    Gives (.swapDisarm m) s (((s.chip.clr Fld.ORR_STA_ARMD).set Fld.ORR_IST_DISARM).afterWrite)) ∧
  (∀ s : State, LOn s.chip → s.chip.on Fld.ORR_STA_MEAS = true →
    Gives .swapMeasureDone s
      ((((s.chip.extend 5 6 2 0 65536 (digest (s.chip.bytes staging 65536))).clr Fld.ORR_STA_MEAS).set Fld.ORR_STA_ARMD).settle)) ∧
  (∀ s : State, LOn s.chip → s.chip.shadows = [] → Memory.wf s.chip.mem = true → s.chip.on Fld.ORR_STA_ARMD = true → s.chip.noneAdmitted = true →
    s.chip.doc.commits = [] → (∀ k < 4, s.chip.ctxSt k ≠ CtxSt.busw) → s.chip.on Fld.ORR_CTL_EN = true →
    Runs .bankSwap s fun c => c.on Fld.ORR_STA_ARMD = false ∧ c.on Fld.ORR_IST_SWAP = true ∧ c.on Fld.ORR_STA_HOSTC = true ∧
      (∀ k < 4, c.ctxSt k = CtxSt.run ∧ c.pc k = s.chip.get (Fld.ORC_ENT_A k)) ∧
      (∀ i < 0x10000, c.byte (ctlStore + i) = s.chip.byte (staging + i) ∧ c.byte (staging + i) = s.chip.byte (ctlStore + i)) ∧
      (∀ a, (a < ctlStore ∨ ctlStore + 0x10000 ≤ a) → (a < staging ∨ staging + 0x10000 ≤ a) → c.byte a = s.chip.byte a))

/-! ### Central Store and rings (R320–R340) -/

/-- A ring is a FIFO in its entry array: a push with room appends the entry, writes its word into the array at the ring's tail, which goes on by one
modulo the capacity, shows the new depth and touches no other ring (R320, R321). -/
def Obligations.RingPushAppends : Prop :=
  ∀ (c : Chip) (n : Nat) (k : RCls) (v : Word), n < 64 → c.get (Fld.RNG_RCFG_PRD n) = k.code → c.ringOpen n = true →
    (c.ring n).ents.length < c.ringCap n → (c.ring n).stalled = none → c.ringCap n ≤ 65536 →
    (c.push n k { val := v }).1 = .stored ∧
    ((c.push n k { val := v }).2.ring n).ents = (c.ring n).ents ++ [{ val := v }] ∧
    (∀ j, j ≠ n → (c.push n k { val := v }).2.ring j = c.ring j) ∧
    (c.push n k { val := v }).2.word
        (store + 4 * c.get (Fld.RNG_RBAS_A n) + 4 * ((c.ring n).tail % c.ringCap n)) = v ∧
    ((c.push n k { val := v }).2.ring n).tail = ((c.ring n).tail % c.ringCap n + 1) % c.ringCap n ∧
    (c.push n k { val := v }).2.get (Fld.RNG_RDEP_D n) = ((c.ring n).ents.length + 1) % 2 ^ (Fld.RNG_RDEP_D n).w

/-- RING_PUSH of a word by the ring's producer with nothing held there: the entry is appended; a full ring holds the entry of a class that can stall, and
counts the refused push of one that cannot, the imaging path losing its record with 0x0801 (R187, R321, R323, R324). RING_POP by its consumer takes
the oldest entry (R321); a stream or packet ring that the host drains over USB gives its next transfer while the interface and the binding let it
(R374, R375). -/
def Obligations.RingPushPop : Prop :=
  ∀ (s : State) (n : Fin 64) (k : Fin 7), LOn s.chip → s.chip.ringOpen n.val = true →
    (s.chip.ringData n.val = false → ∀ v : Word, s.chip.get (Fld.RNG_RCFG_PRD n.val) = (rclsOf k.val).code → (s.chip.ring n.val).stalled = none →
      (s.chip.ring n.val).held = [] →
      ((s.chip.ring n.val).ents.length < s.chip.ringCap n.val →
        Gives (.ringPush n k v []) s
          (((s.chip.setWord (store + 4 * s.chip.get (Fld.RNG_RBAS_A n.val) + 4 * ((s.chip.ring n.val).tail % s.chip.ringCap n.val)) v).setRing n.val
            { s.chip.ring n.val with ents := (s.chip.ring n.val).ents ++ [{ val := v }],
                                     tail := ((s.chip.ring n.val).tail % s.chip.ringCap n.val + 1) % s.chip.ringCap n.val }).settle)) ∧
      (s.chip.ringCap n.val ≤ (s.chip.ring n.val).ents.length → (rclsOf k.val).stallable = true →
        Gives (.ringPush n k v []) s
          (let d := ((s.chip.setRing n.val { s.chip.ring n.val with stalled := some { val := v } }).bump (Fld.RNG_STAT_STL n.val)).set
             Fld.RNG_IST_STALL
           (d.setRing n.val { d.ring n.val with pusher := none }).settle)) ∧
      (s.chip.ringCap n.val ≤ (s.chip.ring n.val).ents.length → rclsOf k.val = .orr →
        Gives (.ringPush n k v []) s (((s.chip.bump (Fld.RNG_STAT_REF n.val)).set Fld.RNG_IST_REF).settle)) ∧
      (s.chip.ringCap n.val ≤ (s.chip.ring n.val).ents.length → rclsOf k.val = .img →
        Gives (.ringPush n k v []) s
          ((((s.chip.bump (Fld.RNG_STAT_REF n.val)).set Fld.RNG_IST_REF).dropRecord n.val (s.chip.ringItem n.val)).settle))) ∧
    (s.chip.ringData n.val = false → ∀ (e : Entry) (es : List Entry), s.chip.get (Fld.RNG_RCFG_CNS n.val) = (rclsOf k.val).code →
      (rclsOf k.val = .host → n.val ∉ 0 :: 1 :: packetRings) → (s.chip.ring n.val).ents = e :: es →
      (s.chip.ring n.val).discard = [] → (s.chip.ring n.val).stalled = none → s.chip.cst.ue = [] → n.val ≠ s.chip.imgRing 0 →
      n.val ≠ s.chip.imgRing 1 →
      Gives (.ringPop n k) s ((s.chip.setRing n.val { s.chip.ring n.val with ents := es }).afterConsume.settle)) ∧
    (rclsOf k.val = .host → n.val ∈ 0 :: 1 :: packetRings → s.chip.get (Fld.RNG_RCFG_CNS n.val) = RCls.host.code →
      (let d := if n.val = 6 then s.chip.dropClosed else s.chip
       ((d.linkUp false = false ∨ d.streamHead false n.val = false) → Gives (.ringPop n k) s d.settle) ∧
       (d.linkUp false = true → d.streamHead false n.val = true → ∀ (q : Entry) (bs : List Byte) (t : Chip),
         d.takeHead n.val = some (q, bs, t) →
         Gives (.ringPop n k) s ({ t with hb := { t.hb with usbOut := bs } }.afterConsume).settle)))

/-- The host's registers of the rings: HPSH pushes onto the ring of HSEL, and a full ring holds the push (R324); HPOP reads its oldest word and clears EMP
(R322); HDONE completes its oldest popped data entry (R325). RING_PUSH_TIMEOUT gives up the oldest push that the host holds on the ring, and its
writer gets 0x30 (R324); DATA_ENTRY_CONSUMED completes the oldest popped entry that is not on its way over SPI (R325); RECORD_DISCARD discards what an
item that is gone has left on the image rings (R340). -/
def Obligations.HostRingsAndEntries : Prop :=
  ((∀ (s : State) (m : Master) (v : Word), Accepts s.chip m Reg.RNG_HPSH v →
    (let n := s.chip.get Fld.RNG_HSEL_RING
     s.chip.get (Fld.RNG_RCFG_PRD n) = RCls.host.code → s.chip.ringOpen n = true → (s.chip.ring n).stalled = none → (s.chip.ring n).held = [] →
      ((s.chip.ring n).ents.length < s.chip.ringCap n →
        Gives (.hpsh m v) s
          (((s.chip.setWord (store + 4 * s.chip.get (Fld.RNG_RBAS_A n) + 4 * ((s.chip.ring n).tail % s.chip.ringCap n)) v).setRing n
            { s.chip.ring n with ents := (s.chip.ring n).ents ++ [{ val := v }],
                                 tail := ((s.chip.ring n).tail % s.chip.ringCap n + 1) % s.chip.ringCap n }).afterWrite)) ∧
      (s.chip.ringCap n ≤ (s.chip.ring n).ents.length →
        Gives (.hpsh m v) s
          (let d := ((s.chip.setRing n { s.chip.ring n with stalled := some { val := v } }).bump (Fld.RNG_STAT_STL n)).set Fld.RNG_IST_STALL
           (d.setRing n { d.ring n with pusher := some m }).afterWrite)))) ∧
  (∀ (s : State) (x : Fin 4) (e : Entry) (es : List Entry), LOn s.chip →
    (let n := s.chip.get Fld.RNG_HSEL_RING
     s.chip.get (Fld.RNG_RCFG_CNS n) = RCls.host.code → s.chip.ringOpen n = true → s.chip.ringData n = false → (s.chip.ring n).ents = e :: es →
      (s.chip.ring n).discard = [] → (s.chip.ring n).stalled = none → s.chip.cst.ue = [] → n ≠ s.chip.imgRing 0 → n ≠ s.chip.imgRing 1 →
      Gives (.hpop (.orr x)) s
        (let d := ((s.chip.setRing n { s.chip.ring n with ents := es }).clr Fld.RNG_HSTA_EMP).wr Reg.RNG_HPOP e.val
         { d with fab := { d.fab with rdata := e.val, rstat := St.ok } }.settle))) ∧
  (∀ (s : State) (m : Master) (e : Entry) (es : List Entry), Accepts s.chip m Reg.RNG_HDONE 1#32 →
    (let n := s.chip.get Fld.RNG_HSEL_RING
     (s.chip.ring n).popped = e :: es → s.chip.spiHolds n e = false → s.chip.get (Fld.RNG_RCFG_CNS n) = RCls.host.code →
      Gives (.hdone m 1#32) s
        (((s.chip.setRing n { s.chip.ring n with popped := es }).consumed n e).retryPush n).afterConsume.afterWrite))) ∧
  ((∀ (s : State) (n : Fin 64), LOn s.chip → s.chip.get (Fld.RNG_RCFG_PRD n.val) = RCls.host.code →
    (∀ e : Entry, s.chip.hb.pushWait = none → (s.chip.ring n.val).stalled = some e → (s.chip.ring n.val).held = [] →
      Gives (.ringPushTimeout n) s
        ((s.chip.setRing n.val { s.chip.ring n.val with stalled := none, pusher := none }).answerPush (s.chip.ring n.val).pusher St.timeout).settle) ∧
    (∀ r : Req, s.chip.hb.pushWait = some (n.val, r) → (s.chip.dropPush n.val).1 = some (.host r.hdr.clid) → (∀ p f, r.work ≠ .tunnel p f) →
      (let d := s.chip.dropPush n.val
       let t := d.2.retryHeld n.val (d.2.ring n.val).held.length
       Gives (.ringPushTimeout n) s
        ((({ t with hb := { t.hb with pushWait := none } }).runAccs (r.note St.timeout []) (r.work.accs.length + 1)).pumpHost).settle))) ∧
  (∀ (s : State) (n : Fin 64) (e : Entry) (es : List Entry), LOn s.chip → (s.chip.ring n.val).popped = e :: es → s.chip.spiHolds n.val e = false →
    Gives (.dataEntryConsumed n) s
      (((s.chip.setRing n.val { s.chip.ring n.val with popped := es }).consumed n.val e).retryPush n.val).afterConsume.settle) ∧
  (∀ (s : State) (i : BitVec 32), LOn s.chip → s.chip.item i.toNat = none →
    Gives (.recordDiscard i) s (s.chip.discardItem i.toNat).settle))

/-- REFRESH may wait for RT traffic at most eight times (R330). INIT_SWEEP_DONE ends INIT and sets INITD (R331). SCRUB_PASS counts a corrected word, and
an uncorrectable one with its address; one in the pool takes its granule out of use with 0x0804 (R332, R333). -/
def Obligations.StoreUpkeep : Prop :=
  (∀ s : State, LOn s.chip → s.chip.cst.selfRefresh = false →
    (s.chip.cst.postponed < 8 →
      Gives (.refresh true) s { s.chip with cst := { s.chip.cst with postponed := s.chip.cst.postponed + 1 } }) ∧
    (8 ≤ s.chip.cst.postponed → Gives (.refresh true) s s.chip) ∧
    Gives (.refresh false) s { s.chip with cst := { s.chip.cst with postponed := 0 } }) ∧
  (∀ s : State, LOn s.chip → s.chip.on Fld.CST_STA_INIT = true →
    Gives .initSweepDone s ((s.chip.clr Fld.CST_STA_INIT).set Fld.CST_IST_INITD).syncScrub) ∧
  (∀ (s : State) (o : BitVec 26), LOn s.chip → s.chip.fab.dst = true → s.chip.get Fld.CST_SCRB_PER ≠ 0 → s.chip.on Fld.CST_STA_INIT = false →
    Gives (.scrubPass o 0) s s.chip ∧
    Gives (.scrubPass o 1) s ((s.chip.bump Fld.CST_ECC_CE).set Fld.CST_IST_CE) ∧
    (s.chip.cst.ue = [] →
      (let d := ((s.chip.bump Fld.CST_ECC_UE).put Fld.CST_UEA_A ((store + o.toNat / 8 * 8) / 8 * 8)).set Fld.CST_IST_UE
       let d := { d with cst := { d.cst with ue := [store + o.toNat / 8 * 8] } }
       (s.chip.inPool (o.toNat / 65536) = false → s.chip.granuleItem (o.toNat / 65536) = none → Gives (.scrubPass o 2) s d) ∧
       (s.chip.inPool (o.toNat / 65536) = true → o.toNat / 65536 ∉ s.chip.cst.bad →
         Gives (.scrubPass o 2) s
           ((((({ d with cst := { d.cst with bad := o.toNat / 65536 :: d.cst.bad } }).inc Fld.CST_BADG_N).set Fld.CST_IST_BADG).syncPool.raise
             (report 0x0804 0 0 (o.toNat / 65536))).storeUe (store + o.toNat / 8 * 8))))))

/-! ### The ferroelectric store (R405–R429) -/

/-- A commit group's life (R408–R410): OPEN opens it for its master; a TPA write selects and preloads a page, a TDA write changes one staged word, never
the array; COMMIT by the owner, every staged page unprotected and the supply good, starts the commit; DISCARD and the timeout GTO drop what is staged
and let the next held OPEN in. -/
def Obligations.CommitGroups : Prop :=
  (∀ (s : State) (m : Master), Accepts s.chip m Reg.NVM_CMD 1#32 →
    (s.chip.gst = 0 → Gives (.nvmOpen m) s (s.chip.openGroup m).afterWrite) ∧
    (s.chip.gst = 3 →
      Gives (.nvmOpen m) s ({ s.chip with fst := { s.chip.fst with heldOpen := s.chip.fst.heldOpen ++ [m] } }.afterWrite))) ∧
  (∀ (s : State) (m : Master) (p : BitVec 15), Accepts s.chip m Reg.NVM_TPA (p.setWidth 32) → s.chip.gst = 1 → s.chip.fst.owner = some m →
    s.chip.mayStage m p.toNat = true → s.chip.protected_ p.toNat = false → (∀ x ∈ s.chip.fst.pages, x.1 ≠ p.toNat) →
    s.chip.fst.pages.length < 64 →
    Runs (.tpaSelect m p) s fun c => ∃ d : Chip, d.fst.owner = some m ∧ d.fst.sel = some p.toNat ∧ d.fst.preload = true ∧
      d.fst.pages = s.chip.fst.pages ++ [(p.toNat, s.chip.pageWords p.toNat)] ∧
      d.get Fld.NVM_TWI_I = 0 ∧ d.get Fld.NVM_TPA_P = p.toNat ∧ d.get Fld.NVM_GST_NPG = (s.chip.fst.pages.length + 1) % 2 ^ Fld.NVM_GST_NPG.w ∧
      d.mem = s.chip.mem ∧ c = d.afterWrite) ∧
  (∀ (s : State) (m : Master) (v : Word) (p : Nat), Accepts s.chip m Reg.NVM_TDA v → s.chip.gst = 1 → s.chip.fst.owner = some m →
    s.chip.fst.sel = some p →
    Runs (.tdaAccess m (some v)) s fun c => ∃ d : Chip, d.fst.owner = some m ∧ d.fst.sel = some p ∧
      d.fst.pages = updFirst (·.1 == p) (fun x => (x.1, x.2.set (s.chip.get Fld.NVM_TWI_I) v)) s.chip.fst.pages ∧
      d.get Fld.NVM_TWI_I = (s.chip.get Fld.NVM_TWI_I + 1) % 16 ∧ d.rd Reg.NVM_TDA = v ∧ RegsKept s.chip d [Reg.NVM_TWI, Reg.NVM_TDA] ∧
      d.mem = s.chip.mem ∧ c = d.afterWrite) ∧
  (∀ (s : State) (m : Master) (p : Nat), s.chip.canAccess m = true → s.chip.fab.aon = true → s.chip.mustQueue m Reg.NVM_TDA = false →
    MayRead s.chip m Pg.NVM → Settled s.chip →
    s.chip.gst = 1 → s.chip.fst.owner = some m → s.chip.fst.sel = some p →
    Runs (.tdaAccess m none) s fun c =>
      c.fab.rdata = ((((s.chip.fst.pages.find? (·.1 == p)).map (·.2)).getD [])[s.chip.get Fld.NVM_TWI_I]?).getD 0#32 ∧ c.fab.rstat = St.ok ∧
        c.get Fld.NVM_TWI_I = (s.chip.get Fld.NVM_TWI_I + 1) % 16 ∧ c.fst = s.chip.fst ∧ c.mem = s.chip.mem) ∧
  (∀ (s : State) (m : Master), Accepts s.chip m Reg.NVM_CMD 2#32 → s.chip.gst = 1 → s.chip.fst.owner = some m → s.chip.fst.pages ≠ [] →
    (∀ x ∈ s.chip.fst.pages, s.chip.protected_ x.1 = false) → s.chip.supplyCheck false = St.ok →
    Gives (.nvmCommit m) s (({ s.chip with fst := { s.chip.fst with passed := false } } : Chip).showGroup 2).afterWrite) ∧
  (∀ (s : State) (m : Master), Accepts s.chip m Reg.NVM_CMD 3#32 → s.chip.gst = 1 → s.chip.fst.owner = some m →
    Gives (.nvmDiscard m) s s.chip.closeGroup.afterWrite) ∧
  (∀ s : State, AOn s.chip → s.chip.gst = 1 → Gives .groupTimeout s (s.chip.closeGroup.set Fld.NVM_IST_GTO).settle) ∧
  (∀ (s : State) (p : Nat), AOn s.chip → s.chip.fst.sel = some p → s.chip.fst.preload = true → s.chip.fst.poison = [] →
    Gives .pagePreloadDone s { s.chip with fst := { s.chip.fst with preload := false } }) ∧
  (∀ (s : State) (p a : Nat) (w : List Word), AOn s.chip → s.chip.fst.preload = true → s.chip.fst.pages.getLast? = some (p, w) → s.chip.fst.poison = [a] →
    pageAddr p ≤ a → a < pageAddr p + 64 →
    Gives .pagePreloadDone s (Chip.countUE { s.chip with fst := { s.chip.fst with preload := false } } a)) ∧
  (∀ s : State, AOn s.chip → s.chip.fst.preload = false → Gives .pagePreloadDone s s.chip)

/-- NVM_COMMIT_DONE: each staged page stands whole at its home, the descriptor's CWORD and DWORD hold the group's number, NVM.GSEQ shows it with IST.CMTD
set, and the group is IDLE again (R411, R412). -/
def Obligations.CommitWritesPages : Prop :=
  ∀ s : State, AOn s.chip → s.chip.gst = 2 → s.chip.fst.heldOpen = [] → Settled s.chip →
    s.chip.fst.pages.length ≤ 64 → (s.chip.fst.pages.map (·.1)).Nodup → (∀ x ∈ s.chip.fst.pages, 256 ≤ x.1 ∧ x.1 < 32768 ∧ x.2.length = 16) →
    Runs .nvmCommitDone s fun c =>
      (∀ x ∈ s.chip.fst.pages, ∀ i < 16, c.word (pageAddr x.1 + 4 * i) = (x.2[i]?).getD 0#32) ∧
      c.word cword = BitVec.ofNat 32 s.chip.nextGseq ∧ c.word dword = BitVec.ofNat 32 s.chip.nextGseq ∧
      c.get Fld.NVM_GSEQ_N = s.chip.nextGseq ∧ c.on Fld.NVM_IST_CMTD = true ∧ c.gst = 0 ∧ c.fst.pages = [] ∧ c.fst.owner = none ∧
      (∀ a, (a < pageAddr 128 ∨ pageAddr 195 ≤ a) → (∀ x ∈ s.chip.fst.pages, a < pageAddr x.1 ∨ pageAddr x.1 + 64 ≤ a) → c.byte a = s.chip.byte a)

/-- F_DIE_WINDOW_READ that need not wait for the bridge: a word reads as it stands with status 0x00, or with its new value once the commit in hand has
passed its point; the key area reads 0 with 0x22; a POISON word reads its stored bits with 0x7F, counted. A cell fault found by the read is corrected
and counted, unless it falls into a bank that has no spare left, where the word reads POISON: its stored bits are then a free value. A line found
broken counts as corrected and is marked and reported once; a word read through it later counts again, until its spare has taken over. A read that
must wait is held with what it finds (R30, R407, R413, R418, R419, R420). -/
def Obligations.FdieReads : Prop :=
  ∀ (s : State) (m : Master) (o : BitVec 21) (past : Bool), s.chip.canAccess m = true → s.chip.fab.aon = true →
    (s.chip.mustQueue m (0x60000000 + o.toNat) = true → ∀ f : CellFault, s.chip.gst ≠ 2 →
      Gives (.fDieWindowRead m o ⟨f, past⟩) s
        { s.chip with fab := { s.chip.fab with
            reads := s.chip.fab.reads ++ [{ master := m, addr := 0x60000000 + o.toNat, dst := 1, found := f }] } }) ∧
    (s.chip.mustQueue m (0x60000000 + o.toNat) = false → o.toNat % 4 = 0 → (s.chip.gst ≠ 2 ∨ (past = false ∧ s.chip.fst.passed = false)) →
      (0x1E0000 ≤ o.toNat →
        Gives (.fDieWindowRead m o ⟨.none, past⟩) s { s.chip with fab := { s.chip.fab with rdata := 0#32, rstat := St.perm } }.settle) ∧
      (o.toNat < 0x1E0000 → s.chip.fst.poison.contains (0x60000000 + o.toNat) = false →
        Gives (.fDieWindowRead m o ⟨.none, past⟩) s
          { s.chip with fab := { s.chip.fab with rdata := s.chip.word (0x60000000 + o.toNat), rstat := St.ok } }.settle) ∧
      (∀ f : CellFault, (f = .none ∨ f = .cell) → o.toNat < 0x1E0000 → s.chip.fst.poison.contains (0x60000000 + o.toNat) = true → Settled s.chip →
        Gives (.fDieWindowRead m o ⟨f, past⟩) s
          (let d := s.chip.countUE (0x60000000 + o.toNat)
           { d with fab := { d.fab with rdata := s.chip.word (0x60000000 + o.toNat), rstat := St.internal } })) ∧
      (o.toNat < 0x1E0000 → s.chip.fst.poison.contains (0x60000000 + o.toNat) = false → Settled s.chip →
        (s.chip.on (Fld.NVM_SLB_SPX (o.toNat / 2 ^ 18)) = false →
          Gives (.fDieWindowRead m o ⟨.cell, past⟩) s
            (Chip.cellFault { s.chip with fab := { s.chip.fab with rdata := s.chip.word (0x60000000 + o.toNat), rstat := St.ok } }
              (0x60000000 + o.toNat))) ∧
        (s.chip.on (Fld.NVM_SLB_SPX (o.toNat / 2 ^ 18)) = true →
          Runs (.fDieWindowRead m o ⟨.cell, past⟩) s fun c => c.fab.rstat = St.internal ∧ c.fab.rdata = Config.freeWord s.chip.free ∧
            c.free = s.chip.free + 1 ∧ c.get Fld.NVM_UEA_A = 0x60000000 + o.toNat ∧ c.on Fld.NVM_IST_UE = true ∧ c.mem = s.chip.mem ∧
            RegsKept s.chip c [Reg.NVM_ECC, Reg.NVM_UEA, Reg.NVM_IST]) ∧
        (∀ b : Fin 39,
          let d : Chip := { s.chip with fab := { s.chip.fab with rdata := s.chip.word (0x60000000 + o.toNat), rstat := St.ok } }
          (s.chip.fst.broken.contains (o.toNat / 2 ^ 18, b.val) = true → Gives (.fDieWindowRead m o ⟨.line b, past⟩) s d.countCE) ∧
          (s.chip.fst.broken.contains (o.toNat / 2 ^ 18, b.val) = false →
            (s.chip.get (Fld.NVM_SLB_SP0 (o.toNat / 2 ^ 18)) = b.val ∨ s.chip.get (Fld.NVM_SLB_SP1 (o.toNat / 2 ^ 18)) = b.val) →
            Gives (.fDieWindowRead m o ⟨.line b, past⟩) s d) ∧
          (s.chip.fst.broken.contains (o.toNat / 2 ^ 18, b.val) = false → s.chip.get (Fld.NVM_SLB_SP0 (o.toNat / 2 ^ 18)) ≠ b.val →
            s.chip.get (Fld.NVM_SLB_SP1 (o.toNat / 2 ^ 18)) ≠ b.val →
            Gives (.fDieWindowRead m o ⟨.line b, past⟩) s (d.countCE.brokenLine (o.toNat / 2 ^ 18) b.val))))) ∧
    (∀ w : Word, s.chip.mustQueue m (0x60000000 + o.toNat) = false → o.toNat % 4 = 0 → o.toNat < 0x1E0000 → past = true → s.chip.gst = 2 →
      s.chip.passPoint.newWord (0x60000000 + o.toNat) = some w →
      Gives (.fDieWindowRead m o ⟨.none, past⟩) s
        { s.chip.passPoint with fab := { s.chip.fab with rdata := w, rstat := St.ok } }.settle)

/-- Slot rings (R421–R426): a write of NVS.VAL, and NVS.ADD, whose sum saturates at 0 and 0xFFFF_FFFF, put the value of NVS.SEL into its next slot; a
volatile-held value changes in SRAM only until SAVE, or the periodic save while the core is not held asleep, writes every one to its ring. A broken
line is replaced by a spare, block by block, only while no group is open (R418). -/
def Obligations.SlotRings : Prop :=
  (∀ (s : State) (m : Master) (v : Word), Accepts s.chip m Reg.NVS_VAL v →
    (∀ w : Word, s.chip.dirOf (s.chip.get Fld.NVS_SEL_ID) = some w → dirVH w = true →
      Runs (.nvsValueWrite m v) s fun c => ∃ d : Chip, (d.nvs (s.chip.get Fld.NVS_SEL_ID)).v = v ∧
        (d.nvs (s.chip.get Fld.NVS_SEL_ID)).dirty = true ∧ d.rd Reg.NVS_VAL = v ∧ d.mem = s.chip.mem ∧ c = d.afterWrite) ∧
    (∀ w : Word, s.chip.dirOf (s.chip.get Fld.NVS_SEL_ID) = some w → dirVH w = false →
      (let o := s.chip.nvs (s.chip.get Fld.NVS_SEL_ID)
       let j := if o.valid then (o.idx + 1) % dirNSLT w else 0
       let q := if o.valid then (if o.seq = 65535 then 1 else o.seq + 1) else 1
       s.chip.protected_ ((slotAddr w j - fDie) / 64) = false →
        Runs (.nvsValueWrite m v) s fun c => ∃ d : Chip,
          d.nvs (s.chip.get Fld.NVS_SEL_ID) = { v := v, valid := true, idx := j, seq := q, dirty := false } ∧
          d.word (slotAddr w j) = v ∧ MemKeptOutside s.chip d (slotAddr w j) (slotAddr w j + 8) ∧ c = d.afterWrite))) ∧
  (∀ (s : State) (m : Master) (d : Word), Accepts s.chip m Reg.NVS_ADD d →
    Gives (.nvsValueAdd m d) s
      (((s.chip.nvsStore (s.chip.get Fld.NVS_SEL_ID)
        (BitVec.ofNat 32 (clampInt 0 0xFFFFFFFF ((s.chip.nvs (s.chip.get Fld.NVS_SEL_ID)).v.toNat + d.toInt)).toNat)).showNvs).afterWrite)) ∧
  (∀ (s : State) (m : Master), Accepts s.chip m Reg.NVS_SAVE 1#32 → Gives (.nvsSaveAll m) s s.chip.saveHeld.afterWrite) ∧
  (∀ s : State, AOn s.chip →
    (s.chip.get Fld.NVS_VHP_S ≠ 0 → s.chip.coreAsleep = false → Gives .nvsPeriodicSave s s.chip.saveHeld) ∧
    (s.chip.get Fld.NVS_VHP_S = 0 ∨ s.chip.coreAsleep = true → Gives .nvsPeriodicSave s s.chip)) ∧
  (∀ (s : State) (k : Fin 8), AOn s.chip →
    (s.chip.gst ≠ 0 → Gives (.senseLineRemap k) s s.chip) ∧
    (s.chip.gst = 0 → s.chip.get (Fld.NVM_SLB_RST k.val) = 1 → s.chip.supplyCheck false = St.ok → s.chip.get (Fld.NVM_SLB_SP0 k.val) = 0x3F →
      s.chip.protected_ (4096 * k.val) = false → s.chip.fst.remap = [] →
      Gives (.senseLineRemap k) s
        (let b := s.chip.get (Fld.NVM_SLB_ELN k.val)
         let d := ((s.chip.put (Fld.NVM_SLB_SP0 k.val) b).put (Fld.NVM_SLB_RST k.val) 2).slotWrite 13
           (BitVec.ofNat 32 (k.val * 2 ^ 24 + b * 2 ^ 17 + 1024))
         { d with fst := { d.fst with remap := [(k.val, 1024)] } }.set Fld.NVM_STA_REMAP)))

/-! ### The host link (R343–R377) -/

/-- The checks of R366 on a packet that arrives, in their order: LEN above 4,096 has no answer; one with MORE waits for the rest of its request (R356;
which check comes when is the model's choice, notes/assumptions/197.md); a malformed packet is refused with 0x20, EXCL or LOCK with 0x23 (R367), a
client that is CLOSED or on the other interface with 0x22, a duplicate tag is discarded and counted (R364), a client without a credit gets 0x11; and
nothing is performed. -/
def Obligations.PacketChecks : Prop :=
  ∀ (s : State) (i : Instr) (op : Nat) (h : Hdr) (bs : List Byte), PacketRow i op h bs → LOn s.chip → s.chip.linkUp h.spi = true →
    (4096 < bs.length → Gives i s ((s.chip.bump Fld.BRG_PERR_MAL).set Fld.BRG_IST_PERR)) ∧
    (bs.length ≤ 4096 → hdrFlag h 2 = true → s.chip.hb.more = [] →
      Gives i s { s.chip with hb := { s.chip.hb with more := [{ hdr := h, op := op, bytes := bs }] } }) ∧
    (bs.length ≤ 4096 → hdrFlag h 2 = false → s.chip.hb.more = [] → (hdrFlag h 6 = true ∨ hdrFlag h 7 = true ∨ parseWork op bs = none) → Gives i s (s.chip.refusePacket h 0x20#8)) ∧
    (∀ w : Work, bs.length ≤ 4096 → hdrFlag h 2 = false → s.chip.hb.more = [] → hdrFlag h 6 = false → hdrFlag h 7 = false →
      parseWork op bs = some w →
      ((hdrFlag h 4 = true ∨ hdrFlag h 5 = true) → Gives i s (s.chip.refusePacket h 0x23#8)) ∧
      (hdrFlag h 4 = false → hdrFlag h 5 = false →
        ((s.chip.client h.clid.toNat).opened = false → isOpn w = false → Gives i s (s.chip.refusePacket h 0x22#8)) ∧
        ((s.chip.client h.clid.toNat).opened = true → (s.chip.client h.clid.toNat).spi ≠ h.spi → Gives i s (s.chip.refusePacket h 0x22#8)) ∧
        ((s.chip.client h.clid.toNat).opened = true → (s.chip.client h.clid.toNat).spi = h.spi →
          (h.tag ∈ (s.chip.client h.clid.toNat).tags → Gives i s ((s.chip.bump Fld.BRG_PERR_TDUP).set Fld.BRG_IST_TAGDUP)) ∧
          (h.tag ∉ (s.chip.client h.clid.toNat).tags →
            ((s.chip.client h.clid.toNat).crl ≤ (s.chip.client h.clid.toNat).tags.length ∨ 1024 ≤ s.chip.creditsHeld) →
            Gives i s (s.chip.refusePacket h 0x11#8)))))

/-- A packet that passes every check runs (R357, R366); a read of a word of the scratch SRAM answers it with status 0x00 and no failing access; a block
write stores its bytes at its address and no others, and a posted one holds no credit any more (R358, R363); WR and WRN store their word, WRN
answered; a block read answers the bytes that stand there; a tunnel frame that R385 lets in and whose ring has room is stored, TXBSY set; a QUOTE that
need not wait gets its body. -/
def Obligations.PacketsRun : Prop :=
  (∀ (s : State) (i : Instr) (op : Nat) (h : Hdr) (bs : List Byte) (w : Work), PacketRow i op h bs → LetIn s.chip h → BridgeIdle s.chip →
    bs.length ≤ 4096 → parseWork op bs = some w →
    Gives i s (s.chip.served h op w)) ∧
  (∀ (s : State) (h : Hdr) (a : Nat), LetIn s.chip h → BridgeIdle s.chip → 0x20000000 ≤ a → a < 0x20040000 → a % 4 = 0 →
    Gives (.rd h (leBytes 4 a)) s
      (((s.chip.inHand h 1 (.accesses false true [.read a])).respond h St.ok (leBytes 2 0xFFFF ++ leBytes 4 (s.chip.word a).toNat)).bridgeOn)) ∧
  (∀ (s : State) (h : Hdr) (a : Nat) (data : List Byte), LetIn s.chip h → BridgeIdle s.chip → 0x20000000 ≤ a → a + data.length ≤ 0x20040000 →
    1 ≤ data.length → data.length ≤ 4092 →
    Runs (.blkwr h (leBytes 4 a ++ data)) s fun c => c.bytes a data.length = data ∧ MemKeptOutside s.chip c a (a + data.length) ∧
      (hdrFlag h 0 = false → hdrFlag h 1 = false → (c.client h.clid.toNat).tags = (s.chip.client h.clid.toNat).tags)) ∧
  (∀ (s : State) (h : Hdr) (a : Nat) (v : Word), LetIn s.chip h → BridgeIdle s.chip → 0x20000000 ≤ a → a < 0x20040000 → a % 4 = 0 →
    Runs (.wr h (leBytes 4 a ++ leBytes 4 v.toNat)) s (fun c => c.word a = v ∧ MemKeptOutside s.chip c a (a + 4) ∧
      (hdrFlag h 0 = false → hdrFlag h 1 = false → (c.client h.clid.toNat).tags = (s.chip.client h.clid.toNat).tags)) ∧
    Runs (.wrn h (leBytes 4 a ++ leBytes 4 v.toNat)) s (fun c => c.word a = v ∧ MemKeptOutside s.chip c a (a + 4) ∧
      h.tag ∈ (c.client h.clid.toNat).tags)) ∧
  (∀ (s : State) (h : Hdr) (a n : Nat), LetIn s.chip h → BridgeIdle s.chip → 0x20000000 ≤ a → a + n ≤ 0x20040000 → 1 ≤ n → n ≤ 4092 →
    Gives (.blkrd h (leBytes 4 a ++ leBytes 2 n)) s
      (((s.chip.inHand h 4 (.accesses true true (blockReads a n))).respond h St.ok (leBytes 3 0 ++ s.chip.bytes a n)).bridgeOn)) ∧
  (∀ (s : State) (h : Hdr) (p : Fin 2) (f : List Byte) (t : Chip), LetIn s.chip h → BridgeIdle s.chip → f ≠ [] → f.length ≤ 4094 →
    (let d := s.chip.inHand h 7 (.tunnel p.val f)
     d.tunCheck h p.val f = St.ok → d.storeFrame p.val f = some (St.ok, t) →
     Runs (.tun h (BitVec.ofNat 8 p.val :: 0#8 :: f)) s fun c => c.ring (outRing p.val) = t.ring (outRing p.val) ∧
       c.on (uaF p.val Fld.UA0_STA_TXBSY) = true)) ∧
  (∀ (s : State) (h : Hdr) (nonce : List Byte), LetIn s.chip h → BridgeIdle s.chip → nonce.length = 32 → s.chip.romMode = false → s.chip.keyCopy ≠ none →
    (let q : SvcReq := { rqk := 0, rqid := h.clid.toNat, auth := true, code := Svc.quote, req := nonce, aux := 0, hdr := some h }
     let d := s.chip.inHand h 10 (.quote nonce)
     let e := d.setCont q.who []
     d.svcWaits q = false →
     Gives (.quote h nonce) s (((e.quoteBody 0 h.clid.toNat nonce).2.deliver q St.ok (e.quoteBody 0 h.clid.toNat nonce).1).bridgeOn)))

/-- A CLOSED client opens by its OPN write, bound to the interface that carried it, and is answered 0x00; a client that closes itself is answered before
the close takes effect (R361, R362). -/
def Obligations.ClientsOpenAndClose : Prop :=
  (∀ (s : State) (h : Hdr), LOn s.chip → s.chip.linkUp h.spi = true → hdrFlag h 2 = false → s.chip.hb.more = [] → hdrFlag h 4 = false → hdrFlag h 5 = false → hdrFlag h 6 = false →
    hdrFlag h 7 = false → (s.chip.client h.clid.toNat).opened = false → h.tag ∉ (s.chip.client h.clid.toNat).tags →
    (s.chip.client h.clid.toNat).tags.length < (s.chip.client h.clid.toNat).crl → s.chip.creditsHeld < 1024 →
    (h.seq.toNat ≠ 0 → h.seq.toNat ∉ (s.chip.client h.clid.toNat).seqs) → BridgeIdle s.chip →
    Runs (.clientOpen h) s fun c =>
      (c.client h.clid.toNat).opened = true ∧ (c.client h.clid.toNat).spi = h.spi ∧
      c = (((s.chip.inHand h 3 (.accesses false false [.write Reg.CLI_OPN (BitVec.ofNat 32 h.clid.toNat)])).openClient h.clid.toNat h.spi).respond h
        St.ok (leBytes 2 0xFFFF)).bridgeOn) ∧
  (∀ (s : State) (h : Hdr), LetIn s.chip h → BridgeIdle s.chip →
    Runs (.clientClose h h.clid) s fun c => (c.client h.clid.toNat).opened = true ∧ (c.client h.clid.toNat).closing = some h.tag ∧
      h.tag ∈ (c.client h.clid.toNat).tags) ∧
  (∀ (s : State) (r : Rsp) (rs : List Rsp), LOn s.chip → Settled s.chip → s.chip.linkUp false = true → s.chip.hb.rspUsb = r :: rs →
    r.credit = true → r.tag ∈ (s.chip.client r.clid.toNat).tags →
    ((s.chip.client r.clid.toNat).closing ≠ some r.tag →
      Gives (.responseDelivered false) s ({ s.chip with hb := { s.chip.hb with rspUsb := rs } }.returnCredit r.clid.toNat r.tag)) ∧
    ((s.chip.client r.clid.toNat).closing = some r.tag → (s.chip.client r.clid.toNat).opened = true →
      Runs (.responseDelivered false) s fun c => (c.client r.clid.toNat).opened = false)) ∧
  (∀ s : State, LOn s.chip → Settled s.chip → s.chip.linkUp false = true →
    Gives (.responseDelivered true) s { s.chip with hb := { s.chip.hb with refUsb := s.chip.hb.refUsb.tail } })

/-- VBUS_DETECT attaches a function that is enabled; USB_BUS_RESET closes the USB interface, with address 0 for a reset, detached for the loss of VBUS and
unconfigured for SET_CONFIGURATION(0). USB_STANDARD_REQUEST: SET_ADDRESS and SET_CONFIGURATION(1) move the device on, a request code above 12 stalls.
USB_SUSPEND keeps the state that USB_RESUME brings back; USB_REMOTE_WAKEUP, 5 ms after suspend and with an event for a USB client, drives K where RWE
is set (R344, R346, R348, R349). The SPI target, its pads read: a reserved lane code or function sets SPIFR; STAT answers the status block; a WRITE
with a bad CRC is dropped whole, one on a channel that takes none or with a fragment of a packet sets SPIFR; a READ sends the bytes queued on its
channel behind their count, and with ACKM an ACK consumes what was read; a RESET returns what was being sent and closes every SPI client; a CS
time-out sets SPIFR. Print bytes short of 32 wait for more, over SPI and over EP5 (R351–R355, R374, R497). -/
def Obligations.UsbAndSpi : Prop :=
  ((∀ s : State, s.chip.on Fld.BRG_CTL_EN = true → s.chip.on Fld.BRG_IFC_USBE = true → s.chip.usbSt = 0 →
    s.chip.on Fld.CLK_STA_HOLD = false →
    Gives .vbusDetect s ({ s.chip with hb := { s.chip.hb with vbus := true } }.put Fld.BRG_USTA_ST 1)) ∧
  (∀ (s : State) (hs : Bool), LOn s.chip → s.chip.usbSt ≠ 0 →
    Gives (.usbBusReset 0 hs) s ((((s.chip.usbClose 2).put Fld.BRG_USTA_ADDR 0).putB Fld.BRG_USTA_HS hs).set Fld.BRG_IST_USBRST)) ∧
  (∀ (s : State) (hs : Bool),
    (LOn s.chip → Gives (.usbBusReset 1 hs) s (let d := s.chip.usbDetach; { d with hb := { d.hb with vbus := false } })) ∧
    (s.chip.lRuns = false → Gives (.usbBusReset 1 hs) s { s.chip with hb := { s.chip.hb with vbus := false } })) ∧
  (∀ (s : State) (hs : Bool), LOn s.chip → s.chip.usbSt = 4 → Gives (.usbBusReset 2 hs) s (s.chip.usbClose 3)) ∧
  (∀ s : State, LOn s.chip → 2 ≤ s.chip.usbSt → s.chip.usbSt ≤ 4 →
    (∀ (v : BitVec 16) (x n : BitVec 16), v.toNat < 128 → s.chip.usbSt < 4 →
      Gives (.usbStandardRequest 0x00#8 5#8 v x n) s
        (((s.chip.put Fld.BRG_USTA_ADDR v.toNat).put Fld.BRG_USTA_ST (if v.toNat = 0 then 2 else 3)).ep0Data 0 [])) ∧
    (∀ x n : BitVec 16, s.chip.usbSt ≠ 2 →
      Gives (.usbStandardRequest 0x00#8 9#8 1#16 x n) s ((({ s.chip with hb := { s.chip.hb with halted := [] } }).put Fld.BRG_USTA_ST 4).ep0Data 0 [])) ∧
    (∀ (r : Byte) (v x n : BitVec 16), 12 < r.toNat → Gives (.usbStandardRequest 0x00#8 r v x n) s s.chip.ep0Stall)) ∧
  (∀ s : State, LOn s.chip → s.chip.usbSt ≠ 0 → s.chip.usbSt ≠ 5 →
    Gives .usbSuspend s
      (({ s.chip with hb := { s.chip.hb with preSusp := s.chip.usbSt, suspFrom := s.chip.nowMs } }.put Fld.BRG_USTA_ST 5).set
        Fld.BRG_IST_SUSP)) ∧
  (∀ s : State, LOn s.chip → s.chip.usbSt = 5 →
    Gives .usbResume s
      (let d := (s.chip.put Fld.BRG_USTA_ST s.chip.hb.preSusp).set Fld.BRG_IST_RSM
       { d with hb := { d.hb with wakeK := false } })) ∧
  (∀ (s : State) (e : Entry) (x : Byte), LOn s.chip → s.chip.usbSt = 5 → s.chip.hb.suspFrom + 5 ≤ s.chip.nowMs → e ∈ (s.chip.ring 6).ents →
    e.client = some x → (s.chip.client x.toNat).opened = true → (s.chip.client x.toNat).spi = false →
    (s.chip.on Fld.BRG_USTA_RWE = true → Gives .usbRemoteWakeup s { s.chip with hb := { s.chip.hb with wakeK := true } }) ∧
    (s.chip.on Fld.BRG_USTA_RWE = false → Gives .usbRemoteWakeup s s.chip))) ∧
  ((∀ (s : State) (h : SpiHead), LOn s.chip → s.chip.linkUp true = true →
    Gives .spiCsTimeout s (s.chip.set Fld.BRG_IST_SPIFR) ∧
    (spiPads.all s.chip.padIn = true →
      Gives .spiStat s { s.chip with hb := { s.chip.hb with spiOut := s.chip.spiStatBlock ++ s.chip.spiCrc s.chip.spiStatBlock } } ∧
      Gives .spiReset s
        (let d := (0 :: 1 :: packetRings).foldl (fun t n => t.unpop n fun e => s.chip.spiHolds n e) s.chip
         { d with hb := { d.hb with
            refSpi := s.chip.hb.q2.filter Rsp.refusal ++ s.chip.hb.refSpi, q2 := [], q3 := [], q4 := [], sent2 := 0, sent3 := 0, sent4 := 0,
            part2 := 0, part3 := 0, part4 := 0 } }.spiClose) ∧
      (h.lanes = 3 ∨ h.known = false →
        (∀ (bs : List Byte) (ok : Bool), Gives (.spiWrite h bs ok) s (s.chip.set Fld.BRG_IST_SPIFR)) ∧
        (∀ (m : BitVec 16) (got : Option (BitVec 16)), Gives (.spiRead h m got) s (s.chip.set Fld.BRG_IST_SPIFR).settle) ∧
        (∀ n : BitVec 16, Gives (.spiAck h n) s (s.chip.set Fld.BRG_IST_SPIFR).settle)) ∧
      (h.lanes ≠ 3 → h.known = true →
        (∀ (bs : List Byte) (ok : Bool), h.ch ≠ 1 → h.ch ≠ 5 →
          Gives (.spiWrite h bs ok) s (s.chip.set Fld.BRG_IST_SPIFR)) ∧
        (∀ bs : List Byte, (h.ch = 1 ∨ h.ch = 5) → bs ≠ [] → bs.length ≤ 8192 → s.chip.on Fld.BRG_SCFG_CRC = true →
          Gives (.spiWrite h bs false) s (s.chip.set Fld.BRG_IST_SCRC)) ∧
        (∀ bs : List Byte, h.ch = 1 → bs.length < 8 → bs ≠ [] → bs.length ≤ s.chip.spiFree 1 →
          Gives (.spiWrite h bs true) s (s.chip.set Fld.BRG_IST_SPIFR)) ∧
        (∀ bs : List Byte, h.ch = 5 → bs ≠ [] → bs.length ≤ 8192 → bs.length ≤ s.chip.spiFree 5 → (s.chip.hb.jbuf ++ bs).length < 32 →
          Gives (.spiWrite h bs true) s { s.chip with hb := { s.chip.hb with jbuf := s.chip.hb.jbuf ++ bs } }) ∧
        (∀ (m : BitVec 16) (r : Rsp), h.ch = 2 → Settled s.chip → s.chip.hb.q2 = [r] → s.chip.hb.sent2 = 0 → s.chip.hb.part2 = 0 → 1 ≤ m.toNat →
          m.toNat ≤ r.bytes.length → m.toNat ≤ 8192 → s.chip.on Fld.BRG_SCFG_ACKM = true →
          Gives (.spiRead h m none) s
            (let body := leBytes 2 m.toNat ++ r.bytes.take m.toNat
             { s.chip with hb := { s.chip.hb with spiOut := body ++ s.chip.spiCrc (leBytes 1 2 ++ leBytes 2 m.toNat ++ body),
                                                  part2 := m.toNat } })) ∧
        (∀ (n : BitVec 16) (r : Rsp), h.ch = 2 → Settled s.chip → s.chip.hb.q2 = [r] → s.chip.hb.sent2 = 0 → n.toNat ≤ s.chip.hb.part2 →
          n.toNat < r.bytes.length → s.chip.on Fld.BRG_SCFG_ACKM = true →
          Gives (.spiAck h n) s { s.chip with hb := { s.chip.hb with sent2 := n.toNat, part2 := s.chip.hb.part2 - n.toNat } })))) ∧
  (∀ (s : State) (bs : List Byte), LOn s.chip → s.chip.linkUp false = true → s.chip.on Fld.BRG_IFC_PRTIF = false → bs.length ≤ 512 →
    (s.chip.hb.jbuf ++ bs).length < 32 →
    Gives (.ep5PrintData bs) s { s.chip with hb := { s.chip.hb with jbuf := s.chip.hb.jbuf ++ bs } }))

/-! ### Serial ports, the Turradar link and the sync chain (R378–R403) -/

/-- UARTs in DIRECT (RAW) mode: a character enters the RX FIFO, with 7 data bits as its low 7; one that finds it full is lost with OE; XOFFC stops the
transmitter and is not delivered; a break delivers none. A STA read answers STA and holds the error flags it showed for its master; a DATA read takes
the first character of the RX FIFO, and after a STA read by the same master it clears those flags. A DATA write enters the TX FIFO. XOFF ends after
XOTMO; an idle line ends the frame of a TUNNEL port that has received nothing else; a sent frame empties the TX FIFO and leaves its characters on the
line; one that ML reads back different is aborted with COLL (R380–R383, R387, R389). -/
def Obligations.SerialPorts : Prop :=
  (∀ (s : State) (p : Fin 3), (p.val = 2 → AOn s.chip) → (p.val ≠ 2 → LOn s.chip ∧ s.chip.padIn (17 + 2 * p.val) = true) → s.chip.direct p.val = true →
    s.chip.portOn p.val = true → (p.val ≠ 2 → s.chip.on (uaF p.val Fld.UA0_FLOW_XRX) = false) →
    (∀ b : Byte, (s.chip.port p.val).rx.length < 64 →
      Gives (.uartRxChar p b false false) s
        ((s.chip.setPort p.val { s.chip.port p.val with
            rx := (s.chip.port p.val).rx ++ [{ c := if s.chip.sevenBits p.val then b &&& 0x7F#8 else b }], flags := 0, ending := false }).syncPort p.val)) ∧
    (∀ (b : Byte) (l : List RxChar) (r : RxChar), 64 ≤ (s.chip.port p.val).rx.length → (s.chip.port p.val).rx = l ++ [r] →
      Gives (.uartRxChar p b false false) s
        ((s.chip.setPort p.val { s.chip.port p.val with
            rx := l ++ [{ r with marks := r.marks ++ [4] }], ending := false }).lineError p.val 11)) ∧
    Gives (.uartBreak p) s ((s.chip.setPort p.val { s.chip.port p.val with ending := false }).lineError p.val 12)) ∧
  (∀ (s : State) (p : Fin 3) (b : Byte), LOn s.chip → p.val ≠ 2 → s.chip.padIn (17 + 2 * p.val) = true → s.chip.direct p.val = true →
    s.chip.portOn p.val = true → s.chip.on (uaF p.val Fld.UA0_FLOW_XRX) = true → s.chip.sevenBits p.val = false →
    s.chip.get (uaF p.val Fld.UA0_FLOW_XOFFC) = b.toNat →
    Gives (.uartRxChar p b false false) s
      ((s.chip.setPort p.val { s.chip.port p.val with ending := s.chip.on (uaF p.val Fld.UA0_STA_TXBSY) }).set (uaF p.val Fld.UA0_STA_XOFFR))) ∧
  (∀ (s : State) (m : Master) (p : Fin 3), s.chip.canAccess m = true → s.chip.mustQueue m (portPage p.val) = false →
    s.chip.deadRegion (portPage p.val) = false → MayRead s.chip m (portPage p.val) →
    Gives (.uartStatusRead m p) s
      (let x := s.chip.port p.val
       let sta := s.chip.rd (portPage p.val + 0xC)
       let d := s.chip.setPort p.val { x with recs := x.recs.filter (·.1 != m) ++ [(m, bitsOf sta.toNat 9 4 * 512)] }
       { d with fab := { d.fab with rdata := sta, rstat := St.ok } }.settle) ∧
    Gives (.uartDataRead m p) s
      (let x := s.chip.port p.val
       let held := ((x.recs.find? (·.1 == m)).map (·.2)).getD 0
       let sta := portPage p.val + 0xC
       let d := s.chip.setPort p.val { x with recs := x.recs.filter (·.1 != m), rx := if s.chip.direct p.val then x.rx.tail else x.rx }
       let d := (d.wr sta (d.rd sta &&& ~~~(BitVec.ofNat 32 held))).syncPort p.val
       { d with fab := { d.fab with rdata := s.chip.rd (portData p.val), rstat := St.ok } }.settle)) ∧
  (∀ (c : Chip) (m : Master) (p : Fin 3), ∀ k, 9 ≤ k → k ≤ 12 → ((c.staRead m p.val).dataRead m p.val).2.on (portSta p.val k) = false) ∧
  (∀ (s : State) (m : Master) (p : Fin 3) (v : Word), Accepts s.chip m (portData p.val) v → s.chip.direct p.val = true →
    (s.chip.port p.val).tx.length < 64 →
    Runs (.uartDataWrite m p v) s fun c => ∃ d : Chip,
      (d.port p.val).tx = (s.chip.port p.val).tx ++
        [if s.chip.sevenBits p.val then BitVec.ofNat 8 v.toNat &&& 0x7F#8 else BitVec.ofNat 8 v.toNat] ∧
      (d.port p.val).rx = (s.chip.port p.val).rx ∧ d.mem = s.chip.mem ∧ c = d.afterWrite) ∧
  (∀ (s : State) (p : Fin 2), LOn s.chip →
    (s.chip.on (uaF p.val Fld.UA0_STA_XOFFR) = true → s.chip.get (uaF p.val Fld.UA0_FLOW_XOTMO) ≠ 0 → s.chip.direct p.val = true →
      Gives (.xoffTimeout p) s
        (((s.chip.setPort p.val { s.chip.port p.val with ending := false }).set (uaF p.val Fld.UA0_IST_XOTMO)).clr (uaF p.val Fld.UA0_STA_XOFFR))) ∧
    (s.chip.direct p.val = false → (s.chip.port p.val).frame ≠ [] → (s.chip.port p.val).rx = [] →
      Gives (.tunnelIdleCut p) s (s.chip.finishFrame hooks p.val 0).settle)) ∧
  (∀ (s : State) (p : Fin 3), (p.val = 2 → AOn s.chip) → (p.val ≠ 2 → LOn s.chip ∧ s.chip.on (uaF p.val Fld.UA0_STA_XOFFR) = false) →
    s.chip.portOn p.val = true → s.chip.direct p.val = true →
    (let bsy := if p.val = 2 then Fld.MLK_STA_TXBSY else uaF p.val Fld.UA0_STA_TXBSY
     let out (l : List Byte) := (s.chip.setPort p.val { s.chip.port p.val with tx := [], ending := false, line := l }).clr bsy
     Gives (.uartFrameSent (.sent p)) s (((out (s.chip.port p.val).tx).syncPort p.val).settle) ∧
     (p.val = 2 → Gives (.uartFrameSent .collided) s
       (((((out []).set Fld.MLK_IST_COLL).bump Fld.MLK_ERRC_COLL).syncPort p.val).settle))))

/-- The Turradar link in TUNNEL mode. Of the frames received: one with a bad CRC is counted and dropped; a node that is not addressed drops a frame for
another; a responder's request that is no repeat is counted and run; the response that a controller waits for ends its request and goes to the host. A
controller's request that brought no response is begun again up to RTRY times and then ends with NORSP. The last stop bit of a controller's request
puts its characters with SYNC and CRC on the line, and it waits for its response; a request read back different is aborted with COLL. A responder's
answer goes out so too, unless it is late, or collides. Each frame that ends is a frame boundary (R73, R389, R391–R393, R395; the boundary of a
dropped frame is log entry 182's reading, the wait of an aborted request log entry 181's). The sync chain: a word with a bad CRC is counted and
dropped; a good one without HALT and with a hop count below 31 makes a follower one hop further than its sender and is forwarded so; the head counts
the epoch in each word it sends; an epoch edge sets IST.EPOCH and goes out on the router; an own HALT that the last word did not carry goes out at
once, and with no own flag none goes out; with no word the chain is LOST and reported, where LOSSH is 0 and it was not LOST before (R399–R402). -/
def Obligations.TurradarAndSync : Prop :=
  ((∀ (s : State) (dst src ctl : Byte) (q : BitVec 16) (bs : List Byte), AOn s.chip → s.chip.portOn 2 = true → s.chip.direct 2 = false →
    bs ≠ [] → bs.length ≤ 1024 →
    Gives (.turradarFrameReceived dst src ctl q bs false) s (((s.chip.bump Fld.MLK_ERRC_CRCE).set Fld.MLK_IST_CRCE).frameEnd hooks 2).settle ∧
    (s.chip.on Fld.MLK_ADDR_ROLE = false → ctl.msb = false → dst.toNat ≠ s.chip.get Fld.MLK_ADDR_A →
      Gives (.turradarFrameReceived dst src ctl q bs true) s (s.chip.frameEnd hooks 2).settle) ∧
    (s.chip.on Fld.MLK_ADDR_ROLE = false → ctl.msb = false → ctl.getLsbD 6 = false → dst.toNat = s.chip.get Fld.MLK_ADDR_A →
      (q.toNat = 0 ∨ (src.toNat, q.toNat) ∉ s.chip.ser.link.last) →
      Gives (.turradarFrameReceived dst src ctl q bs true) s
        ((((s.chip.inc Fld.MLK_CNT_RXF).set Fld.MLK_IST_RXFRM).turRequest false src.toNat q.toNat bs
          ([dst, src, ctl] ++ leBytes 2 q.toNat ++ leBytes 2 bs.length ++ bs)).frameEnd hooks 2).settle) ∧
    (∀ f : List Byte, s.chip.on Fld.MLK_ADDR_ROLE = true → s.chip.ser.link.outst = some f → ctl.getLsbD 6 = true → f.take 1 = [src] →
      (f.drop 3).take 2 = leBytes 2 q.toNat →
      Gives (.turradarFrameReceived dst src ctl q bs true) s
        ((s.chip.turOver.turToHost 0 ([dst, src, ctl] ++ leBytes 2 q.toNat ++ leBytes 2 bs.length ++ bs)).frameEnd hooks 2).settle)) ∧
  (∀ (s : State) (f : List Byte), AOn s.chip → s.chip.ser.link.outst = some f →
    (s.chip.ser.link.tries < s.chip.get Fld.MLK_TIM_RTRY →
      Gives .turradarResponseTimeout s
        (((({ s.chip with ser := { s.chip.ser with link := { s.chip.ser.link with
            outst := none, sending := some f, tries := s.chip.ser.link.tries + 1 } } } : Chip).clr Fld.MLK_STA_WAIT).set Fld.MLK_STA_TXBSY).settle)) ∧
    (s.chip.get Fld.MLK_TIM_RTRY ≤ s.chip.ser.link.tries →
      Gives .turradarResponseTimeout s
        ((((s.chip.turOver.set Fld.MLK_IST_NORSP).bump Fld.MLK_ERRC_NORSP).turToHost 64 (f.take 7)).turSend).settle)) ∧
  (∀ (s : State) (f : List Byte) (b : Byte), AOn s.chip → s.chip.portOn 2 = true → s.chip.direct 2 = false → s.chip.ser.link.sending = some f → f[2]? = some b →
    b.msb = false →
    (let d := ({ s.chip with ser := { s.chip.ser with link := { s.chip.ser.link with sending := none } } } : Chip).clr Fld.MLK_STA_TXBSY
     let waits (e : Chip) : Chip := { e.set Fld.MLK_STA_WAIT with ser := { e.ser with link := { e.ser.link with outst := some f } } }
     Gives (.uartFrameSent (.sent 2)) s
       (waits ((((d.setPort 2 { d.port 2 with line := 0xA5#8 :: f ++ leBytes 2 (crc16 f).toNat }).set Fld.MLK_IST_TXDONE).inc Fld.MLK_CNT_TXF).frameEnd hooks 2)).settle ∧
     Gives (.uartFrameSent .collided) s
       (waits (((d.set Fld.MLK_IST_COLL).bump Fld.MLK_ERRC_COLL).frameEnd hooks 2)).settle)) ∧
  (∀ (s : State) (a : Answer), AOn s.chip → s.chip.ser.link.pend = some a →
    (let d := { s.chip with ser := { s.chip.ser with link := { s.chip.ser.link with pend := none } } }
     (∀ k : Bool, Gives (.turradarResponseSend true k) s (d.set Fld.MLK_IST_LATE)) ∧
     (s.chip.get Fld.HRV_STA_SRC = 0 →
       Gives (.turradarResponseSend false true) s (((d.set Fld.MLK_IST_COLL).bump Fld.MLK_ERRC_COLL).frameEnd hooks 2) ∧
       Gives (.turradarResponseSend false false) s
         ((((d.setPort 2 { d.port 2 with line := 0xA5#8 :: a.frame ++ leBytes 2 (crc16 a.frame).toNat }).set Fld.MLK_IST_TXDONE).inc
           Fld.MLK_CNT_TXF).frameEnd hooks 2))))) ∧
  ((∀ (s : State) (w : Word) (k : Byte), LOn s.chip → s.chip.padIn 20 = true → s.chip.on Fld.SYN_CTL_EN = true →
    (k ≠ syncCrc w → Gives (.syncWordReceived w k) s ((s.chip.bump Fld.SYN_ERRC_CRCE).set Fld.SYN_IST_CRCE)) ∧
    (s.chip.on Fld.SYN_CFG_HEAD = false → w.getLsbD 5 = false → bitsOf w.toNat 0 5 ≠ 31 →
      Runs (.syncWordReceived w (syncCrc w)) s fun c =>
        c.rd Reg.SYN_RXW = w ∧ c.on Fld.SYN_STA_SYNC = true ∧ c.on Fld.SYN_STA_LOST = false ∧ c.get Fld.SYN_POS_P = bitsOf w.toNat 0 5 + 1 ∧
          c.on Fld.SYN_POS_VLD = true ∧ c.ser.sync.epoch = bitsOf w.toNat 16 16 ∧
          c.ser.sync.sent = syncWord (bitsOf w.toNat 16 16) (bitsOf w.toNat 8 8 ||| s.chip.get Fld.SYN_USRO_U) (w.getLsbD 7)
            (w.getLsbD 6 || s.chip.ownFlt) s.chip.ownHalt (bitsOf w.toNat 0 5 + 1) ∧
          RegsKept s.chip c [Reg.SYN_RXW, Reg.SYN_POS, Pg.SYN + 0xC] ∧ c.mem = s.chip.mem)) ∧
  (∀ s : State, LOn s.chip → s.chip.on Fld.SYN_CTL_EN = true →
    (s.chip.on Fld.SYN_CFG_HEAD = true →
      Runs .syncPeriodTick s fun c => c.ser.sync.epoch = (s.chip.ser.sync.epoch + 1) % 65536 ∧ c.get Fld.SYN_POS_P = 0 ∧
        c.on Fld.SYN_POS_VLD = true ∧
        c.ser.sync.sent = syncWord ((s.chip.ser.sync.epoch + 1) % 65536) (s.chip.get Fld.SYN_USRO_U) false (s.chip.ownFlt || s.chip.ser.sync.flt)
          (s.chip.ownHalt || s.chip.ser.sync.halt) 0 ∧ RegsKept s.chip c [Reg.SYN_POS] ∧ c.mem = s.chip.mem) ∧
    Gives .syncEpochTick s ((s.chip.set Fld.SYN_IST_EPOCH).route 0x20) ∧
    (s.chip.ownHalt = true → bitsOf s.chip.ser.sync.sent 5 1 = 0 →
      Gives .syncUrgentWord s { s.chip with ser := { s.chip.ser with sync := { s.chip.ser.sync with sent := s.chip.ownWord true } } }) ∧
    (s.chip.ownHalt = false → s.chip.ownFlt = false → Gives .syncUrgentWord s s.chip) ∧
    (s.chip.on Fld.SYN_STA_LOST = true → Gives .syncLost s s.chip) ∧
    (s.chip.on Fld.SYN_STA_LOST = false → s.chip.on Fld.SYN_CFG_LOSSH = false →
      Gives .syncLost s
        ((((s.chip.set Fld.SYN_STA_LOST).set Fld.SYN_IST_LOST).clr Fld.SYN_STA_SYNC).raise
          (report 0x0A03 0 0 (s.chip.rd Reg.SYN_POS).toNat)))))

/-! ### Almanac (R430–R459) -/

/-- A service request runs by its carrier (R430, R431, R392, R455): from the mailbox when its SVC code stands there, its answer put into MBUF with
MRS.DONE; for the reader as an APDU while the core is awake, refused before SELECT with 69 85, with P1–P2 other than 0 with 6A 86, as CONT, which has
no INS, with 6D 00, and not answered in ROM mode but for STATUS, IDENT and UPD; in a Turradar frame for this node as a responder's request. From the
mailbox each row ends with its service's answer: STATUS, IDENT, CONT, LOG_READ, PARAM_READ, and PARAM_WRITE, TIME and UPD's ABORT with their commit
group. -/
def Obligations.ServiceRequests : Prop :=
  (∀ (s : State) (m : Master), Accepts s.chip m Reg.ALM_MDB 1#32 → s.chip.on Fld.ALM_MRS_BUSY = false →
    Gives (.mailboxGo m) s
      (let d := ((s.chip.set Fld.ALM_MRS_BUSY).clr Fld.ALM_MRS_DONE).set Fld.ALM_STA_BUSY
       { d with alm := { d.alm with mbox := some m } }.afterWrite)) ∧
  (∀ (s : State) (m : Master), AOn s.chip → s.chip.alm.mbox = some m → s.chip.alm.waits = [] →
    s.chip.svcWaits (s.chip.mailboxReq m) = false →
    Gives .mailboxDone s
      (let r := s.chip.service (s.chip.mailboxReq m)
       (r.2.deliver (s.chip.mailboxReq m) r.1.1 r.1.2).settle)) ∧
  (∀ (s : State) (i : Instr) (via : Carrier) (code : Nat) (req : List Byte), ServiceRow i via code req → AOn s.chip →
    (∀ m : Master, via = .mailbox → s.chip.alm.mbox = some m → s.chip.get Fld.ALM_MSVC_SVC = code → s.chip.alm.waits = [] →
      s.chip.svcWaits (s.chip.mailboxReq m) = false →
      Gives i s
        (let r := s.chip.service (s.chip.mailboxReq m)
         (r.2.deliver (s.chip.mailboxReq m) r.1.1 r.1.2).settle)) ∧
    (∀ (p : BitVec 16) (n : BitVec 9), via = .nimora p n → 3 ≤ s.chip.nimSt → s.chip.coreAsleep = false →
      (let d := s.chip.bump Fld.NIM_CNT_APDU
       (s.chip.romMode = true → code ∉ [Svc.status, Svc.ident, Svc.upd] → Gives i s (d.nimOut []).settle) ∧
       (s.chip.romMode = false → s.chip.alm.nim.app = false → Gives i s (d.apduSw 0x69#8 0x85#8).settle) ∧
       (s.chip.romMode = false → s.chip.alm.nim.app = true → code = Svc.cont → Gives i s (d.apduSw 0x6D#8 0#8).settle) ∧
       (s.chip.romMode = false → s.chip.alm.nim.app = true → code ≠ Svc.cont → p ≠ 0 → Gives i s (d.apduSw 0x6A#8 0x86#8).settle) ∧
       (s.chip.romMode = false → s.chip.alm.nim.app = true → code ≠ Svc.cont → p = 0 →
         (let q : SvcReq := { rqk := 2, rqid := 0, auth := s.chip.on Fld.NIM_STA_AUTH, code := code, req := req, aux := n.toNat, hdr := none }
          d.svcWaits q = false → Gives i s ((d.service q).2.deliver q (d.service q).1.1 (d.service q).1.2).settle)))) ∧
    (∀ (src : Byte) (q : BitVec 16), via = .turradar src q → s.chip.portOn 2 = true → s.chip.direct 2 = false → req.length < 1024 →
      s.chip.on Fld.MLK_ADDR_ROLE = false → (q.toNat = 0 ∨ (src.toNat, q.toNat) ∉ s.chip.ser.link.last) →
      Gives i s
        ((((s.chip.inc Fld.MLK_CNT_RXF).set Fld.MLK_IST_RXFRM).turRequest false src.toNat q.toNat (BitVec.ofNat 8 code :: req)
          ([BitVec.ofNat 8 (s.chip.get Fld.MLK_ADDR_A), src, 0#8] ++ leBytes 2 q.toNat ++ leBytes 2 (req.length + 1) ++
            BitVec.ofNat 8 code :: req)).frameEnd hooks 2).settle)) ∧
  (∀ (s : State) (m : Master), AOn s.chip → s.chip.alm.mbox = some m → s.chip.alm.waits = [] → s.chip.romMode = false →
    (let q := s.chip.mailboxReq m
     let d := s.chip.setCont q.who []
     (q.code = Svc.status → q.req = [] → Gives (.statusService .mailbox) s (d.deliver q St.ok d.svcStatus).settle) ∧
     (q.code = Svc.ident → q.req = [] → Gives (.ident .mailbox) s (d.deliver q St.ok d.svcIdent).settle) ∧
     (q.code = Svc.cont → s.chip.cont q.who ≠ [] → Gives (.cont .mailbox) s (d.deliver q St.ok (s.chip.cont q.who)).settle) ∧
     (∀ (lo : BitVec 32) (n : Byte), q.code = Svc.logRead → q.req = leBytes 4 lo.toNat ++ [n] → 1 ≤ n.toNat → n.toNat ≤ 31 →
       Gives (.logRead .mailbox lo n) s (d.deliver q St.ok (d.svcLog lo.toNat n.toNat)).settle) ∧
     (∀ (k : Byte) (o : BitVec 32) (n : Byte) (b sz : Nat), q.code = Svc.paramRead → q.req = k :: leBytes 3 o.toNat ++ [n] →
       partAt k.toNat = some (b, sz) → 1 ≤ n.toNat → n.toNat ≤ 240 → o.toNat < 2 ^ 24 → o.toNat + n.toNat ≤ sz → s.chip.fst.poison = [] →
       Gives (.paramRead .mailbox k o n) s (d.deliver q St.ok (d.bytes (fDie + b + o.toNat) n.toNat)).settle) ∧
     (s.chip.gst = 0 → q.auth = true →
       (∀ (sq : BitVec 16) (k : Byte) (o : BitVec 32) (bs : List Byte) (b sz : Nat), q.code = Svc.paramWrite →
         q.req = leBytes 2 sq.toNat ++ k :: leBytes 3 o.toNat ++ bs → partAt k.toNat = some (b, sz) → k.toNat ≤ 1 → bs ≠ [] → bs.length ≤ 240 →
         o.toNat < 2 ^ 24 → o.toNat + bs.length ≤ sz → (d.svcGroup q k.toNat o.toNat (d.patchPages (b + o.toNat) bs)).1 = St.ok →
         Gives (.paramWrite .mailbox sq k o bs) s
           (((d.svcGroup q k.toNat o.toNat (d.patchPages (b + o.toNat) bs)).2).deliver q St.ok []).settle) ∧
       (∀ (sq : BitVec 16) (t : BitVec 32), q.code = Svc.time → q.req = leBytes 2 sq.toNat ++ leBytes 4 t.toNat →
         (d.svcGroup q 0 0 []).1 = St.ok →
         Gives (.time .mailbox sq t) s
           (((((d.svcGroup q 0 0 []).2).setRtc t.toNat).logEvent 6 (leBytes 4 (s.chip.get Fld.RTC_SEC_S) ++ leBytes 4 t.toNat)).deliver q
             St.ok []).settle) ∧
       (∀ (sq : BitVec 16) (bs : List Byte), q.code = Svc.upd → q.req = leBytes 2 sq.toNat ++ 4#8 :: bs →
         (d.updAbort.svcGroup q 0 0 []).1 = St.ok →
         Gives (.updService .mailbox sq 4#8 bs) s
           (((d.updAbort.svcGroup q 0 0 []).2).deliver q St.ok ((d.updAbort.svcGroup q 0 0 []).2).updAnswer).settle))))

/-- What the services answer (R430, R431, R453): STATUS its 16-byte block and IDENT the identity, each for an empty request; CONT the rest of the
requester's last response, once, then 0x21; PARAM_READ bytes of its partition; a write without the right 0x22; in ROM mode all but STATUS, IDENT, UPD
and CONT 0x20. Every service but CONT ends the requester's continuation. -/
def Obligations.ServiceResults : Prop :=
  ∀ (c : Chip) (q : SvcReq),
    (q.code = Svc.status → q.req = [] → c.service q = ((St.ok, (c.setCont q.who []).svcStatus), c.setCont q.who [])) ∧
    (q.code = Svc.status → (c.svcStatus).length = 16) ∧
    (q.code = Svc.ident → q.req = [] → c.service q = ((St.ok, (c.setCont q.who []).svcIdent), c.setCont q.who [])) ∧
    (q.code = Svc.cont → c.cont q.who ≠ [] → c.service q = ((St.ok, c.cont q.who), c.setCont q.who []) ∧ (c.setCont q.who []).cont q.who = []) ∧
    (q.code = Svc.cont → c.cont q.who = [] → c.service q = ((0x21#8, []), c)) ∧
    (c.romMode = true → q.code ∉ [Svc.status, Svc.ident, Svc.upd, Svc.cont] → c.service q = ((0x20#8, []), c.setCont q.who [])) ∧
    (∀ (k : Byte) (o n b sz : Nat), q.code = Svc.paramRead → c.romMode = false → q.req = k :: leBytes 3 o ++ leBytes 1 n → partAt k.toNat = some (b, sz) →
      1 ≤ n → n ≤ 240 → o < 2 ^ 24 → o + n ≤ sz → c.fst.poison = [] →
      c.service q = ((St.ok, c.bytes (fDie + b + o) n), c.setCont q.who [])) ∧
    (∀ (k : Byte) (o b sz : Nat) (sq bs : List Byte), q.code = Svc.paramWrite → c.romMode = false → q.rqk ≠ 2 → q.auth = false → sq.length = 2 →
      q.req = sq ++ k :: leBytes 3 o ++ bs → partAt k.toNat = some (b, sz) → k.toNat ≤ 1 → bs ≠ [] → bs.length ≤ 240 → o < 2 ^ 24 → o + bs.length ≤ sz →
      c.service q = ((0x22#8, []), c.setCont q.who []))

/-- LOG.TAKE reads NSEQ, which advances, and the number is owed until the gap timeout skips it and counts it; the records that may be written are
committed as one group, once no other group is open (R408, R438, R439); a key copy that fails is rewritten from the good one, and with both good
nothing changes (R442). A scan while the core is awake gives each enabled channel its reading and no other; an active tamper input is counted and
latched, and logged while the core is awake; the temperatures follow the package's highest, HOT with its hysteresis, WARN and CRIT with their reports
and Last Line (R433–R436). -/
def Obligations.AlmanacUpkeep : Prop :=
  ((∀ (s : State) (m : Master), s.chip.canAccess m = true → s.chip.mustQueue m Reg.LOG_TAKE = false → s.chip.fab.aon = true → MayRead s.chip m Pg.LOG →
    Settled s.chip →
    Runs (.logTake m) s fun c => c.fab.rdata = BitVec.ofNat 32 (s.chip.get Fld.LOG_NSEQ_N) ∧ c.fab.rstat = St.ok ∧
      c.get Fld.LOG_NSEQ_N = nextLseq (s.chip.get Fld.LOG_NSEQ_N) % 2 ^ 32 ∧
      c.alm.taken = s.chip.alm.taken ++ [(s.chip.get Fld.LOG_NSEQ_N, s.chip.nowMs)] ∧ RegsKept s.chip c [Reg.LOG_NSEQ, Reg.LOG_TAKE] ∧
      c.mem = s.chip.mem) ∧
  (∀ (s : State) (x : Nat × Nat) (r : List (Nat × Nat)), AOn s.chip → s.chip.alm.taken = x :: r →
    Gives .logGapTimeout s ({ s.chip with alm := { s.chip.alm with taken := r } }.bump Fld.LOG_GAP_N)) ∧
  (∀ s : State, AOn s.chip →
    (s.chip.logReady = [] → Gives .logCommit s s.chip) ∧
    (s.chip.logReady ≠ [] → s.chip.gst ≠ 0 → Gives .logCommit s { s.chip with alm := { s.chip.alm with logHeld := true } }) ∧
    (s.chip.logReady ≠ [] → s.chip.gst = 0 → (s.chip.ownGroup false (s.chip.logPages s.chip.logIndex s.chip.logReady)).1 = St.ok →
      Gives .logCommit s
        ((s.chip.ownGroup false (s.chip.logPages s.chip.logIndex s.chip.logReady)).2.logCommitted s.chip.logReady))) ∧
  (∀ s : State, AOn s.chip →
    (s.chip.keyOk 0 = true → s.chip.keyOk 1 = true → Gives .keygen s s.chip) ∧
    (s.chip.gst = 0 → s.chip.keyOk 0 = true → s.chip.keyOk 1 = false → Gives .keygen s ((s.chip.writeKey 1 (s.chip.bytes (keyAt 0) 192)).showId)))) ∧
  ((∀ (s : State) (vals : List (BitVec 16)), AOn s.chip → s.chip.coreAsleep = true → Gives (.sensorScan vals) s s.chip) ∧
  (∀ (s : State) (vals : List (BitVec 16)), AOn s.chip → s.chip.coreAsleep = false → s.chip.get Fld.HRV_STA_SRC ≠ 2 → vals.length = 7 →
    Runs (.sensorScan vals) s fun c => ∀ n < 7,
      c.get (Fld.SEN_VAL_V n) = (if bitsOf (s.chip.get Fld.SEN_SCAN_EN) n 1 = 1 then (vals.getD n 0#16).toNat % 2 ^ (Fld.SEN_VAL_V n).w
        else s.chip.get (Fld.SEN_VAL_V n))) ∧
  (∀ (s : State) (n : Fin 2), AOn s.chip →
    (bitsOf (s.chip.get Fld.SEN_TCFG_EN) n.val 1 = 0 → Gives (.tamper n) s s.chip) ∧
    (bitsOf (s.chip.get Fld.SEN_TCFG_EN) n.val 1 = 1 →
      Gives (.tamper n) s
        (let f := if n.val = 0 then Fld.SEN_TCNT_C0 else Fld.SEN_TCNT_C1
         let d := s.chip.bump f
         let e := (d.put Fld.SEN_STA_TLVL (d.get Fld.SEN_STA_TLVL ||| 2 ^ n.val)).set Fld.SEN_IST_TAMP
         if s.chip.coreAsleep = true then e else e.logEvent 7 (leBytes 1 n.val ++ leBytes 1 (d.get f))))) ∧
  (∀ (s : State) (k : Fin 4) (t : BitVec 12), AOn s.chip →
    (let d := s.chip.setTemp k.val t
     (d.on Fld.TMP_STA_HOT = false →
       Gives (.tempHot k t) s
         (let hot := decide (850 < d.getS Fld.TMP_PKG_T)
          if s.chip.fab.lco = true then (d.putB Fld.TMP_STA_HOT hot).putB Fld.CST_STA_HOT hot else d.putB Fld.TMP_STA_HOT hot)) ∧
     (d.on Fld.TMP_STA_WARN = false → d.getS Fld.TMP_TWRN_T ≤ d.getS Fld.TMP_PKG_T →
       Gives (.overtempW k t) s
         (((d.set Fld.TMP_STA_WARN).set Fld.TMP_IST_WARN).raiseP (report 0x0205 d.hotDie 0 (codeOf (d.getS Fld.TMP_PKG_T) 32)))) ∧
     (d.on Fld.TMP_STA_WARN = true → d.getS Fld.TMP_PKG_T < d.getS Fld.TMP_TWRN_T - 50 →
       Gives (.overtempW k t) s (d.clr Fld.TMP_STA_WARN)) ∧
     (d.on Fld.TMP_STA_CRIT = false → 1250 ≤ d.getS Fld.TMP_PKG_T →
       Gives (.overtemp k t) s
         ((((d.set Fld.TMP_STA_CRIT).set Fld.TMP_IST_CRIT).llActive 6 true).raiseP
           (report 0x0204 d.hotDie 0 (codeOf (d.getS Fld.TMP_PKG_T) 32)))) ∧
     (d.on Fld.TMP_STA_CRIT = true → d.getS Fld.TMP_PKG_T < 1200 →
       Gives (.overtemp k t) s ((d.clr Fld.TMP_STA_CRIT).llActive 6 false)))))

/-- Updates (R451, R452): BEGIN opens the inactive slot, PUSH commits the window at DOFS, VERIFY judges the image and UPD_VERIFY_DONE shows the outcome,
CLONE copies, ABORT and REBOOT; a PUSH waits while another group is open. A verified pair of images can be armed, as a trial. A trial boot that hangs
restarts the core. -/
def Obligations.Updates : Prop :=
  (∀ (s : State) (m : Master) (k : Byte), (k.toNat = 1 ∨ k.toNat = 2) →
    (Accepts s.chip m Reg.UPD_CMD (BitVec.ofNat 32 (k.toNat * 256 + 1)) → s.chip.updArmed = false → s.chip.updSt ≠ 2 →
      Gives (.updBegin m k) s
        (let d := { s.chip with alm := { s.chip.alm with kind := k.toNat, slot := 0, gather := [] } }
         ((((d.clr (okBit k.toNat)).put Fld.UPD_DOFS_N 0).put Fld.UPD_STA_ERR 0).put Fld.UPD_STA_ST 1).afterWrite)) ∧
    (Accepts s.chip m Reg.UPD_CMD (BitVec.ofNat 32 (k.toNat * 256 + 5)) → s.chip.updArmed = false →
      Gives (.updClone m k) s
        (let d := { s.chip with alm := { s.chip.alm with kind := k.toNat, clone := true } }
         ((d.clr (okBit k.toNat)).put Fld.UPD_STA_ST 2).afterWrite))) ∧
  (∀ (s : State) (m : Master), s.chip.pushWaits = true → Gives (.updPush m) s s.chip) ∧
  (∀ (s : State) (m : Master), Accepts s.chip m Reg.UPD_CMD 2#32 → s.chip.gst = 0 → s.chip.updSt = 1 → s.chip.get Fld.UPD_DOFS_N < s.chip.get Fld.UPD_LEN_N →
    (let o := s.chip.get Fld.UPD_DOFS_N
     let r := s.chip.ownGroup false (s.chip.patchPages (imgAt s.chip.alm.kind s.chip.updSlot + o) (s.chip.dwin.take (s.chip.get Fld.UPD_LEN_N - o)))
     r.1 = St.ok → Gives (.updPush m) s (r.2.put Fld.UPD_DOFS_N (o + 1024)).afterWrite)) ∧
  (∀ (s : State) (m : Master), Accepts s.chip m Reg.UPD_CMD 3#32 → s.chip.updSt = 1 →
    Gives (.updVerify m) s (s.chip.put Fld.UPD_STA_ST 2).afterWrite) ∧
  (∀ s : State, AOn s.chip → s.chip.updSt = 2 → s.chip.alm.clone = false →
    Gives .updVerifyDone s
      (let d := { s.chip with alm := { s.chip.alm with clone := false } }
       let e := d.imageErr s.chip.alm.kind d.updSlot
       ((((d.put Fld.UPD_STA_ERR e).put Fld.UPD_STA_ST (if e = 0 then 3 else 4)).putB (okBit s.chip.alm.kind) (e == 0)).set Fld.UPD_IST_DONE).logEvent
         5 (leBytes 1 3 ++ leBytes 1 s.chip.alm.kind ++ leBytes 1 d.updSlot ++ leBytes 1 e)).settle) ∧
  (∀ (s : State) (m : Master), Accepts s.chip m Reg.UPD_CMD 4#32 →
    Gives (.updAbort m) s
      ({ s.chip with alm := { s.chip.alm with gather := [], clone := false } }.put Fld.UPD_STA_ST 0).afterWrite) ∧
  (∀ (s : State) (m : Master), Accepts s.chip m Reg.UPD_CMD 6#32 →
    (s.chip.romMode = true ∨ ((s.chip.engine = Eng.off ∨ s.chip.engine = Eng.fault ∨ s.chip.engine = Eng.service) ∧
      s.chip.get Fld.DOC_JUSE_OPN = 0)) →
    Gives (.updReboot m) s { s.chip with dbg := { s.chip.dbg with reboot := true } }.afterWrite) ∧
  (∀ (s : State) (m : Master) (b : Bool), Accepts s.chip m Reg.UPD_ARM (BitVec.ofNat 32 (256 + b.toNat)) → s.chip.guardRight m = true →
    s.chip.updSlot = b.toNat → s.chip.on Fld.UPD_STA_FWOK = true → s.chip.on Fld.UPD_STA_ENGOK = true → s.chip.alm.trialRun = false →
    Gives (.updArm m (BitVec.ofNat 32 (256 + b.toNat))) s
      ((((s.chip.put Fld.UPD_ARM_EN 1).put Fld.UPD_ARM_SLOT b.toNat).setUpd (s.chip.get Fld.UPD_SLOT_ACTIVE) 1 b.toNat 1).set
        Fld.UPD_IST_ARMD).afterWrite) ∧
  (∀ s : State, AOn s.chip →
    (s.chip.alm.trialRun = true → s.chip.get Fld.PSY_BST_STG ≠ 0x0A → Gives .trialWatchdog s (s.chip.coreReset 2)) ∧
    (s.chip.alm.trialRun = false → Gives .trialWatchdog s s.chip))

/-- The Nimora port (R454–R458): the field wakes it, REQA is answered with the ATQA, anticollision gives the UID's cascades and selects, RATS answers the
ATS, HLTA and DESELECT end the session; SELECT of the application, GET CHALLENGE of 16 bytes, an AUTH that fails clears AUTH, GET RESPONSE gives the
rest, each while the core is awake and, GET CHALLENGE and AUTH, outside ROM mode; a lost field ends everything. -/
def Obligations.NimoraSession : Prop :=
  (∀ s : State, AOn s.chip →
    Gives .rfFieldDetect s (((s.chip.set Fld.HRV_STA_RFON).set Fld.HRV_IST_FIELD).set Fld.NIM_STA_FIELD) ∧
    Gives .nimoraFieldLost s
      (let d := ((s.chip.nimEnd (if s.chip.on Fld.NIM_CTL_EN then 1 else 0) false).clr Fld.NIM_STA_FIELD).clr Fld.HRV_STA_RFON
       { d with alm := { d.alm with waits := d.alm.waits.filter (·.rqk != 2) } }) ∧
    (∀ w : Bool, s.chip.on Fld.NIM_CTL_EN = true → s.chip.on Fld.NIM_STA_FIELD = true → s.chip.nimSt = 1 →
      (s.chip.alm.nim.halted = false →
        Gives (.nimoraReqa w) s { s.chip with alm := { s.chip.alm with nim := { s.chip.alm.nim with out := [0x44#8, 0#8], level := 1 } } }) ∧
      (s.chip.alm.nim.halted = true →
        Gives (.nimoraReqa true) s { s.chip with alm := { s.chip.alm with nim := { s.chip.alm.nim with out := [0x44#8, 0#8], level := 1 } } } ∧
        Gives (.nimoraReqa false) s (s.chip.nimOut []))) ∧
    (∀ (l : Fin 2) (k : Nat), s.chip.nimSt = 1 → s.chip.alm.nim.level = l.val + 1 → k < 5 →
      Gives (.nimoraAnticollision l ((s.chip.cascade (l.val + 1)).take k)) s (s.chip.nimOut ((s.chip.cascade (l.val + 1)).drop k))) ∧
    (s.chip.nimSt = 1 → s.chip.alm.nim.level = 1 →
      Gives (.nimoraAnticollision 0 (s.chip.cascade 1)) s
        { s.chip with alm := { s.chip.alm with nim := { s.chip.alm.nim with out := [0x04#8], level := 2 } } }) ∧
    (s.chip.nimSt = 1 → s.chip.alm.nim.level = 2 →
      Gives (.nimoraAnticollision 1 (s.chip.cascade 2)) s (((s.chip.nimOut [0x20#8]).put Fld.NIM_ST_S 2).set Fld.NIM_IST_SEL)) ∧
    (∀ k : Fin 16, s.chip.nimSt = 2 → k.val < 15 →
      Gives (.nimoraRats k) s
        (let d := (s.chip.nimOut [0x05#8, 0x78#8, 0#8, BitVec.ofNat 8 (16 * s.chip.get Fld.NIM_CFG_FWI + 1), 0x02#8]).put Fld.NIM_ST_S 3
         { d with alm := { d.alm with nim := { d.alm.nim with cid := k.val } } })) ∧
    (s.chip.nimSt = 2 → Gives .nimoraHlta s (s.chip.nimEnd 1 true)) ∧
    (3 ≤ s.chip.nimSt → Gives .nimoraDeselect s ((s.chip.nimEnd 1 true).nimOut [0xC2#8]))) ∧
  (∀ s : State, AOn s.chip → 3 ≤ s.chip.nimSt → s.chip.coreAsleep = false →
    (let d := s.chip.bump Fld.NIM_CNT_APDU
     Gives (.select 0x04#8 0#8 nimAid) s
       (let e := ((d.put Fld.NIM_ST_S 4).clr Fld.NIM_STA_AUTH).setCont theReader []
        { e with alm := { e.alm with nim := { e.alm.nim with app := true } } }.apduData 256 []) ∧
     (∀ aid : List Byte, aid.length = 7 → aid ≠ nimAid → Gives (.select 0x04#8 0#8 aid) s (d.apduSw 0x6A#8 0x82#8)) ∧
     (s.chip.alm.nim.app = false → ∀ (p : BitVec 16) (n : BitVec 9) (bs : List Byte),
       (s.chip.romMode = false → Gives (.getChallenge p n) s (d.apduSw 0x69#8 0x85#8) ∧ Gives (.auth p bs) s (d.apduSw 0x69#8 0x85#8)) ∧
         Gives (.getResponse n) s (d.apduSw 0x69#8 0x85#8)) ∧
     (s.chip.romMode = true → ∀ (p : BitVec 16) (n : BitVec 9) (bs : List Byte),
       Gives (.getChallenge p n) s (d.nimOut []) ∧ Gives (.auth p bs) s (d.nimOut [])) ∧
     (s.chip.alm.nim.app = true →
       (s.chip.romMode = false →
         Runs (.getChallenge 0 16) s (fun c => c.alm.nim.challenge.length = 16 ∧
           c.alm.nim.out = (if s.chip.energyXmit = true then c.alm.nim.challenge ++ [0x90#8, 0#8] else []))) ∧
       (∀ n : BitVec 9, d.cont theReader ≠ [] → Gives (.getResponse n) s (d.apduData n.toNat (d.cont theReader))) ∧
       (∀ bs : List Byte, bs.length = 129 → s.chip.romMode = false → s.chip.energyRun = true → s.chip.energyXmit = true →
         (s.chip.skh = List.replicate 32 0#8 ∨ digest (bs.take 65) ≠ s.chip.skh ∨ s.chip.alm.nim.challenge = []) →
         Runs (.auth 0 bs) s (fun c => c.on Fld.NIM_STA_AUTH = false ∧ c.alm.nim.challenge = [] ∧ c.alm.nim.out = [0x22#8, 0x90#8, 0#8])))))

/-! ### Harvest, retention levels and clocks (R461–R503) -/

/-- The harvest supply: with the core awake, a threshold crossed upward sets its bit and those below, and through TH_NVW or TH_RUN commits what is staged;
downward clears it and those above, and VSTO through the warning level, while it supplies the domain, saves what is held; the selector takes VSYS with
VIN present, VBAT for a VSTO below 2.20 V, and VSTO again for a VBAT below 2.00 V; LDARK ends in VBAT where that can supply; an open-circuit sample
sets VMPP to K %; below VAMIN, with no commit in progress, the domain goes off and the F-die's array stays (R414, R461–R469). -/
def Obligations.HarvestSupply : Prop :=
  (∀ (s : State) (k : Fin 6), AOn s.chip →
    (k.val < 4 → bitsOf (s.chip.get Fld.HRV_STA_ABV) 0 1 = 1 →
      Gives (.vstoThresholdCross k true) s
        (let d := s.chip.put Fld.HRV_STA_ABV (s.chip.get Fld.HRV_STA_ABV ||| (2 ^ (k.val + 1) - 1))
         if (k.val = 1 ∨ k.val = 3) ∧ s.chip.alm.staged ≠ [] then d.logCommit else d) ∧
      Gives (.vstoThresholdCross k false) s (s.chip.put Fld.HRV_STA_ABV (s.chip.get Fld.HRV_STA_ABV % 2 ^ k.val))) ∧
    (k.val = 4 → s.chip.get Fld.HRV_STA_SRC = 1 →
      Gives (.vstoThresholdCross k false) s (s.chip.set Fld.HRV_IST_WARN).saveHeld.logCommit ∧
      Gives (.vstoThresholdCross k true) s s.chip) ∧
    (k.val = 5 → ∀ up : Bool, Gives (.vstoThresholdCross k up) s (s.chip.putB Fld.HRV_STA_COLD (!up)))) ∧
  (∀ (s : State) (v b : BitVec 16) (r : Bool), AOn s.chip →
    (s.chip.ret.vin = true → s.chip.pow.pfail = false → Gives (.supplySwitch v b r) s (s.chip.toSupply 0)) ∧
    (s.chip.ret.vin = false → s.chip.get Fld.HRV_STA_SRC = 1 → v.toNat < 2200 → 2200 ≤ b.toNat →
      Gives (.supplySwitch v b r) s (s.chip.toSupply 2)) ∧
    (s.chip.ret.vin = false → s.chip.get Fld.HRV_STA_SRC = 2 → b.toNat < 2000 → Gives (.supplySwitch v b r) s (s.chip.toSupply 1))) ∧
  (∀ (s : State) (b : BitVec 16), AOn s.chip → s.chip.get Fld.HRV_STA_SRC = 1 → bitsOf (s.chip.get Fld.HRV_STA_ABV) 0 1 = 0 →
    s.chip.get Fld.HRV_LDK_S ≤ s.chip.get Fld.HRV_DKT_S →
    (2200 ≤ b.toNat → Gives (.ldarkExpiry b) s (s.chip.toSupply 2)) ∧ (b.toNat < 2200 → Gives (.ldarkExpiry b) s s.chip)) ∧
  (∀ (s : State) (v : BitVec 16), AOn s.chip → s.chip.on Fld.HRV_MPPT_EN = true → s.chip.on Fld.HRV_STA_COLD = false →
    Gives (.mpptSample v) s
      (((s.chip.putB Fld.HRV_STA_PVON (decide (300 ≤ v.toNat) && decide (v.toNat ≤ 5500))).put Fld.HRV_VOC_VOC v.toNat).put Fld.HRV_VOC_VMPP
        (s.chip.get Fld.HRV_MPPT_K * v.toNat / 100))) ∧
  (∀ (s : State) (k : Nat), AOn s.chip → s.chip.ret.vin = false → s.chip.gst ≠ 2 →
    Runs (.aonShutdown k) s fun c => Unpowered c ∧ c.fab.fnv = false ∧ c.ret.brown = true ∧
      ∀ a, fDie ≤ a → a < fDie + 0x200000 → c.byte a = s.chip.byte a)

/-- The retention levels: IDLE by its conditions and back; a request from OFF or FAULT, with no journal record OPEN, is noted. At its entry, without a
power failure, STANDBY keeps the L-die and unlocks its PLL, HIBERNATE saves the image and powers the L-die down, SHIP powers everything down; an
enabled source wakes STANDBY and HIBERNATE, and STANDBY at once after the entry if it came before its end; VIN returns from SHIP by a POR of the AON
domain and is noted during a safe stop; a guarded write of PPD.REL releases the latched pads after a restore (R471–R485). -/
def Obligations.RetentionLevels : Prop :=
  (∀ s : State, LOn s.chip →
    (s.chip.idleReady = true → Gives .idleEntry s ((s.chip.put Fld.RET_LVL_PREV (s.chip.get Fld.RET_LVL_CUR)).put Fld.RET_LVL_CUR 2)) ∧
    (s.chip.idleReady = false → Gives .idleEntry s s.chip) ∧
    (s.chip.get Fld.RET_LVL_CUR = 2 → Gives .idleExit s ((s.chip.put Fld.RET_LVL_PREV 2).put Fld.RET_LVL_CUR 1))) ∧
  (∀ (s : State) (m : Master), (s.chip.engine = Eng.off ∨ s.chip.engine = Eng.fault) → s.chip.journalOpen = false → s.chip.guardRight m = true →
    (Accepts s.chip m Reg.RET_REQ 0x04#32 → s.chip.get Fld.BRG_USTA_ST ≠ 4 →
      Gives (.standbyRequest m) s
        { s.chip.put Fld.RET_REQ_LVL 4 with ret := { s.chip.ret with req := some 4 } }.afterWrite) ∧
    (Accepts s.chip m Reg.RET_REQ 0x08#32 →
      Gives (.hibernateRequest m) s { s.chip.put Fld.RET_REQ_LVL 8 with ret := { s.chip.ret with req := some 8 } }.afterWrite) ∧
    (Accepts s.chip m Reg.RET_REQ 0x20#32 →
      Gives (.shipRequest m) s { s.chip.put Fld.RET_REQ_LVL 0x20 with ret := { s.chip.ret with req := some 0x20 } }.afterWrite)) ∧
  (∀ s : State, LOn s.chip → s.chip.pow.pfail = false →
    (s.chip.ret.req = some 4 → s.chip.ret.early = 0 →
      Runs .standbyEntry s fun c => c.fab.standby = true ∧ c.fab.lco = true ∧ c.ret.req = none ∧ c.cst.selfRefresh = true ∧
        c.get Fld.RET_LVL_CUR = 4 ∧ c.on Fld.CLK_STA_LOCK = false ∧
        (c.fab.ldEn, c.fab.hvEn, c.fab.htrEn, c.fab.mtrEn) = (false, false, false, false)) ∧
    (s.chip.ret.req = some 4 → s.chip.get Fld.RET_LVL_CUR = 1 → s.chip.ret.early &&& s.chip.get Fld.RET_WSRC_EN ≠ 0 →
      Runs .standbyEntry s fun c => c.fab.standby = false ∧ c.fab.lco = true ∧ c.ret.req = none ∧ c.ret.early = 0 ∧ c.cst.selfRefresh = false ∧
        c.get Fld.RET_LVL_CUR = 1 ∧ c.get Fld.RET_LVL_PREV = 4 ∧ c.on Fld.CLK_STA_LOCK = true ∧ c.on Fld.RET_IST_WAKE = true) ∧
    (s.chip.ret.req = some 8 → s.chip.ret.early = 0 →
      Runs .hibernateEntry s fun c => c.fab.lco = false ∧ c.fab.lio = false ∧ c.fab.dst = false ∧ c.fab.aon = s.chip.fab.aon ∧
        c.get Fld.RET_LVL_CUR = 8 ∧ c.on Fld.RET_STA_PLAT = true ∧ c.on Fld.RET_STA_IMGV = true ∧ c.ret.image.isSome = true ∧
        c.shadows = [] ∧ c.on Fld.PWR_STA_VIOG = false) ∧
    (s.chip.ret.req = some 0x20 → Runs .shipEntry s fun c => Unpowered c ∧ c.fab.fnv = false ∧ c.ret.ship = true)) ∧
  (∀ (s : State) (src : BitVec 9), AOn s.chip →
    (let k := src.toNat &&& s.chip.get Fld.RET_WSRC_EN
     (s.chip.fab.standby = true → k ≠ 0 → bitsOf k 6 1 = 0 →
       Gives (.standbyWake src) s
         (let d := { s.chip with fab := { s.chip.fab with standby := false }, cst := { s.chip.cst with selfRefresh := false } }
          ((d.set Fld.CLK_STA_LOCK).toLevel 1).wakeNoted k)) ∧
     (s.chip.fab.standby = true → k = 0 → Gives (.standbyWake src) s s.chip) ∧
     (s.chip.fab.standby = false → s.chip.ret.req = some 4 →
       Gives (.standbyWake src) s { s.chip with ret := { s.chip.ret with early := s.chip.ret.early ||| k } }) ∧
     (s.chip.get Fld.RET_LVL_CUR ≠ 8 → s.chip.ret.req = some 8 →
       Gives (.hibernateWake src) s { s.chip with ret := { s.chip.ret with early := s.chip.ret.early ||| (k &&& 0xF) } }) ∧
     (s.chip.get Fld.RET_LVL_CUR = 8 → k &&& 0xF ≠ 0 →
       Runs (.hibernateWake src) s fun c => c.ret.waking = true ∧ c.get Fld.PSY_BST_STG = 4 ∧ c.get Fld.PSY_BST_FAIL = 0 ∧
         c.get Fld.RET_LVL_CUR = 1 ∧ c.get Fld.RET_LVL_PREV = 8 ∧ c.get Fld.RET_WCAU_C = (k &&& 0xF) ∧ c.on Fld.RET_IST_WAKE = true ∧
         c.mem = s.chip.mem))) ∧
  (∀ (s : State) (m : Master), Accepts s.chip m Reg.PPD_REL 1#32 → s.chip.guardRight m = true → s.chip.padsLatched = true → s.chip.ret.waking = false →
    s.chip.fab.lco = true →
    Gives (.padRelease m) s ((((s.chip.put ⟨Reg.PPD_REL, 0, 1⟩ 1).clr Fld.RET_STA_PLAT).clr Fld.PPD_STA_LAT).wr Reg.PPD_REL 0#32).afterWrite) ∧
  (∀ s : State,
    (s.chip.pow.safeStop = true → Gives .vinReturn s { s.chip with pow := { s.chip.pow with vinReturn := true } }) ∧
    (s.chip.pow.safeStop = false → s.chip.ret.ship = true → Gives .vinReturn s (s.chip.aonStart 0)) ∧
    (s.chip.pow.safeStop = false → s.chip.ret.ship = false → s.chip.fab.aon = true → s.chip.ret.vin = false →
      Gives .vinReturn s s.chip.harvestReturn) ∧
    (s.chip.pow.safeStop = false → s.chip.ret.ship = false → s.chip.ret.vin = true → Gives .vinReturn s s.chip))

/-- Clocks and pads: the alarm at its second, and the RTC set; the crystal's loss and return, and the RC's calibration with VIN; the loss of the clock or
its reference with Last Line bit 8 and holdover, and the relock with AUTO; a frequency monitor within its limit starts again, and one of monitors 0 to
6 at its last window raises CLK_FREQ; the spread's depth is taken outside holdover; a GP pad that is read and not inverted takes its new level, and an
activity watcher that expires is shown and raised by its action (R484, R489–R501). -/
def Obligations.ClocksAndPads : Prop :=
  (∀ s : State, AOn s.chip →
    (s.chip.get Fld.RTC_SEC_S = s.chip.get Fld.RTC_ALRM_S → s.chip.get Fld.RTC_ALRM_S ≠ 0xFFFFFFFF →
      Gives .rtcAlarm s (s.chip.set Fld.RTC_IST_ALRM)) ∧
    (s.chip.get Fld.RTC_ALRM_S = 0xFFFFFFFF → Gives .rtcAlarm s s.chip) ∧
    Gives .xtal32Loss s (s.chip.clr Fld.RTC_STA_XTAL) ∧ Gives .xtal32Return s (s.chip.set Fld.RTC_STA_XTAL) ∧
    (s.chip.ret.vin = true → Gives .rcCalibration s { s.chip with ret := { s.chip.ret with rcAt := s.chip.now } }) ∧
    (s.chip.ret.vin = false → Gives .rcCalibration s s.chip)) ∧
  (∀ (s : State) (m : Master) (v : Word), Accepts s.chip m Reg.RTC_SEC v →
    Runs (.rtcSet m v) s fun c => ∃ d : Chip, OnlyRegs s.chip d [Reg.RTC_SEC, Reg.RTC_SUB, Pg.RTC + 0xC] ∧ d.get Fld.RTC_SEC_S = v.toNat ∧
      d.get Fld.RTC_SUB_T = 0 ∧ d.on Fld.RTC_STA_LOST = false ∧ c = d.rtcAlarm.afterWrite) ∧
  (∀ s : State, LOn s.chip → s.chip.on Fld.CLK_STA_HOLD = false →
    Gives (.clkLoss 1) s
      (((((((s.chip.llActive 8 true).tripLL 8).set Fld.CLK_STA_HOLD).clr Fld.CLK_STA_LOCK).set Fld.CLK_IST_UNLK).raiseP (report 0x0207 0 1)).usbDetach) ∧
    Gives (.clkLoss 0) s
      ((((((((s.chip.llActive 8 true).tripLL 8).set Fld.CLK_STA_HOLD).clr Fld.CLK_STA_LOCK).set Fld.CLK_IST_REFL).clr Fld.CLK_STA_XOK).raiseP
        (report 0x0207 0 0)).usbDetach) ∧
    (s.chip.get Fld.CLK_STA_SSD ≠ s.chip.get Fld.CLK_SSC_DEPTH →
      Gives .sscDepthChange s ((s.chip.put Fld.CLK_STA_SSD (s.chip.get Fld.CLK_SSC_DEPTH)).set Fld.CLK_IST_SSCH))) ∧
  (∀ s : State, LOn s.chip → s.chip.on Fld.CLK_STA_HOLD = true →
    (s.chip.on Fld.CLK_LKA_AUTO = true →
      Gives .pllRelock s
        (((((s.chip.clr Fld.CLK_STA_HOLD).set Fld.CLK_STA_LOCK).set Fld.CLK_STA_XOK).llActive 8 false).takeDepth).usbAttach) ∧
    Gives .sscDepthChange s s.chip) ∧
  (∀ (s : State) (n : Fin 10) (d : BitVec 16), LOn s.chip → (s.chip.on Fld.CLK_STA_HOLD = false ∨ 7 ≤ n.val) → d.toNat ≤ s.chip.fmLimit n.val →
    s.chip.get Fld.CLK_FMW_N ≠ 0 →
    Gives (.freqMonitorWindow n d) s { s.chip with ret := { s.chip.ret with fm := s.chip.ret.fm.set n.val 0 } }) ∧
  (∀ (s : State) (n : Fin 10) (d : BitVec 16), LOn s.chip → s.chip.on Fld.CLK_STA_HOLD = false → s.chip.fmLimit n.val < d.toNat → n.val < 7 →
    (s.chip.ret.fm.get n) + 1 = s.chip.get Fld.CLK_FMW_N → s.chip.ret.fm.get n < 255 →
    Gives (.freqMonitorWindow n d) s
      (({ s.chip with ret := { s.chip.ret with fm := s.chip.ret.fm.set n.val (s.chip.ret.fm.get n + 1) } }.set Fld.CLK_IST_FREQ).raise
        { report 0x0A01 n.val 0 d.toNat with cls := FC.engine })) ∧
  (∀ (s : State) (n : Fin 16) (l : Bool), LOn s.chip → s.chip.padsLatched = false → bitsOf (s.chip.get Fld.PAD_INE0_E) n.val 1 = 1 →
    s.chip.on (Fld.GPI_PCFG_INV n.val) = false →
    ((bitsOf (s.chip.get Fld.GPI_DIN_D) n.val 1 = if l then 1 else 0) → Gives (.gpEdge n l) s s.chip) ∧
    ((bitsOf (s.chip.get Fld.GPI_DIN_D) n.val 1 = if l then 0 else 1) →
      Gives (.gpEdge n l) s
        (((s.chip.put Fld.GPI_DIN_D (if l then s.chip.get Fld.GPI_DIN_D ||| 2 ^ n.val else s.chip.get Fld.GPI_DIN_D &&& (65535 - 2 ^ n.val))).restartWatchers
          n.val).routePad n.val l))) ∧
  (∀ (s : State) (w : Fin 16), LOn s.chip → s.chip.padsLatched = false → bitsOf (s.chip.get Fld.PAD_ATEN_E) w.val 1 = 1 →
    bitsOf (s.chip.get Fld.PAD_ATS_X) w.val 1 = 0 → s.chip.get (Fld.PAD_ATO_CNT w.val) ≠ 0 →
    (let d := (s.chip.put Fld.PAD_ATS_X (s.chip.get Fld.PAD_ATS_X ||| 2 ^ w.val)).set ⟨Reg.PAD_IST, 8 + w.val, 1⟩
     let a := bitsOf (s.chip.get Fld.PAD_ATACT_A) (2 * w.val) 2
     (a = 0 → Gives (.activityTimeout w) s d) ∧
     (a ≠ 0 → Gives (.activityTimeout w) s
       (d.raise { report 0x0A02 w.val (s.chip.get (Fld.PAD_ATO_PAD w.val)) with cls := if a = 2 then FC.engine else FC.warn }))))

/-! ### Faults, the interlock and debug (R504–R549) -/

/-- The fault engine and Last Line: safe-state entry past SSTO raises SAFE_TMO once; FLT.DONE with the LSEQ of a queued fault takes it out of the queue,
one of ENGINE or SAFETY class only after safe-state entry; an injected fault is raised with its action; Last Line is released while no trigger is
active, and forced by ILK.FRC (R511, R516, R517, R519, R528). The interlock's two channels: one that opens trips Last Line by its bit and, with both
closed before, raises ILK_OPEN with its mask; one alone open longer than DSC is a discrepancy, raised once; one that closes no longer holds Last Line
(R520, R521). -/
def Obligations.FaultsAndInterlock : Prop :=
  ((∀ (s : State) (t : BitVec 16), LOn s.chip → bitsOf s.chip.flt.raisedLL 10 1 = 0 →
    (s.chip.on Fld.FLT_STA_ENTRY = true → s.chip.get Fld.FLT_SSTO_US ≤ t.toNat →
      Gives (.safeTmo t) s (s.chip.raise1 (report 0x0209 0 0 t.toNat))) ∧
    (s.chip.on Fld.FLT_STA_ENTRY = false → Gives (.safeTmo t) s s.chip)) ∧
  (∀ (s : State) (m : Master) (v : Word) (e : FaultEntry), Accepts s.chip m Reg.FLT_DONE v → s.chip.flt.queue.find? (·.lseq == v.toNat) = some e →
    (FC.engine ≤ e.rep.cls → s.chip.on Fld.FLT_STA_ENTRY = true →
      Gives (.fltDone m v) s
        { s.chip with flt := { s.chip.flt with
            queue := updFirst (·.lseq == v.toNat) (fun x => { x with done := true }) s.chip.flt.queue } }.afterWrite) ∧
    (e.rep.cls < FC.engine →
      Gives (.fltDone m v) s
        ({ s.chip with flt := { s.chip.flt with queue := eraseFirst (·.lseq == v.toNat) s.chip.flt.queue } }.runQueue).afterWrite)) ∧
  (∀ (s : State) (m : Master) (v : Word), Accepts s.chip m Reg.FLT_INJ v → s.chip.classOf (bitsOf v.toNat 0 16) (bitsOf v.toNat 16 8) ≠ 0 →
    Gives (.fltInj m v) s
      (((s.chip.driverAction (bitsOf v.toNat 0 16) (bitsOf v.toNat 16 8)).raise
        { report (bitsOf v.toNat 0 16) (bitsOf v.toNat 16 8) with
          cls := s.chip.classOf (bitsOf v.toNat 0 16) (bitsOf v.toNat 16 8) }).afterWrite)) ∧
  (∀ (s : State) (m : Master), Accepts s.chip m Reg.ILK_LLR 1#32 → s.chip.guardRight m = true → s.chip.get Fld.ILK_LLA_A = 0 →
    Runs (.lastLineRelease m) s fun c => ∃ d : Chip, c = (d.releaseLL.wr Reg.ILK_LLR 0#32).afterWrite ∧ OnlyRegs s.chip d [Reg.ILK_LLR]) ∧
  (∀ (s : State) (m : Master), Accepts s.chip m Reg.ILK_FRC 1#32 → s.chip.guardRight m = true →
    Runs (.llForce m) s fun c => ∃ d : Chip, d.get ⟨Reg.ILK_FRC, 0, 1⟩ = 1 ∧ OnlyRegs s.chip d [Reg.ILK_FRC] ∧
      c = ((d.tripLL 11).raiseP (report 0x020A 0)).afterWrite)) ∧
  (∀ (s : State) (k : Fin 2), AOn s.chip →
    (s.chip.ilkClosed k.val = false → Gives (.ilkOpen k) s s.chip ∧
      (∀ t : BitVec 16, s.chip.ilkClosed (1 - k.val) = true → s.chip.get Fld.ILK_CFG_DSC < t.toNat → s.chip.flt.disc = false →
        Gives (.ilkDisc k t) s
          ((({ s.chip with flt := { s.chip.flt with disc := true } }.set Fld.ILK_STA_DLAT).set Fld.ILK_IST_DISC).raiseP
            (report 0x0202 k.val 0 t.toNat))) ∧
      (∀ t : BitVec 16, t.toNat ≤ s.chip.get Fld.ILK_CFG_DSC → Gives (.ilkDisc k t) s s.chip) ∧
      (∀ b : Bool, s.chip.ilkClosed (1 - k.val) = false →
        Runs (.ilkClose k b) s fun c => c.ilkClosed k.val = true ∧ bitsOf (c.get Fld.ILK_LLA_A) k.val 1 = 0 ∧ c.flt.bothOpen = b ∧
          c.flt.disc = false ∧ RegsKept s.chip c [Reg.ILK_IN, Reg.ILK_LLA, Pg.ILK + 0xC] ∧ c.mem = s.chip.mem)) ∧
    (s.chip.get Fld.ILK_IN_FILT = 3 →
      Gives (.ilkOpen k) s
        (let d := ((((s.chip.ilkSet k.val false).llActive k.val true).tripLL k.val).set Fld.ILK_IST_OPEN)
         { d with flt := { d.flt with bothOpen := false } }.raiseP (report 0x0201 (2 ^ k.val)))) ∧
    (s.chip.ilkClosed k.val = true → ∀ b : Bool, Gives (.ilkClose k b) s s.chip))

/-- Debug and reset: a permitted unlock and a lock again; SRST is scheduled and SYSTEM_RESET takes the device back to stage LDIE; PKCLR restarts the
peaks; a DBGACC is refused while the port is locked, and unlocked it reads and writes the L-die by its master, and its read of the P-die goes over the
bridge; EXTEST drives the four lines low in OFF and FAULT only, and TAP_RESET ends it (R531, R538, R543–R549). -/
def Obligations.DebugAndReset : Prop :=
  (∀ (s : State) (m : Master), s.chip.guardRight m = true →
    (Accepts s.chip m Reg.DBG_ULK 1#32 → s.chip.on Fld.DBG_STA_UNL = false →
      Runs (.debugUnlock m true) s fun c => ∃ d : Chip, d.on Fld.DBG_STA_UNL = true ∧ d.on Fld.DBG_IST_UNLK = true ∧ d.mem = s.chip.mem ∧
        RegsKept s.chip d [Reg.DBG_ULK, Pg.DBG + 0xC, Pg.DBG + 0x10] ∧ c = d.afterWrite) ∧
    (Accepts s.chip m Reg.DBG_ULK 0#32 → s.chip.on Fld.DBG_STA_UNL = true →
      Runs (.debugUnlock m false) s fun c => ∃ d : Chip, d.on Fld.DBG_STA_UNL = false ∧ d.on Fld.DBG_IST_UNLK = true ∧ d.mem = s.chip.mem ∧
        RegsKept s.chip d [Reg.DBG_ULK, Pg.DBG + 0xC, Pg.DBG + 0x10] ∧ c = d.afterWrite) ∧
    (Accepts s.chip m Reg.DBG_SRST 1#32 →
      Runs (.srst m) s fun c => ∃ d : Chip, d.dbg = { s.chip.dbg with srst := true } ∧ RegsKept s.chip d [Reg.DBG_SRST] ∧
        d.rd Reg.DBG_SRST = 0#32 ∧ d.mem = s.chip.mem ∧ c = d.afterWrite)) ∧
  (∀ (s : State) (m : Master), Accepts s.chip m Reg.DBG_CMD 1#32 →
    Gives (.pkclr m) s ((s.chip.put Fld.DBG_PKR_MAX 0).put Fld.DBG_PKR_MIN 0xFFFF).afterWrite) ∧
  (∀ s : State, AOn s.chip →
    (s.chip.dbg.srst = true →
      Runs .systemReset s fun c => c.fab.lco = false ∧ c.fab.aon = s.chip.fab.aon ∧ c.get Fld.PSY_BST_STG = 4 ∧ c.get Fld.PSY_BST_FAIL = 0 ∧
        c.ret.cause = 4 ∧ c.ret.req = none) ∧
    (s.chip.dbg.srst = false → s.chip.dbg.reboot = true → Gives .systemReset s (s.chip.coreReset 3)) ∧
    (s.chip.dbg.srst = false → s.chip.dbg.reboot = false → Gives .systemReset s s.chip)) ∧
  (∀ (s : State) (a : BitVec 32) (v : Word), LOn s.chip → tapPads.all s.chip.padIn = true → s.chip.dbg.accSts ≠ 1 →
    Gives (.dbgacc 0 a v) s s.chip ∧ Gives (.dbgacc 3 a v) s s.chip ∧
    (s.chip.on Fld.DBG_STA_UNL = false → ∀ o : Fin 4, o.val = 1 ∨ o.val = 2 → Gives (.dbgacc o a v) s (s.chip.dbgOutcome 3 0#32)) ∧
    (s.chip.on Fld.DBG_STA_UNL = true → (a.toNat < 0x50000000 ∨ 0x70000000 ≤ a.toNat) →
      Gives (.dbgacc 1 a v) s ((s.chip.load32 .debug a.toNat).2.dbgDone (s.chip.load32 .debug a.toNat).1.2 (s.chip.load32 .debug a.toNat).1.1) ∧
      Gives (.dbgacc 2 a v) s ((s.chip.store32 .debug a.toNat v).2.dbgDone (s.chip.store32 .debug a.toNat v).1 0#32).settle) ∧
    (s.chip.on Fld.DBG_STA_UNL = true → 0x50000000 ≤ a.toNat → a.toNat < 0x70000000 →
      Gives (.dbgacc 1 a v) s
        (let d := s.chip.dbgOutcome 1 0#32
         { d with fab := { d.fab with reads := d.fab.reads ++ [{ master := .debug, addr := a.toNat, dst := 0 }] } }))) ∧
  (∀ s : State, LOn s.chip →
    (tapPads.all s.chip.padIn = true → (s.chip.engine = Eng.off ∨ s.chip.engine = Eng.fault) →
      Runs .extest s fun c => c.dbg.extest = true ∧ c.on Fld.DBG_STA_XTST = true ∧
        (c.fab.ldEn, c.fab.hvEn, c.fab.htrEn, c.fab.mtrEn) = (false, false, false, false)) ∧
    (tapPads.all s.chip.padIn = true → s.chip.engine ≠ Eng.off → s.chip.engine ≠ Eng.fault → Gives .extest s (s.chip.set Fld.DBG_IST_XREF)) ∧
    (s.chip.dbg.extest = true →
      Runs .tapReset s fun c => c.dbg.extest = false ∧ c.on Fld.DBG_STA_XTST = false ∧ c.dbg.accSts = 0 ∧ c.dbg.accData = 0#32) ∧
    (s.chip.dbg.extest = false → Gives .tapReset s { s.chip with dbg := { s.chip.dbg with accData := 0#32, accSts := 0 } }))
end

