-- ==== Sys2Proof/Laws/State.lean ====
section
/-!
SUPPORT. State updates field by field: writing a register or a field changes the register map and nothing else, and changing any other
part of the chip leaves the register map alone.
-/
namespace Sys2Proof.Machine

/-! `wr` leaves everything but the register map as it is. -/

@[simp] theorem Chip.wr_mem (s : Chip) (a : Nat) (w : Word) : (s.wr a w).mem = s.mem := rfl
@[simp] theorem Chip.wr_free (s : Chip) (a : Nat) (w : Word) : (s.wr a w).free = s.free := rfl
@[simp] theorem Chip.wr_guards (s : Chip) (a : Nat) (w : Word) : (s.wr a w).guards = s.guards := rfl
@[simp] theorem Chip.wr_shadows (s : Chip) (a : Nat) (w : Word) : (s.wr a w).shadows = s.shadows := rfl
@[simp] theorem Chip.wr_held (s : Chip) (a : Nat) (w : Word) : (s.wr a w).held = s.held := rfl
@[simp] theorem Chip.wr_fab (s : Chip) (a : Nat) (w : Word) : (s.wr a w).fab = s.fab := rfl
@[simp] theorem Chip.wr_doc (s : Chip) (a : Nat) (w : Word) : (s.wr a w).doc = s.doc := rfl
@[simp] theorem Chip.wr_pow (s : Chip) (a : Nat) (w : Word) : (s.wr a w).pow = s.pow := rfl
@[simp] theorem Chip.wr_mer (s : Chip) (a : Nat) (w : Word) : (s.wr a w).mer = s.mer := rfl
@[simp] theorem Chip.wr_img (s : Chip) (a : Nat) (w : Word) : (s.wr a w).img = s.img := rfl
@[simp] theorem Chip.wr_mrk (s : Chip) (a : Nat) (w : Word) : (s.wr a w).mrk = s.mrk := rfl
@[simp] theorem Chip.wr_mot (s : Chip) (a : Nat) (w : Word) : (s.wr a w).mot = s.mot := rfl
@[simp] theorem Chip.wr_hel (s : Chip) (a : Nat) (w : Word) : (s.wr a w).hel = s.hel := rfl
@[simp] theorem Chip.wr_orr (s : Chip) (a : Nat) (w : Word) : (s.wr a w).orr = s.orr := rfl
@[simp] theorem Chip.wr_cst (s : Chip) (a : Nat) (w : Word) : (s.wr a w).cst = s.cst := rfl
@[simp] theorem Chip.wr_hb (s : Chip) (a : Nat) (w : Word) : (s.wr a w).hb = s.hb := rfl
@[simp] theorem Chip.wr_flt (s : Chip) (a : Nat) (w : Word) : (s.wr a w).flt = s.flt := rfl
@[simp] theorem Chip.wr_alm (s : Chip) (a : Nat) (w : Word) : (s.wr a w).alm = s.alm := rfl
@[simp] theorem Chip.wr_fst (s : Chip) (a : Nat) (w : Word) : (s.wr a w).fst = s.fst := rfl
@[simp] theorem Chip.wr_dbg (s : Chip) (a : Nat) (w : Word) : (s.wr a w).dbg = s.dbg := rfl
@[simp] theorem Chip.wr_ser (s : Chip) (a : Nat) (w : Word) : (s.wr a w).ser = s.ser := rfl
@[simp] theorem Chip.wr_ret (s : Chip) (a : Nat) (w : Word) : (s.wr a w).ret = s.ret := rfl

/-! `put` leaves everything but the register map as it is. -/

@[simp] theorem Chip.put_mem (s : Chip) (f : Field) (v : Nat) : (s.put f v).mem = s.mem := rfl
@[simp] theorem Chip.put_free (s : Chip) (f : Field) (v : Nat) : (s.put f v).free = s.free := rfl
@[simp] theorem Chip.put_guards (s : Chip) (f : Field) (v : Nat) : (s.put f v).guards = s.guards := rfl
@[simp] theorem Chip.put_shadows (s : Chip) (f : Field) (v : Nat) : (s.put f v).shadows = s.shadows := rfl
@[simp] theorem Chip.put_held (s : Chip) (f : Field) (v : Nat) : (s.put f v).held = s.held := rfl
@[simp] theorem Chip.put_fab (s : Chip) (f : Field) (v : Nat) : (s.put f v).fab = s.fab := rfl
@[simp] theorem Chip.put_doc (s : Chip) (f : Field) (v : Nat) : (s.put f v).doc = s.doc := rfl
@[simp] theorem Chip.put_pow (s : Chip) (f : Field) (v : Nat) : (s.put f v).pow = s.pow := rfl
@[simp] theorem Chip.put_mer (s : Chip) (f : Field) (v : Nat) : (s.put f v).mer = s.mer := rfl
@[simp] theorem Chip.put_img (s : Chip) (f : Field) (v : Nat) : (s.put f v).img = s.img := rfl
@[simp] theorem Chip.put_mrk (s : Chip) (f : Field) (v : Nat) : (s.put f v).mrk = s.mrk := rfl
@[simp] theorem Chip.put_mot (s : Chip) (f : Field) (v : Nat) : (s.put f v).mot = s.mot := rfl
@[simp] theorem Chip.put_hel (s : Chip) (f : Field) (v : Nat) : (s.put f v).hel = s.hel := rfl
@[simp] theorem Chip.put_orr (s : Chip) (f : Field) (v : Nat) : (s.put f v).orr = s.orr := rfl
@[simp] theorem Chip.put_cst (s : Chip) (f : Field) (v : Nat) : (s.put f v).cst = s.cst := rfl
@[simp] theorem Chip.put_hb (s : Chip) (f : Field) (v : Nat) : (s.put f v).hb = s.hb := rfl
@[simp] theorem Chip.put_flt (s : Chip) (f : Field) (v : Nat) : (s.put f v).flt = s.flt := rfl
@[simp] theorem Chip.put_alm (s : Chip) (f : Field) (v : Nat) : (s.put f v).alm = s.alm := rfl
@[simp] theorem Chip.put_fst (s : Chip) (f : Field) (v : Nat) : (s.put f v).fst = s.fst := rfl
@[simp] theorem Chip.put_dbg (s : Chip) (f : Field) (v : Nat) : (s.put f v).dbg = s.dbg := rfl
@[simp] theorem Chip.put_ser (s : Chip) (f : Field) (v : Nat) : (s.put f v).ser = s.ser := rfl
@[simp] theorem Chip.put_ret (s : Chip) (f : Field) (v : Nat) : (s.put f v).ret = s.ret := rfl

/-! `set` leaves everything but the register map as it is. -/

@[simp] theorem Chip.set_mem (s : Chip) (f : Field) : (s.set f).mem = s.mem := rfl
@[simp] theorem Chip.set_free (s : Chip) (f : Field) : (s.set f).free = s.free := rfl
@[simp] theorem Chip.set_guards (s : Chip) (f : Field) : (s.set f).guards = s.guards := rfl
@[simp] theorem Chip.set_shadows (s : Chip) (f : Field) : (s.set f).shadows = s.shadows := rfl
@[simp] theorem Chip.set_held (s : Chip) (f : Field) : (s.set f).held = s.held := rfl
@[simp] theorem Chip.set_fab (s : Chip) (f : Field) : (s.set f).fab = s.fab := rfl
@[simp] theorem Chip.set_doc (s : Chip) (f : Field) : (s.set f).doc = s.doc := rfl
@[simp] theorem Chip.set_pow (s : Chip) (f : Field) : (s.set f).pow = s.pow := rfl
@[simp] theorem Chip.set_mer (s : Chip) (f : Field) : (s.set f).mer = s.mer := rfl
@[simp] theorem Chip.set_img (s : Chip) (f : Field) : (s.set f).img = s.img := rfl
@[simp] theorem Chip.set_mrk (s : Chip) (f : Field) : (s.set f).mrk = s.mrk := rfl
@[simp] theorem Chip.set_mot (s : Chip) (f : Field) : (s.set f).mot = s.mot := rfl
@[simp] theorem Chip.set_hel (s : Chip) (f : Field) : (s.set f).hel = s.hel := rfl
@[simp] theorem Chip.set_orr (s : Chip) (f : Field) : (s.set f).orr = s.orr := rfl
@[simp] theorem Chip.set_cst (s : Chip) (f : Field) : (s.set f).cst = s.cst := rfl
@[simp] theorem Chip.set_hb (s : Chip) (f : Field) : (s.set f).hb = s.hb := rfl
@[simp] theorem Chip.set_flt (s : Chip) (f : Field) : (s.set f).flt = s.flt := rfl
@[simp] theorem Chip.set_alm (s : Chip) (f : Field) : (s.set f).alm = s.alm := rfl
@[simp] theorem Chip.set_fst (s : Chip) (f : Field) : (s.set f).fst = s.fst := rfl
@[simp] theorem Chip.set_dbg (s : Chip) (f : Field) : (s.set f).dbg = s.dbg := rfl
@[simp] theorem Chip.set_ser (s : Chip) (f : Field) : (s.set f).ser = s.ser := rfl
@[simp] theorem Chip.set_ret (s : Chip) (f : Field) : (s.set f).ret = s.ret := rfl

/-! `clr` leaves everything but the register map as it is. -/

@[simp] theorem Chip.clr_mem (s : Chip) (f : Field) : (s.clr f).mem = s.mem := rfl
@[simp] theorem Chip.clr_free (s : Chip) (f : Field) : (s.clr f).free = s.free := rfl
@[simp] theorem Chip.clr_guards (s : Chip) (f : Field) : (s.clr f).guards = s.guards := rfl
@[simp] theorem Chip.clr_shadows (s : Chip) (f : Field) : (s.clr f).shadows = s.shadows := rfl
@[simp] theorem Chip.clr_held (s : Chip) (f : Field) : (s.clr f).held = s.held := rfl
@[simp] theorem Chip.clr_fab (s : Chip) (f : Field) : (s.clr f).fab = s.fab := rfl
@[simp] theorem Chip.clr_doc (s : Chip) (f : Field) : (s.clr f).doc = s.doc := rfl
@[simp] theorem Chip.clr_pow (s : Chip) (f : Field) : (s.clr f).pow = s.pow := rfl
@[simp] theorem Chip.clr_mer (s : Chip) (f : Field) : (s.clr f).mer = s.mer := rfl
@[simp] theorem Chip.clr_img (s : Chip) (f : Field) : (s.clr f).img = s.img := rfl
@[simp] theorem Chip.clr_mrk (s : Chip) (f : Field) : (s.clr f).mrk = s.mrk := rfl
@[simp] theorem Chip.clr_mot (s : Chip) (f : Field) : (s.clr f).mot = s.mot := rfl
@[simp] theorem Chip.clr_hel (s : Chip) (f : Field) : (s.clr f).hel = s.hel := rfl
@[simp] theorem Chip.clr_orr (s : Chip) (f : Field) : (s.clr f).orr = s.orr := rfl
@[simp] theorem Chip.clr_cst (s : Chip) (f : Field) : (s.clr f).cst = s.cst := rfl
@[simp] theorem Chip.clr_hb (s : Chip) (f : Field) : (s.clr f).hb = s.hb := rfl
@[simp] theorem Chip.clr_flt (s : Chip) (f : Field) : (s.clr f).flt = s.flt := rfl
@[simp] theorem Chip.clr_alm (s : Chip) (f : Field) : (s.clr f).alm = s.alm := rfl
@[simp] theorem Chip.clr_fst (s : Chip) (f : Field) : (s.clr f).fst = s.fst := rfl
@[simp] theorem Chip.clr_dbg (s : Chip) (f : Field) : (s.clr f).dbg = s.dbg := rfl
@[simp] theorem Chip.clr_ser (s : Chip) (f : Field) : (s.clr f).ser = s.ser := rfl
@[simp] theorem Chip.clr_ret (s : Chip) (f : Field) : (s.clr f).ret = s.ret := rfl

/-! `putB` leaves everything but the register map as it is. -/

@[simp] theorem Chip.putB_mem (s : Chip) (f : Field) (b : Bool) : (s.putB f b).mem = s.mem := rfl
@[simp] theorem Chip.putB_free (s : Chip) (f : Field) (b : Bool) : (s.putB f b).free = s.free := rfl
@[simp] theorem Chip.putB_guards (s : Chip) (f : Field) (b : Bool) : (s.putB f b).guards = s.guards := rfl
@[simp] theorem Chip.putB_shadows (s : Chip) (f : Field) (b : Bool) : (s.putB f b).shadows = s.shadows := rfl
@[simp] theorem Chip.putB_held (s : Chip) (f : Field) (b : Bool) : (s.putB f b).held = s.held := rfl
@[simp] theorem Chip.putB_fab (s : Chip) (f : Field) (b : Bool) : (s.putB f b).fab = s.fab := rfl
@[simp] theorem Chip.putB_doc (s : Chip) (f : Field) (b : Bool) : (s.putB f b).doc = s.doc := rfl
@[simp] theorem Chip.putB_pow (s : Chip) (f : Field) (b : Bool) : (s.putB f b).pow = s.pow := rfl
@[simp] theorem Chip.putB_mer (s : Chip) (f : Field) (b : Bool) : (s.putB f b).mer = s.mer := rfl
@[simp] theorem Chip.putB_img (s : Chip) (f : Field) (b : Bool) : (s.putB f b).img = s.img := rfl
@[simp] theorem Chip.putB_mrk (s : Chip) (f : Field) (b : Bool) : (s.putB f b).mrk = s.mrk := rfl
@[simp] theorem Chip.putB_mot (s : Chip) (f : Field) (b : Bool) : (s.putB f b).mot = s.mot := rfl
@[simp] theorem Chip.putB_hel (s : Chip) (f : Field) (b : Bool) : (s.putB f b).hel = s.hel := rfl
@[simp] theorem Chip.putB_orr (s : Chip) (f : Field) (b : Bool) : (s.putB f b).orr = s.orr := rfl
@[simp] theorem Chip.putB_cst (s : Chip) (f : Field) (b : Bool) : (s.putB f b).cst = s.cst := rfl
@[simp] theorem Chip.putB_hb (s : Chip) (f : Field) (b : Bool) : (s.putB f b).hb = s.hb := rfl
@[simp] theorem Chip.putB_flt (s : Chip) (f : Field) (b : Bool) : (s.putB f b).flt = s.flt := rfl
@[simp] theorem Chip.putB_alm (s : Chip) (f : Field) (b : Bool) : (s.putB f b).alm = s.alm := rfl
@[simp] theorem Chip.putB_fst (s : Chip) (f : Field) (b : Bool) : (s.putB f b).fst = s.fst := rfl
@[simp] theorem Chip.putB_dbg (s : Chip) (f : Field) (b : Bool) : (s.putB f b).dbg = s.dbg := rfl
@[simp] theorem Chip.putB_ser (s : Chip) (f : Field) (b : Bool) : (s.putB f b).ser = s.ser := rfl
@[simp] theorem Chip.putB_ret (s : Chip) (f : Field) (b : Bool) : (s.putB f b).ret = s.ret := rfl

/-! `putS` leaves everything but the register map as it is. -/

@[simp] theorem Chip.putS_mem (s : Chip) (f : Field) (x : Int) : (s.putS f x).mem = s.mem := rfl
@[simp] theorem Chip.putS_free (s : Chip) (f : Field) (x : Int) : (s.putS f x).free = s.free := rfl
@[simp] theorem Chip.putS_guards (s : Chip) (f : Field) (x : Int) : (s.putS f x).guards = s.guards := rfl
@[simp] theorem Chip.putS_shadows (s : Chip) (f : Field) (x : Int) : (s.putS f x).shadows = s.shadows := rfl
@[simp] theorem Chip.putS_held (s : Chip) (f : Field) (x : Int) : (s.putS f x).held = s.held := rfl
@[simp] theorem Chip.putS_fab (s : Chip) (f : Field) (x : Int) : (s.putS f x).fab = s.fab := rfl
@[simp] theorem Chip.putS_doc (s : Chip) (f : Field) (x : Int) : (s.putS f x).doc = s.doc := rfl
@[simp] theorem Chip.putS_pow (s : Chip) (f : Field) (x : Int) : (s.putS f x).pow = s.pow := rfl
@[simp] theorem Chip.putS_mer (s : Chip) (f : Field) (x : Int) : (s.putS f x).mer = s.mer := rfl
@[simp] theorem Chip.putS_img (s : Chip) (f : Field) (x : Int) : (s.putS f x).img = s.img := rfl
@[simp] theorem Chip.putS_mrk (s : Chip) (f : Field) (x : Int) : (s.putS f x).mrk = s.mrk := rfl
@[simp] theorem Chip.putS_mot (s : Chip) (f : Field) (x : Int) : (s.putS f x).mot = s.mot := rfl
@[simp] theorem Chip.putS_hel (s : Chip) (f : Field) (x : Int) : (s.putS f x).hel = s.hel := rfl
@[simp] theorem Chip.putS_orr (s : Chip) (f : Field) (x : Int) : (s.putS f x).orr = s.orr := rfl
@[simp] theorem Chip.putS_cst (s : Chip) (f : Field) (x : Int) : (s.putS f x).cst = s.cst := rfl
@[simp] theorem Chip.putS_hb (s : Chip) (f : Field) (x : Int) : (s.putS f x).hb = s.hb := rfl
@[simp] theorem Chip.putS_flt (s : Chip) (f : Field) (x : Int) : (s.putS f x).flt = s.flt := rfl
@[simp] theorem Chip.putS_alm (s : Chip) (f : Field) (x : Int) : (s.putS f x).alm = s.alm := rfl
@[simp] theorem Chip.putS_fst (s : Chip) (f : Field) (x : Int) : (s.putS f x).fst = s.fst := rfl
@[simp] theorem Chip.putS_dbg (s : Chip) (f : Field) (x : Int) : (s.putS f x).dbg = s.dbg := rfl
@[simp] theorem Chip.putS_ser (s : Chip) (f : Field) (x : Int) : (s.putS f x).ser = s.ser := rfl
@[simp] theorem Chip.putS_ret (s : Chip) (f : Field) (x : Int) : (s.putS f x).ret = s.ret := rfl

/-! `bump` leaves everything but the register map as it is. -/

@[simp] theorem Chip.bump_mem (s : Chip) (f : Field) : (s.bump f).mem = s.mem := rfl
@[simp] theorem Chip.bump_free (s : Chip) (f : Field) : (s.bump f).free = s.free := rfl
@[simp] theorem Chip.bump_guards (s : Chip) (f : Field) : (s.bump f).guards = s.guards := rfl
@[simp] theorem Chip.bump_shadows (s : Chip) (f : Field) : (s.bump f).shadows = s.shadows := rfl
@[simp] theorem Chip.bump_held (s : Chip) (f : Field) : (s.bump f).held = s.held := rfl
@[simp] theorem Chip.bump_fab (s : Chip) (f : Field) : (s.bump f).fab = s.fab := rfl
@[simp] theorem Chip.bump_doc (s : Chip) (f : Field) : (s.bump f).doc = s.doc := rfl
@[simp] theorem Chip.bump_pow (s : Chip) (f : Field) : (s.bump f).pow = s.pow := rfl
@[simp] theorem Chip.bump_mer (s : Chip) (f : Field) : (s.bump f).mer = s.mer := rfl
@[simp] theorem Chip.bump_img (s : Chip) (f : Field) : (s.bump f).img = s.img := rfl
@[simp] theorem Chip.bump_mrk (s : Chip) (f : Field) : (s.bump f).mrk = s.mrk := rfl
@[simp] theorem Chip.bump_mot (s : Chip) (f : Field) : (s.bump f).mot = s.mot := rfl
@[simp] theorem Chip.bump_hel (s : Chip) (f : Field) : (s.bump f).hel = s.hel := rfl
@[simp] theorem Chip.bump_orr (s : Chip) (f : Field) : (s.bump f).orr = s.orr := rfl
@[simp] theorem Chip.bump_cst (s : Chip) (f : Field) : (s.bump f).cst = s.cst := rfl
@[simp] theorem Chip.bump_hb (s : Chip) (f : Field) : (s.bump f).hb = s.hb := rfl
@[simp] theorem Chip.bump_flt (s : Chip) (f : Field) : (s.bump f).flt = s.flt := rfl
@[simp] theorem Chip.bump_alm (s : Chip) (f : Field) : (s.bump f).alm = s.alm := rfl
@[simp] theorem Chip.bump_fst (s : Chip) (f : Field) : (s.bump f).fst = s.fst := rfl
@[simp] theorem Chip.bump_dbg (s : Chip) (f : Field) : (s.bump f).dbg = s.dbg := rfl
@[simp] theorem Chip.bump_ser (s : Chip) (f : Field) : (s.bump f).ser = s.ser := rfl
@[simp] theorem Chip.bump_ret (s : Chip) (f : Field) : (s.bump f).ret = s.ret := rfl

/-! `inc` leaves everything but the register map as it is. -/

@[simp] theorem Chip.inc_mem (s : Chip) (f : Field) : (s.inc f).mem = s.mem := rfl
@[simp] theorem Chip.inc_free (s : Chip) (f : Field) : (s.inc f).free = s.free := rfl
@[simp] theorem Chip.inc_guards (s : Chip) (f : Field) : (s.inc f).guards = s.guards := rfl
@[simp] theorem Chip.inc_shadows (s : Chip) (f : Field) : (s.inc f).shadows = s.shadows := rfl
@[simp] theorem Chip.inc_held (s : Chip) (f : Field) : (s.inc f).held = s.held := rfl
@[simp] theorem Chip.inc_fab (s : Chip) (f : Field) : (s.inc f).fab = s.fab := rfl
@[simp] theorem Chip.inc_doc (s : Chip) (f : Field) : (s.inc f).doc = s.doc := rfl
@[simp] theorem Chip.inc_pow (s : Chip) (f : Field) : (s.inc f).pow = s.pow := rfl
@[simp] theorem Chip.inc_mer (s : Chip) (f : Field) : (s.inc f).mer = s.mer := rfl
@[simp] theorem Chip.inc_img (s : Chip) (f : Field) : (s.inc f).img = s.img := rfl
@[simp] theorem Chip.inc_mrk (s : Chip) (f : Field) : (s.inc f).mrk = s.mrk := rfl
@[simp] theorem Chip.inc_mot (s : Chip) (f : Field) : (s.inc f).mot = s.mot := rfl
@[simp] theorem Chip.inc_hel (s : Chip) (f : Field) : (s.inc f).hel = s.hel := rfl
@[simp] theorem Chip.inc_orr (s : Chip) (f : Field) : (s.inc f).orr = s.orr := rfl
@[simp] theorem Chip.inc_cst (s : Chip) (f : Field) : (s.inc f).cst = s.cst := rfl
@[simp] theorem Chip.inc_hb (s : Chip) (f : Field) : (s.inc f).hb = s.hb := rfl
@[simp] theorem Chip.inc_flt (s : Chip) (f : Field) : (s.inc f).flt = s.flt := rfl
@[simp] theorem Chip.inc_alm (s : Chip) (f : Field) : (s.inc f).alm = s.alm := rfl
@[simp] theorem Chip.inc_fst (s : Chip) (f : Field) : (s.inc f).fst = s.fst := rfl
@[simp] theorem Chip.inc_dbg (s : Chip) (f : Field) : (s.inc f).dbg = s.dbg := rfl
@[simp] theorem Chip.inc_ser (s : Chip) (f : Field) : (s.inc f).ser = s.ser := rfl
@[simp] theorem Chip.inc_ret (s : Chip) (f : Field) : (s.inc f).ret = s.ret := rfl

end Sys2Proof.Machine
end

