-- ==== Sys2Proof/Laws/Memory.lean ====
section
/-!
SUPPORT. Memory: a byte reads what was last written to it, a write leaves every other byte as it was, and every memory operation keeps the
canonical form.
-/
namespace Sys2Proof.Machine

/-! ### Read after write -/

theorem memFind_insert (m : List Host.Cell) (a c : Nat) (b : Byte) :
    memFind (memInsert m a b) c = if c = a then b else memFind m c := by
  induction m with
  | nil => simp [memInsert, memFind, eq_comm]
  | cons x r ih =>
    obtain ⟨k, v⟩ := x
    unfold memInsert
    split
    · by_cases e : c = a
      · simp [memFind, e]
      · simp [memFind, e, Ne.symm e]
    · split
      · rename_i h; subst h
        by_cases e : c = k
        · simp [memFind, e]
        · simp [memFind, e, Ne.symm e]
      · by_cases e : c = a
        · subst e; rename_i h; simp [memFind, h, ih]
        · simp [memFind, ih, e]

theorem memFind_filter (m : List Host.Cell) (p : Nat → Bool) (c : Nat) :
    memFind (m.filter fun x => p x.1) c = if p c then memFind m c else 0#8 := by
  induction m with
  | nil => simp [memFind]
  | cons x r ih =>
    obtain ⟨k, v⟩ := x
    by_cases h : p k
    · by_cases e : k = c
      · subst e; simp [h, memFind]
      · simp [h, memFind, e, ih]
    · by_cases e : k = c
      · subst e; simp [h, ih]
      · simp [h, memFind, e, ih]

/-- A byte reads what was last written to it; every other one stays. -/
theorem memFind_write (m : List Host.Cell) (a c : Nat) (b : Byte) :
    memFind (memWrite m a b) c = if c = a then b else memFind m c := by
  unfold memWrite
  split
  · rename_i h
    have := memFind_filter m (fun k => k != a) c
    unfold memErase
    rw [this]
    by_cases e : c = a <;> simp [e, h]
  · exact memFind_insert m a c b

/-- Writing a run of bytes: inside it each byte reads its own, outside it nothing changes. -/
theorem memFind_writes (bs : List Byte) : ∀ (m : List Host.Cell) (a c : Nat),
    memFind (memWrites m a bs) c = if a ≤ c ∧ c < a + bs.length then (bs[c - a]?).getD 0#8 else memFind m c := by
  induction bs with
  | nil => intro m a c; rw [memWrites, if_neg]; simp only [List.length_nil]; omega
  | cons b bs ih =>
    intro m a c
    rw [memWrites, ih, memFind_write]
    by_cases h : c = a
    · subst h; rw [if_neg (by omega), if_pos rfl, if_pos ⟨Nat.le_refl _, by rw [List.length_cons]; omega⟩]; simp
    · by_cases h1 : a + 1 ≤ c ∧ c < a + 1 + bs.length
      · have h2 : a ≤ c ∧ c < a + (b :: bs).length := by simp; omega
        obtain ⟨k, hk⟩ : ∃ k, c - a = k + 1 := ⟨c - a - 1, by omega⟩
        have hk' : c - (a + 1) = k := by omega
        simp only [h1, h2, and_self, if_true, hk, hk', List.getElem?_cons_succ]
      · have h2 : ¬ (a ≤ c ∧ c < a + (b :: bs).length) := by simp; omega
        simp only [h1, h2, if_false, h]

/-- Forgetting a range: it reads 0, the rest stays. -/
theorem memFind_clear (m : List Host.Cell) (lo hi c : Nat) :
    memFind (memClear m lo hi) c = if lo ≤ c ∧ c < hi then 0#8 else memFind m c := by
  have := memFind_filter m (fun k => k < lo || hi ≤ k) c
  unfold memClear
  rw [this]
  by_cases h : lo ≤ c ∧ c < hi
  · have : ¬ (c < lo ∨ hi ≤ c) := by omega
    simp [h, this]
  · have : c < lo ∨ hi ≤ c := by omega
    simp [h, this]

/-! ### The canonical form -/

theorem memWfFrom_mono {m : List Host.Cell} {lo lo' : Nat} (h : lo' ≤ lo) (hw : memWfFrom lo m = true) : memWfFrom lo' m = true := by
  cases m with
  | nil => rfl
  | cons x r =>
    obtain ⟨k, b⟩ := x
    simp only [memWfFrom, Bool.and_eq_true, decide_eq_true_eq] at hw ⊢
    exact ⟨⟨by omega, hw.1.2⟩, hw.2⟩

theorem memWfFrom_filter (p : Host.Cell → Bool) : ∀ (m : List Host.Cell) (lo : Nat), memWfFrom lo m = true → memWfFrom lo (m.filter p) = true := by
  intro m
  induction m with
  | nil => intro lo _; rfl
  | cons x r ih =>
    obtain ⟨k, b⟩ := x
    intro lo h
    simp only [memWfFrom, Bool.and_eq_true, decide_eq_true_eq] at h
    have hr := ih _ h.2
    by_cases e : p (k, b)
    · simp only [List.filter, e, memWfFrom, Bool.and_eq_true, decide_eq_true_eq]
      exact ⟨h.1, hr⟩
    · simp only [List.filter, e]
      exact memWfFrom_mono (by omega) hr

theorem memWfFrom_insert (a : Nat) (b : Byte) (hb : b ≠ 0#8) : ∀ (m : List Host.Cell) (lo : Nat), lo ≤ a → memWfFrom lo m = true →
    memWfFrom lo (memInsert m a b) = true := by
  intro m
  induction m with
  | nil => intro lo h _; simp [memInsert, memWfFrom, h, hb]
  | cons x r ih =>
    obtain ⟨k, c⟩ := x
    intro lo hl h
    simp only [memWfFrom, Bool.and_eq_true, decide_eq_true_eq] at h
    unfold memInsert
    split
    · rename_i hk
      simp only [memWfFrom, Bool.and_eq_true, decide_eq_true_eq]
      exact ⟨⟨hl, by simpa using hb⟩, ⟨by omega, h.1.2⟩, h.2⟩
    · split
      · rename_i e; subst e
        simp only [memWfFrom, Bool.and_eq_true, decide_eq_true_eq]
        exact ⟨⟨hl, by simpa using hb⟩, h.2⟩
      · simp only [memWfFrom, Bool.and_eq_true, decide_eq_true_eq]
        exact ⟨h.1, ih _ (by omega) h.2⟩

theorem memWrite_wf {m : List Host.Cell} (h : Memory.wf m = true) (a : Nat) (b : Byte) : Memory.wf (memWrite m a b) = true := by
  unfold memWrite
  split
  · exact memWfFrom_filter _ _ _ h
  · rename_i hb; exact memWfFrom_insert a b hb m 0 (Nat.zero_le _) h

theorem memWrites_wf (bs : List Byte) : ∀ {m : List Host.Cell}, Memory.wf m = true → ∀ a : Nat, Memory.wf (memWrites m a bs) = true := by
  induction bs with
  | nil => intro m h a; exact h
  | cons b bs ih => intro m h a; exact ih (memWrite_wf h a b) (a + 1)

theorem memClear_wf {m : List Host.Cell} (h : Memory.wf m = true) (lo hi : Nat) : Memory.wf (memClear m lo hi) = true :=
  memWfFrom_filter _ _ _ h

/-- Writing cells one by one to places that a function names keeps the form. -/
theorem foldl_setByte_wf (f : Host.Cell → Nat) : ∀ (cs : List Host.Cell) {s : Chip}, Memory.wf s.mem = true →
    Memory.wf (cs.foldl (fun t c => t.setByte (f c) c.2) s).mem = true := by
  intro cs
  induction cs with
  | nil => intro s h; exact h
  | cons c cs ih => intro s h; exact ih (s := s.setByte (f c) c.2) (memWrite_wf h _ _)

theorem Chip.setByte_wf {s : Chip} (h : Memory.wf s.mem = true) (a : Nat) (b : Byte) : Memory.wf (s.setByte a b).mem = true :=
  memWrite_wf h a b

theorem Chip.setBytes_wf {s : Chip} (h : Memory.wf s.mem = true) (a : Nat) (bs : List Byte) : Memory.wf (s.setBytes a bs).mem = true :=
  memWrites_wf bs h a

theorem Chip.setWord_wf {s : Chip} (h : Memory.wf s.mem = true) (a : Nat) (w : Word) : Memory.wf (s.setWord a w).mem = true :=
  Chip.setBytes_wf h a _

theorem Chip.clearMem_wf {s : Chip} (h : Memory.wf s.mem = true) (lo hi : Nat) : Memory.wf (s.clearMem lo hi).mem = true :=
  memClear_wf h lo hi

theorem Chip.swapRanges_wf {s : Chip} (h : Memory.wf s.mem = true) (a b n : Nat) : Memory.wf (s.swapRanges a b n).mem = true := by
  unfold Chip.swapRanges
  exact foldl_setByte_wf (fun c => c.1 - b + a) _ (foldl_setByte_wf (fun c => c.1 - a + b) _ (memWfFrom_filter _ _ _ h))

theorem Chip.copyRange_wf {s : Chip} (h : Memory.wf s.mem = true) (a b n : Nat) : Memory.wf (s.copyRange a b n).mem = true := by
  unfold Chip.copyRange
  exact foldl_setByte_wf (fun c => c.1 - a + b) _ (Chip.clearMem_wf h _ _)

/-! ### The chip's memory operations change nothing but memory -/

@[simp] theorem Chip.setByte_regs (s : Chip) (a : Nat) (b : Byte) : (s.setByte a b).regs = s.regs := rfl
@[simp] theorem Chip.setBytes_regs (s : Chip) (a : Nat) (bs : List Byte) : (s.setBytes a bs).regs = s.regs := rfl
@[simp] theorem Chip.setBytes_fab (s : Chip) (a : Nat) (bs : List Byte) : (s.setBytes a bs).fab = s.fab := rfl
@[simp] theorem Chip.setWord_regs (s : Chip) (a : Nat) (w : Word) : (s.setWord a w).regs = s.regs := rfl
@[simp] theorem Chip.clearMem_regs (s : Chip) (lo hi : Nat) : (s.clearMem lo hi).regs = s.regs := rfl

end Sys2Proof.Machine
end

