-- ==== Sys2Proof/Laws/Regs.lean ====
section
/-!
SUPPORT. The register map: what is read after a write. Every law is stated on the map alone, and reads and writes of the chip are brought to
the map, so that a chain of field updates is read off without unfolding a state.
-/
namespace Sys2Proof.Machine

/-- A register map, as `Chip.regs` holds it. -/
abbrev RegMap := List (Nat × Word)

/-- The word that a map gives an address. -/
def RegMap.rd (r : RegMap) (a : Nat) : Word := (regFind r a).getD (resetWord a)

/-- The map with a word given to an address. -/
def RegMap.wr (r : RegMap) (a : Nat) (w : Word) : RegMap :=
  if w = resetWord a then regErase r a else regInsert r a w

/-- The value that a map gives a field. -/
def RegMap.get (r : RegMap) (f : Field) : Nat := bitsOf (r.rd f.addr).toNat f.lo f.w

/-- The map with a value given to a field. -/
def RegMap.put (r : RegMap) (f : Field) (v : Nat) : RegMap := r.wr f.addr (setField (r.rd f.addr) f.lo f.w v)

/-! Reads and writes of the chip, on its map. -/

theorem Chip.rd_map (s : Chip) (a : Nat) : s.rd a = RegMap.rd s.regs a := rfl
theorem Chip.get_map (s : Chip) (f : Field) : s.get f = RegMap.get s.regs f := rfl
theorem Chip.on_map (s : Chip) (f : Field) : s.on f = (RegMap.get s.regs f != 0) := rfl
theorem Chip.getS_map (s : Chip) (f : Field) : s.getS f = signedOf (RegMap.get s.regs f) f.w := rfl
@[simp] theorem Chip.wr_map (s : Chip) (a : Nat) (w : Word) : (s.wr a w).regs = RegMap.wr s.regs a w := rfl
@[simp] theorem Chip.put_map (s : Chip) (f : Field) (v : Nat) : (s.put f v).regs = RegMap.put s.regs f v := rfl
@[simp] theorem Chip.set_map (s : Chip) (f : Field) : (s.set f).regs = RegMap.put s.regs f 1 := rfl
@[simp] theorem Chip.clr_map (s : Chip) (f : Field) : (s.clr f).regs = RegMap.put s.regs f 0 := rfl
@[simp] theorem Chip.putB_map (s : Chip) (f : Field) (b : Bool) :
    (s.putB f b).regs = RegMap.put s.regs f (if b then 1 else 0) := rfl
@[simp] theorem Chip.putS_map (s : Chip) (f : Field) (x : Int) : (s.putS f x).regs = RegMap.put s.regs f (codeOf x f.w) := rfl
@[simp] theorem Chip.bump_map (s : Chip) (f : Field) :
    (s.bump f).regs = RegMap.put s.regs f (satInc (RegMap.get s.regs f) f.w) := rfl
@[simp] theorem Chip.inc_map (s : Chip) (f : Field) : (s.inc f).regs = RegMap.put s.regs f (RegMap.get s.regs f + 1) := rfl

/-! Finding an entry after a change of the list. -/

theorem regFind_insert_same (r : RegMap) (a : Nat) (w : Word) : regFind (regInsert r a w) a = some w := by
  induction r with
  | nil => simp [regInsert, regFind]
  | cons c r ih =>
    obtain ⟨k, v⟩ := c
    unfold regInsert
    split
    · simp [regFind]
    · split
      · simp [regFind]
      · rename_i h; simp [regFind, h, ih]

theorem regFind_insert_other (r : RegMap) {a b : Nat} (w : Word) (h : b ≠ a) : regFind (regInsert r a w) b = regFind r b := by
  induction r with
  | nil => simp [regInsert, regFind, Ne.symm h]
  | cons c r ih =>
    obtain ⟨k, v⟩ := c
    unfold regInsert
    split
    · simp [regFind, Ne.symm h]
    · split
      · rename_i e; subst e; simp [regFind, Ne.symm h]
      · simp [regFind, ih]

theorem regFind_erase_same (r : RegMap) (a : Nat) : regFind (regErase r a) a = none := by
  induction r with
  | nil => rfl
  | cons c r ih =>
    obtain ⟨k, v⟩ := c
    by_cases e : k = a
    · subst e; simpa [regErase] using ih
    · have : regErase ((k, v) :: r) a = (k, v) :: regErase r a := by simp [regErase, e]
      rw [this]; simp [regFind, e, ih]

theorem regFind_erase_other (r : RegMap) {a b : Nat} (h : b ≠ a) : regFind (regErase r a) b = regFind r b := by
  induction r with
  | nil => rfl
  | cons c r ih =>
    obtain ⟨k, v⟩ := c
    by_cases e : k = a
    · subst e; simpa [regErase, regFind, Ne.symm h] using ih
    · have : regErase ((k, v) :: r) a = (k, v) :: regErase r a := by simp [regErase, e]
      rw [this]; simp [regFind, ih]

/-- A register reads what was last written to it. -/
@[simp] theorem RegMap.rd_wr_same (r : RegMap) (a : Nat) (w : Word) : RegMap.rd (RegMap.wr r a w) a = w := by
  unfold RegMap.rd RegMap.wr
  split
  · rename_i h; rw [regFind_erase_same]; simp [h]
  · rw [regFind_insert_same]; rfl

/-- A write of one register leaves every other one as it was. -/
@[simp] theorem RegMap.rd_wr_other (r : RegMap) {a b : Nat} (w : Word) (h : b ≠ a) : RegMap.rd (RegMap.wr r a w) b = RegMap.rd r b := by
  unfold RegMap.rd RegMap.wr
  split
  · rw [regFind_erase_other r h]
  · rw [regFind_insert_other r w h]

theorem RegMap.rd_put_same (r : RegMap) (f : Field) (v : Nat) :
    RegMap.rd (RegMap.put r f v) f.addr = setField (RegMap.rd r f.addr) f.lo f.w v := by simp [RegMap.put]

@[simp] theorem RegMap.rd_put_other (r : RegMap) (f : Field) (v : Nat) {b : Nat} (h : b ≠ f.addr) :
    RegMap.rd (RegMap.put r f v) b = RegMap.rd r b := by simp [RegMap.put, h]

/-! Bits of a word after a field has been given a value. -/

theorem setField_getLsb (w : Word) (lo n v i : Nat) (hw : lo + n ≤ 32) :
    (setField w lo n v).getLsbD i = if lo ≤ i ∧ i < lo + n then v.testBit (i - lo) else w.getLsbD i := by
  by_cases hi : i < 32
  · have h1 : i - lo < 32 := by omega
    simp only [setField, BitVec.getLsbD_or, BitVec.getLsbD_and, BitVec.getLsbD_not, BitVec.getLsbD_shiftLeft, BitVec.getLsbD_ofNat,
      Nat.testBit_two_pow_sub_one, Nat.testBit_mod_two_pow, hi, decide_true, Bool.true_and]
    by_cases a1 : i < lo
    · have : ¬ (lo ≤ i ∧ i < lo + n) := by omega
      simp [this, a1]
    · by_cases a2 : i - lo < n
      · have : lo ≤ i ∧ i < lo + n := by omega
        simp [this, a1, a2, h1]
      · have : ¬ (lo ≤ i ∧ i < lo + n) := by omega
        simp [this, a1, a2]
  · have : ¬ (lo ≤ i ∧ i < lo + n) := by omega
    simp [this, BitVec.getLsbD_of_ge _ _ (by omega : 32 ≤ i)]

theorem bitsOf_testBit (n lo w i : Nat) : (bitsOf n lo w).testBit i = (decide (i < w) && n.testBit (lo + i)) := by
  simp [bitsOf, Nat.testBit_mod_two_pow, ← Nat.shiftRight_eq_div_pow, Nat.testBit_shiftRight]

theorem bitsOf_setField_same (w : Word) (lo n v : Nat) (h : lo + n ≤ 32) : bitsOf (setField w lo n v).toNat lo n = v % 2 ^ n := by
  apply Nat.eq_of_testBit_eq
  intro i
  rw [bitsOf_testBit, Nat.testBit_mod_two_pow, BitVec.testBit_toNat, setField_getLsb _ _ _ _ _ h]
  by_cases hi : i < n
  · simp [hi]
  · simp [hi]

theorem bitsOf_setField_apart (w : Word) (lo n lo' n' v : Nat) (h : lo + n ≤ 32) (ha : lo' + n' ≤ lo ∨ lo + n ≤ lo') :
    bitsOf (setField w lo n v).toNat lo' n' = bitsOf w.toNat lo' n' := by
  apply Nat.eq_of_testBit_eq
  intro i
  rw [bitsOf_testBit, bitsOf_testBit, BitVec.testBit_toNat, BitVec.testBit_toNat, setField_getLsb _ _ _ _ _ h]
  by_cases hi : i < n'
  · have : ¬ (lo ≤ lo' + i ∧ lo' + i < lo + n) := by omega
    simp [this]
  · simp [hi]

/-- Two fields that share no bit. -/
def Field.apart (f g : Field) : Bool :=
  f.addr != g.addr || decide (f.lo + f.w ≤ g.lo) || decide (g.lo + g.w ≤ f.lo)

/-- A field within its word. -/
def Field.fits (f : Field) : Bool := decide (f.lo + f.w ≤ 32)

/-- A field reads what was last put into it, as far as it is wide. -/
@[simp] theorem RegMap.get_put_same (r : RegMap) (f : Field) (v : Nat) (h : f.fits = true) :
    RegMap.get (RegMap.put r f v) f = v % 2 ^ f.w := by
  have h' : f.lo + f.w ≤ 32 := by simpa [Field.fits] using h
  simp only [RegMap.get, RegMap.put, RegMap.rd_wr_same]
  exact bitsOf_setField_same _ _ _ _ h'

/-- Putting a value into a field leaves a field that shares no bit with it as it was. -/
@[simp] theorem RegMap.get_put_apart (r : RegMap) (f g : Field) (v : Nat) (hf : f.fits = true) (h : f.apart g = true) :
    RegMap.get (RegMap.put r f v) g = RegMap.get r g := by
  have h' : f.lo + f.w ≤ 32 := by simpa [Field.fits] using hf
  simp only [RegMap.get, RegMap.put]
  by_cases e : g.addr = f.addr
  · rw [e, RegMap.rd_wr_same]
    refine bitsOf_setField_apart _ _ _ _ _ _ h' ?_
    simp [Field.apart, e] at h
    omega
  · rw [RegMap.rd_wr_other _ _ e]

/-- Writing a register leaves a field of another one as it was. -/
@[simp] theorem RegMap.get_wr_other (r : RegMap) (a : Nat) (w : Word) (g : Field) (h : (g.addr != a) = true) :
    RegMap.get (RegMap.wr r a w) g = RegMap.get r g := by
  have h' : g.addr ≠ a := by simpa using h
  simp only [RegMap.get, RegMap.rd_wr_other _ _ h']

/-- A field is less than two to its width. -/
theorem RegMap.get_lt (r : RegMap) (f : Field) : RegMap.get r f < 2 ^ f.w := Nat.mod_lt _ (Nat.two_pow_pos _)

end Sys2Proof.Machine
end

