-- ==== Sys2Proof/Laws/Settle.lean ====
section
/-!
SUPPORT. What every command shares: power domains, and what goes on after an event when nothing waits.
-/
namespace Sys2Proof.Machine

/-! ### Power domains -/

theorem Chip.onL_on {c : Chip} (h : LOn c) (f : Chip → Chip) : c.onL f = f c := by simp [Chip.onL, Chip.lRuns, h.1, h.2]

theorem Chip.onA_on {c : Chip} (h : AOn c) (f : Chip → Chip) : c.onA f = f c := if_pos h

theorem Chip.onP_on {c : Chip} (h : POn c) (f : Chip → Chip) : c.onP f = f c := by simp [Chip.onP, h.1, h.2]

theorem Chip.onL_off {c : Chip} (h : c.lRuns = false) (f : Chip → Chip) : c.onL f = c := by simp [Chip.onL, h]

theorem Chip.onA_off {c : Chip} (h : c.fab.aon = false) (f : Chip → Chip) : c.onA f = c := by simp [Chip.onA, h]

theorem Chip.onP_off {c : Chip} (h : c.fab.aon = false) (f : Chip → Chip) : c.onP f = c := by simp [Chip.onP, h]

/-! ### Nothing waits -/

theorem Chip.pumpHost_idle {c : Chip} (h : c.hb.reqs = []) : c.pumpHost = c := by simp [Chip.pumpHost, h]

/-- Where nothing waits, nothing goes on. -/
theorem Chip.settle_idle {c : Chip} (h : Settled c) : c.settle = c := by
  obtain ⟨hw, hl, hd, hr, hh, hp⟩ := h
  have e : c.svcRetry = c := by simp [Chip.svcRetry, Chip.dirRetry, Chip.logRetry, Chip.svcRetryN, hw, hl, hd]
  have e2 : c.retryAllHeld = c := by
    unfold Chip.retryAllHeld
    have key : ∀ l : List (Nat × RingSt), (l.all fun r => r.2.held.isEmpty) = true →
        l.foldl (fun t r => if r.2.held.isEmpty then t else (t.retryPush r.1).retryHeld r.1 r.2.held.length) c = c := by
      intro l
      induction l with
      | nil => intro _; rfl
      | cons r l ih =>
        intro hl
        rw [List.all_cons, Bool.and_eq_true] at hl
        rw [List.foldl_cons, if_pos hl.1]
        exact ih hl.2
    exact key _ hh
  simp only [List.all_cons, List.all_nil, Bool.and_true, Bool.and_eq_true, List.isEmpty_iff] at hp
  obtain ⟨⟨⟨w0, x0⟩, r0⟩, ⟨⟨w1, x1⟩, r1⟩, ⟨w2, x2⟩, r2⟩ := hp
  have s0 : c.startTx 0 = c := by simp [Chip.startTx, r0]
  have s1 : c.startTx 1 = c := by simp [Chip.startTx, r1]
  have s2 : c.turSend = c := by simp [Chip.turSend, r2]
  simp [Chip.settle, e, e2, w0, x0, w1, x1, w2, x2, s0, s1, s2, Chip.pumpHost, hr]

/-- A chip in which nothing waits stays so under any change of its other parts. -/
theorem Settled.of_eq {c d : Chip} (h : Settled c) (ha : d.alm = c.alm) (hd : d.fst.heldDirs = c.fst.heldDirs) (hb : d.hb.reqs = c.hb.reqs)
    (hr : d.cst.rings = c.cst.rings) (hs : d.ser = c.ser) : Settled d := by
  obtain ⟨x0, x1, x2, x3, x4, x5⟩ := h
  refine ⟨ha ▸ x0, ha ▸ x1, hd.trans x2, hb.trans x3, hr ▸ x4, ?_⟩
  have e : ∀ p, (d.port p) = c.port p ∧ d.ring (outRing p) = c.ring (outRing p) := fun p => by
    simp only [Chip.port, Chip.ring, hr, hs, and_self]
  simpa only [e] using x5

/-! ### Commands -/

/-- A command's effect on the chip is the command's outcome. -/
theorem act_gives {i : Instr} {s : State} {f : Chip → Chip} (h : exec i s = s.act f) : Gives i s (f s.chip) := h

theorem act_runs {i : Instr} {s : State} {f : Chip → Chip} {P : Chip → Prop} (h : exec i s = s.act f) (hp : P (f s.chip)) :
    Runs i s P := ⟨f s.chip, h, hp⟩

theorem Gives.runs {i : Instr} {s : State} {c : Chip} {P : Chip → Prop} (h : Gives i s c) (hp : P c) : Runs i s P := ⟨c, h, hp⟩

end Sys2Proof.Machine
end

