-- ==== Sys2Proof/Laws/Access.lean ====
section
/-!
SUPPORT. Register writes that pass every check of R84, on a page where no write waits.
-/
namespace Sys2Proof.Machine

/-- With no shadow pending an apply event has nothing to apply (R71). -/
theorem Chip.applyShadows_none {h : Hooks} {s : Chip} (e : s.shadows = []) (b : Nat) (p : Shadow → Bool) :
    s.applyShadows h b p = s := by simp [Chip.applyShadows, e]

theorem Chip.boundary_none {h : Hooks} {s : Chip} (e : s.shadows = []) (n : Nat) (p : Shadow → Bool) : s.boundary h n p = s := by
  simp [Chip.boundary, Chip.shadePages, e]

/-- Is the field one that a write command's value may hold: read-only, or write-only with a legal value that is not reserved? -/
def FieldDesc.commandOk (f : FieldDesc) (v : Word) (resv : List Nat) : Bool :=
  match f.acc with
  | .ro => true
  | .wo => f.legal.ok (bitsOf v.toNat f.lo f.w) f.w && !resv.contains f.lo
  | _ => false

theorem writeField_command {p : PageDesc} {a : Nat} {m : Master} {w raw : Word} {resv : List Nat} {o : Bool} {f : FieldDesc}
    (h : f.commandOk w resv = true) (j : Judged) : writeField p a m 0 w raw resv o j f = j := by
  unfold FieldDesc.commandOk at h
  unfold writeField
  revert h
  cases f.acc with
  | ro => intro _; rfl
  | wo =>
    intro h
    obtain ⟨h1, h2⟩ : f.legal.ok (bitsOf w.toNat f.lo f.w) f.w = true ∧ f.lo ∉ resv := by simpa using h
    simp [h1, h2]
  | rw => intro h; cases h
  | w1c => intro h; cases h
  | rwg => intro h; cases h

theorem foldl_writeField_command {p : PageDesc} {a : Nat} {m : Master} {w raw : Word} {resv : List Nat} {o : Bool} :
    ∀ (fs : List FieldDesc), fs.all (fun f => f.commandOk w resv) = true → ∀ (j : Judged),
      fs.foldl (writeField p a m 0 w raw resv o) j = j
  | [], _, _ => rfl
  | f :: fs, h, j => by
    simp only [List.all_cons, Bool.and_eq_true] at h
    rw [List.foldl_cons, writeField_command h.1 j]
    exact foldl_writeField_command fs h.2 j

theorem commandOk_acc {f : FieldDesc} {v : Word} {resv : List Nat} (h : f.commandOk v resv = true) :
    (f.acc == Acc.rw || f.acc == Acc.rwg) = false := by
  unfold FieldDesc.commandOk at h
  revert h
  cases f.acc <;> intro h <;> first | rfl | cases h

/-- A plain write asks for its whole value. -/
theorem judge_plain {k a : Nat} {m : Master} {v : Word} {fs : List FieldDesc} {c : Chip} (hk : k = 0) (h : hookPre m a v c = St.ok) :
    hooks.judge k m a v fs c = St.ok := by
  subst hk
  exact h

/-- A write that passes every check and whose register holds commands only: its effect is what the command does, and a document boundary
follows where no item is admitted (R73). -/
theorem Chip.store32_command {c d : Chip} {m : Master} {a : Nat} {v : Word} {l : Loc} {fs : List FieldDesc} (acc : Accepts c m a v)
    (hl : locate a = some l) (ho : l.off ≠ 8 ∧ l.off ≠ 0x18 ∧ l.off ≠ 0x1C) (hb : l.page.base + l.off = a)
    (hg : guardedAt l.page l.off = false)
    (hf : fieldsAt l.page l.off = some fs) (hfs : fs.all (fun f => f.commandOk v (hookResv a v c)) = true)
    (hz : readsZero l.page l.off = false) (hp : hookPost m a (c.rd a) v c = (St.ok, d)) :
    c.store32 m a v = (St.ok, d.afterCommit) := by
  obtain ⟨_, _, hdead, h4, ⟨hsh, hheld, hgu⟩, l', hl', hal, hlt, hperm, hown, hpre, hst⟩ := acc
  rw [hl] at hl'; cases hl'
  obtain ⟨h8, h18, h1C⟩ := ho
  have hlat : c.latch l.page.base = none := by simp [Chip.latch, hgu]
  have hnt : ¬ (0x800 ≤ l.off) := by omega
  have hcs : ∀ (w : Word) (old : Word), (fs.any fun f => f.cls == Cls.s && (f.acc == Acc.rw || f.acc == Acc.rwg) &&
      bitsOf w.toNat f.lo f.w != bitsOf old.toNat f.lo f.w && (l.alias_ == 0 || touches f v)) = false := by
    intro w old
    rw [List.any_eq_false]
    intro f hfm
    have := List.all_eq_true.mp hfs f hfm
    simp [commandOk_acc this]
  have hact : actsOn 0 v fs = true := rfl
  have hask : askedOf 0 (aliasWord 0 (c.rd a) v) fs = v := rfl
  have hcommit : c.commit hooks m l.page l.off 0 v = (St.ok, d.afterCommit) := by
    unfold Chip.commit Chip.afterCommit
    simp only [hf, hb]
    have hcs0 := hcs (aliasWord 0 (c.rd a) v) (c.rd a)
    rw [hal] at hcs0
    simp only [hcs0, Bool.and_false, Bool.false_eq_true, if_false]
    have hfold := fun o => foldl_writeField_command (p := l.page) (a := a) (m := m) (w := aliasWord 0 (c.rd a) v) (raw := v)
      (resv := hookResv a (aliasWord 0 (c.rd a) v) c) (o := o) fs (by simpa [aliasWord] using hfs)
      { s := c, ign := false, bad := false, applied := false }
    have hr : hooks.resv = hookResv := rfl
    have hv : hooks.valid = hookValid := rfl
    have hpo : hooks.post = hookPost := rfl
    simp only [hr, hv, hpo, hfold, Bool.false_and, Bool.false_or, Bool.or_false, Bool.false_eq_true, if_false, ne_eq, not_true_eq_false, h8, h18, h1C,
      bne_self_eq_false, Bool.and_false, if_true, decide_false, hact, hask, Bool.not_true, hp, hz,
      Chip.applyShadows_none hsh, ite_self]
    rfl
  have halias : aliasWord l.alias_ (c.rd a) v = v := by rw [hal]; rfl
  unfold Chip.store32 Chip.write32
  simp only [hdead, Bool.false_eq_true, if_false, h4, ne_eq, not_true_eq_false, hl]
  unfold Chip.writeReg
  simp only [hnt, decide_false, Bool.false_eq_true, if_false, hlat, hf, Option.isNone_some, Bool.false_or, Bool.false_and, hb, halias, hperm, Bool.not_true,
    hg, Option.getD_some, judge_plain hal hpre, hst]
  have how : (decide (l.off = 0x20) && !c.ownOk m l.page.base v) = false := by
    by_cases e : l.off = 0x20
    · simp [hown e]
    · simp [e]
  simp only [how, hal, Bool.false_eq_true, if_false, ne_eq, not_true_eq_false, decide_false, Bool.false_and, hcommit]
  simp [St.perm, St.state, St.ok, hheld]

/-- Does the address hold a register of commands only, in which `v` is a legal value? -/
def commandReg (a : Nat) (v : Word) : Bool :=
  match locate a with
  | none => false
  | some l =>
    l.off != 8 && l.off != 0x18 && l.off != 0x1C && l.page.base + l.off == a && !guardedAt l.page l.off && !readsZero l.page l.off &&
      match fieldsAt l.page l.off with
      | none => false
      | some fs => fs.all (fun f => f.commandOk v [])

/-- The same for a command row that names the register. -/
theorem Chip.regWrite_command {c d : Chip} {m : Master} {a : Nat} {v : Word} (acc : Accepts c m a v) (hc : commandReg a v = true)
    (hr : hookResv a v c = []) (hp : hookPost m a (c.rd a) v c = (St.ok, d)) : c.regWrite m a v = d.afterWrite := by
  unfold commandReg at hc
  split at hc
  · cases hc
  · rename_i l hl
    simp only [Bool.and_eq_true, bne_iff_ne, beq_iff_eq, Bool.not_eq_true', ne_eq] at hc
    obtain ⟨⟨⟨⟨⟨⟨h8, h18⟩, h1C⟩, hb⟩, hg⟩, hz⟩, hc⟩ := hc
    split at hc
    · cases hc
    · rename_i fs hf
      unfold Chip.regWrite
      rw [if_pos acc.1, acc.2.1, if_neg (by decide), Chip.store32_command acc hl ⟨h8, h18, h1C⟩ hb hg hf (by rw [hr]; exact hc) hz hp]
      rfl

/-- Is the field one that an immediate write takes (R68): read-only, write-only and legal, or class L and legal? -/
def FieldDesc.heldOk (f : FieldDesc) (v : Word) (resv : List Nat) : Bool :=
  match f.acc, f.cls with
  | .ro, _ => true
  | .w1c, _ => false
  | .wo, _ => f.legal.ok (bitsOf v.toNat f.lo f.w) f.w && !resv.contains f.lo
  | _, .l => f.legal.ok (bitsOf v.toNat f.lo f.w) f.w && !resv.contains f.lo
  | _, _ => false

/-- A register none of whose fields is SNS.SCFG.TH, which may wait for the document boundary (R245). -/
def plainL (a : Nat) : Prop := ∀ n < 6, a ≠ Reg.SNS_SCFG n

theorem Chip.lateTh_plain {a : Nat} (h : plainL a) (s : Chip) (f : FieldDesc) : s.lateTh a f = false := by
  unfold Chip.lateTh
  rw [List.any_eq_false]
  intro n hn
  simp [h n (List.mem_range.mp hn)]

/-- The chip after the class-L fields of a register have taken their parts of `v`. -/
def heldIn (fs : List FieldDesc) (a : Nat) (v : Word) (c : Chip) : Chip :=
  fs.foldl (fun t f => if f.acc == .rw || f.acc == .rwg then t.put ⟨a, f.lo, f.w⟩ (bitsOf v.toNat f.lo f.w) else t) c

theorem writeField_held {p : PageDesc} {a : Nat} {m : Master} {w : Word} {resv : List Nat} {o : Bool} {f : FieldDesc} (ha : plainL a)
    (h : f.heldOk w resv = true) (j : Judged) : writeField p a m 0 w w resv o j f =
      { j with s := if f.acc == .rw || f.acc == .rwg then j.s.put ⟨a, f.lo, f.w⟩ (bitsOf w.toNat f.lo f.w) else j.s } := by
  unfold FieldDesc.heldOk at h
  unfold writeField
  revert h
  cases f.acc <;> cases f.cls <;> intro h <;> first | rfl | cases h | skip
  all_goals
    obtain ⟨h1, h2⟩ : f.legal.ok (bitsOf w.toNat f.lo f.w) f.w = true ∧ f.lo ∉ resv := by simpa using h
    simp [h1, h2, Chip.lateTh_plain ha]

theorem foldl_writeField_held {p : PageDesc} {a : Nat} {m : Master} {w : Word} {resv : List Nat} {o : Bool} (ha : plainL a) :
    ∀ (fs : List FieldDesc), fs.all (fun f => f.heldOk w resv) = true → ∀ (c : Chip) (g b x : Bool),
      fs.foldl (writeField p a m 0 w w resv o) { s := c, ign := g, bad := b, applied := x } =
        { s := heldIn fs a w c, ign := g, bad := b, applied := x }
  | [], _, _, _, _, _ => rfl
  | f :: fs, h, c, g, b, x => by
    simp only [List.all_cons, Bool.and_eq_true] at h
    rw [List.foldl_cons, writeField_held ha h.1, foldl_writeField_held ha fs h.2]
    rfl

theorem heldOk_cls {f : FieldDesc} {v : Word} {resv : List Nat} (h : f.heldOk v resv = true) :
    (f.cls == Cls.s && (f.acc == Acc.rw || f.acc == Acc.rwg)) = false := by
  unfold FieldDesc.heldOk at h
  revert h
  cases f.acc <;> cases f.cls <;> intro h <;> first | rfl | cases h

theorem heldIn_plain {P : Chip → Prop} (hp : ∀ (t : Chip) (f : Field) (v : Nat), P t → P (t.put f v)) (a : Nat) (v : Word) :
    ∀ (fs : List FieldDesc) (c : Chip), P c → P (heldIn fs a v c)
  | [], _, h => h
  | f :: fs, c, h => by
    unfold heldIn
    rw [List.foldl_cons]
    refine heldIn_plain hp a v fs _ ?_
    split
    · exact hp _ _ _ h
    · exact h

/-- The commit of a write that class-L fields take: the fields hold it, then what the register does follows (R84). -/
theorem Chip.commit_held {c d : Chip} {m : Master} {v : Word} {p : PageDesc} {o a : Nat} {fs : List FieldDesc} (ha : plainL a)
    (hn : c.shadows = [] ∧ c.held = []) (ho : o ≠ 8 ∧ o ≠ 0x18 ∧ o ≠ 0x1C) (hb : p.base + o = a) (hf : fieldsAt p o = some fs) (hz : readsZero p o = false)
    (hfs : fs.all (fun f => f.heldOk v (hookResv a v c)) = true)
    (hval : (if p.en1 = true then ([] : List Field) else hookValid p.base (.write a (c.on (hEN p.base))) (heldIn fs a v c)) = [])
    (hp : hookPost m a (c.rd a) v (heldIn fs a v c) = (St.ok, d)) :
    c.commit hooks m p o 0 v = (St.ok, d.afterCommit) := by
  obtain ⟨hsh, hheld⟩ := hn
  obtain ⟨h8, h18, h1C⟩ := ho
  have hcs : ∀ (w : Word) (old : Word), (fs.any fun f => f.cls == Cls.s && (f.acc == Acc.rw || f.acc == Acc.rwg) &&
      bitsOf w.toNat f.lo f.w != bitsOf old.toNat f.lo f.w && ((0 : Nat) == 0 || touches f v)) = false := by
    intro w old
    rw [List.any_eq_false]
    intro f hfm
    have := List.all_eq_true.mp hfs f hfm
    simp [heldOk_cls this]
  have hsh2 : (heldIn fs a v c).shadows = [] := heldIn_plain (P := fun t => t.shadows = []) (fun _ _ _ h => h) a v fs c hsh
  have hr : hooks.resv = hookResv := rfl
  have hv : hooks.valid = hookValid := rfl
  have hpo : hooks.post = hookPost := rfl
  have halias : aliasWord 0 (c.rd a) v = v := rfl
  have hact : actsOn 0 v fs = true := rfl
  have hask : askedOf 0 v fs = v := rfl
  have hbr : ∀ q : Bool, (if p.en1 = true then ([] : List Field) else
      if q = true then hookValid p.base (.write a (c.on (hEN p.base))) (heldIn fs a v c) else []) = [] := by
    intro q
    by_cases e : p.en1 = true
    · rw [if_pos e]
    · rw [if_neg e] at hval ⊢
      cases q <;> simp [hval]
  unfold Chip.commit Chip.afterCommit
  simp only [hf, hb, halias, hcs, Bool.and_false, Bool.false_eq_true, if_false]
  simp only [hr, hv, hpo, foldl_writeField_held ha fs hfs, Bool.false_and, Bool.or_false, Bool.false_eq_true, if_false, hbr, ne_eq,
    not_true_eq_false, h8, h18, h1C, decide_false, hact, hask, Bool.not_true, hp, if_true, hz, Chip.applyShadows_none hsh2]
  rfl

/-- A write that class-L fields take. -/
theorem Chip.store32_held {c d : Chip} {m : Master} {a : Nat} {v : Word} {l : Loc} {fs : List FieldDesc} (ha : plainL a) (acc : Accepts c m a v)
    (hl : locate a = some l) (ho : l.off ≠ 8 ∧ l.off ≠ 0x18 ∧ l.off ≠ 0x1C) (hb : l.page.base + l.off = a)
    (hg : guardedAt l.page l.off = false) (hz : readsZero l.page l.off = false) (hf : fieldsAt l.page l.off = some fs)
    (hfs : fs.all (fun f => f.heldOk v (hookResv a v c)) = true)
    (hval : (if l.page.en1 = true then ([] : List Field) else hookValid l.page.base (.write a (c.on (hEN l.page.base))) (heldIn fs a v c)) = [])
    (hp : hookPost m a (c.rd a) v (heldIn fs a v c) = (St.ok, d)) :
    c.store32 m a v = (St.ok, d.afterCommit) := by
  obtain ⟨_, _, hdead, h4, ⟨hsh, hheld, hgu⟩, l', hl', hal, hlt, hperm, hown, hpre, hst⟩ := acc
  rw [hl] at hl'; cases hl'
  have hlat : c.latch l.page.base = none := by simp [Chip.latch, hgu]
  have hnt : ¬ (0x800 ≤ l.off) := by omega
  have hcommit := Chip.commit_held (m := m) ha ⟨hsh, hheld⟩ ho hb hf hz hfs hval hp
  have halias : aliasWord l.alias_ (c.rd a) v = v := by rw [hal]; rfl
  unfold Chip.store32 Chip.write32
  simp only [hdead, Bool.false_eq_true, if_false, h4, ne_eq, not_true_eq_false, hl]
  unfold Chip.writeReg
  simp only [hnt, decide_false, Bool.false_eq_true, if_false, hlat, hf, Option.isNone_some, Bool.false_or, Bool.false_and, hb, halias, hperm, Bool.not_true,
    hg, Option.getD_some, judge_plain hal hpre, hst]
  have how : (decide (l.off = 0x20) && !c.ownOk m l.page.base v) = false := by
    by_cases e : l.off = 0x20
    · simp [hown e]
    · simp [e]
  simp only [how, hal, Bool.false_eq_true, if_false, ne_eq, not_true_eq_false, decide_false, Bool.false_and, hcommit]
  simp [St.perm, St.state, St.ok, hheld]

/-- The same for a command row that names the register. -/
theorem Chip.regWrite_held {c d : Chip} {m : Master} {a : Nat} {v : Word} {l : Loc} {fs : List FieldDesc} (ha : plainL a) (acc : Accepts c m a v)
    (hl : locate a = some l) (ho : l.off ≠ 8 ∧ l.off ≠ 0x18 ∧ l.off ≠ 0x1C) (hb : l.page.base + l.off = a)
    (hg : guardedAt l.page l.off = false) (hz : readsZero l.page l.off = false) (hf : fieldsAt l.page l.off = some fs)
    (hfs : fs.all (fun f => f.heldOk v (hookResv a v c)) = true)
    (hval : (if l.page.en1 = true then ([] : List Field) else hookValid l.page.base (.write a (c.on (hEN l.page.base))) (heldIn fs a v c)) = [])
    (hp : hookPost m a (c.rd a) v (heldIn fs a v c) = (St.ok, d)) : c.regWrite m a v = d.afterWrite := by
  unfold Chip.regWrite
  rw [if_pos acc.1, acc.2.1, if_neg (by decide), Chip.store32_held ha acc hl ho hb hg hz hf hfs hval hp]
  rfl

/-- A guarded pair that passes every check of R84 and R63: its value is committed as a plain write's is. -/
theorem Chip.regPair_held {c d : Chip} {m : Master} {a : Nat} {v : Word} {l k : Loc} {fs : List FieldDesc} (ha : plainL a) (acc : Accepts c m a v)
    (hgr : c.guardRight m = true) (hl : locate a = some l) (hk : locate (a + 0x800) = some k)
    (hlk : k.page = l.page ∧ k.off = l.off + 0x800 ∧ k.alias_ = 0) (hdk : c.deadRegion (a + 0x800) = false)
    (ho : l.off ≠ 8 ∧ l.off ≠ 0x18 ∧ l.off ≠ 0x1C ∧ l.off ≠ 0x20) (hb : l.page.base + l.off = a)
    (hg : guardedAt l.page l.off = true) (hz : readsZero l.page l.off = false) (hf : fieldsAt l.page l.off = some fs)
    (hfs : fs.all (fun f => f.heldOk v (hookResv a v c)) = true)
    (hval : (if l.page.en1 = true then ([] : List Field) else hookValid l.page.base (.write a (c.on (hEN l.page.base))) (heldIn fs a v c)) = [])
    (hp : hookPost m a (c.rd a) v (heldIn fs a v c) = (St.ok, d)) : c.regPair m a v = d.afterWrite := by
  obtain ⟨hcan, hmq, hdead, h4, ⟨hsh, hheld, hgu⟩, l', hl', hal, hlt, hperm, hown, hpre, hst⟩ := acc
  rw [hl] at hl'; cases hl'
  obtain ⟨k1, k2, k3⟩ := hlk
  have hnt : ¬ (0x800 ≤ l.off) := by omega
  have hcommit := Chip.commit_held (m := m) ha ⟨hsh, hheld⟩ ⟨ho.1, ho.2.1, ho.2.2.1⟩ hb hf hz hfs hval hp
  let t : Chip := { c with guards := c.guards ++ [{ page := l.page.base, off := l.off, value := v, master := m }] }
  have hfirst : c.store32 m a v = (St.ok, t) := by
    have hlat : c.latch l.page.base = none := by simp [Chip.latch, hgu]
    unfold Chip.store32 Chip.write32
    simp only [hdead, Bool.false_eq_true, if_false, h4, ne_eq, not_true_eq_false, hl]
    unfold Chip.writeReg
    simp only [hnt, decide_false, Bool.false_eq_true, if_false, hlat, hf, Option.isNone_some, Bool.false_or, Bool.false_and, hb, hal, show aliasWord 0 (c.rd a) v = v from rfl, hperm, Bool.not_true,
      hg, ho.2.2.2, decide_true, Bool.and_self, Bool.not_false, if_true, hheld, List.any_nil]
    exact congrArg _ (by simp only [t, hheld])
  have hheldt : t.held = [] := hheld
  have hlat : t.latch l.page.base = some { page := l.page.base, off := l.off, value := v, master := m } := by
    show (c.guards ++ _).find? _ = _
    simp [hgu]
  have hun : t.unlatch l.page.base = c := by
    have : t.unlatch l.page.base = { c with guards := [] } := by simp [t, Chip.unlatch, hgu]
    rw [this, ← hgu]
  have hk800 : 0x800 ≤ k.off := by omega
  have hko : k.off - 0x800 = l.off := by omega
  have hsecond : t.store32 m (a + 0x800) (~~~v) = (St.ok, d.afterCommit) := by
    have hdt : t.deadRegion (a + 0x800) = false := hdk
    unfold Chip.store32 Chip.write32
    simp only [hdt, Bool.false_eq_true, if_false, show (a + 0x800) % 4 = 0 by omega, ne_eq, not_true_eq_false, hk]
    unfold Chip.writeReg
    simp only [k1, k3, hk800, hko, decide_true, if_true, BitVec.not_not, hlat, hb, hf, hg, Bool.and_self, Option.isNone_some,
      Bool.not_true, Bool.and_false, Bool.or_false, Bool.false_and, Bool.false_eq_true, if_false, ho.2.2.2, decide_false, ne_eq, not_true_eq_false,
      hun, hcommit, hheldt, List.any_nil]
    simp only [hperm, Option.getD_some, judge_plain rfl hpre, hst, St.perm, St.state, St.ok]
    simp
    intro h
    have e : c.guardRight m = false := h
    rw [hgr] at e
    cases e
  unfold Chip.regPair Chip.guardedPair
  rw [if_pos hcan, hmq, if_neg (by decide), hfirst]
  dsimp only
  rw [if_pos rfl, hsecond]
  rfl

end Sys2Proof.Machine
end

