-- ==== Sys2Proof/Laws/Events.lean ====
section
/-!
SUPPORT. An event changes the Orrery contexts and their pending words (R290), nothing else.
-/
namespace Sys2Proof.Machine

/-- Only the contexts and registers of one page have changed. -/
def OnlyOrr (c d : Chip) : Prop := d = { c with regs := d.regs, orr := d.orr } ∧ ∀ a, a / 0x4000 ≠ 0x10009 → d.rd a = c.rd a

theorem OnlyOrr.refl (c : Chip) : OnlyOrr c c := ⟨rfl, fun _ _ => rfl⟩

theorem OnlyOrr.trans {a b c : Chip} (h : OnlyOrr a b) (k : OnlyOrr b c) : OnlyOrr a c := by
  refine ⟨?_, fun x hx => (k.2 x hx).trans (h.2 x hx)⟩
  rw [k.1, h.1]

theorem OnlyOrr.foldl {α : Type} {f : Chip → α → Chip} (hf : ∀ c x, OnlyOrr c (f c x)) :
    ∀ (l : List α) (c : Chip), OnlyOrr c (l.foldl f c)
  | [], c => OnlyOrr.refl c
  | x :: l, c => (hf c x).trans (OnlyOrr.foldl hf l (f c x))

theorem onlyOrr_setCtx (c : Chip) (k : Nat) (x : Ctx) : OnlyOrr c (c.setCtx k x) := ⟨rfl, fun _ _ => rfl⟩

theorem onlyOrr_put {c : Chip} {f : Field} (h : f.addr / 0x4000 = 0x10009) (v : Nat) : OnlyOrr c (c.put f v) := by
  refine ⟨rfl, fun a ha => ?_⟩
  have : a ≠ f.addr := fun e => ha (e ▸ h)
  simp [Chip.rd_map, this]

theorem onlyOrr_eventTo (c : Chip) {k : Nat} (hk : k < 4) (e : Nat) : OnlyOrr c (c.eventTo k e) := by
  unfold Chip.eventTo
  dsimp only
  refine OnlyOrr.trans (b := if (c.ctx k).evl.contains e then c else c.setCtx k { c.ctx k with evl := e :: (c.ctx k).evl }) ?_ ?_
  · split
    · exact OnlyOrr.refl c
    · exact onlyOrr_setCtx _ _ _
  · refine OnlyOrr.foldl (fun t n => ?_) _ _
    split
    · refine onlyOrr_put ?_ _
      have : k = 0 ∨ k = 1 ∨ k = 2 ∨ k = 3 := by omega
      obtain rfl | rfl | rfl | rfl := this <;> rfl
    · exact OnlyOrr.refl t

theorem onlyOrr_eventAll (c : Chip) (e : Nat) : OnlyOrr c (c.eventAll e) :=
  (((onlyOrr_eventTo c (by decide) e).trans (onlyOrr_eventTo _ (by decide) e)).trans (onlyOrr_eventTo _ (by decide) e)).trans
    (onlyOrr_eventTo _ (by decide) e)

theorem onlyOrr_eventIn (c : Chip) (e : Nat) : OnlyOrr c (c.eventIn e) := by
  unfold Chip.eventIn
  split
  · exact onlyOrr_eventAll c e
  · dsimp only
    split
    · exact OnlyOrr.refl c
    · exact ⟨rfl, fun _ _ => rfl⟩

theorem onlyOrr_route (c : Chip) (src : Nat) : OnlyOrr c (c.route src) := by
  unfold Chip.route
  split
  · refine OnlyOrr.foldl (fun t m => ?_) _ _
    split
    · exact onlyOrr_eventIn _ _
    · exact OnlyOrr.refl t
  · exact OnlyOrr.refl c

/-- An event leaves all but the contexts and page ORC. -/
theorem onlyOrr_event (c : Chip) (e : Nat) : OnlyOrr c (c.event e) := by
  unfold Chip.event
  split
  · exact onlyOrr_eventIn c e
  · exact (onlyOrr_eventIn c e).trans (onlyOrr_route _ _)

theorem OnlyOrr.get {c d : Chip} (h : OnlyOrr c d) {f : Field} (hf : f.addr / 0x4000 ≠ 0x10009) : d.get f = c.get f := by
  show bitsOf (d.rd f.addr).toNat f.lo f.w = bitsOf (c.rd f.addr).toNat f.lo f.w
  rw [h.2 _ hf]

theorem OnlyOrr.dbg {c d : Chip} (h : OnlyOrr c d) : d.dbg = c.dbg := by rw [h.1]
theorem OnlyOrr.doc {c d : Chip} (h : OnlyOrr c d) : d.doc = c.doc := by rw [h.1]
theorem OnlyOrr.hb {c d : Chip} (h : OnlyOrr c d) : d.hb = c.hb := by rw [h.1]
theorem OnlyOrr.mem {c d : Chip} (h : OnlyOrr c d) : d.mem = c.mem := by rw [h.1]
theorem OnlyOrr.fab {c d : Chip} (h : OnlyOrr c d) : d.fab = c.fab := by rw [h.1]

end Sys2Proof.Machine
end

