-- ==== Sys2Proof/Laws/Packet.lean ====
section
/-!
SUPPORT. A host packet that the bridge lets in while it has nothing else in hand.
-/
namespace Sys2Proof.Machine

theorem Chip.takeCredit_hb (c : Chip) (id : Nat) (tag : Byte) :
    (c.takeCredit id tag).hb.reqs = c.hb.reqs ∧ (c.takeCredit id tag).hb.pushWait = c.hb.pushWait ∧
      (c.takeCredit id tag).hb.commitWait = c.hb.commitWait ∧ (c.takeCredit id tag).hb.heldWaits = c.hb.heldWaits := by
  unfold Chip.takeCredit Chip.syncCredits Chip.setClient
  dsimp only
  split <;> exact ⟨rfl, rfl, rfl, rfl⟩

theorem Chip.setClient_hb (c : Chip) (id : Nat) (x : Client) :
    (c.setClient id x).hb.reqs = c.hb.reqs ∧ (c.setClient id x).hb.pushWait = c.hb.pushWait ∧
      (c.setClient id x).hb.commitWait = c.hb.commitWait ∧ (c.setClient id x).hb.heldWaits = c.hb.heldWaits := by
  unfold Chip.setClient
  dsimp only
  split <;> exact ⟨rfl, rfl, rfl, rfl⟩

theorem Chip.acceptPacket_hb {c : Chip} (hb : BridgeIdle c) (h : Hdr) (op : Nat) (w : Work) :
    (c.acceptPacket h op w).hb.reqs = [requestOf h op w] ∧ (c.acceptPacket h op w).hb.pushWait = none ∧
      (c.acceptPacket h op w).hb.commitWait = false ∧ (c.acceptPacket h op w).hb.heldWaits = [] := by
  obtain ⟨h1, h2, h3, h4⟩ := hb
  obtain ⟨t1, t2, t3, t4⟩ := c.takeCredit_hb h.clid.toNat h.tag
  have hif : ∀ (p : Prop) [Decidable p] (t : Chip) (x : Client),
      (if p then t.setClient h.clid.toNat x else t).hb.reqs = t.hb.reqs ∧
        (if p then t.setClient h.clid.toNat x else t).hb.pushWait = t.hb.pushWait ∧
        (if p then t.setClient h.clid.toNat x else t).hb.commitWait = t.hb.commitWait ∧
        (if p then t.setClient h.clid.toNat x else t).hb.heldWaits = t.hb.heldWaits := by
    intro p _ t x
    split
    · exact t.setClient_hb h.clid.toNat x
    · exact ⟨rfl, rfl, rfl, rfl⟩
  unfold Chip.acceptPacket
  refine ⟨?_, ?_, ?_, ?_⟩
  · show insertReq _ _ _ = _
    rw [(hif _ _ _).1, t1, h1]
    rfl
  · exact ((hif _ _ _).2.1.trans t2).trans h2
  · exact ((hif _ _ _).2.2.1.trans t3).trans h3
  · exact ((hif _ _ _).2.2.2.trans t4).trans h4

/-! What taking a request in hand leaves. -/

/-- Only the bridge and page CLI have changed. -/
def OnlyBridge (c d : Chip) : Prop := d = { c with regs := d.regs, hb := d.hb } ∧ ∀ a, a / 0x4000 ≠ 0x10004 → d.rd a = c.rd a

theorem OnlyBridge.refl (c : Chip) : OnlyBridge c c := ⟨rfl, fun _ _ => rfl⟩

theorem OnlyBridge.trans {a b c : Chip} (h : OnlyBridge a b) (k : OnlyBridge b c) : OnlyBridge a c := by
  refine ⟨?_, fun x hx => (k.2 x hx).trans (h.2 x hx)⟩
  rw [k.1, h.1]

theorem onlyBridge_hb (c : Chip) (x : HostBridge) : OnlyBridge c { c with hb := x } := ⟨rfl, fun _ _ => rfl⟩

theorem onlyBridge_put {c : Chip} {f : Field} (h : f.addr / 0x4000 = 0x10004) (v : Nat) : OnlyBridge c (c.put f v) := by
  refine ⟨rfl, fun a ha => ?_⟩
  have : a ≠ f.addr := fun e => ha (e ▸ h)
  simp [Chip.rd_map, this]

theorem onlyBridge_putB {c : Chip} {f : Field} (h : f.addr / 0x4000 = 0x10004) (b : Bool) : OnlyBridge c (c.putB f b) :=
  onlyBridge_put h _

theorem onlyBridge_showClient (c : Chip) : OnlyBridge c c.showClient := by
  unfold Chip.showClient
  dsimp only
  repeat (first
    | exact OnlyBridge.refl _
    | refine OnlyBridge.trans ?_ (onlyBridge_put rfl _)
    | refine OnlyBridge.trans ?_ (onlyBridge_putB rfl _))

theorem onlyBridge_setClient (c : Chip) (id : Nat) (x : Client) : OnlyBridge c (c.setClient id x) := by
  unfold Chip.setClient
  dsimp only
  split
  · exact (onlyBridge_hb c _).trans (onlyBridge_showClient _)
  · exact onlyBridge_hb c _

theorem onlyBridge_takeCredit (c : Chip) (id : Nat) (tag : Byte) : OnlyBridge c (c.takeCredit id tag) :=
  (onlyBridge_setClient c _ _).trans (onlyBridge_put rfl _)

theorem onlyBridge_inHand (c : Chip) (h : Hdr) (op : Nat) (w : Work) : OnlyBridge c (c.inHand h op w) := by
  unfold Chip.inHand
  refine OnlyBridge.trans ?_ (onlyBridge_hb _ _)
  unfold Chip.acceptPacket
  dsimp only
  refine OnlyBridge.trans ?_ (onlyBridge_hb _ _)
  refine OnlyBridge.trans (onlyBridge_takeCredit c h.clid.toNat h.tag) ?_
  split
  · exact onlyBridge_setClient _ _ _
  · exact OnlyBridge.refl _

theorem OnlyBridge.get {c d : Chip} (h : OnlyBridge c d) {f : Field} (hf : f.addr / 0x4000 ≠ 0x10004) : d.get f = c.get f := by
  show bitsOf (d.rd f.addr).toNat f.lo f.w = bitsOf (c.rd f.addr).toNat f.lo f.w
  rw [h.2 _ hf]

theorem OnlyBridge.doc {c d : Chip} (h : OnlyBridge c d) : d.doc = c.doc := by rw [h.1]
theorem OnlyBridge.dbg {c d : Chip} (h : OnlyBridge c d) : d.dbg = c.dbg := by rw [h.1]
theorem OnlyBridge.mem {c d : Chip} (h : OnlyBridge c d) : d.mem = c.mem := by rw [h.1]
theorem OnlyBridge.fab {c d : Chip} (h : OnlyBridge c d) : d.fab = c.fab := by rw [h.1]

/-! The client table. -/

theorem find_takeWhile_dropWhile {l : List (Nat × Client)} {id : Nat} {x : Nat × Client} (hx : x.1 = id)
    (hl : ∀ y ∈ l, y.1 ≠ id) (p : Nat × Client → Bool) :
    (l.takeWhile p ++ x :: l.dropWhile p).find? (fun c => c.1 == id) = some x := by
  rw [List.find?_append]
  have : (l.takeWhile p).find? (fun c => c.1 == id) = none := by
    rw [List.find?_eq_none]
    intro y hy
    simpa using hl y (List.takeWhile_sublist p |>.subset hy)
  simp [this, hx]

theorem Chip.client_putClient (c : Chip) (id : Nat) (x : Client) : (c.putClient id x).client id = x := by
  have hl : ∀ y ∈ c.hb.clients.filter (fun z => z.1 != id), y.1 ≠ id := by
    intro y hy
    simpa using (List.mem_filter.mp hy).2
  have hn : (c.hb.clients.filter (fun z => z.1 != id)).find? (fun z => z.1 == id) = none := by
    rw [List.find?_eq_none]
    intro y hy
    simpa using hl y hy
  unfold Chip.putClient Chip.client
  dsimp only
  by_cases e : x = resetClient id
  · rw [if_pos e, hn]
    exact e.symm
  · rw [if_neg e, find_takeWhile_dropWhile (x := (id, x)) rfl hl]

theorem Chip.client_showClient (c : Chip) (id : Nat) : c.showClient.client id = c.client id := rfl

theorem Chip.client_setClient (c : Chip) (id : Nat) (x : Client) : (c.setClient id x).client id = x := by
  unfold Chip.setClient
  dsimp only
  split
  · exact c.client_putClient id x
  · exact c.client_putClient id x

theorem Chip.client_takeCredit (c : Chip) (id : Nat) (tag : Byte) :
    (c.takeCredit id tag).client id = { c.client id with tags := (c.client id).tags ++ [tag] } :=
  c.client_setClient id _

/-- The client of a request in hand has the rights it had. -/
theorem Chip.inHand_rights (c : Chip) (h : Hdr) (op : Nat) (w : Work) (a : Nat) :
    (c.inHand h op w).mayX h.clid.toNat a = c.mayX h.clid.toNat a ∧ (c.inHand h op w).mayW h.clid.toNat a = c.mayW h.clid.toNat a ∧
      (c.inHand h op w).mayR h.clid.toNat a = c.mayR h.clid.toNat a := by
  have key : ∀ x : Client, (c.inHand h op w).client h.clid.toNat = x →
      x.pxl = (c.client h.clid.toNat).pxl ∧ x.pxp = (c.client h.clid.toNat).pxp ∧ x.pwl = (c.client h.clid.toNat).pwl ∧
        x.pwp = (c.client h.clid.toNat).pwp ∧ x.prl = (c.client h.clid.toNat).prl ∧ x.prp = (c.client h.clid.toNat).prp := by
    intro x hx
    have hx : (c.acceptPacket h op w).client h.clid.toNat = x := hx
    unfold Chip.acceptPacket at hx
    dsimp only at hx
    have hk := c.client_takeCredit h.clid.toNat h.tag
    generalize c.takeCredit h.clid.toNat h.tag = t at hx hk
    split at hx
    · have hx := ((t.client_setClient h.clid.toNat _).symm.trans hx).symm
      rw [hx, hk]
      exact ⟨rfl, rfl, rfl, rfl, rfl, rfl⟩
    · have hx := (hk.symm.trans hx).symm
      rw [hx]
      exact ⟨rfl, rfl, rfl, rfl, rfl, rfl⟩
  obtain ⟨e1, e2, e3, e4, e5, e6⟩ := key _ rfl
  unfold Chip.mayX Chip.mayW Chip.mayR
  rw [e1, e2, e3, e4, e5, e6]
  exact ⟨rfl, rfl, rfl⟩

/-- What a packet that passes every check of R366 does on an idle bridge: its request is in hand, runs, and the bridge goes on. -/
theorem Chip.packet_runs {c d : Chip} {h : Hdr} {op : Nat} {bs : List Byte} {w : Work} (hl : LetIn c h) (hd : BridgeIdle d)
    (hn : bs.length ≤ 4096) (hp : parseWork op bs = some w) (he : c.earlyHalt h w = d) :
    c.packet h op bs = ((d.inHand h op w).runReq
      { requestOf h op w with started := true }).bridgeOn := by
  obtain ⟨_, lu, f2, hmo, f4, f5, f6, f7, ho, hs, ht, hc, hcr, hq⟩ := hl
  obtain ⟨r1, r2, r3, r4⟩ := Chip.acceptPacket_hb hd h op w
  have hseq : ([2, 3, 5, 6, 7].contains op && decide (h.seq.toNat ≠ 0) && (c.client h.clid.toNat).seqs.contains h.seq.toNat) = false := by
    by_cases e : h.seq.toNat = 0
    · simp [e]
    · simp [hq e]
  have hone : c.packet h op bs = c.request h op bs := by
    have e : ({ c with hb := { c.hb with more := [] } } : Chip) = c := by rw [← hmo]
    unfold Chip.packet
    simp only [lu, Bool.not_true, Bool.false_eq_true, if_false, show ¬ 4096 < bs.length by omega, hmo, List.find?_nil, Option.elim_none,
      List.filter_nil, f2, e]
  rw [hone]
  unfold Chip.request
  simp only [Bool.not_true, Bool.false_eq_true, if_false, f6, f7, Bool.or_self, hp, f4, f5, ho, hs,
    bne_self_eq_false, Bool.and_false, Bool.false_and, he]
  rw [if_neg (by simpa using ht), if_neg (by simp; omega)]
  rw [hseq]
  simp only [Bool.false_eq_true, if_false]
  unfold Chip.pumpHost
  rw [r1]
  simp only [List.isEmpty_cons, Bool.false_eq_true, if_false]
  unfold Chip.resumePush
  rw [r2]
  dsimp only
  unfold Chip.resumeCommit
  rw [r3]
  simp only [Bool.false_and, Bool.false_eq_true, if_false]
  unfold Chip.resumeFar
  rw [r1]
  have hns : (requestOf h op w).started = false := rfl
  simp only [List.find?_cons, hns, Bool.false_and, List.find?_nil]
  rw [Chip.beginReqs]
  rw [r1]
  have hm : (d.acceptPacket h op w).mayBegin []
      (requestOf h op w) = true := by
    unfold Chip.mayBegin
    rw [r1, r2]
    simp [hns, Chip.farBusy, r1, r4]
  simp only [Chip.nextReq, hm, if_true]
  unfold Chip.bridgeOn Chip.inHand
  congr 1
  congr 1
  dsimp only
  rw [r1]
  simp [updFirst, requestOf]

/-- An engine command let in on an idle bridge is decoded by DOC with its request in hand, and the bridge goes on. -/
theorem gives_engineCmd {i : Instr} {s : State} {h : Hdr} {code : Nat} {args : List Byte} {e : Chip} (hc : CommandIn s.chip h)
    (hi : exec i s = s.act fun c => c.engineCmd h code args) (hn : args.length < 4096)
    (he : s.chip.earlyHalt h (.command (BitVec.ofNat 8 code :: args)) = s.chip)
    (hd : (s.chip.inHand h 6 (.command (BitVec.ofNat 8 code :: args))).docDecode h (BitVec.ofNat 8 code :: args) = e) :
    Gives i s e.bridgeOn := by
  obtain ⟨hl, hb, _⟩ := hc
  have hx : s.chip.engineCmd h code args = e.bridgeOn := by
    unfold Chip.engineCmd
    rw [Chip.onL_on hl.1, Chip.packet_runs hl hb (by simp; omega) (w := .command (BitVec.ofNat 8 code :: args)) (by simp [parseWork]) he,
      ← hd]
    rfl
  rw [← hx]
  exact hi

end Sys2Proof.Machine
end

