-- ==== Sys2Proof/WellFormed.lean ====
section
/-!
DEFINITION. Which commands can be sent at all: what the wires, the length fields and the numbers of pixels and channels allow. Everything
else about a command (addresses, values, states) the machine judges itself.
-/
namespace Sys2Proof

/-- A host packet's payload: LEN has 16 bits (R356). -/
def payloadOk (payload : List Byte) : Bool := payload.length < 65536

/-- The bytes after an engine command's code, which is the first byte of the payload (R98). -/
def argsOk (args : List Byte) : Bool := args.length < 65535

/-- The data of a Nimora command APDU: Lc is one byte (R454, R455). -/
def apduOk (data : List Byte) : Bool := data.length < 256

/-- Samples of one sweep: at most four source slots of 3,024 pixels each (R178), and the monitors of three lasers (R213). -/
def sweepOk (raw : List (List (BitVec 12))) (mon : List (BitVec 24 × BitVec 12)) : Bool :=
  raw.length ≤ 4 && raw.all (fun r => r.length ≤ 3024) && mon.length ≤ 3

/-- A service request by its carrier (R394, R430, R455): the mailbox holds 1,024 bytes with its code outside them (R431), a Turradar payload 1,024 with the
code, an APDU 255. `n` counts the request's bytes after the code. -/
def requestOk (via : Carrier) (n : Nat) : Bool :=
  match via with
  | .mailbox => n ≤ 1024
  | .turradar _ _ => n ≤ 1023
  | .nimora _ le => n < 256 && le.toNat ≤ 256

/-- A service names a byte of a partition with three bytes (R430). -/
def offsetOk (ofs : BitVec 32) : Bool := ofs.toNat < 2 ^ 24

/-- Can the command be sent? -/
def Instr.wf : Instr → Bool
  | .wake _ a | .off _ a | .start _ a | .abort _ a | .drain _ a | .halt _ a | .resume _ a | .clear _ a | .service _ a | .exit _ a
  | .status _ a | .repget _ a | .repack _ a => argsOk a
  | .rd _ p | .wr _ p | .wrn _ p | .blkrd _ p | .blkwr _ p | .tun _ p | .quote _ p => payloadOk p
  | .sweepEnd _ raw mon => sweepOk raw mon
  | .calRunDone sums => sums.length ≤ 24192
  | .ringPush _ _ _ data => data.length ≤ 65535
  | .ep5PrintData data => data.length ≤ 512
  | .spiWrite _ data _ => data.length ≤ 65535
  | .turradarFrameReceived _ _ _ _ payload _ => payload.length ≤ 65535
  | .statusService v | .ident v | .cont v => requestOk v 0
  | .logRead v _ _ => requestOk v 5
  | .paramRead v _ ofs _ => requestOk v 5 && offsetOk ofs
  | .paramWrite v _ _ ofs data => requestOk v (6 + data.length) && offsetOk ofs
  | .time v _ _ => requestOk v 6
  | .updService v _ _ args => requestOk v (3 + args.length)
  | .sensorScan vals => vals.length ≤ 7
  | .nimoraAnticollision _ bits => bits.length ≤ 5
  | .select _ _ aid => apduOk aid
  | .getChallenge _ le | .getResponse le => le.toNat ≤ 256
  | .auth _ data => apduOk data
  | _ => true

end Sys2Proof
end

