-- ==== Sys2Proof/Tests/Slice0.lean ====
section
/-!
SUPPORT. The model's own tests: the well-formedness checks refuse ill-formed terms; single commands give the numbers of the spec; and for every
statement of Certificates/Slice0/Obligations.lean with hypotheses, states and operands that meet them, clause by clause.
-/
namespace Sys2Proof.Tests

set_option Elab.async false

open Sys2Proof.Machine

/-! ### Accepted writes, decided -/

/-- `Accepts`, decided. -/
def acceptsB (c : Chip) (m : Master) (a : Nat) (v : Word) : Bool :=
  c.canAccess m && !c.mustQueue m a && !c.deadRegion a && a % 4 == 0 && decide (NoneWaiting c) &&
    match locate a with
    | none => false
    | some l => l.alias_ == 0 && decide (l.off < 0x800) && c.permits m l.page l.off v && (l.off != 0x20 || c.ownOk m l.page.base v) &&
        hookPre m a v c == St.ok && c.stateOk m l.page l.off v

theorem accepts_of {c : Chip} {m : Master} {a : Nat} {v : Word} (h : acceptsB c m a v = true) : Accepts c m a v := by
  unfold acceptsB at h
  simp only [Bool.and_eq_true] at h
  obtain ⟨⟨⟨⟨⟨h1, h1'⟩, h2⟩, h3⟩, h4⟩, h5⟩ := h
  cases hl : locate a with
  | none => simp [hl] at h5
  | some l =>
    simp only [hl, Bool.and_eq_true, Bool.or_eq_true] at h5
    obtain ⟨⟨⟨⟨⟨g1, g2⟩, g3⟩, g4⟩, g5⟩, g6⟩ := h5
    refine ⟨h1, by simpa using h1', by simpa using h2, by simpa using h3, of_decide_eq_true h4, l, hl, by simpa using g1, by simpa using g2, g3, ?_,
      by simpa using g5, g6⟩
    intro ho
    rcases g4 with g | g
    · simp [ho] at g
    · exact g

/-! ### States -/

/-- The chip with the L-die and the D-die on. -/
def up : Chip := let c := State.reset.chip; { c with fab := { c.fab with lco := true, lio := true, dst := true } }

/-- The chip with no domain powered. -/
def dead : Chip := let c := State.reset.chip; { c with fab := { c.fab with pst := false, aon := false, fnv := false } }

/-- A machine with no command waiting. -/
def st (c : Chip) : State := { chip := c, pending := [] }

/-- A client of the host, open on USB, with every right. -/
def cli : Client := { resetClient 0 with opened := true }

/-- The chip with the host link up on both interfaces and client 0 open on USB. -/
def linked : Chip :=
  let c := ((up.set Fld.BRG_CTL_EN).put Fld.BRG_USTA_ST 4).set Fld.BRG_IFC_SPIE
  { c with hb := { c.hb with clients := [(0, cli)] } }

/-- The chip with the supply good and its reserve valid: a commit may be made (R410). -/
def fed (c : Chip) : Chip := (c.set Fld.RES_STA_VALID).put Fld.HRV_STA_SRC 0

/-- A packet header of client 0. -/
def hdr : Hdr := { spi := false, clid := 0#8, tag := 7#8, flags := 0#8, seq := 3#16 }

/-- An item of client 0. -/
def itm : Item :=
  { id := 5, client := 0#8, flags := 1, prof := 0, href := 0, len := 600, hgt := 500, await := 1000, slots := 1, sfmt := 0, bands := 0, mjob := 0,
    phase := 1, page := 0, tacc := 0, tadm := 0, refusal := 0#8, reason := none, fseq := 0, ending := none, waitStop := false, closing := false,
    decided := false, qual := false, marked := false, pmark := false, strand := false, rcv := false, linF := 0, linR := 0, bndm := 0, mlen := 0 }

/-! ### Witnesses: the queue, reset, domains, bridge, boot -/

theorem w_StepsAlwaysAnswer : (st up).pending = [] ∧ AOn (st up).chip ∧ (st dead).pending = [] ∧ (st dead).chip.fab.aon = false := by decide +kernel

theorem w_UnpoweredStays :
    Unpowered dead ∧ (∀ c ∈ [Instr.idleEntry, .keygen], c.powersUp = false) ∧
      ∃ t, step { chip := dead, pending := [.idleEntry, .keygen] } = .next t := ⟨by decide +kernel, by decide +kernel, _, rfl⟩

theorem w_DarkLDieInert :
    State.reset.chip.lRuns = false ∧ ({ up with fab := { up.fab with standby := true } } : Chip).lRuns = false ∧
      Instr.needsLDie .idleEntry = true ∧ Instr.needsLDie (.registerWrite (.host 0#8) 0#32 0#32) = true := by decide +kernel

/-- The bridge trained, a frame of each direction in flight, `n` bad frames from L to P so far. -/
def trained (n : Nat) : Chip :=
  let c := up.set Fld.DBR_LST_TRND
  { c with fab := { c.fab with badLP := n, downFlight := some Fabric.reset.down, upFlight := some Fabric.reset.up } }

/-- Readings of a supply at 36 V, everything else 0. -/
def rd0 : Readings :=
  { vin := 36000#16, iin := 0#16, pin := 0#16, vres := 0#16, th0 := 0#12, th1 := 0#12, hvf0 := 0#12, hvf1 := 0#12, hvf2 := 0#12, hvf3 := 0#12,
    hcur0 := 0#16, hcur1 := 0#16, hcur2 := 0#16, hcur3 := 0#16, rpm := 0#16 }

/-- The trained bridge on a chip with a thermistor table. -/
def tabled : Chip := let c := trained 0; { c with alm := { c.alm with ttab := [900, 800] } }

theorem w_RtFrames :
    (tabled.fab.pst = true ∧ LOn (tabled.setReadings rd0) ∧ (tabled.setReadings rd0).fab.retraining = false ∧
      (tabled.setReadings rd0).on Fld.DBR_LST_TRND = true) ∧
    (LOn (trained 0) ∧ (trained 0).fab.retraining = false ∧ (trained 0).on Fld.DBR_LST_TRND = true ∧
      (trained 0).fab.downFlight = some Fabric.reset.down ∧ (trained 0).fab.upFlight = some Fabric.reset.up ∧ Fabric.reset.up.reports = [] ∧
      Fabric.reset.up.lossLP = false ∧ Fabric.reset.up.pfail = false ∧ (trained 0).on Fld.FLT_STA_ENTRY = false ∧
      (trained 0).get Fld.PSY_BST_STG ≠ 0x0A ∧ (trained 0).fab.badPL < 2) ∧
    (LOn (trained 1) ∧ (trained 1).fab.retraining = false ∧ (trained 1).on Fld.DBR_LST_TRND = true ∧ (trained 1).fab.badLP < 2) ∧
    (LOn (trained 2) ∧ (trained 2).fab.retraining = false ∧ (trained 2).on Fld.DBR_LST_TRND = true ∧ (trained 2).fab.badLP = 2) := by decide +kernel

theorem w_BridgeLoss :
    (LOn up ∧ up.fab.retraining = false ∧ up.fab.lossLP = false ∧ up.fab.lossPL = false) ∧
    (let c := { up with fab := { up.fab with lossLP := true, lossPL := true } }
     LOn c ∧ c.fab.retraining = false ∧ c.fab.lossLP = true ∧ c.fab.lossPL = true) ∧
    (let c := { up with fab := { up.fab with retraining := true } }
     LOn c ∧ c.fab.retraining = true) := by decide +kernel

/-- A posted write of Almanac and a held read of the debugger. -/
def post : PostedWrite := { master := .alm, addr := Reg.RTC_ALRM, value := 5#32 }
def hrd : HeldRead := { master := .debug, addr := Reg.RTC_ALRM, dst := 0 }

theorem w_BridgeQueue :
    (let c := { up with fab := { up.fab with posted := [post] } }
     mHost .alm = false ∧ LOn c ∧ c.hb.reqs = [] ∧ c.fab.retraining = false ∧ takePosted .alm c.fab.posted = some (post, []) ∧
       post.addr ≠ Reg.UPD_CMD) ∧
    (let c := { up with fab := { up.fab with reads := [{ hrd with master := .orr 0, dst := 1 }] } }
     mHost (.orr 0) = false ∧ LOn c ∧ c.hb.reqs = [] ∧ c.fab.retraining = false ∧ c.fab.reads = [{ hrd with master := .orr 0, dst := 1 }] ∧
       c.fab.posted = []) ∧
    (let c := { up with fab := { up.fab with reads := [hrd] }, dbg := { up.dbg with accSts := 1 } }
     mHost .debug = false ∧ LOn c ∧ c.hb.reqs = [] ∧ c.fab.retraining = false ∧ hrd.master = .debug ∧ hrd.dst = 0 ∧ c.dbg.accSts = 1 ∧
       c.fab.reads = [hrd] ∧ c.fab.posted = [] ∧ takePosted .debug c.fab.posted = none) := by decide +kernel

theorem w_Retraining :
    Accepts up (.orr 0) Reg.DBR_TRN 1#32 ∧ up.fab.retraining = false ∧ up.engine = Eng.off ∧
      (let c := { up with fab := { up.fab with retraining := true } }
       Accepts c (.orr 0) Reg.DBR_TRN 1#32 ∧ LOn c ∧ c.fab.retraining = true ∧ c.engine = Eng.off) :=
  ⟨accepts_of (by decide +kernel), by decide +kernel, by decide +kernel, accepts_of (by decide +kernel), by decide +kernel⟩

theorem w_Mirrors :
    LOn up ∧ up.fab.retraining = false ∧ (up.set (Fld.DBR_MSRC_EN 15)).on (Fld.DBR_MSRC_EN 15) = true ∧
      (up.clr (Fld.DBR_MSRC_EN 0)).on (Fld.DBR_MSRC_EN 0) = false ∧
      pRegister (0x50000000 + 4 * (up.put (Fld.DBR_MSRC_WOFS 15) 0).get (Fld.DBR_MSRC_WOFS 15)) = true ∧
      pRegister (0x50000000 + 4 * (up.put (Fld.DBR_MSRC_WOFS 15) 0x7FF).get (Fld.DBR_MSRC_WOFS 15)) = false ∧
      ({ up with fab := { up.fab with retraining := true } }).fab.retraining = true := by decide +kernel

/-- The boot at a stage. -/
def boot (g : Nat) : Chip := up.put Fld.PSY_BST_STG g

/-- The clauses whose hypothesis is a verified image rest on the opaque digest and signature check of Config; every other one has its state here. -/
theorem w_BootStages :
    (∀ g ∈ [0, 1, 2, 3, 4, 5, 6, 7, 8, 9], AOn (boot g) ∧ (boot g).get Fld.PSY_BST_FAIL = 0 ∧ (boot g).pow.pfail = false ∧
      (boot g).get Fld.PSY_BST_STG = g) ∧
      (boot 1).syncUpd.romChoice.1 = none ∧ (boot 2).vinStarts = true ∧ (boot 7).loadSteps = none ∧ (boot 6).fab.lco = true ∧
      (boot 8).get Fld.RES_VRES_MV < 30000 ∧
      (let c := (boot 8).put Fld.RES_VRES_MV 30000
       let d := { c with ret := { c.ret with cause := 5 } }
       AOn d ∧ d.get Fld.PSY_BST_STG = 8 ∧ d.ret.cause = 5 ∧ d.get Fld.RES_VRES_MV = 30000) ∧
      (let c := { boot 9 with pow := { (boot 9).pow with passed := true } }
       AOn c ∧ c.get Fld.PSY_BST_STG = 9 ∧ c.pow.passed = true) := by decide +kernel

theorem w_BootPor : dead.fab.aon = false ∧ dead.ret.ship = false ∧ (Supply.vsys = .vsys) := by decide

/-- The boot ROM at stage ROM with a failed slot and one record to write, supply good. -/
def rom : Chip :=
  let c := (fed State.reset.chip).put Fld.PSY_BST_STG 1 |>.put Fld.PSY_BST_FAIL 1
  { c with alm := { c.alm with staged := [{ lseq := 1, cls := 1, bytes := List.replicate 32 1#8 }] } }

theorem w_BootRecord :
    (AOn rom ∧ rom.romMode = true ∧ rom.logReady ≠ [] ∧ rom.gst = 0 ∧ (rom.ownGroup false (rom.logPages rom.logIndex rom.logReady)).1 = St.ok) ∧
      (AOn (boot 7) ∧ (boot 7).get Fld.PSY_BST_STG = 7 ∧ (boot 7).get Fld.PSY_BST_FAIL = 0) := by decide +kernel

/-! ### Witnesses: register pages -/

theorem w_BusErrorCapture :
    (0xFFFFFFFF < 2 ^ 32 ∧ 3 < 4 ∧ Master.host 0xFF#8 ≠ .alm) ∧ up.on Fld.SYS_BES_VLD = false ∧ (up.set Fld.SYS_BES_VLD).on Fld.SYS_BES_VLD = true ∧
      up.on Fld.PSY_BES_VLD = false ∧ (up.set Fld.PSY_BES_VLD).on Fld.PSY_BES_VLD = true := by decide +kernel

theorem w_AliasAndTwinReads :
    ∃ p, pageAt Pg.FLT = some p ∧ p.base = Pg.FLT ∧ up.deadRegion Pg.FLT = false ∧ MayRead up (.orr 0) Pg.FLT ∧
      guardedAt p 0x5C = true ∧ guardedAt p 0x7FC = false :=
  ⟨_, rfl, by decide +kernel, by decide +kernel, trivial, by decide +kernel, by decide +kernel⟩

theorem w_PlainAlias : LOn up ∧ NoneWaiting up ∧ (up.set (hEN Pg.IMG)).on (hEN Pg.IMG) = true ∧ NoneWaiting (up.set (hEN Pg.IMG)) := by decide +kernel

theorem w_RefusedWrites :
    (let c := up.set (hEN Pg.ENC)
     LOn c ∧ NoneWaiting c ∧ c.on (hEN Pg.ENC) = true ∧ 0x1234#32 ≠ c.rd (Reg.ENC_OLS 0)) ∧
    (up.canAccess .hel = true ∧ mHost .hel = false ∧ up.bridgeMute = false ∧ Settled up ∧ 0x84000000 ≤ (0x84000000#32).toNat ∧ (0x84000000#32).toNat % 4 = 0) := by
  decide +kernel

/-- A guard armed on FLT.SSTO by context 0. -/
def arm (v : Word) : GuardLatch := { page := Pg.FLT, off := 0x5C, value := v, master := .orr 0 }
def armed (v : Word) : Chip := { up with guards := [arm v] }

theorem w_GuardedPair :
    (LOn up ∧ Settled up ∧ up.held = [] ∧ up.latch Pg.FLT = none) ∧
    (LOn (armed 50#32) ∧ (armed 50#32).shadows = [] ∧ (armed 50#32).held = [] ∧ 50 ≤ bitsOf (50#32).toNat 0 13 ∧ bitsOf (50#32).toNat 0 13 ≤ 5000 ∧
      (armed 50#32).guards = [{ page := Pg.FLT, off := 0x5C, value := 50#32, master := .orr 0 }]) ∧
    (LOn (armed 5000#32) ∧ (armed 5000#32).shadows = [] ∧ (armed 5000#32).held = [] ∧ 50 ≤ bitsOf (5000#32).toNat 0 13 ∧ bitsOf (5000#32).toNat 0 13 ≤ 5000 ∧
      (armed 5000#32).guards = [{ page := Pg.FLT, off := 0x5C, value := 5000#32, master := .orr 0 }]) ∧
    Settled (armed 50#32) ∧ 51#32 ≠ ~~~50#32 ∧ AOn (armed 50#32) ∧ ∃ pg : PageSel, (arm 50#32).page = pageBase pg := by decide +kernel

theorem w_CfsDrop :
    (let c := up.set (hEN (pageBase 0))
     let c := { c with doc := { c.doc with items := [{ itm with phase := 2 }] } }
     LOn c ∧ AOn c ∧ c.guards = [] ∧ c.held = [] ∧ c.mustQueue (.orr 0) (pageBase 0 + 0x1C) = false ∧ c.noneAdmitted = false ∧ c.on (hEN (pageBase 0)) = true) := by decide +kernel

/-- A write of ENC.OLS0 that waits. -/
def hw (j : Bool) : HeldWrite := { page := Pg.ENC, addr := Reg.ENC_OLS 0, value := 5#32, master := .orr 0, judged := j }

theorem w_HeldWrites :
    (∃ pg : PageSel, pageBase pg = Pg.ENC) ∧ gateOf Pg.ENC = Pg.ENC ∧
    (∀ j : Bool,
      let c := { up with held := [hw j] }
      AOn c ∧ c.on (hENA (gateOf Pg.ENC)) = false ∧ (hw j).page = Pg.ENC ∧ c.held = [hw j] ∧ (locate (hw j).addr).isSome = true) ∧
    (let c := { up with held := [hw true] }
     AOn c ∧ c.on (hENA Pg.ENC) = false ∧ c.on (hEN Pg.ENC) = false ∧ c.shadows = [] ∧
       c.held = [{ page := Pg.ENC, addr := Reg.ENC_OLS 0, value := 5#32, master := .orr 0 }]) ∧
    (up.set (hENA Pg.ENC)).on (hENA (gateOf Pg.ENC)) = true := by decide +kernel

theorem w_HeldAndStopped :
    (let c := up.set (hENA Pg.ENC)
     AOn c ∧ Pg.ENC ≠ Pg.MER ∧ c.on (hEN Pg.ENC) = false ∧ c.on (hENA Pg.ENC) = true ∧ c.atRest Pg.ENC = true) ∧
    (let c := up.set (hENA Pg.MER)
     AOn c ∧ c.on Fld.MER_CTL_EN = false ∧ c.on Fld.MER_STA_ENA = true ∧ c.noSweep = true ∧ c.on Fld.MER_STA_LOCK = false) ∧
    ∃ pg : PageSel, pageBase pg = Pg.MER := by decide +kernel

theorem w_Ownership :
    ∃ pg : PageSel, pageBase pg = Pg.IMG ∧
      (∀ b : Bool, Accepts (if b then linked.set (hEN Pg.IMG) else (linked.set (hEN Pg.IMG)).set (hOVLD Pg.IMG)) (.host 0#8) (pageBase pg + 0x20)
        (BitVec.ofNat 32 (256 * b.toNat))) ∧
      (∀ b : Bool, (if b then linked.set (hEN Pg.IMG) else (linked.set (hEN Pg.IMG)).set (hOVLD Pg.IMG)).on (hEN (pageBase pg)) = true) ∧
      (let c := (linked.set (hOVLD (pageBase pg))).put (hOCLID (pageBase pg)) 9
       c.canAccess (.host 0#8) = true ∧ c.mustQueue (.host 0#8) (pageBase pg + 0x20) = false ∧ Settled c ∧ c.held = [] ∧ c.deadRegion (pageBase pg) = false ∧ c.latch (pageBase pg) = none ∧
         c.on (hOVLD (pageBase pg)) = true ∧ c.get (hOCLID (pageBase pg)) ≠ (0#8).toNat) := by
  have h : ∃ pg : PageSel, pageBase pg = Pg.IMG := by decide +kernel
  obtain ⟨pg, hpg⟩ := h
  refine ⟨pg, hpg, ?_, ?_, ?_⟩
  · intro b
    rw [hpg]
    cases b <;> exact accepts_of (by decide +kernel)
  · rw [hpg]
    decide +kernel
  · rw [hpg]
    decide +kernel

/-! ### Witnesses: the document engine -/

/-- DOC takes commands, the engine in state `e`. -/
def eng (e : Nat) : Chip := (linked.set Fld.DOC_CTL_EN).put Fld.DOC_ST_ST e

/-- The same chip with its boot done. -/
def at10 (c : Chip) : Chip := c.put Fld.PSY_BST_STG 0x0A

theorem w_EngineStart (e : Nat) (h : e = Eng.off ∨ e = Eng.ready) :
    CommandIn (at10 (eng e)) hdr ∧ (at10 (eng e)).mayX hdr.clid.toNat Pg.DOC = true ∧ (at10 (eng e)).engine = e ∧
      (at10 (eng e)).dbg.extest = false ∧ (at10 (eng e)).get Fld.PSY_BST_STG = 0x0A := by
  rcases h with rfl | rfl <;> decide +kernel

theorem w_EngineStateCommands (e : Nat) (h : e = Eng.run ∨ e = Eng.halt ∨ e = Eng.fault ∨ e = Eng.service) :
    CommandIn (eng e) hdr ∧ (eng e).mayX hdr.clid.toNat Pg.DOC = true ∧ (eng e).engine = e := by
  rcases h with rfl | rfl | rfl | rfl <;> decide +kernel

theorem w_EngineLeaves :
    ((eng Eng.halt).command hdr (leBytes 1 Cmd.resume)).pathEmpty = true ∧ ((eng Eng.fault).command hdr (leBytes 1 Cmd.clear)).clearable = true ∧
    (let d := ((((eng Eng.fault).command hdr (leBytes 1 Cmd.clear)).releaseLL).clr Fld.FUS_STA_CUT).clr Fld.FLT_STA_SAFE
     d.doc.items = [] ∧ d.doc.cand = [] ∧ d.engine = Eng.fault) ∧
    (let d := (eng Eng.service).command hdr (leBytes 1 Cmd.exit)
     d.doc.items = [] ∧ d.doc.cand = [] ∧ d.engine = Eng.service) := by
  decide +kernel

/-- READY with a profile in which a front scan fits. -/
def scan : Chip := (((eng Eng.ready).put (Fld.MOT_PROFA_V 0) 100).put (Fld.MOT_PROFB_K 0) 256).put Fld.MER_SLT_EN 1

/-- The operands of a START of a front scan, 600 by 500, one slot. -/
def startArgs : List Byte := [1, 0, 0, 0, 0] ++ leBytes 2 600 ++ leBytes 2 500 ++ leBytes 2 1000 ++ [1, 0, 0, 0, 0, 0, 0, 0]

theorem w_Start :
    (CommandIn scan hdr ∧ scan.mayW hdr.clid.toNat Pg.DOC = true ∧ startArgs.length = 19 ∧ scan.engine = Eng.ready) ∧
    (let d := scan.command hdr (leBytes 1 Cmd.start ++ startArgs)
     d.startCheck (leBytes 1 Cmd.start ++ startArgs) (d.declared hdr.clid (leBytes 1 Cmd.start ++ startArgs)) = St.ok) ∧
    (CommandIn (eng Eng.off) hdr ∧ (eng Eng.off).engine ≠ Eng.ready ∧ (eng Eng.off).engine ≠ Eng.run) := by decide +kernel

/-- An item of client 0 in the engine. -/
def withItem (e : Nat) (x : Item) : Chip := let c := eng e; { c with doc := { c.doc with items := [x] } }

theorem w_AbortHalt :
    (CommandIn (withItem Eng.run itm) hdr ∧ (withItem Eng.run itm).mayW hdr.clid.toNat Pg.DOC = true ∧ (leBytes 4 5).length = 4 ∧
      (withItem Eng.run itm).ownerOf (ofLeBytes (leBytes 4 5)) = some hdr.clid.toNat ∧ ofLeBytes (leBytes 4 5) ≠ lostId) ∧
    (let s := withItem Eng.run itm
     BridgeIdle ((s.event Ev.halt).haltNow) ∧
       (((s.event Ev.halt).haltNow).inHand hdr 6 (.command (leBytes 1 Cmd.halt))).mayW hdr.clid.toNat Pg.DOC = true) := by decide +kernel

/-- A closed record of item 5, client 0, in journal page 0. -/
def closed : Chip := (eng Eng.ready).setBytes (pageAddr 0) ([2, 0, 0, 0] ++ leBytes 4 5)

/-- A closed record of a lost item in journal page 0. -/
def lostOne : Chip := (eng Eng.ready).setBytes (pageAddr 0) ([2, 0, 0, 0] ++ leBytes 4 lostId)

theorem w_StatusAndReports :
    (CommandIn closed hdr ∧ closed.mayR hdr.clid.toNat Pg.DOC = true ∧ closed.mayW hdr.clid.toNat Pg.DOC = true) ∧
    (let d := closed.inHand hdr 6 (.command (leBytes 1 Cmd.repget ++ leBytes 4 5))
     (d.ownerOf 5).isSome = true) ∧
    (let d := closed.inHand hdr 6 (.command (leBytes 1 Cmd.repack ++ leBytes 4 5))
     (d.ownerOf 5).isSome = true ∧ d.repackPages hdr.clid 5 ≠ []) ∧ ofLeBytes (leBytes 4 5) = 5 ∧ 5 ≠ lostId := by decide +kernel

theorem w_LostReports :
    (CommandIn lostOne hdr ∧ lostOne.mayX hdr.clid.toNat Pg.DOC = true ∧ (leBytes 4 lostId).length = 4 ∧ ofLeBytes (leBytes 4 lostId) = lostId ∧
      (lostOne.inHand hdr 6 (.command (leBytes 1 Cmd.repget ++ leBytes 4 lostId))).lostPages = 0 :: [] ∧
      (lostOne.inHand hdr 6 (.command (leBytes 1 Cmd.repack ++ leBytes 4 lostId))).lostPages ≠ []) ∧
    (closed.mayX hdr.clid.toNat Pg.DOC = true ∧
      (closed.inHand hdr 6 (.command (leBytes 1 Cmd.repget ++ leBytes 4 lostId))).lostPages = []) := by decide +kernel

/-- WAKING with roles PICKX, READ and EXIT present and the polygon in lock. -/
def awake : Chip :=
  (((eng Eng.waking).put (Fld.SNS_SCFG_ROLE 0) Role.pickx).put (Fld.SNS_SCFG_ROLE 1) Role.read).put (Fld.SNS_SCFG_ROLE 2) Role.exit |>.set
    Fld.MER_STA_LOCK

/-- A chip whose TH0 is `t` with the band 1000 ± 10 (5 × 2). -/
def heatAt (e t : Nat) (inBand : Bool) : Chip :=
  let c := ((((((eng e).put Fld.MRK_FSET_T 1000).put Fld.FUS_TCEIL_T 2000).put Fld.LGR_HEAT_BLO 2).put Fld.LGR_HEAT_BHI 2).put (Fld.DBR_MVAL_V 6)
    t).set Fld.DOC_BCFG_MARK
  { c with doc := { c.doc with heatBand := inBand } }

theorem w_EngineEvents :
    (LOn awake ∧ awake.engine = Eng.waking ∧ awake.missingRole = none ∧ awake.on Fld.MER_STA_LOCK = true ∧ awake.homed = true ∧
      awake.on Fld.DOC_BCFG_MARK = false) ∧
    (LOn (eng Eng.waking) ∧ (eng Eng.waking).engine = Eng.waking ∧ LOn (eng Eng.warmup) ∧ (eng Eng.warmup).engine = Eng.warmup) ∧
    (LOn ((eng Eng.ready).put Fld.DOC_BIDT_T 1) ∧ ((eng Eng.ready).put Fld.DOC_BIDT_T 1).engine = Eng.ready ∧
      ((eng Eng.ready).put Fld.DOC_BIDT_T 1).doc.items = [] ∧ ((eng Eng.ready).put Fld.DOC_BIDT_T 1).doc.cand = [] ∧ ((eng Eng.ready).put Fld.DOC_BIDT_T 1).get Fld.DOC_BIDT_T ≠ 0) ∧
    (let c := heatAt Eng.warmup 1010 false
     LOn c ∧ c.engine = Eng.warmup ∧ c.th0InBand = true ∧ c.doc.heatBand = false) ∧
    (let c := heatAt Eng.ready 1011 true
     LOn c ∧ c.th0InBand = false ∧ c.doc.heatBand = true ∧ c.engine = Eng.ready ∧ c.granted = 0 ∧ c.on Fld.DOC_BCFG_MARK = true) := by
  decide +kernel

theorem w_ItemEvents :
    (let x := { itm with closing := true }
     let c := withItem Eng.run x
     let c := { c with doc := { c.doc with commits := [⟨.close, 5⟩] } }
     LOn c ∧ c.gst = 0 ∧ c.doc.commits = ⟨.close, x.id⟩ :: [] ∧ c.item x.id = some x) ∧
    (let r : HeldRec := { item := itm, bytes := List.replicate 64 2#8 }
     let c := fed { up with doc := { up.doc with held := [r] } }
     AOn c ∧ c.doc.held = [r] ∧ r.item.id = (5#32).toNat ∧ r.item.rcv = false ∧ r.item.id ≠ lostId ∧ c.fab.lco = true ∧ (c.jCommit r.item.page (r.stamped c.doc.jseq)).1 = St.ok) ∧
    (let c := withItem Eng.run itm
     LOn c ∧ c.item (5#32).toNat = some itm ∧ itm.queued = true ∧ itm.settled = false ∧ c.isGranted (5#32).toNat = false ∧ itm.await ≠ 0) ∧
    (let x := { itm with phase := 5 }
     let c := withItem Eng.run x
     let c := { c with img := { c.img with recs := [{ stn := 0, item := 5, bytes := [] }] } }
     LOn c ∧ c.item (5#32).toNat = some x ∧ x.phase = 5 ∧ x.settled = false ∧ c.drained (5#32).toNat = false) ∧
    (let c := withItem Eng.run itm
     let c := { c with doc := { c.doc with ready := [(5, [])] } }
     LOn c ∧ c.doc.ready = ((5#32).toNat, []) :: [] ∧ c.item (5#32).toNat = some itm) := by decide +kernel

/-! ### Witnesses: supply, reserve, ledger -/

/-- The supply checks of R125 at 3.30 V hundreds: VPF 33.0 V, BWO 2.0 V. -/
def vpf : Chip := (up.put Fld.PWR_VPF_VPF 330).put Fld.PWR_VPF_BWO 20

theorem w_SupplyEvents :
    (POn up ∧ (up.put Fld.PWR_VIN_MV 42001).on Fld.PWR_STA_OV = false ∧ 42000 < (42001#16).toNat) ∧
    (POn (up.set Fld.PWR_STA_OV) ∧ (up.set Fld.PWR_STA_OV).on Fld.PWR_STA_OV = true ∧ (41000#16).toNat ≤ 41000) ∧
    (POn vpf ∧ vpf.on Fld.PWR_STA_BW = false ∧ (34999#16).toNat < (vpf.get Fld.PWR_VPF_VPF + vpf.get Fld.PWR_VPF_BWO) * 100) ∧
    (POn vpf ∧ (vpf.set Fld.PWR_STA_BW).on Fld.PWR_STA_BW = true ∧
      ((vpf.set Fld.PWR_STA_BW).get Fld.PWR_VPF_VPF + (vpf.set Fld.PWR_STA_BW).get Fld.PWR_VPF_BWO) * 100 + 200 ≤ (35200#16).toNat) ∧
    (POn vpf ∧ vpf.pow.pfail = false ∧ (32999#16).toNat < vpf.get Fld.PWR_VPF_VPF * 100 ∧ ({ vpf with pow := { vpf.pow with pfail := true } }).pow.pfail = true) ∧
    (let c := { up with pow := { up.pow with safeStop := true } }
     AOn c ∧ c.pow.safeStop = true ∧ c.pow.vinReturn = false) ∧
    (let c := { up with pow := { up.pow with safeStop := true, vinReturn := true } }
     AOn c ∧ c.pow.safeStop = true ∧ c.pow.vinReturn = true) := by decide +kernel

/-- Limits of 25 W and 1 A. -/
def limited : Chip := (up.put Fld.LGR_PLIM_W 100).put Fld.PWR_ILIM_A 10

theorem w_RailsAndLimiter :
    (POn (boot 0x0A) ∧ (0#16).toNat < railGood 0 ∧ 0x0A ≤ (boot 0x0A).get Fld.PSY_BST_STG) ∧
    (POn (boot 5) ∧ (boot 5).get Fld.PSY_BST_STG < 6 ∧ (boot 5).get Fld.PSY_BST_FAIL = 0) ∧
    (let c := { State.reset.chip with pow := { State.reset.chip.pow with railsFailed := true } }
     POn c ∧ c.pow.railsFailed = true ∧ c.fab.lco = false) ∧
    (let s := limited
     let c := s.setInput 2501 0
     POn s ∧ c.plim < (2501#16).toNat ∧ c.on Fld.PWR_STA_SHED = false) ∧
    (let s := (limited.set Fld.PWR_STA_SHED).put Fld.FUS_DTY_D 500
     let c := s.setInput 100 1001
     POn s ∧ c.ilim < (1001#16).toNat ∧ c.on Fld.PWR_STA_SHED = true ∧ c.on Fld.RES_STA_CHRG = false ∧ 0 < s.get Fld.FUS_DTY_D) ∧
    (let s := (((limited.set Fld.PWR_STA_SHED).set Fld.RES_STA_CHRG).put Fld.RES_VRES_MV 30000).put Fld.RES_CHG_ICHG 100
     let c := s.setInput 2600 0
     POn s ∧ c.plim < (2600#16).toNat ∧ c.on Fld.PWR_STA_SHED = true ∧ c.on Fld.RES_STA_CHRG = true ∧
       (2600#16).toNat ≤ c.plim + c.chargeDraw) ∧
    (let s := limited.set Fld.PWR_STA_SHED
     let c := s.setInput 2500 1000
     POn s ∧ c.on Fld.PWR_STA_SHED = true ∧ (2500#16).toNat + (if c.pow.chargerPaused then c.chargeDraw else 0) ≤ c.plim ∧
       (1000#16).toNat ≤ c.ilim) ∧
    (let s := limited.set Fld.PWR_STA_SHED
     let c := s.put Fld.PWR_PIN_CW 2626
     POn s ∧ c.on Fld.PWR_STA_SHED = true ∧ c.get Fld.FUS_DTY_D = 0 ∧ c.plim * 105 < (2626#16).toNat * 100) ∧
    (let c := limited.put Fld.PWR_IIN_MA 1251
     POn limited ∧ c.ilim * 5 < (1251#16).toNat * 4) := by decide +kernel

theorem w_TcmdRun :
    Accepts (up.put Fld.RES_VRES_MV 30000) .alm Reg.RES_TCMD 1#32 ∧ (up.put Fld.RES_VRES_MV 30000).pow.pfail = false ∧
      (up.put Fld.RES_VRES_MV 30000).on Fld.RES_STA_TBUSY = false := ⟨accepts_of (by decide +kernel), by decide +kernel⟩

/-- A reserve test under way, the limits C 10 and ESR 20. -/
def testing : Chip := ((up.set Fld.RES_STA_TBUSY).put Fld.RES_TCFG_CMIN 10).put Fld.RES_TCFG_EMAX 20

theorem w_Reserve :
    (let c := up.put Fld.RES_VRES_MV 30000
     POn c ∧ c.pow.pfail = false ∧ c.on Fld.RES_STA_TBUSY = false ∧ 30000 ≤ c.get Fld.RES_VRES_MV) ∧
    (POn (boot 9) ∧ (boot 9).pow.pfail = false ∧ (boot 9).on Fld.RES_STA_TBUSY = false ∧ (boot 9).get Fld.PSY_BST_STG = 9) ∧
    (POn testing ∧ testing.on Fld.RES_STA_TBUSY = true ∧ testing.get Fld.RES_TCFG_CMIN ≤ (10#16).toNat ∧
      (20#12).toNat ≤ testing.get Fld.RES_TCFG_EMAX ∧ (9#16).toNat < testing.get Fld.RES_TCFG_CMIN ∧ testing.get Fld.RES_TCFG_EMAX < (21#12).toNat ∧
      testing.fab.lco = true ∧ testing.fab.standby = false ∧ testing.fab.lossPL = false ∧ testing.get Fld.PSY_BST_STG ≠ 9) ∧
    (let s := testing.put Fld.PSY_BST_STG 9
     let s := { s with pow := { s.pow with bootFails := 2 } }
     let b := ((s.put Fld.RES_TRES_ESR 20).put Fld.RES_TRES_C 9).clr Fld.RES_STA_TBUSY
     let d := (((({ b with pow := { b.pow with passed := false, bootFails := b.pow.bootFails + 1 } }).set Fld.RES_STA_TFAIL).set
       Fld.RES_IST_TFAIL).setValid false)
     let e := d.raiseP (report 0x0106 0 0 (d.rd Reg.RES_TRES).toNat)
     e.get Fld.PSY_BST_STG = 9 ∧ 3 ≤ e.pow.bootFails ∧ e.get Fld.PSY_BST_FAIL = 0) := by decide +kernel

/-- A queued scan that fits: the ledger has all it needs for it 20 bins from now. -/
def itq : Item := { itm with phase := 1, len := 6000 }
def ldg : Chip :=
  ((((((((withItem Eng.ready itq).put Fld.LGR_SCHED_LEAD 20).put Fld.LGR_PLIM_W 60000).put Fld.LGR_SCHED_DEFER 100).put
    (Fld.DBR_MVAL_V 5) 256).set Fld.LGR_XBYP_STORE).set Fld.LGR_CTL_XP).set Fld.CST_CTL_EN)

theorem w_Ledger :
    (let c := eng Eng.ready
     let d := { c with doc := { c.doc with commits := [⟨.close, 5⟩] } }
     LOn d ∧ d.engine = Eng.ready ∧ d.fab.up.pfail = false ∧ d.doc.commits ≠ [] ∧ d.doc.singles = [] ∧ d.doc.items = []) ∧
    (let c := eng Eng.ready
     LOn c ∧ c.engine = Eng.ready ∧ c.doc.commits = [] ∧ c.doc.singles = [] ∧ c.doc.items = []) ∧
    (LOn (eng Eng.off) ∧ (eng Eng.off).engine ≠ Eng.ready ∧ (eng Eng.off).engine ≠ Eng.run) ∧
    LOn up ∧ up.mot.tracks = [] ∧ up.on Fld.ORR_CTL_EN = false ∧ (up.set Fld.ORR_CTL_EN).on Fld.ORR_CTL_EN = true := by decide +kernel

theorem w_LedgerGrants :
    LOn ldg ∧ ldg.engine = Eng.ready ∧ ldg.fab.up.pfail = false ∧ ldg.doc.commits = [] ∧ ldg.doc.items = [itq] ∧ itq.queued = true ∧
      itq.settled = false ∧
      (let d := { ldg with pow := { ldg.pow with decideDue := false } }
       (d.tryOffsets itq (d.get Fld.LGR_SCHED_LEAD) none (d.get Fld.LGR_SCHED_DEFER / 5 + 1)).2 = some 20) := by decide +kernel

/-! ### Witnesses: Meridian, imaging, calibration -/

/-- Meridian enabled with WMIN 8 and MISS 3, tracking or not. -/
def mer (tr : Bool) : Chip :=
  let c := ((up.set Fld.MER_STA_ENA).put Fld.MER_BDF_WMIN 8).put Fld.MER_BDF_MISS 3
  { c with mer := { c.mer with tracking := tr, meas := tr } }

theorem w_BeamDetect :
    LOn (mer true) ∧ (mer true).padIn 28 = true ∧ (mer true).on Fld.MER_STA_ENA = true ∧ (7#16).toNat < (mer true).get Fld.MER_BDF_WMIN ∧
      (mer true).get Fld.MER_BDF_WMIN ≤ (8#16).toNat ∧ (mer true).mer.tracking = true ∧ (mer true).mer.meas = true ∧
      (mer true).inWindow ((mer true).bdStamp 1000000).1 = false ∧ (mer true).inWindow ((mer true).bdStamp (mer true).predBd).1 = true ∧
      ((mer true).put Fld.CLK_STA_SSD 0).get Fld.CLK_STA_SSD = 0 ∧ ((mer true).put Fld.MER_SSC_MODE 1).get Fld.MER_SSC_MODE ≠ 2 ∧
      (mer true).mer.tbOff = 0 ∧ LOn (mer false) ∧ (mer false).mer.tracking = false := by decide +kernel

theorem w_Flywheel :
    (let c := mer true
     LOn c ∧ c.on Fld.MER_STA_ENA = true ∧ c.mer.tracking = true ∧ c.mer.meas = true ∧ c.get Fld.MER_FST_FLYC + 1 ≤ c.get Fld.MER_BDF_MISS ∧
       c.noSweep = true) ∧
    (∀ m ∈ [Mode.off, Mode.run], ∀ l ∈ [false, true],
      let c := (((mer true).put Fld.MER_FST_FLYC 3).put (Fld.HLP_ST_MODE 0) m).putB (Fld.HLP_ST_LOSS 0) l
      LOn c ∧ c.on Fld.MER_STA_ENA = true ∧ c.mer.tracking = true ∧ c.mer.meas = true ∧ c.get Fld.MER_BDF_MISS < c.get Fld.MER_FST_FLYC + 1 ∧
        c.bdLost.get (Fld.HLP_ST_MODE 0) = m ∧ c.bdLost.on (Fld.HLP_ST_LOSS 0) = l) := by decide +kernel

/-- Station `n` armed in lock. -/
def armedStn (n : Fin 3) : Chip :=
  let c := ((((mer true).set Fld.MER_STA_LOCK).set Fld.MER_CTL_EN).put Fld.MER_CTL_SEN (2 ^ n.val)).put (Fld.MER_NPX_N n.val) 8
  c.setStn n.val { c.stn n.val with armed := true }

theorem w_FacetAndSweep :
    (let c := (mer true).set Fld.MER_GEO_IDXE
     LOn c ∧ c.padIn 29 = true ∧ c.on Fld.MER_STA_ENA = true ∧ c.on Fld.MER_GEO_IDXE = true ∧ 20 ≤ (20#16).toNat) ∧
    (let c := (mer true).set Fld.MER_GEO_IDXE
     let c := { c with mer := { c.mer with noPix := 2 * c.nfac } }
     LOn c ∧ c.on Fld.MER_GEO_IDXE = true ∧ 2 * c.nfac ≤ c.mer.noPix) ∧
    (∀ n : Fin 3, LOn (armedStn n) ∧ (armedStn n).on Fld.MER_STA_LOCK = true ∧ (armedStn n).on Fld.MER_STA_ENA = true ∧
      (armedStn n).on Fld.MER_CTL_EN = true ∧ (armedStn n).stnEmits n.val = true ∧ ((armedStn n).stn n.val).armed = true ∧
      ((armedStn n).stn n.val).sweeping = false) ∧
    (∀ n : Fin 3, LOn (up.setStn n.val { up.stn n.val with sweeping := true }) ∧
      ((up.setStn n.val { up.stn n.val with sweeping := true }).stn n.val).sweeping = true) := by decide +kernel

theorem w_MeridianStop :
    (let c := (mer true).set Fld.MER_CTL_EN
     let c := { c with doc := { c.doc with items := [{ itm with phase := 2 }] } }
     LOn c ∧ NoneWaiting c ∧ Settled c ∧ c.on Fld.MER_CTL_EN = true ∧ c.on Fld.MER_STA_ENA = true ∧ c.on Fld.MER_STA_LOCK = false ∧
       c.noSweep = true ∧ c.noneAdmitted = false ∧ c.pow.decideDue = false) ∧
    (let r : Rec := { stn := 1, item := 5, bytes := [1] }
     let c := { up with img := { up.img with recs := [r] } }
     LOn c ∧ c.img.recs = [r] ∧ r.stn = (1 : Fin 2).val ∧ c.behindFront r = false ∧ c.rsvOf r.item = none ∧
       (c.put (Fld.CST_RSVI_ITEM 7) 5).img.recs = [r] ∧ (c.put (Fld.CST_RSVI_ITEM 7) 5).behindFront r = false ∧
       (c.put (Fld.CST_RSVI_ITEM 7) 5).rsvOf r.item = some 7) ∧
    (let r : Rec := { stn := 1, item := 5, bytes := 2#8 :: List.replicate 15 0#8 ++ [7#8, 0#8, 0#8, 0#8] }
     let f : Fired :=
       { idx := 0, pos := 0, lcnt := 7, facet := 0, ovs := 0, gapn := 0, rvs := false, qual := false, last := false, open_ := false }
     let c := { up with img := { up.img with recs := [r], t0 := { up.img.t0 with fired := some f } } }
     LOn c ∧ c.img.recs = [r] ∧ r.stn = (1 : Fin 2).val ∧ c.behindFront r = true) := by decide +kernel

/-- READY, the polygon in lock. -/
def cal : Chip := ((eng Eng.ready).set Fld.MER_STA_LOCK).set (hEN Pg.CAL)

theorem w_CalibrationStarts :
    (cal.engine = Eng.ready ∧ cal.noneAdmitted = true ∧ cal.on Fld.MER_STA_LOCK = true ∧ cal.on Fld.CAL_STA_BUSY = false ∧
      bitsOf (0x4000#32).toNat 12 3 ≤ 4) ∧
    Accepts cal .alm Reg.CAL_CMD (0x4000#32 &&& 0xFFFFFFFC#32 ||| 1#32) ∧ Accepts cal .alm Reg.CAL_CMD (0#32 &&& 0xFFFFFFFC#32 ||| 2#32) ∧
      Accepts cal .alm Reg.CAL_CMD (0#32 &&& 0xFFFFFFFC#32 ||| 3#32) :=
  ⟨by decide +kernel, accepts_of (by decide +kernel), accepts_of (by decide +kernel), accepts_of (by decide +kernel)⟩

/-- A calibration run of kind `k` with `l` facets to go. -/
def runOf (k l : Nat) : CalRun := { kind := k, stn := 0, smsk := 1, navg := 256, left := l }
def running (k l : Nat) : Chip := { up with img := { up.img with run := some (runOf k l) } }

theorem w_CalibrationEnds :
    (running 1 3).img.run = some (runOf 1 3) ∧
    (LOn (running 1 3) ∧ (runOf 1 3).kind ≠ 3 ∧ (runOf 1 3).left ≠ 0) ∧
    (LOn (running 3 0) ∧ (running 3 0).img.run = some (runOf 3 0) ∧ (runOf 3 0).kind = 3 ∧ (running 3 0).gst = 0 ∧
      ((running 3 0).put Fld.NVM_GST_ST 1).gst ≠ 0) ∧
    (LOn (running 2 0) ∧ (running 2 0).img.run = some (runOf 2 0) ∧ (runOf 2 0).left = 0 ∧ (runOf 2 0).kind = 2) ∧
    (LOn up ∧ Settled up) ∧ (LOn cal ∧ NoneWaiting cal ∧ cal.noneAdmitted = true ∧ cal.on (hEN Pg.CAL) = true) ∧
    (cal.put Fld.CAL_TAD_I 24191).get Fld.CAL_TAD_I = 24191 := by decide +kernel

/-! ### Witnesses: marking, motion, Heliostat -/

/-- The header of a print job of one band of one line of 2 pixels, handle 9; its checksum is not needed here. -/
def jobBytes : List Byte := [0x10#8, 0#8] ++ leBytes 2 1 ++ leBytes 4 9 ++ leBytes 4 96 ++ leBytes 2 2 ++ leBytes 2 0 ++ List.replicate 16 0#8

/-- A band of one line of 2 pixels with a good checksum (R199), and its line. -/
def bandBytes : List Byte :=
  let b : List Byte := [0x11#8, 0#8] ++ leBytes 2 1 ++ leBytes 4 0 ++ List.replicate 22 0#8
  b ++ leBytes 2 (crc16 b).toNat ++ List.replicate (lineBytes 2) 0#8

/-- The marking station enabled. -/
def mrk : Chip := linked.set Fld.MRK_CTL_EN

/-- A mark job that loads, its bytes in hand. -/
def loading : Job := { freeJob with st := .loading, handle := 9, nband := 1, npx := 2, wlpi := 0, base := 0x80000000, len := 32 + bandBytes.length }

theorem w_JobLoad :
    (let c := { mrk with mrk := { mrk.mrk with stream := jobBytes } }
     let d := (c.pullPrint 65536).skipPrint
     LOn c ∧ c.on Fld.MRK_CTL_EN = true ∧ d.jobAt (fun j => j.st == .loading) = none ∧ d.mrk.skip = 0 ∧ 32 ≤ d.mrk.stream.length ∧
       d.jobAt (fun j => j.st == .free) = some 0) := by decide +kernel

theorem w_JobLoadDone :
    (let c := { mrk with mrk := { mrk.mrk with stream := jobBytes ++ bandBytes, jobs := mrk.mrk.jobs.set 3 loading } }
     let d := c.pullPrint 65536
     let j := d.job 3
     LOn c ∧ c.jobAt (fun j => j.st == .loading) = some 3 ∧ j.len ≤ d.mrk.stream.length ∧ d.mrk.badData = false ∧
       (parseBands j.npx j.wlpi (j.base + 32) 0 0 ((d.mrk.stream.take j.len).drop 32) j.nband).isSome = true) := by decide +kernel

/-- A READY job of handle 9 in entry 3. -/
def ready : Chip := { mrk with mrk := { mrk.mrk with jobs := mrk.mrk.jobs.set 3 { loading with st := .ready } } }

theorem w_JobDelete :
    Accepts ready .alm Reg.MRK_JDEL 9#32 ∧ ready.jobAt (fun j => j.st != .free && j.handle == (9#32).toNat) = some 3 ∧ (ready.job 3).st = .ready :=
  ⟨accepts_of (by decide +kernel), by decide +kernel, by decide +kernel⟩

/-- The write trigger of item 5 whose leading edge was reported at position 0. -/
def wt : WriteTrig :=
  { item := 5, prof := 0, pe := 0, pt := some 400, band := 0, line := 0, pend := [], fired := none, dark := false, ramped := false, tband := 0,
    trn := false, emitted := 0, inNip := false, nipMax := 0, reversed := false, len := 9000, ended := false }

/-- A chip whose item 5 is being marked with a bound job of one band. -/
def marking : Chip :=
  { up with mrk := { up.mrk with wts := [wt], jobs := up.mrk.jobs.set 0 { loading with st := .bound, item := 5, bands := [⟨1, 0, 0x80000040⟩] } } }

/-- HV channel `n` in state `x` for ten seconds, feedback at its target. -/
def hvAt (n : Nat) (x : HvSt) : Chip := let c := up.setHv n x; { c with mrk := { c.mrk with hvAge := c.mrk.hvAge.map fun _ => 1000000 } }

/-- The same with its item admitted for marking, and with ring 3 full to its low mark. -/
def marked : Chip := { marking with doc := { marking.doc with items := [{ itm with phase := 2, flags := 4 }] } }

theorem w_MarkingSteps :
    LOn marked ∧ marked.fetchJobs.find? (fun k => decide ((marked.job k).fetch / 4096 < (marked.job k).bands.length)) = some 0 ∧
    (let c := marked.setRing 3 { marked.ring 3 with ents := List.replicate 16 ({ val := 0#32 } : Entry) }
     c.fetchJobs.find? (fun k => decide ((c.job k).fetch / 4096 < (c.job k).bands.length)) = some 0 ∧
       (c.job 0).bands[(c.job 0).fetch / 4096]? = some ⟨1, 0, 0x80000040⟩ ∧ (c.job 0).fetch % 4096 < 1 ∧ 16 ≤ (c.ring 3).ents.length) ∧
    up.fetchJobs = [] := by decide +kernel

theorem w_HighVoltage :
    (∀ n : Fin 4, LOn (hvAt n.val .ramp) ∧ (hvAt n.val .ramp).hv n.val = .ramp ∧ (hvAt n.val .ramp).hvSettled n.val = true) ∧
    ∀ n : Fin 4, LOn (hvAt n.val .down) ∧ (hvAt n.val .down).hv n.val = .down := by decide +kernel

theorem w_MarkingGuards :
    (let c := ((up.put (Fld.HVD_CEIL_C 3) 100).put (Fld.HVD_HVF_C 3) 100).put Fld.HVD_STA_ON 8
     POn c ∧ c.get (Fld.HVD_CEIL_C 3) ≤ c.get (Fld.HVD_HVF_C 3) ∧ bitsOf (c.get Fld.HVD_STA_ON) 3 1 = 1) ∧
    (let c := (((up.set Fld.FUS_STA_HTON).put Fld.FUS_TDIF_T 5).put (Fld.FUS_TH_T 0) 51).put (Fld.FUS_TH_T 1) 0
     POn c ∧ c.on Fld.FUS_STA_HTON = true ∧
       10 * c.get Fld.FUS_TDIF_T < ((c.get (Fld.FUS_TH_T 0) : Int) - c.get (Fld.FUS_TH_T 1)).natAbs) ∧
    (let c := (((marking.put Fld.MRK_FSET_T 1000).put Fld.FUS_TCEIL_T 2000).put Fld.LGR_HEAT_BLO 2).put (Fld.FUS_TH_T 0) 989
     let c := { c with doc := { c.doc with items := [{ itm with phase := 2, flags := 4 }] } }
     LOn c ∧ c.mrk.wts = [wt] ∧ wt.ended = false ∧ (c.item wt.item).any Item.mark = true ∧ c.inFuser wt = true ∧
       (c.get (Fld.FUS_TH_T 0) : Int) < (c.tset : Int) - 5 * c.get Fld.LGR_HEAT_BLO) := by decide +kernel

theorem w_SensorEdge :
    LOn up ∧ up.comparator (5 : Fin 6).val (0#10).toNat = (bitsOf (up.get Fld.SNS_LVL_COV) (5 : Fin 6).val 1 == 1) ∧
      up.comparator (5 : Fin 6).val (1023#10).toNat ≠ (bitsOf (up.get Fld.SNS_LVL_COV) (5 : Fin 6).val 1 == 1) ∧
      up.get (Fld.SNS_SCFG_ROLE 5) = 0 ∧ up.on (Fld.SNS_SCFG_ATH 5) = false := by
  decide +kernel

/-- An item on its way, its PICKX edge at `p`. -/
def trk (p : Option Int) : Track :=
  { item := 5, prof := 0, feeder := true, age := 3000, len := 600, pick := p, lead := [], trail := [], overStay := false, wide := false, raw := ⟨100, 100, 2000, 100⟩, far := 0, ret := false }

/-- READ at input 2, the engine running, the feed axis at position `pos`. -/
def onWay (p : Option Int) (pos : Nat) : Chip :=
  let c := (((eng Eng.run).put (Fld.SNS_SCFG_ROLE 2) Role.read).put (Fld.ENC_POS_P 0) pos).put (Fld.MOT_PROFC_TPICK 0) 3000
  { c with mot := { c.mot with tracks := [trk p] } }

theorem w_EdgeWindows :
    (let c := onWay (some 0) 100000
     LOn c ∧ c.track (5#32).toNat = some (trk (some 0)) ∧ c.checking = true ∧ (trk (some 0)).feeder = true ∧ Role.read ≠ Role.pickx ∧
       c.roleInput Role.read = some 2 ∧
       (c.leadWin (trk (some 0)) Role.read).map
         (fun w => decide (0 < posDiff (c.getS (Fld.ENC_POS_P (c.profAxis (trk (some 0)).prof))) w.hi)) = some true) ∧
    (let c := onWay none 0
     c.track (5#32).toNat = some (trk none) ∧ c.checking = true ∧ (trk none).pick = none ∧
       (c.get (Fld.MOT_PROFC_TPICK (trk none).prof) : Int) ≤ (trk none).age) := by decide +kernel

theorem w_Encoders :
    (let c := up.set Fld.ENC_CTL_EN
     (∀ a : Fin 2, LOn c ∧ (encPads a.val).all c.padIn = true ∧ c.padIn (24 + 3 * a.val) = true ∧ (c.axis a.val).openLoop = false ∧
       c.on Fld.ENC_CTL_EN = true ∧ bitsOf (c.get Fld.ENC_STA_LOST) a.val 1 = 0) ∧
       bitsOf ((c.put Fld.ENC_STA_LOST 2).get Fld.ENC_STA_LOST) 1 1 = 1 ∧ (c.set (Fld.ENC_CFG_IDXE 1)).on (Fld.ENC_CFG_IDXE 1) = true ∧
       (c.put (Fld.ENC_CFG_ERRMAX 0) 16).get (Fld.ENC_CFG_ERRMAX 0) ≤ (16#8).toNat ∧
       (15#8).toNat < (c.put (Fld.ENC_CFG_ERRMAX 0) 16).get (Fld.ENC_CFG_ERRMAX 0) ∧
       ((c.setAxis 1 { c.axis 1 with openLoop := true }).axis 1).openLoop = true) := by decide +kernel

theorem w_StallAndBridge :
    (let c := onWay (some 0) 0
     let x := { itm with phase := 2 }
     let d := { (c.put (Fld.MOT_CM_SPD 0) 100).put Fld.MOT_STL_V 100 with
       doc := { c.doc with items := [x] }
       fab := { c.fab with mtrEn := true } }
     LOn d ∧ d.engine = Eng.run ∧ trk (some 0) ∈ d.mot.tracks ∧ d.profAxis (trk (some 0)).prof = 0 ∧ d.item (trk (some 0)).item = some x ∧
       x.admitted = true ∧ (d.axis 0).openLoop = false ∧ d.fab.mtrEn = true ∧
       d.get Fld.MOT_STL_V ≤ (signedOf (d.get (Fld.MOT_CM_SPD 0)) 24).natAbs) ∧
    (let c := up.put (Fld.MDR_HICL_I 3) 10
     POn c ∧ 10 * c.get (Fld.MDR_HICL_I 3) * 5 < (126#16).toNat * 4) := by decide +kernel

/-- The polygon drive commanded, in state `q`, after `n` failed starts. -/
def poly (q n : Nat) : Chip := let c := up.put Fld.MDR_PSTA_ST q; { c with mot := { c.mot with polyOn := true, polyFails := n } }

theorem w_PolygonAndSolenoids :
    (POn (poly 1 0) ∧ (poly 1 0).mot.polyOn = true ∧ (poly 1 0).get Fld.MDR_PSTA_ST = 1) ∧
    ((poly 2 1).get Fld.MDR_PSTA_ST = 2 ∧ (poly 2 1).mot.polyFails < 2) ∧
    (let c := ((poly 4 0).put Fld.MDR_PRMP_PHOV 200).put Fld.MDR_PSTA_RPM 100
     POn c ∧ c.mot.polyOn = true ∧ c.get Fld.MDR_PSTA_ST = 4 ∧ c.mot.polyFails = 0 ∧ c.get Fld.MDR_PRMP_PHOV ≤ 2 * c.get Fld.MDR_PSTA_RPM) ∧
    ((poly 1 2).get Fld.MDR_PSTA_ST = 1 ∧ (poly 1 2).mot.polyFails = 2) ∧
    ((up.put Fld.MDR_POVS_RPM 100).get Fld.MDR_POVS_RPM < (101#16).toNat) ∧
    (up.setSol 5 .peak).mot.sols[5] = .peak ∧ (up.setSol 0 .hold).mot.sols[0] = .hold ∧ up.mot.sols[5] = .opened ∧
    (up.setSol 0 .latched).mot.sols[0] = .latched := by decide +kernel

theorem w_HeliostatFrames :
    (∀ b : Bool, let c := up.putB Fld.HLP_CTL_EN b
      LOn c ∧ ((((c.restAxis 0 7).restAxis 1 7).rampTick).inc Fld.HEL_FRM_N).on Fld.HLP_CTL_EN = b) := by decide +kernel

theorem w_Mcmd :
    (let c := (up.put (Fld.HLP_CFG_ACT 11) 2).set Fld.HLP_CTL_XP
     Accepts c .alm Reg.HEL_MCMD 0x0200000B#32 ∧ bitsOf (0x0200000B#32).toNat 24 3 ≤ 5 ∧
       c.modeAllowed (bitsOf (0x0200000B#32).toNat 0 4) (bitsOf (0x0200000B#32).toNat 24 3) = true ∧
       c.modeOk (bitsOf (0x0200000B#32).toNat 0 4) (bitsOf (0x0200000B#32).toNat 24 3) = true) :=
  ⟨accepts_of (by decide +kernel), by decide +kernel, by decide +kernel, by decide +kernel⟩

theorem w_HeliostatTables :
    (LOn up ∧ Settled up) ∧
    (let c := up.set (hEN Pg.HTB)
     LOn c ∧ NoneWaiting c ∧ c.on (hEN Pg.HTB) = true ∧ c.get (Fld.HLP_ST_MODE 0) = 0 ∧
       (c.put Fld.HTB_TAD_I 2047).get Fld.HTB_TAD_I / 512 = 3 ∧ c.get (Fld.HLP_ST_MODE 11) = 0) := by decide +kernel

/-! ### Witnesses: Orrery -/

/-- A microword with SEQ, TGT, CND, WAIT, ASEL, BSEL, DST and ALU as given and every other field 0. -/
def mw (seq tgt cnd wait alu asel bsel dst : Nat) : Nat :=
  seq * 2 ^ 124 + tgt * 2 ^ 112 + cnd * 2 ^ 105 + wait * 2 ^ 103 + alu * 2 ^ 90 + asel * 2 ^ 85 + bsel * 2 ^ 80 + dst * 2 ^ 75

/-- Context 3 runs at address 4095 on the word `w`. -/
def orr (w : Nat) : Chip :=
  let c := (up.put (Fld.ORC_ST_STATE 3) CtxSt.run).put (Fld.ORC_ST_PC 3) 4095
  c.setBytes (ctlStore + 16 * 4095) (leBytes 16 w)

/-- An ADD of W0 and W1 into W15. -/
def addWord : Nat := mw 0 0 0 0 2 0 1 0x1F

theorem w_MicrowordComputes :
    LOn (orr addWord) ∧ SlotQuiet (orr addWord) 3 ∧
    (let m := (orr addWord).mwordAt ((orr addWord).pc 3)
     m.plain = true ∧ m.seq = 0 ∧ 0x10 ≤ m.dst ∧ m.dst < 0x20 ∧ m.asel < 0x10 ∧ m.bsel < 0x10 ∧
       (alu m.alu ((orr addWord).rd (Reg.ORC_W 3 m.asel)) ((orr addWord).rd (Reg.ORC_W 3 m.bsel)) ((orr addWord).flagsOf 3).c).isSome = true) := by
  decide +kernel

/-- Context 3 with a return stack. -/
def orrS (w : Nat) (l : List Frame) : Chip := (orr w).updCtx 3 fun x => { x with stack := l, lc := 1#32 }

theorem w_SequencerAddresses :
    LOn (orr (mw 1 4095 0x20 0 0 0 0 0)) ∧ (∀ q ∈ [1, 2, 3, 4, 5], SlotQuiet (orr (mw q 4095 0x20 0 0 0 0 0)) 3 ∧
      ((orr (mw q 4095 0x20 0 0 0 0 0)).mwordAt 4095).plain = true ∧ ((orr (mw q 4095 0x20 0 0 0 0 0)).mwordAt 4095).dst = 0 ∧
      ((orr (mw q 4095 0x20 0 0 0 0 0)).mwordAt 4095).seq = q ∧ ((orr (mw q 4095 0x20 0 0 0 0 0)).mwordAt 4095).cnd = 0x20 ∧
      ((orr (mw q 4095 0x20 0 0 0 0 0)).mwordAt 4095).cpol = false) ∧
    (((orrS 0 (List.replicate 7 ⟨0, none⟩)).ctx 3).stack.length < 8) ∧ ((orrS 0 [⟨4095, none⟩]).ctx 3).stack = [⟨4095, none⟩] ∧
    ((orrS 0 []).ctx 3).lc ≠ 0#32 := by decide +kernel

theorem w_ContextFaults :
    (let w := mw 15 0 0 0 0 0 0 0
     SlotQuiet (orr w) 3 ∧ ((orr w).mwordAt 4095).wait = false ∧ ((orr w).mwordAt 4095).reserved = true) ∧
    (let w := mw 3 0 0 0 0 0 0 0
     ((orr w).mwordAt 4095).wait = false ∧ ((orr w).mwordAt 4095).reserved = false ∧ ((orr w).mwordAt 4095).seq = 3 ∧
       SlotQuiet (orrS w (List.replicate 8 ⟨0, none⟩)) 3 ∧ 8 ≤ ((orrS w (List.replicate 8 ⟨0, none⟩)).ctx 3).stack.length) ∧
    (let w := mw 4 0 0 0 0 0 0 0
     LOn (orr w) ∧ SlotQuiet (orr w) 3 ∧ ((orr w).mwordAt 4095).wait = false ∧ ((orr w).mwordAt 4095).reserved = false ∧
       ((orr w).mwordAt 4095).seq = 4 ∧ ((orr w).ctx 3).stack = []) := by decide +kernel

/-- Context 3 waits for the lock, in slot 9 of 10. -/
def waiting : Chip :=
  ((orr 0).put (Fld.ORC_ST_STATE 3) CtxSt.wait).updCtx 3 fun x => { x with word := mw 0 0 0x20 1 0 0 0 0, k := 9, limit := 10 }

theorem w_ContextWaits :
    LOn waiting ∧ waiting.ctxSt 3 = CtxSt.wait ∧ waiting.on (Fld.ORC_ST_LOCK 3) = false ∧ NoDispatch waiting 3 ∧ (waiting.ctx 3).pairHold = false ∧
    WatchdogQuiet waiting 3 ((waiting.ctx 3).limit - (waiting.ctx 3).k + 1) ∧
    WatchdogQuiet (waiting.set Fld.MER_STA_LOCK) 3 ((waiting.ctx 3).limit - (waiting.ctx 3).k + 1) ∧
    (mword (waiting.ctx 3).word).cnd = 0x20 ∧ (mword (waiting.ctx 3).word).cpol = false ∧ waiting.on Fld.MER_STA_LOCK = false ∧
    (waiting.ctx 3).k < (waiting.ctx 3).limit ∧ (waiting.set Fld.MER_STA_LOCK).on Fld.MER_STA_LOCK = true ∧
    ({ mword (waiting.ctx 3).word with wait := false }).plain = true ∧ (mword (waiting.ctx 3).word).seq = 0 ∧
    (mword (waiting.ctx 3).word).dst = 0 := by decide +kernel

/-- Context 3 asleep with entry 7 enabled and pending. -/
def asleep : Chip :=
  (((orr 0).put (Fld.ORC_ST_STATE 3) CtxSt.sleep).set (Fld.ORC_DSP_EN 3 7)).put (Fld.ORC_PEND_PND 3) 128

theorem w_Dispatch :
    (let c := (((orr 0).updCtx 3 fun x => { x with sel := some 7 }).set (Fld.ORC_DSP_EN 3 7)).put (Fld.ORC_PEND_PND 3) 128
     LOn c ∧ c.ctxSt 3 = CtxSt.run ∧ (c.ctx 3).sel = some 7 ∧ c.orr.evq = [] ∧ WatchdogQuiet c 3 1 ∧ bitsOf (c.get (Fld.ORC_PEND_PND 3)) 7 1 = 1 ∧
       c.on (Fld.ORC_DSP_EN 3 7) = true ∧ c.on (Fld.ORC_DSP_KIND 3 7) = false ∧ (c.ctx 3).stack.length < 8) ∧
    (LOn asleep ∧ asleep.ctxSt 3 = CtxSt.sleep ∧ (asleep.ctx 3).sel = none ∧ asleep.orr.evq = [] ∧ WatchdogQuiet asleep 3 2 ∧
      (∀ j < 8, asleep.on (Fld.ORC_DSP_EN 3 j) = decide (j = 7)) ∧ asleep.get (Fld.ORC_PEND_PND 3) = 2 ^ 7 ∧
      asleep.on (Fld.ORC_DSP_KIND 3 7) = false ∧ (asleep.ctx 3).stack.length < 8) := by decide +kernel

/-- Context 3 in BUSW for a read of a P-die register. -/
def inBusw : Chip :=
  let c := ((orr 0).put (Fld.ORC_ST_STATE 3) CtxSt.busw).updCtx 3 fun x => { x with word := mw 0 0 0 0 0 0 0 0 }
  { c with fab := { c.fab with reads := [{ master := .orr 3, addr := Reg.RTC_ALRM, dst := 1 }] } }

theorem w_ContextControl :
    (LOn waiting ∧ (waiting.put (Fld.ORC_WDG_US 3) 1).wdgRuns 3 = true ∧ (waiting.put (Fld.ORC_WDG_US 3) 1).get (Fld.ORC_WDG_US 3) ≠ 0) ∧
    (((waiting.updCtx 3 fun x => x.setTimer 3 (some 1)).ctx 3).timer 3).isSome = true ∧
    (Accepts waiting .alm Reg.ORC_CMD (BitVec.ofNat 32 (0x100 + 3)) ∧ waiting.ctxSt 3 ≠ CtxSt.busw) ∧
    (Accepts inBusw .alm Reg.ORC_CMD (BitVec.ofNat 32 (0x100 + 3)) ∧ inBusw.ctxSt 3 = CtxSt.busw ∧ inBusw.awaits 3 = true) ∧
    Accepts (waiting.set Fld.ORR_CTL_EN) .alm Reg.ORC_CMD (BitVec.ofNat 32 (0x200 + 3)) :=
  ⟨by decide +kernel, by decide +kernel, ⟨accepts_of (by decide +kernel), by decide +kernel⟩, ⟨accepts_of (by decide +kernel), by decide +kernel⟩,
    accepts_of (by decide +kernel)⟩

theorem w_BankSwap :
    Accepts up .alm Reg.ORR_SWP 1#32 ∧ (Accepts (up.set Fld.ORR_STA_ARMD) .alm Reg.ORR_SWP 2#32 ∧ (up.set Fld.ORR_STA_ARMD).on Fld.ORR_STA_ARMD = true) ∧
    (up.set Fld.ORR_STA_MEAS).on Fld.ORR_STA_MEAS = true ∧
    (let c := (up.set Fld.ORR_STA_ARMD).set Fld.ORR_CTL_EN
     LOn c ∧ c.shadows = [] ∧ Memory.wf c.mem = true ∧ c.on Fld.ORR_STA_ARMD = true ∧ c.noneAdmitted = true ∧ c.doc.commits = [] ∧
       (∀ k < 4, c.ctxSt k ≠ CtxSt.busw) ∧ c.on Fld.ORR_CTL_EN = true) :=
  ⟨accepts_of (by decide +kernel), ⟨accepts_of (by decide +kernel), by decide +kernel⟩, by decide +kernel, by decide +kernel⟩

/-! ### Witnesses: rings, store, ferroelectric store -/

/-- Ring 63 open, of 2^CAPC entries, of producer and consumer class `k`, with `r` in it. -/
def rng (k capc : Nat) (r : RingSt) : Chip :=
  let c := (((((linked.set Fld.CST_CTL_EN).set (Fld.RNG_RCFG_EN 63)).put (Fld.RNG_RCFG_CAPC 63) capc).put (Fld.RNG_RCFG_PRD 63) k).put
    (Fld.RNG_RCFG_CNS 63) k).put Fld.RNG_HSEL_RING 63
  c.setRing 63 r

theorem w_RingPushAppends :
    (let c := rng 6 16 noEntries
     63 < 64 ∧ c.get (Fld.RNG_RCFG_PRD 63) = RCls.alm.code ∧ c.ringOpen 63 = true ∧ (c.ring 63).ents.length < c.ringCap 63 ∧
       (c.ring 63).stalled = none ∧ c.ringCap 63 ≤ 65536) := by decide +kernel

/-- Two entries. -/
def two : RingSt := { ents := [{ val := 1#32 }, { val := 2#32 }] }

/-- Ring `n` open to the host over USB, with `l` in it. -/
def usbRing (n : Nat) (l : List Entry) : Chip :=
  let c := ((((linked.set Fld.CST_CTL_EN).set (Fld.RNG_RCFG_EN n)).put (Fld.RNG_RCFG_CAPC n) 4).put (Fld.RNG_RCFG_CNS n) 1).set Fld.BRG_IFC_USBE
  c.setRing n { c.ring n with ents := l }

theorem w_RingPushPop :
    (let c := rng 6 1 { ents := [{ val := 1#32 }] }
     LOn c ∧ c.ringOpen 63 = true ∧ c.ringData 63 = false ∧ c.get (Fld.RNG_RCFG_PRD 63) = (rclsOf 6).code ∧ (c.ring 63).stalled = none ∧
       (c.ring 63).held = [] ∧ (c.ring 63).ents.length < c.ringCap 63) ∧
    (∀ k ∈ [1, 3, 4], let c := rng (rclsOf k).code 1 two
     LOn c ∧ c.ringOpen 63 = true ∧ c.ringData 63 = false ∧ c.get (Fld.RNG_RCFG_PRD 63) = (rclsOf k).code ∧ (c.ring 63).stalled = none ∧
       (c.ring 63).held = [] ∧ c.ringCap 63 ≤ (c.ring 63).ents.length) ∧
    (rclsOf 1).stallable = true ∧ rclsOf 3 = .orr ∧ rclsOf 4 = .img ∧
    (let c := rng 6 1 two
     c.ringOpen 63 = true ∧ c.ringData 63 = false ∧ c.get (Fld.RNG_RCFG_CNS 63) = (rclsOf 6).code ∧
       (c.ring 63).ents = { val := 1#32 } :: [{ val := 2#32 }] ∧ (c.ring 63).discard = [] ∧ (c.ring 63).stalled = none ∧
       c.cst.ue = [] ∧ 63 ≠ c.imgRing 0 ∧ 63 ≠ c.imgRing 1) := by decide +kernel

theorem w_UsbRings :
    (let c := usbRing 0 []
     LOn c ∧ c.ringOpen 0 = true ∧ rclsOf 1 = .host ∧ c.get (Fld.RNG_RCFG_CNS 0) = RCls.host.code ∧ c.streamHead false 0 = false) ∧
    (let c := usbRing 6 [{ val := 0#32, client := some 0#8 }]
     LOn c ∧ c.ringOpen 6 = true ∧ 6 ∈ 0 :: 1 :: packetRings ∧ c.get (Fld.RNG_RCFG_CNS 6) = RCls.host.code ∧ c.dropClosed.linkUp false = true ∧
       c.dropClosed.streamHead false 6 = true ∧ (c.dropClosed.takeHead 6).isSome = true) := by decide +kernel

theorem w_HostRings :
    (let c := rng 1 1 { ents := [{ val := 1#32 }] }
     Accepts c (.host 0#8) Reg.RNG_HPSH 5#32 ∧ c.get Fld.RNG_HSEL_RING = 63 ∧ c.get (Fld.RNG_RCFG_PRD 63) = RCls.host.code ∧ c.ringOpen 63 = true ∧
       (c.ring 63).stalled = none ∧ (c.ring 63).held = [] ∧ (c.ring 63).ents.length < c.ringCap 63) ∧
    (let c := rng 1 1 two
     Accepts c (.host 0#8) Reg.RNG_HPSH 5#32 ∧ c.get Fld.RNG_HSEL_RING = 63 ∧ c.get (Fld.RNG_RCFG_PRD 63) = RCls.host.code ∧ c.ringOpen 63 = true ∧
       (c.ring 63).stalled = none ∧ (c.ring 63).held = [] ∧ c.ringCap 63 ≤ (c.ring 63).ents.length) ∧
    (let c := rng 1 1 two
     LOn c ∧ c.get (Fld.RNG_RCFG_CNS 63) = RCls.host.code ∧ c.ringOpen 63 = true ∧ c.ringData 63 = false ∧
       (c.ring 63).ents = { val := 1#32 } :: [{ val := 2#32 }] ∧ (c.ring 63).discard = [] ∧ (c.ring 63).stalled = none ∧ c.cst.ue = [] ∧
       63 ≠ c.imgRing 0 ∧ 63 ≠ c.imgRing 1) ∧
    (let c := rng 1 1 { ents := [], popped := [{ val := 1#32 }] }
     Accepts c (.host 0#8) Reg.RNG_HDONE 1#32 ∧ c.get Fld.RNG_HSEL_RING = 63 ∧ (c.ring 63).popped = { val := 1#32 } :: [] ∧
       c.spiHolds 63 { val := 1#32 } = false ∧ c.get (Fld.RNG_RCFG_CNS 63) = RCls.host.code) :=
  ⟨⟨accepts_of (by decide +kernel), by decide +kernel⟩, ⟨accepts_of (by decide +kernel), by decide +kernel⟩, by decide +kernel,
    accepts_of (by decide +kernel), by decide +kernel⟩

/-- A host request that waits in a packet for room on ring 63. -/
def rq : Req :=
  { hdr := hdr, op := 2, work := .accesses false false [.write Reg.RNG_HPSH 5#32], pside := false, answers := true, started := true, idx := 0, sent := 0,
    data := [], firstBad := none, status := 0#8 }

theorem w_RingEntriesEnd :
    (let c := rng 1 1 { ents := [{ val := 1#32 }], stalled := some { val := 2#32 }, pusher := some (.orr 1) }
     LOn c ∧ c.get (Fld.RNG_RCFG_PRD 63) = RCls.host.code ∧ c.hb.pushWait = none ∧ (c.ring 63).stalled = some { val := 2#32 } ∧
       (c.ring 63).held = []) ∧
    (let c := rng 1 1 { ents := [{ val := 1#32 }, { val := 1#32 }], stalled := some { val := 2#32 }, pusher := some (.host 0#8) }
     let c := { c with hb := { c.hb with pushWait := some (63, rq) } }
     LOn c ∧ c.get (Fld.RNG_RCFG_PRD 63) = RCls.host.code ∧ c.hb.pushWait = some (63, rq) ∧ (c.dropPush 63).1 = some (.host rq.hdr.clid)) ∧
    (let c := rng 1 1 { ents := [], popped := [{ val := 1#32 }] }
     LOn c ∧ (c.ring 63).popped = { val := 1#32 } :: [] ∧ c.spiHolds 63 { val := 1#32 } = false ∧ c.item (5#32).toNat = none) := by decide +kernel

/-- The scrubber at work, the pool of one granule's system region. -/
def scrubbing : Chip := ((up.put Fld.CST_SCRB_PER 1).clr Fld.CST_STA_INIT).put Fld.CST_SYSR_SZ 1

theorem w_EntriesAndUpkeep :
    (LOn up ∧ up.cst.selfRefresh = false ∧ up.cst.postponed < 8 ∧ 8 ≤ ({ up with cst := { up.cst with postponed := 8 } }).cst.postponed) ∧
    (LOn (up.set Fld.CST_STA_INIT) ∧ (up.set Fld.CST_STA_INIT).on Fld.CST_STA_INIT = true) ∧
    (LOn scrubbing ∧ scrubbing.fab.dst = true ∧ scrubbing.get Fld.CST_SCRB_PER ≠ 0 ∧ scrubbing.on Fld.CST_STA_INIT = false ∧ scrubbing.cst.ue = []) ∧
    (scrubbing.inPool ((0#26).toNat / 65536) = false ∧ scrubbing.granuleItem ((0#26).toNat / 65536) = none) ∧
    (scrubbing.inPool ((0x3FF0008#26).toNat / 65536) = true ∧ (0x3FF0008#26).toNat / 65536 ∉ scrubbing.cst.bad) := by
  decide +kernel

/-- A commit group of state `g` owned by the debugger, page 0x2FF staged and selected. -/
def grp (g : Nat) : Chip :=
  let c := ((fed up).set Fld.DBG_STA_UNL).put Fld.NVM_GST_ST g
  { c with fst := { c.fst with owner := some .debug, sel := some 0x2FF, pages := [(0x2FF, List.replicate 16 7#32)] } }

theorem w_CommitGroups :
    (Accepts (grp 0) .debug Reg.NVM_CMD 1#32 ∧ Accepts (grp 3) .alm Reg.NVM_CMD 1#32 ∧ (grp 0).gst = 0 ∧ (grp 3).gst = 3) ∧
    (Accepts (grp 1) .debug Reg.NVM_TPA ((0x100#15).setWidth 32) ∧ (grp 1).gst = 1 ∧ (grp 1).fst.owner = some .debug ∧
      (grp 1).mayStage .debug (0x100#15).toNat = true ∧ (grp 1).protected_ (0x100#15).toNat = false ∧
      (∀ x ∈ (grp 1).fst.pages, x.1 ≠ (0x100#15).toNat) ∧ (grp 1).fst.pages.length < 64) ∧
    (Accepts (grp 1) .debug Reg.NVM_TDA 9#32 ∧ (grp 1).fst.sel = some 0x2FF) ∧
    ((grp 1).canAccess .debug = true ∧ (grp 1).fab.aon = true ∧ (grp 1).mustQueue .debug Reg.NVM_TDA = false ∧ MayRead (grp 1) .debug Pg.NVM ∧
      Settled (grp 1)) ∧
    (Accepts (grp 1) .debug Reg.NVM_CMD 2#32 ∧ (grp 1).fst.pages ≠ [] ∧ (∀ x ∈ (grp 1).fst.pages, (grp 1).protected_ x.1 = false) ∧
      (grp 1).supplyCheck false = St.ok) ∧
    Accepts (grp 1) .debug Reg.NVM_CMD 3#32 := by
  refine ⟨⟨accepts_of ?_, accepts_of ?_, ?_⟩, ⟨accepts_of ?_, ?_⟩, ⟨accepts_of ?_, ?_⟩, ⟨?_, ?_, ?_, ?_, ?_⟩, ⟨accepts_of ?_, ?_⟩, accepts_of ?_⟩
  all_goals first
    | exact (by decide +kernel : (grp 1).on Fld.DBG_STA_UNL = true)
    | decide +kernel

theorem w_PagePreload :
    (let c := { grp 1 with fst := { (grp 1).fst with preload := true } }
     AOn c ∧ c.fst.sel = some 0x2FF ∧ c.fst.preload = true ∧ c.fst.poison = []) ∧
    (let c := { grp 1 with fst := { (grp 1).fst with preload := true, poison := [pageAddr 0x2FF + 60] } }
     AOn c ∧ c.fst.preload = true ∧ c.fst.pages.getLast? = some (0x2FF, List.replicate 16 7#32) ∧ c.fst.poison = [pageAddr 0x2FF + 60] ∧
       pageAddr 0x2FF ≤ pageAddr 0x2FF + 60 ∧ pageAddr 0x2FF + 60 < pageAddr 0x2FF + 64) ∧
    (AOn (grp 1) ∧ (grp 1).fst.preload = false) := by decide +kernel

theorem w_CommitWritesPages :
    AOn (grp 2) ∧ (grp 2).gst = 2 ∧ (grp 2).fst.heldOpen = [] ∧ Settled (grp 2) ∧ (grp 2).fst.pages.length ≤ 64 ∧
      ((grp 2).fst.pages.map (·.1)).Nodup ∧ (∀ x ∈ (grp 2).fst.pages, 256 ≤ x.1 ∧ x.1 < 32768 ∧ x.2.length = 16) := by decide +kernel

theorem w_FdieReads :
    (up.canAccess (.orr 0) = true ∧ up.fab.aon = true ∧ Settled up ∧ up.mustQueue (.orr 0) (0x60000000 + (0x1DFFFC#21).toNat) = false ∧
      up.mustQueue (.orr 0) (0x60000000 + (0x1E0000#21).toNat) = false ∧ up.mustQueue (.orr 0) (0x60000000 + (0#21).toNat) = false ∧
      (0x1DFFFC#21).toNat % 4 = 0 ∧ (0x1DFFFC#21).toNat < 0x1E0000 ∧ up.gst ≠ 2 ∧
      up.fst.poison.contains (0x60000000 + (0x1DFFFC#21).toNat) = false) ∧
    ((0x1E0000#21).toNat % 4 = 0 ∧ 0x1E0000 ≤ (0x1E0000#21).toNat) ∧
    ({ up with fst := { up.fst with poison := [0x60000000] } }).fst.poison.contains (0x60000000 + (0#21).toNat) = true ∧
    up.on (Fld.NVM_SLB_SPX ((0#21).toNat / 2 ^ 18)) = false ∧ (up.set (Fld.NVM_SLB_SPX 0)).on (Fld.NVM_SLB_SPX ((0#21).toNat / 2 ^ 18)) = true ∧
    ({ up with fst := { up.fst with broken := [(0, 38)] } }).fst.broken.contains ((0#21).toNat / 2 ^ 18, (38 : Fin 39).val) = true ∧
    (up.fst.broken.contains ((0#21).toNat / 2 ^ 18, (38 : Fin 39).val) = false ∧
      (up.put (Fld.NVM_SLB_SP1 0) 38).get (Fld.NVM_SLB_SP1 ((0#21).toNat / 2 ^ 18)) = (38 : Fin 39).val) ∧
    (up.get (Fld.NVM_SLB_SP0 ((0#21).toNat / 2 ^ 18)) ≠ (38 : Fin 39).val ∧ up.get (Fld.NVM_SLB_SP1 ((0#21).toNat / 2 ^ 18)) ≠ (38 : Fin 39).val) := by
  decide +kernel

theorem w_FdieReadsHeld :
    (let c := { up with fab := { up.fab with posted := [{ master := .orr 0, addr := Reg.RTC_ALRM, value := 5#32 }] } }
     c.canAccess (.orr 0) = true ∧ c.fab.aon = true ∧ c.mustQueue (.orr 0) (0x60000000 + (6#21).toNat) = true ∧ c.gst ≠ 2) ∧
    (let c := up.put Fld.NVM_GST_ST 2
     let c := { c with fst := { c.fst with pages := [(256, List.replicate 16 9#32)] } }
     c.gst = 2 ∧ c.fst.passed = false ∧ c.mustQueue (.orr 0) (0x60000000 + (0x4004#21).toNat) = false ∧
       c.passPoint.newWord (0x60000000 + (0x4004#21).toNat) = some 9#32) := by decide +kernel

/-- Value 0 in the directory: 4 slots at 128, volatile-held or not. -/
def nvs (vh : Nat) : Chip := (up.setWord (dirAddr 0) (BitVec.ofNat 32 (2 ^ 31 + vh * 2 ^ 30 + 4 * 2 ^ 16 + 128))).put Fld.NVS_SEL_ID 0

theorem w_SlotRings :
    (Accepts (nvs 1) .alm Reg.NVS_VAL 5#32 ∧ ((nvs 1).dirOf ((nvs 1).get Fld.NVS_SEL_ID)).map dirVH = some true) ∧
    (Accepts (nvs 0) .alm Reg.NVS_VAL 5#32 ∧ ((nvs 0).dirOf ((nvs 0).get Fld.NVS_SEL_ID)).map dirVH = some false ∧
      (nvs 0).protected_ ((slotAddr (BitVec.ofNat 32 (2 ^ 31 + 4 * 2 ^ 16 + 128)) 0 - fDie) / 64) = false) ∧
    Accepts (nvs 1) .alm Reg.NVS_ADD 0xFFFFFFFF#32 ∧ Accepts (nvs 1) .alm Reg.NVS_SAVE 1#32 ∧
    (let c := ((fed up).put (Fld.NVM_SLB_RST 7) 1).put (Fld.NVM_SLB_SP0 7) 0x3F
     AOn c ∧ (grp 1).gst ≠ 0 ∧ c.gst = 0 ∧ c.get (Fld.NVM_SLB_RST 7) = 1 ∧ c.supplyCheck false = St.ok ∧ c.get (Fld.NVM_SLB_SP0 7) = 0x3F ∧
       c.protected_ (4096 * 7) = false ∧ c.coreAsleep = false ∧ (((c.put Fld.HRV_STA_SRC 1).put Fld.HRV_STA_ABV 0).coreAsleep = true) ∧
       c.fst.remap = [] ∧ (c.put Fld.NVS_VHP_S 1).get Fld.NVS_VHP_S ≠ 0 ∧ (c.put Fld.NVS_VHP_S 0).get Fld.NVS_VHP_S = 0) := by
  refine ⟨⟨accepts_of ?_, ?_⟩, ⟨accepts_of ?_, ?_⟩, accepts_of ?_, accepts_of ?_, ?_⟩
  all_goals decide +kernel

/-! ### Witnesses: the host link -/

/-- A header with other flags, client, tag. -/
def hdrF (f : Byte) : Hdr := { hdr with flags := f }

/-- Client 0 with tag 7 in use. -/
def tagged : Chip := { linked with hb := { linked.hb with clients := [(0, { cli with tags := [7#8] })] } }

/-- Client 0 with every credit in use. -/
def spent : Chip := { linked with hb := { linked.hb with clients := [(0, { cli with tags := [1#8, 2#8, 3#8, 4#8] })] } }

theorem w_PacketChecks :
    PacketRow (.rd hdr (leBytes 4 0x20000000)) 1 hdr (leBytes 4 0x20000000) ∧
    PacketRow (.clientClose hdr 0#8) 3 hdr (onePair Reg.CLI_CLS (0#8).toNat) ∧ LOn linked ∧ linked.linkUp false = true ∧
    4096 < (List.replicate 4097 0#8).length ∧ (List.replicate 4096 0#8).length ≤ 4096 ∧ hdrFlag (hdrF 4#8) 2 = true ∧ linked.hb.more = [] ∧ hdrFlag hdr 2 = false ∧
    hdrFlag (hdrF 0x40#8) 6 = true ∧ hdrFlag (hdrF 0x80#8) 7 = true ∧
    parseWork 1 [0#8] = none ∧ (parseWork 1 (leBytes 4 0x20000000)).isSome = true ∧ hdrFlag (hdrF 0x10#8) 4 = true ∧
    hdrFlag (hdrF 0x20#8) 5 = true ∧ hdrFlag hdr 4 = false ∧ hdrFlag hdr 5 = false ∧ hdrFlag hdr 6 = false ∧ hdrFlag hdr 7 = false ∧
    (linked.client 9).opened = false ∧ isOpn (.quote []) = false ∧ (linked.client 0).opened = true ∧ (linked.client 0).spi ≠ true ∧
    hdr.tag ∈ (tagged.client 0).tags ∧ hdr.tag ∉ (spent.client 0).tags ∧ (spent.client 0).crl ≤ (spent.client 0).tags.length :=
  ⟨.inl ⟨rfl, rfl⟩, .inr (.inr (.inr (.inr (.inr (.inr (.inr (.inr ⟨rfl, 0#8, rfl, rfl⟩))))))), by decide +kernel⟩

theorem w_PacketsRun :
    LetIn linked hdr ∧ BridgeIdle linked ∧ 0x20000000 ≤ 0x2003FFFC ∧ 0x2003FFFC < 0x20040000 ∧ 0x2003FFFC % 4 = 0 ∧
      0x2003FFFF + [1#8].length ≤ 0x20040000 ∧ 1 ≤ [1#8].length ∧ (List.replicate 4092 0#8).length ≤ 4092 ∧ hdrFlag hdr 0 = false ∧
      hdrFlag hdr 1 = false ∧ 0x2003F004 + 4092 ≤ 0x20040000 := by decide +kernel

/-- UART 0 in TUNNEL mode with an outbound ring of 16 DATA entries and room in the HOST region. -/
def tunnelling : Chip :=
  ((((((linked.set (hEN Pg.UA0)).set Fld.CST_CTL_EN).put Fld.CST_HSTR_SZ 1).set (Fld.RNG_RCFG_EN 8)).put (Fld.RNG_RCFG_CAPC 8) 4).put
    (Fld.RNG_RCFG_PRD 8) 1).set (Fld.RNG_RCFG_USE 8)

theorem w_Tunnel :
    LetIn tunnelling hdr ∧ BridgeIdle tunnelling ∧ [1#8, 2#8] ≠ [] ∧ [1#8, 2#8].length ≤ 4094 ∧
    (let d := tunnelling.inHand hdr 7 (.tunnel 0 [1#8, 2#8])
     d.tunCheck hdr 0 [1#8, 2#8] = St.ok ∧ (d.storeFrame 0 [1#8, 2#8]).map (·.1) = some St.ok) := by decide +kernel

/-- A response to tag 7 that waits on USB, client 0 closing itself with that tag or not. -/
def answering (cl : Option Byte) : Chip :=
  { linked with hb := { linked.hb with
      clients := [(0, { cli with tags := [7#8], closing := cl })]
      rspUsb := [{ clid := 0#8, tag := 7#8, bytes := [], credit := true }] } }

theorem w_ClientOpens :
    (let h := { hdr with clid := 9#8 }
     LOn linked ∧ linked.linkUp h.spi = true ∧ hdrFlag h 2 = false ∧ linked.hb.more = [] ∧ hdrFlag h 4 = false ∧ hdrFlag h 5 = false ∧
       hdrFlag h 6 = false ∧ hdrFlag h 7 = false ∧ (linked.client 9).opened = false ∧ h.tag ∉ (linked.client 9).tags ∧
       (linked.client 9).tags.length < (linked.client 9).crl ∧ linked.creditsHeld < 1024 ∧
       (h.seq.toNat ≠ 0 → h.seq.toNat ∉ (linked.client 9).seqs) ∧ BridgeIdle linked) := by decide +kernel

theorem w_Clients :
    (LetIn linked hdr ∧ BridgeIdle linked) ∧
    (LOn (answering none) ∧ Settled (answering none) ∧ (answering none).linkUp false = true ∧
      (answering none).hb.rspUsb = { clid := 0#8, tag := 7#8, bytes := [], credit := true } :: [] ∧ 7#8 ∈ ((answering none).client 0).tags ∧
      ((answering none).client 0).closing ≠ some 7#8) ∧
    (((answering (some 7#8)).client 0).closing = some 7#8 ∧ ((answering (some 7#8)).client 0).opened = true) := by decide +kernel

/-- The USB device in a state. -/
def usb (n : Nat) : Chip := linked.put Fld.BRG_USTA_ST n

theorem w_Usb :
    (let c := (((usb 0).set Fld.BRG_IFC_USBE).clr Fld.CLK_STA_HOLD)
     c.on Fld.BRG_CTL_EN = true ∧ c.on Fld.BRG_IFC_USBE = true ∧ c.usbSt = 0 ∧ c.on Fld.CLK_STA_HOLD = false) ∧
    State.reset.chip.lRuns = false ∧ (LOn (usb 4) ∧ (usb 4).usbSt ≠ 0 ∧ (usb 4).usbSt = 4 ∧ 2 ≤ (usb 2).usbSt ∧ (usb 3).usbSt < 4 ∧ (usb 3).usbSt ≠ 2 ∧ (127#16).toNat < 128 ∧
      12 < (13#8).toNat) ∧ ((usb 4).usbSt ≠ 5 ∧ (usb 5).usbSt = 5) ∧
    (let e : Entry := { val := 0#32, client := some 0#8 }
     let c := ((usb 5).put Fld.RTC_SEC_S 1).setRing 6 { ents := [e] }
     LOn c ∧ c.usbSt = 5 ∧ c.hb.suspFrom + 5 ≤ c.nowMs ∧ e ∈ (c.ring 6).ents ∧ e.client = some 0#8 ∧ (c.client 0).opened = true ∧
       (c.client 0).spi = false ∧ (c.set Fld.BRG_USTA_RWE).on Fld.BRG_USTA_RWE = true ∧ c.on Fld.BRG_USTA_RWE = false) := by decide +kernel

/-- Store room for host data: an HSTR region of 1023 granules (R357), and the print interface on. -/
def roomy : Chip := (((linked.set Fld.CST_CTL_EN).put Fld.CST_HSTR_SZ 1).set Fld.BRG_SCFG_CRC).set Fld.BRG_IFC_PRTIF

/-- A response waits on channel 2 with ACKM set, `n` of its bytes read. -/
def spiRsp : Rsp := { clid := 0#8, tag := 7#8, bytes := [1#8, 2#8], credit := true }
def reading (n : Nat) : Chip := { linked.set Fld.BRG_SCFG_ACKM with hb := { linked.hb with q2 := [spiRsp], part2 := n } }

theorem w_Spi :
    LOn linked ∧ linked.linkUp true = true ∧ spiPads.all linked.padIn = true ∧ (SpiHead.mk 3 true 1).lanes = 3 ∧
    (SpiHead.mk 2 false 1).known = false ∧ (SpiHead.mk 2 true 7).lanes ≠ 3 ∧ (SpiHead.mk 2 true 7).ch ≠ 1 ∧ (SpiHead.mk 2 true 7).ch ≠ 5 ∧ [1#8] ≠ [] ∧ (List.replicate 8192 0#8).length ≤ 8192 ∧
    LOn roomy ∧ roomy.linkUp true = true ∧ spiPads.all roomy.padIn = true ∧ roomy.on Fld.BRG_SCFG_CRC = true ∧ (roomy.hb.jbuf ++ [1#8]).length < 32 ∧
    (LOn (reading 0) ∧ (reading 0).linkUp true = true ∧ spiPads.all (reading 0).padIn = true ∧ Settled (reading 0) ∧ (reading 0).hb.q2 = [spiRsp] ∧
      (reading 0).hb.sent2 = 0 ∧ (reading 0).hb.part2 = 0 ∧ 1 ≤ (2#16).toNat ∧ (2#16).toNat ≤ spiRsp.bytes.length ∧
      (2#16).toNat ≤ 8192 ∧ (reading 0).on Fld.BRG_SCFG_ACKM = true) ∧
    (Settled (reading 1) ∧ (1#16).toNat ≤ (reading 1).hb.part2 ∧ (1#16).toNat < spiRsp.bytes.length) ∧
    linked.linkUp false = true ∧ linked.on Fld.BRG_IFC_PRTIF = false ∧ (linked.hb.jbuf ++ List.replicate 31 0#8).length < 32 := by decide +kernel

theorem w_SpiRoom : 1 ≤ roomy.spiFree 1 ∧ 1 ≤ roomy.spiFree 5 := by decide +kernel

/-! ### Witnesses: serial links -/

/-- UART `p` enabled in DIRECT mode. -/
def uart (p : Nat) : Chip :=
  let c := (linked.set (hEN (portPage p)))
  if p = 2 then c.set Fld.MLK_ADDR_MODE else c.set (uaF p Fld.UA0_TUN_MODE)

/-- The same with its RX FIFO full. -/
def uartFull (p : Nat) : Chip := (uart p).setPort p { (uart p).port p with rx := List.replicate 63 { c := 0#8 } ++ [{ c := 0#8 }] }

theorem w_UartReceive :
    (∀ p : Fin 3, LOn (uart p.val) ∧ AOn (uart p.val) ∧ (p.val ≠ 2 → (uart p.val).padIn (17 + 2 * p.val) = true) ∧ (uart p.val).direct p.val = true ∧
      (uart p.val).portOn p.val = true ∧ (p.val ≠ 2 → (uart p.val).on (uaF p.val Fld.UA0_FLOW_XRX) = false) ∧ ((uart p.val).port p.val).rx.length < 64) ∧
    (LOn (uartFull 1) ∧ (uartFull 1).padIn 19 = true ∧ (uartFull 1).direct 1 = true ∧ (uartFull 1).portOn 1 = true ∧
      (uartFull 1).on (uaF 1 Fld.UA0_FLOW_XRX) = false ∧ 64 ≤ ((uartFull 1).port 1).rx.length) ∧
    (let c := ((uart 0).set (uaF 0 Fld.UA0_FLOW_XRX)).put (uaF 0 Fld.UA0_FLOW_XOFFC) 0x13
     LOn c ∧ c.padIn 17 = true ∧ c.direct 0 = true ∧ c.portOn 0 = true ∧ c.on (uaF 0 Fld.UA0_FLOW_XRX) = true ∧ c.sevenBits 0 = false ∧
       c.get (uaF 0 Fld.UA0_FLOW_XOFFC) = (0x13#8).toNat) := by
  decide +kernel

theorem w_UartRegisters :
    (uart 2).canAccess (.orr 0) = true ∧ (uart 2).mustQueue (.orr 0) (portPage 2) = false ∧ (uart 2).deadRegion (portPage 2) = false ∧ MayRead (uart 2) (.orr 0) (portPage 2) ∧
      (uart 2).canAccess .alm = true ∧ (uart 2).bridgeMute = false :=
  ⟨by decide +kernel, by decide +kernel, by decide +kernel, trivial, by decide +kernel, by decide +kernel⟩

theorem w_UartWrites :
    Accepts (uart 1) .alm (portData 1) 0x41#32 ∧ (uart 1).direct 1 = true ∧ ((uart 1).port 1).tx.length < 64 ∧
    (let c := ((uart 1).set (uaF 1 Fld.UA0_STA_XOFFR)).put (uaF 1 Fld.UA0_FLOW_XOTMO) 1
     LOn c ∧ c.direct 1 = true ∧ c.on (uaF 1 Fld.UA0_STA_XOFFR) = true ∧ c.get (uaF 1 Fld.UA0_FLOW_XOTMO) ≠ 0) ∧
    (let c := up.setPort 1 { up.port 1 with frame := [1#8] }
     LOn c ∧ c.direct 1 = false ∧ (c.port 1).frame ≠ [] ∧ (c.port 1).rx = []) ∧
    (∀ p : Fin 3, LOn (uart p.val) ∧ AOn (uart p.val) ∧ (uart p.val).portOn p.val = true ∧ (uart p.val).direct p.val = true ∧
      (p.val ≠ 2 → (uart p.val).on (uaF p.val Fld.UA0_STA_XOFFR) = false)) :=
  ⟨accepts_of (by decide +kernel), by decide +kernel⟩

/-- The Turradar link on, this node 3, controller or responder. -/
def tur (ctlr : Bool) : Chip := ((linked.set (hEN Pg.MLK)).put Fld.MLK_ADDR_A 3).putB Fld.MLK_ADDR_ROLE ctlr

/-- The chip with an outstanding request to node 9 with SEQ 1, repeated `n` times. -/
def asked (n : Nat) : Chip :=
  let c := (tur true).put Fld.MLK_TIM_RTRY 3
  { c with ser := { c.ser with link := { c.ser.link with outst := some ([9#8, 3#8, 0#8] ++ leBytes 2 1 ++ leBytes 2 1 ++ [1#8]), tries := n } } }

theorem w_Turradar :
    (AOn (tur false) ∧ (tur false).portOn 2 = true ∧ (tur false).direct 2 = false ∧ [1#8] ≠ [] ∧ (List.replicate 1024 0#8).length ≤ 1024 ∧
      (tur false).on Fld.MLK_ADDR_ROLE = false ∧ (0#8).msb = false ∧ (4#8).toNat ≠ (tur false).get Fld.MLK_ADDR_A ∧ (0#8).getLsbD 6 = false ∧
      (3#8).toNat = (tur false).get Fld.MLK_ADDR_A ∧ ((9#8).toNat, (1#16).toNat) ∉ (tur false).ser.link.last) ∧
    ((asked 2).on Fld.MLK_ADDR_ROLE = true ∧ (0x40#8).getLsbD 6 = true ∧
      (asked 2).ser.link.outst.map (fun f => decide (f.take 1 = [9#8] ∧ (f.drop 3).take 2 = leBytes 2 (1#16).toNat)) = some true ∧
      (asked 2).ser.link.tries < (asked 2).get Fld.MLK_TIM_RTRY ∧ (asked 3).get Fld.MLK_TIM_RTRY ≤ (asked 3).ser.link.tries) ∧
    (let f := [9#8, 3#8, 0#8] ++ leBytes 2 1 ++ leBytes 2 1 ++ [1#8]
     let c := { tur true with ser := { (tur true).ser with link := { (tur true).ser.link with sending := some f } } }
     AOn c ∧ c.portOn 2 = true ∧ c.direct 2 = false ∧ c.ser.link.sending = some f ∧ f[2]? = some 0#8 ∧ (0#8).msb = false) ∧
    (let a : Answer := { src := 9, seq := 1, frame := [7#8] }
     let c := { up with ser := { up.ser with link := { up.ser.link with pend := some a } } }
     AOn c ∧ c.ser.link.pend = some a ∧ c.get Fld.HRV_STA_SRC = 0) := by decide +kernel

/-- The sync chain enabled. -/
def syn : Chip := up.set Fld.SYN_CTL_EN

theorem w_SyncChain :
    (LOn syn ∧ syn.padIn 20 = true ∧ syn.on Fld.SYN_CTL_EN = true ∧ (syncCrc 0x00010000#32) + 1 ≠ syncCrc 0x00010000#32 ∧ syn.on Fld.SYN_CFG_HEAD = false ∧
      (30#32).getLsbD 5 = false ∧ bitsOf (30#32).toNat 0 5 ≠ 31 ∧ (syn.set Fld.SYN_CFG_HEAD).on Fld.SYN_CFG_HEAD = true ∧
      syn.on Fld.SYN_CFG_LOSSH = false ∧ syn.on Fld.SYN_STA_LOST = false ∧ (syn.set Fld.SYN_STA_LOST).on Fld.SYN_STA_LOST = true) ∧
    (let c := (syn.set Fld.SYN_CFG_HOUT).put Fld.DOC_ST_ST Eng.halt
     c.ownHalt = true ∧ bitsOf c.ser.sync.sent 5 1 = 0) ∧ (syn.ownHalt = false ∧ syn.ownFlt = false) := by decide +kernel

/-! ### Witnesses: Almanac -/

/-- A mailbox request of Almanac, code STATUS. -/
def boxed : Chip := let c := linked.put Fld.ALM_MSVC_SVC Svc.status; { c with alm := { c.alm with mbox := some .alm } }

/-- The Nimora port in its protocol state, the application selected or not. -/
def nim (s : Nat) (app : Bool) : Chip :=
  let c := ((linked.put Fld.NIM_ST_S s).set Fld.NIM_CTL_EN).set Fld.NIM_STA_FIELD
  { c with alm := { c.alm with nim := { c.alm.nim with app := app } } }

/-- The reader selected, the boot ROM alone running. -/
def nimRom : Chip := ((nim 4 true).put Fld.PSY_BST_STG 1).put Fld.PSY_BST_FAIL 1

theorem w_ServiceRequests :
    (Accepts linked .alm Reg.ALM_MDB 1#32 ∧ linked.on Fld.ALM_MRS_BUSY = false) ∧
    (AOn boxed ∧ boxed.alm.mbox = some .alm ∧ boxed.alm.waits = [] ∧ boxed.svcWaits (boxed.mailboxReq .alm) = false ∧
      boxed.get Fld.ALM_MSVC_SVC = Svc.status) ∧
    ServiceRow (.statusService .mailbox) .mailbox Svc.status [] ∧ ServiceRow (.ident (.nimora 0#16 256#9)) (.nimora 0#16 256#9) Svc.ident [] ∧
    ServiceRow (.cont (.turradar 9#8 1#16)) (.turradar 9#8 1#16) Svc.cont [] ∧
    (3 ≤ (nim 4 true).nimSt ∧ (nim 4 true).coreAsleep = false ∧ (nim 4 true).romMode = false ∧ (nim 4 true).alm.nim.app = true ∧
      (nim 3 false).romMode = false ∧ (nim 3 false).alm.nim.app = false ∧ 1#16 ≠ 0#16 ∧ Svc.ident ≠ Svc.cont ∧
      (let d := (nim 4 true).bump Fld.NIM_CNT_APDU
       d.svcWaits { rqk := 2, rqid := 0, auth := (nim 4 true).on Fld.NIM_STA_AUTH, code := Svc.ident, req := [], aux := (256#9).toNat, hdr := none }
         = false)) ∧
    (3 ≤ nimRom.nimSt ∧ nimRom.coreAsleep = false ∧ nimRom.romMode = true ∧ Svc.time ∉ [Svc.status, Svc.ident, Svc.upd]) ∧
    ((tur false).portOn 2 = true ∧ (tur false).direct 2 = false ∧ (List.replicate 1023 0#8).length < 1024 ∧
      (tur false).on Fld.MLK_ADDR_ROLE = false ∧ (0#16).toNat = 0) :=
  ⟨⟨accepts_of (by decide +kernel), by decide +kernel⟩, by decide +kernel, .inl ⟨rfl, rfl, rfl⟩, .inr (.inl ⟨rfl, rfl, rfl⟩),
    .inr (.inr (.inl ⟨rfl, rfl, rfl⟩)), by decide +kernel⟩

/-- A mailbox request of Almanac with a code and a payload. -/
def boxS (code : Nat) (bs : List Byte) : Chip :=
  let c := ((fed linked).put Fld.ALM_MSVC_SVC code).put Fld.ALM_MLEN_N bs.length
  let c := (List.range ((bs.length + 3) / 4)).foldl (fun c i => c.put (Fld.ALM_MBUF_D i) (ofLeBytes ((bs.drop (4 * i)).take 4))) c
  { c with alm := { c.alm with mbox := some .alm } }

/-- The mailbox of `c` asks for service `code` with payload `bs`. -/
abbrev Asks (c : Chip) (code : Nat) (bs : List Byte) : Prop :=
  AOn c ∧ c.alm.mbox = some .alm ∧ c.alm.waits = [] ∧ c.romMode = false ∧ (c.mailboxReq .alm).code = code ∧ (c.mailboxReq .alm).req = bs

theorem w_MailboxReads :
    Asks (boxS Svc.status []) Svc.status [] ∧ Asks (boxS Svc.ident []) Svc.ident [] ∧
    (let c := boxS Svc.cont []
     let c := { c with alm := { c.alm with conts := [(requester 3 0, [5#8])] } }
     Asks c Svc.cont [] ∧ c.cont (c.mailboxReq .alm).who ≠ []) ∧
    (Asks (boxS Svc.logRead (leBytes 4 1 ++ [31#8])) Svc.logRead (leBytes 4 (1#32).toNat ++ [31#8]) ∧ 1 ≤ (31#8).toNat ∧ (31#8).toNat ≤ 31) ∧
    (let c := boxS Svc.paramRead (0#8 :: leBytes 3 0xFF10 ++ [240#8])
     Asks c Svc.paramRead (0#8 :: leBytes 3 (0xFF10#32).toNat ++ [240#8]) ∧ partAt (0#8).toNat = some (0x190000, 0x10000) ∧
       1 ≤ (240#8).toNat ∧ (240#8).toNat ≤ 240 ∧ (0xFF10#32).toNat < 2 ^ 24 ∧ (0xFF10#32).toNat + (240#8).toNat ≤ 0x10000 ∧ c.fst.poison = []) := by
  decide +kernel

theorem w_MailboxWrites :
    (let c := boxS Svc.paramWrite (leBytes 2 0 ++ 0#8 :: leBytes 3 0x10 ++ [1#8, 2#8])
     let q := c.mailboxReq .alm
     Asks c Svc.paramWrite (leBytes 2 (0#16).toNat ++ 0#8 :: leBytes 3 (0x10#32).toNat ++ [1#8, 2#8]) ∧ c.gst = 0 ∧ q.auth = true ∧
       partAt (0#8).toNat = some (0x190000, 0x10000) ∧ (0#8).toNat ≤ 1 ∧ [1#8, 2#8] ≠ [] ∧ [1#8, 2#8].length ≤ 240 ∧
       (let d := c.setCont q.who []
        (d.svcGroup q 0 0x10 (d.patchPages (0x190000 + 0x10) [1#8, 2#8])).1 = St.ok)) ∧
    (let c := boxS Svc.time (leBytes 2 0 ++ leBytes 4 99)
     let q := c.mailboxReq .alm
     Asks c Svc.time (leBytes 2 (0#16).toNat ++ leBytes 4 (99#32).toNat) ∧ c.gst = 0 ∧ q.auth = true ∧
       ((c.setCont q.who []).svcGroup q 0 0 []).1 = St.ok) ∧
    (let c := boxS Svc.upd (leBytes 2 0 ++ [4#8])
     let q := c.mailboxReq .alm
     Asks c Svc.upd (leBytes 2 (0#16).toNat ++ [4#8]) ∧ c.gst = 0 ∧ q.auth = true ∧
       ((c.setCont q.who []).updAbort.svcGroup q 0 0 []).1 = St.ok) := by decide +kernel

/-- A service request of requester kind `k`. -/
def req (k code : Nat) (bs : List Byte) (auth : Bool) : SvcReq := { rqk := k, rqid := 0, auth := auth, code := code, req := bs, aux := 0, hdr := none }

theorem w_ServiceResults :
    ((req 1 Svc.status [] true).code = Svc.status ∧ (req 1 Svc.ident [] true).code = Svc.ident) ∧
    (let c := { up with alm := { up.alm with conts := [(requester 1 0, [5#8])] } }
     c.cont (req 1 Svc.cont [] true).who ≠ [] ∧ up.cont (req 1 Svc.cont [] true).who = []) ∧
    (rom.romMode = true ∧ Svc.logRead ∉ [Svc.status, Svc.ident, Svc.upd, Svc.cont]) ∧
    (up.romMode = false ∧ partAt (0#8).toNat = some (0x190000, 0x10000) ∧ 1 ≤ 240 ∧ 240 ≤ 240 ∧ 0xFF10 < 2 ^ 24 ∧ 0xFF10 + 240 ≤ 0x10000 ∧
      up.fst.poison = []) ∧
    ((req 1 Svc.paramWrite [] false).rqk ≠ 2 ∧ (req 1 Svc.paramWrite [] false).auth = false ∧ [0#8, 0#8].length = 2 ∧ (1#8).toNat ≤ 1 ∧
      partAt (1#8).toNat = some (0xE0000, 0x20000)) := by decide +kernel

/-- The beginning of a good key copy, and `n` zeros. -/
def kb : List Byte := leBytes 4 0x53564B59 ++ [5#8, 1#8]
def kz (n : Nat) : List Byte := List.replicate n 0#8

/-- Key copy `k` written good. -/
def keyed (c : Chip) (k : Nat) : Chip := c.setBytes (keyAt k) (kb ++ kz 184 ++ [0xD8#8, 0x3D#8])

theorem key_crc : crc16 (kb ++ kz 184) = 0x3DD8#16 := by
  have e : kb ++ kz 184 = kb ++ (kz 40 ++ (kz 40 ++ (kz 40 ++ (kz 40 ++ kz 24)))) := by decide +kernel
  have h0 : kb.foldl crcByte 0xFFFF#16 = 28953#16 := by decide +kernel
  have h1 : (kz 40).foldl crcByte 28953#16 = 38199#16 := by decide +kernel
  have h2 : (kz 40).foldl crcByte 38199#16 = 7641#16 := by decide +kernel
  have h3 : (kz 40).foldl crcByte 7641#16 = 28636#16 := by decide +kernel
  have h4 : (kz 40).foldl crcByte 28636#16 = 11293#16 := by decide +kernel
  have h5 : (kz 24).foldl crcByte 11293#16 = 0x3DD8#16 := by decide +kernel
  rw [e]
  simp only [crc16, List.foldl_append, h0, h1, h2, h3, h4, h5]

theorem keyed_ok0 : (keyed up 0).keyOk 0 = true := by
  have hb : (keyed up 0).bytes (keyAt 0) 190 = kb ++ kz 184 := by decide +kernel
  unfold Chip.keyOk
  simp only [hb, key_crc]
  decide +kernel

theorem keyed_both : (keyed (keyed up 0) 1).keyOk 0 = true ∧ (keyed (keyed up 0) 1).keyOk 1 = true := by
  have hb : (keyed (keyed up 0) 1).bytes (keyAt 0) 190 = kb ++ kz 184 := by decide +kernel
  have hc : (keyed (keyed up 0) 1).bytes (keyAt 1) 190 = kb ++ kz 184 := by decide +kernel
  unfold Chip.keyOk
  simp only [hb, hc, key_crc]
  decide +kernel

theorem w_LogAndKeys :
    (up.canAccess (.orr 0) = true ∧ up.mustQueue (.orr 0) Reg.LOG_TAKE = false ∧ up.fab.aon = true ∧ MayRead up (.orr 0) Pg.LOG ∧ Settled up) ∧
    (let c := { up with alm := { up.alm with taken := [(1, 0)] } }
     AOn c ∧ c.alm.taken = (1, 0) :: []) ∧ up.logReady = [] ∧
    ((rom.put Fld.NVM_GST_ST 1).logReady ≠ [] ∧ (rom.put Fld.NVM_GST_ST 1).gst ≠ 0) ∧ up.gst = 0 ∧
    (rom.logReady ≠ [] ∧ rom.gst = 0 ∧ (rom.ownGroup false (rom.logPages rom.logIndex rom.logReady)).1 = St.ok) ∧
    ((keyed (keyed up 0) 1).keyOk 0 = true ∧ (keyed (keyed up 0) 1).keyOk 1 = true) ∧ ((keyed up 0).keyOk 0 = true ∧ (keyed up 0).keyOk 1 = false) :=
  ⟨⟨by decide +kernel, by decide +kernel, by decide +kernel, trivial, by decide +kernel⟩, by decide +kernel, by decide +kernel, by decide +kernel, by decide +kernel,
    by decide +kernel, keyed_both, keyed_ok0, by decide +kernel⟩

theorem keyed_linked : (keyed linked 0).keyOk 0 = true := by
  have hb : (keyed linked 0).bytes (keyAt 0) 190 = kb ++ kz 184 := by decide +kernel
  unfold Chip.keyOk
  simp only [hb, key_crc]
  decide +kernel

theorem w_Quote :
    LetIn (keyed linked 0) hdr ∧ BridgeIdle (keyed linked 0) ∧ (List.replicate 32 5#8).length = 32 ∧ (keyed linked 0).romMode = false ∧
      (keyed linked 0).keyCopy ≠ none ∧
      (let q : SvcReq :=
         { rqk := 0, rqid := (0#8).toNat, auth := true, code := Svc.quote, req := List.replicate 32 5#8, aux := 0, hdr := some hdr }
       ((keyed linked 0).inHand hdr 10 (.quote (List.replicate 32 5#8))).svcWaits q = false) := by
  refine ⟨by decide +kernel, by decide +kernel, by decide +kernel, by decide +kernel, ?_, by decide +kernel⟩
  simp [Chip.keyCopy, keyed_linked]

theorem w_SensorsTamperTemps :
    (AOn up ∧ up.coreAsleep = false ∧ up.get Fld.HRV_STA_SRC ≠ 2 ∧ (List.replicate 7 0#16).length = 7) ∧
    (AOn ((up.put Fld.HRV_STA_SRC 1).put Fld.HRV_STA_ABV 0) ∧ ((up.put Fld.HRV_STA_SRC 1).put Fld.HRV_STA_ABV 0).coreAsleep = true) ∧
    (bitsOf ((up.put Fld.SEN_TCFG_EN 1).get Fld.SEN_TCFG_EN) 1 1 = 0 ∧ bitsOf ((up.put Fld.SEN_TCFG_EN 2).get Fld.SEN_TCFG_EN) 1 1 = 1) ∧
    (let d := (up.putS Fld.TMP_TWRN_T 900).setTemp 3 900#12
     d.on Fld.TMP_STA_HOT = false ∧ d.on Fld.TMP_STA_WARN = false ∧ d.getS Fld.TMP_TWRN_T ≤ d.getS Fld.TMP_PKG_T) ∧
    (let d := ((up.putS Fld.TMP_TWRN_T 900).set Fld.TMP_STA_WARN).setTemp 3 849#12
     d.on Fld.TMP_STA_WARN = true ∧ d.getS Fld.TMP_PKG_T < d.getS Fld.TMP_TWRN_T - 50) ∧
    (let d := up.setTemp 0 1250#12
     d.on Fld.TMP_STA_CRIT = false ∧ 1250 ≤ d.getS Fld.TMP_PKG_T) ∧
    (let d := (up.set Fld.TMP_STA_CRIT).setTemp 0 1199#12
     d.on Fld.TMP_STA_CRIT = true ∧ d.getS Fld.TMP_PKG_T < 1200) := by decide +kernel

/-- The update engine in a state. -/
def upd (n : Nat) : Chip := (fed linked).put Fld.UPD_STA_ST n

theorem w_Updates :
    (Accepts (upd 0) .alm Reg.UPD_CMD (BitVec.ofNat 32 ((1#8).toNat * 256 + 1)) ∧ Accepts (upd 0) .alm Reg.UPD_CMD (BitVec.ofNat 32 ((2#8).toNat * 256 + 5)) ∧
      (upd 0).updArmed = false ∧ (upd 0).updSt ≠ 2) ∧
    (let c := (upd 1).put Fld.UPD_LEN_N 8
     Accepts c .alm Reg.UPD_CMD 2#32 ∧ c.gst = 0 ∧ c.updSt = 1 ∧ c.get Fld.UPD_DOFS_N < c.get Fld.UPD_LEN_N ∧
       (c.ownGroup false (c.patchPages (imgAt c.alm.kind c.updSlot + c.get Fld.UPD_DOFS_N)
         (c.dwin.take (c.get Fld.UPD_LEN_N - c.get Fld.UPD_DOFS_N)))).1 = St.ok) ∧
    (Accepts (upd 1) .alm Reg.UPD_CMD 3#32 ∧ AOn (upd 2) ∧ (upd 2).updSt = 2 ∧ (upd 2).alm.clone = false) ∧
    Accepts (upd 1) .alm Reg.UPD_CMD 4#32 ∧
    (Accepts (upd 0) .alm Reg.UPD_CMD 6#32 ∧ (upd 0).engine = Eng.off ∧ (upd 0).get Fld.DOC_JUSE_OPN = 0) ∧
    (let c := (((upd 3).set Fld.UPD_STA_FWOK).set Fld.UPD_STA_ENGOK)
     Accepts c .alm Reg.UPD_ARM (BitVec.ofNat 32 (256 + c.updSlot)) ∧ c.guardRight .alm = true ∧ c.updSlot = 1 ∧ c.on Fld.UPD_STA_FWOK = true ∧
       c.on Fld.UPD_STA_ENGOK = true ∧ c.alm.trialRun = false) ∧
    (((upd 1).put Fld.UPD_LEN_N 8).put Fld.NVM_GST_ST 1).pushWaits = true ∧
    (let c := { up with alm := { up.alm with trialRun := true } }
     AOn c ∧ c.alm.trialRun = true ∧ c.get Fld.PSY_BST_STG ≠ 0x0A ∧ up.alm.trialRun = false) := by
  refine ⟨⟨accepts_of ?_, accepts_of ?_, ?_⟩, ⟨accepts_of ?_, ?_⟩, ⟨accepts_of ?_, ?_⟩, accepts_of ?_, ⟨accepts_of ?_, ?_⟩, ⟨accepts_of ?_, ?_⟩, ?_, ?_⟩
  all_goals decide +kernel

/-- A reader at cascade level `l`, halted or not. -/
def rdr (l : Nat) (h : Bool) : Chip := let c := nim 1 false; { c with alm := { c.alm with nim := { c.alm.nim with level := l, halted := h } } }

theorem w_NimoraSession :
    (AOn (rdr 0 false) ∧ (rdr 0 false).on Fld.NIM_CTL_EN = true ∧ (rdr 0 false).on Fld.NIM_STA_FIELD = true ∧ (rdr 0 false).nimSt = 1 ∧
      (rdr 0 false).alm.nim.halted = false ∧ (rdr 0 true).alm.nim.halted = true) ∧
    ((rdr 2 false).nimSt = 1 ∧ (rdr 2 false).alm.nim.level = (1 : Fin 2).val + 1 ∧ 4 < 5 ∧ (rdr 1 false).alm.nim.level = 1) ∧
    ((nim 2 false).nimSt = 2 ∧ (14 : Fin 16).val < 15) ∧ 3 ≤ (nim 3 false).nimSt := by decide +kernel

theorem w_NimoraApplication :
    AOn (nim 4 true) ∧ 3 ≤ (nim 4 true).nimSt ∧ (nim 4 true).coreAsleep = false ∧ (nim 4 true).romMode = false ∧
    (AOn nimRom ∧ 3 ≤ nimRom.nimSt ∧ nimRom.coreAsleep = false ∧ nimRom.romMode = true) ∧ (List.replicate 7 0#8).length = 7 ∧ List.replicate 7 0#8 ≠ nimAid ∧
    (nim 3 false).alm.nim.app = false ∧ (nim 4 true).alm.nim.app = true ∧
    (let c := nim 4 true
     let c := { c with alm := { c.alm with conts := [(theReader, [5#8])] } }
     (c.bump Fld.NIM_CNT_APDU).cont theReader ≠ []) ∧
    (let c := fed (nim 4 true)
     c.energyRun = true ∧ c.energyXmit = true ∧ c.alm.nim.challenge = []) ∧ (List.replicate 129 0#8).length = 129 := by decide +kernel

/-! ### Witnesses: harvest, retention, clocks -/

/-- The supply selector at `src` with threshold bits `abv`, VIN absent. -/
def hrv (src abv : Nat) : Chip :=
  let c := (up.put Fld.HRV_STA_SRC src).put Fld.HRV_STA_ABV abv
  { c with ret := { c.ret with vin := false } }

theorem w_HarvestSupply :
    (AOn (hrv 1 1) ∧ (3 : Fin 6).val < 4 ∧ bitsOf ((hrv 1 1).get Fld.HRV_STA_ABV) 0 1 = 1 ∧ (hrv 1 1).get Fld.HRV_STA_SRC = 1) ∧
    (let c := hrv 1 1
     ({ c with alm := { c.alm with staged := rom.alm.staged } }).alm.staged ≠ [] ∧ c.alm.staged = []) ∧
    (up.ret.vin = true ∧ up.pow.pfail = false) ∧
    ((hrv 1 0).ret.vin = false ∧ (2199#16).toNat < 2200 ∧ 2200 ≤ (2200#16).toNat) ∧
    ((hrv 2 0).get Fld.HRV_STA_SRC = 2 ∧ (1999#16).toNat < 2000) ∧
    (bitsOf ((hrv 1 0).get Fld.HRV_STA_ABV) 0 1 = 0 ∧
      ((hrv 1 0).put Fld.HRV_DKT_S 86400).get Fld.HRV_LDK_S ≤ ((hrv 1 0).put Fld.HRV_DKT_S 86400).get Fld.HRV_DKT_S) ∧
    ((up.set Fld.HRV_MPPT_EN).on Fld.HRV_MPPT_EN = true ∧ (up.clr Fld.HRV_STA_COLD).on Fld.HRV_STA_COLD = false) ∧ (hrv 1 0).gst ≠ 2 := by
  decide +kernel

/-- A retention request in hand. -/
def want (n : Nat) : Chip := { up with ret := { up.ret with req := some n } }

theorem w_RetentionEntry :
    (let c := (up.set Fld.RET_CFG_AIDL).put Fld.RET_LVL_CUR 1
     LOn c ∧ c.idleReady = true) ∧ (eng Eng.ready).idleReady = false ∧ (up.put Fld.RET_LVL_CUR 2).get Fld.RET_LVL_CUR = 2 ∧
    (LOn (want 4) ∧ (want 4).pow.pfail = false ∧ (want 4).ret.req = some 4 ∧ (want 4).ret.early = 0 ∧ (want 8).ret.req = some 8 ∧
      (want 8).ret.early = 0 ∧ (want 0x20).ret.req = some 0x20) ∧
    (let c := ((want 4).put Fld.RET_WSRC_EN 15).put Fld.RET_LVL_CUR 1
     let c := { c with ret := { c.ret with early := 1 } }
     LOn c ∧ c.pow.pfail = false ∧ c.ret.req = some 4 ∧ c.get Fld.RET_LVL_CUR = 1 ∧ c.ret.early &&& c.get Fld.RET_WSRC_EN ≠ 0) := by
  decide +kernel

theorem w_RetentionRequests :
    (Accepts up .alm Reg.RET_REQ 0x04#32 ∧ Accepts up .alm Reg.RET_REQ 0x08#32 ∧ Accepts up .alm Reg.RET_REQ 0x20#32) ∧ up.engine = Eng.off ∧
      up.journalOpen = false ∧ up.guardRight .alm = true ∧ up.get Fld.BRG_USTA_ST ≠ 4 :=
  ⟨⟨accepts_of (by decide +kernel), accepts_of (by decide +kernel), accepts_of (by decide +kernel)⟩, by decide +kernel⟩

theorem w_RetentionWake :
    (let c := up.put Fld.RET_WSRC_EN 1
     let c := { c with fab := { c.fab with standby := true } }
     let k := (1#9).toNat &&& c.get Fld.RET_WSRC_EN
     AOn c ∧ c.fab.standby = true ∧ k ≠ 0 ∧ bitsOf k 6 1 = 0 ∧ (2#9).toNat &&& c.get Fld.RET_WSRC_EN = 0) ∧
    (let c := (up.put Fld.RET_WSRC_EN 0xF).put Fld.RET_LVL_CUR 8
     c.get Fld.RET_LVL_CUR = 8 ∧ ((8#9).toNat &&& c.get Fld.RET_WSRC_EN) &&& 0xF ≠ 0) ∧
    (AOn (want 4) ∧ (want 4).fab.standby = false ∧ (want 4).ret.req = some 4 ∧ (want 8).get Fld.RET_LVL_CUR ≠ 8 ∧ (want 8).ret.req = some 8) ∧
    (let c := { up with pow := { up.pow with safeStop := true } }
     c.pow.safeStop = true) ∧
    (let c := { up with ret := { up.ret with ship := true } }
     c.pow.safeStop = false ∧ c.ret.ship = true) ∧ ((hrv 1 0).pow.safeStop = false ∧ (hrv 1 0).ret.ship = false ∧ (hrv 1 0).fab.aon = true ∧
       (hrv 1 0).ret.vin = false ∧ up.ret.vin = true) := by decide +kernel

/-- A restored chip with its pads latched. -/
def latched : Chip := ((up.set Fld.RET_STA_PLAT).set Fld.RET_STA_RSTD).set Fld.PPD_STA_LAT

theorem w_PadRelease :
    Accepts latched .alm Reg.PPD_REL 1#32 ∧ latched.guardRight .alm = true ∧ latched.padsLatched = true ∧ latched.ret.waking = false ∧
      latched.fab.lco = true ∧ latched.on Fld.RET_STA_RSTD = true := ⟨accepts_of (by decide +kernel), by decide +kernel⟩

theorem w_Clocks :
    Accepts up .alm Reg.RTC_SEC 5#32 ∧
    ((up.put Fld.RTC_ALRM_S 9 |>.put Fld.RTC_SEC_S 9).get Fld.RTC_SEC_S = (up.put Fld.RTC_ALRM_S 9 |>.put Fld.RTC_SEC_S 9).get Fld.RTC_ALRM_S ∧
      (up.put Fld.RTC_ALRM_S 0xFFFFFFFF).get Fld.RTC_ALRM_S = 0xFFFFFFFF ∧ up.ret.vin = true ∧ (hrv 1 0).ret.vin = false) ∧
    (LOn up ∧ up.on Fld.CLK_STA_HOLD = false ∧ (up.put Fld.CLK_SSC_DEPTH 1).get Fld.CLK_STA_SSD ≠ (up.put Fld.CLK_SSC_DEPTH 1).get Fld.CLK_SSC_DEPTH) ∧
    (let c := (up.set Fld.CLK_STA_HOLD).set Fld.CLK_LKA_AUTO
     LOn c ∧ c.on Fld.CLK_STA_HOLD = true ∧ c.on Fld.CLK_LKA_AUTO = true) ∧
    (let c := (up.put (Fld.CLK_FM_LIM 6) 10).put Fld.CLK_FMW_N 1
     (10#16).toNat ≤ c.fmLimit 6 ∧ c.fmLimit 6 < (11#16).toNat ∧ c.get Fld.CLK_FMW_N ≠ 0 ∧
       c.ret.fm.get (6 : Fin 10) + 1 = c.get Fld.CLK_FMW_N ∧ c.ret.fm.get (6 : Fin 10) < 255) :=
  ⟨accepts_of (by decide +kernel), by decide +kernel⟩

theorem w_Pads :
    (let c := (up.put Fld.PAD_INE0_E 0x8000).clr (Fld.GPI_PCFG_INV 15)
     LOn c ∧ c.padsLatched = false ∧ bitsOf (c.get Fld.PAD_INE0_E) 15 1 = 1 ∧ c.on (Fld.GPI_PCFG_INV 15) = false ∧
       bitsOf (c.get Fld.GPI_DIN_D) 15 1 = 0) ∧
    (let c := (up.put Fld.PAD_ATEN_E 0x8000).put (Fld.PAD_ATO_CNT 15) 1
     c.padsLatched = false ∧ bitsOf (c.get Fld.PAD_ATEN_E) 15 1 = 1 ∧ bitsOf (c.get Fld.PAD_ATS_X) 15 1 = 0 ∧ c.get (Fld.PAD_ATO_CNT 15) ≠ 0 ∧
       bitsOf (c.get Fld.PAD_ATACT_A) 30 2 = 0 ∧ bitsOf ((c.put Fld.PAD_ATACT_A 0xC0000000).get Fld.PAD_ATACT_A) 30 2 ≠ 0) := by decide +kernel

/-! ### Witnesses: faults, interlock, debug -/

/-- A fault entry of log sequence number 4. -/
def fe (cls : Nat) : FaultEntry := { lseq := 4, rep := { report 0x0101 0 with cls := cls }, begun := true }
def faulted (cls : Nat) : Chip := let c := linked.set Fld.FLT_STA_ENTRY; { c with flt := { c.flt with queue := [fe cls] } }

theorem w_Faults :
    (let c := (up.set Fld.FLT_STA_ENTRY).put Fld.FLT_SSTO_US 5000
     LOn c ∧ bitsOf c.flt.raisedLL 10 1 = 0 ∧ c.on Fld.FLT_STA_ENTRY = true ∧ c.get Fld.FLT_SSTO_US ≤ (5000#16).toNat ∧
       up.on Fld.FLT_STA_ENTRY = false) ∧
    (Accepts (faulted FC.engine) .alm Reg.FLT_DONE 4#32 ∧ (faulted FC.engine).flt.queue.find? (·.lseq == (4#32).toNat) = some (fe FC.engine) ∧
      FC.engine ≤ (fe FC.engine).rep.cls ∧ (faulted FC.engine).on Fld.FLT_STA_ENTRY = true) ∧
    (Accepts (faulted FC.item) .alm Reg.FLT_DONE 4#32 ∧ (fe FC.item).rep.cls < FC.engine) ∧
    (Accepts (eng Eng.service) .alm Reg.FLT_INJ 0x0104#32 ∧ (eng Eng.service).classOf (bitsOf (0x0104#32).toNat 0 16) (bitsOf (0x0104#32).toNat 16 8) ≠ 0) ∧
    (Accepts up .alm Reg.ILK_LLR 1#32 ∧ up.guardRight .alm = true ∧ (up.put Fld.ILK_LLA_A 0).get Fld.ILK_LLA_A = 0) ∧
    Accepts up .alm Reg.ILK_FRC 1#32 := by
  refine ⟨?_, ⟨accepts_of ?_, ?_⟩, ⟨accepts_of ?_, ?_⟩, ⟨accepts_of ?_, ?_⟩, ⟨accepts_of ?_, ?_⟩, accepts_of ?_⟩
  all_goals decide +kernel

/-- The interlock's filtered inputs. -/
def ilk (f : Nat) : Chip := up.put Fld.ILK_IN_FILT f

theorem w_Interlock :
    (AOn (ilk 1) ∧ (ilk 1).ilkClosed 1 = false ∧ (ilk 1).ilkClosed (1 - 1) = true ∧
      ((ilk 1).put Fld.ILK_CFG_DSC 10).get Fld.ILK_CFG_DSC < (11#16).toNat ∧ (10#16).toNat ≤ ((ilk 1).put Fld.ILK_CFG_DSC 10).get Fld.ILK_CFG_DSC ∧
      (ilk 1).flt.disc = false) ∧
    ((ilk 0).ilkClosed 0 = false ∧ (ilk 0).ilkClosed (1 - 0) = false) ∧ ((ilk 3).get Fld.ILK_IN_FILT = 3 ∧ (ilk 3).ilkClosed 0 = true) := by
  decide +kernel

/-- The debug port unlocked or permitted. -/
def dbg (u : Bool) : Chip := (linked.set Fld.DBG_STA_PERMIT).putB Fld.DBG_STA_UNL u

theorem w_DebugCommands :
    (Accepts (dbg false) .alm Reg.DBG_ULK 1#32 ∧ (dbg false).on Fld.DBG_STA_UNL = false ∧ (dbg false).guardRight .alm = true) ∧
    (Accepts (dbg true) .alm Reg.DBG_ULK 0#32 ∧ (dbg true).on Fld.DBG_STA_UNL = true) ∧
    Accepts (dbg true) .alm Reg.DBG_SRST 1#32 ∧ Accepts (dbg true) .alm Reg.DBG_CMD 1#32 :=
  ⟨⟨accepts_of (by decide +kernel), by decide +kernel⟩, ⟨accepts_of (by decide +kernel), by decide +kernel⟩, accepts_of (by decide +kernel),
    accepts_of (by decide +kernel)⟩

theorem w_DebugAndReset :
    (let c := { up with dbg := { up.dbg with srst := true } }
     AOn c ∧ c.dbg.srst = true ∧ AOn up) ∧
    (let c := { up with dbg := { up.dbg with reboot := true } }
     c.dbg.srst = false ∧ c.dbg.reboot = true) ∧ (up.dbg.srst = false ∧ up.dbg.reboot = false) ∧
    (LOn (dbg true) ∧ tapPads.all (dbg true).padIn = true ∧ (dbg true).on Fld.DBG_STA_UNL = true ∧ (dbg true).dbg.accSts ≠ 1 ∧
      (dbg false).on Fld.DBG_STA_UNL = false ∧ tapPads.all (dbg false).padIn = true ∧ (dbg false).dbg.accSts ≠ 1 ∧ (0x4FFFFFFC#32).toNat < 0x50000000 ∧ 0x70000000 ≤ (0x70000000#32).toNat ∧
      0x50000000 ≤ (0x50000000#32).toNat ∧ (0x6FFFFFFC#32).toNat < 0x70000000) ∧
    (tapPads.all up.padIn = true ∧ tapPads.all (eng Eng.ready).padIn = true ∧ up.engine = Eng.off ∧ (eng Eng.ready).engine ≠ Eng.off ∧ (eng Eng.ready).engine ≠ Eng.fault) ∧
    (({ up with dbg := { up.dbg with extest := true } }).dbg.extest = true ∧ up.dbg.extest = false) := by decide +kernel

/-! ### Well-formedness: each check refuses a term -/

theorem smoke_args : Instr.wf (.start hdr (List.replicate 65535 0#8)) = false := by decide +kernel
theorem smoke_payload : Instr.wf (.rd hdr (List.replicate 65536 0#8)) = false := by decide +kernel
theorem smoke_sweep : Instr.wf (.sweepEnd 0 [[], [], [], [], []] []) = false := by decide
theorem smoke_sums : Instr.wf (.calRunDone (List.replicate 24193 0#32)) = false := by decide +kernel
theorem smoke_push : Instr.wf (.ringPush 0 0 0#32 (List.replicate 65536 0#8)) = false := by decide +kernel
theorem smoke_print : Instr.wf (.ep5PrintData (List.replicate 513 0#8)) = false := by decide +kernel
theorem smoke_spi : Instr.wf (.spiWrite ⟨0, true, 1⟩ (List.replicate 65536 0#8) true) = false := by decide +kernel
theorem smoke_turradar : Instr.wf (.turradarFrameReceived 0#8 0#8 0#8 0#16 (List.replicate 65536 0#8) true) = false := by decide +kernel
theorem smoke_request : Instr.wf (.ident (.nimora 0#16 257#9)) = false := by decide
theorem smoke_offset : Instr.wf (.paramRead .mailbox 0#8 0x1000000#32 1#8) = false := by decide
theorem smoke_scan : Instr.wf (.sensorScan (List.replicate 8 0#16)) = false := by decide
theorem smoke_anticollision : Instr.wf (.nimoraAnticollision 0 (List.replicate 6 0#8)) = false := by decide
theorem smoke_apdu : Instr.wf (.auth 0#16 (List.replicate 256 0#8)) = false := by decide +kernel
theorem smoke_le : Instr.wf (.getResponse 257#9) = false := by decide

/-! ### Single commands, with numbers from the spec -/

/-- The chip after one command. -/
def after (i : Instr) (c : Chip) : Chip :=
  match exec i (st c) with
  | .next s => s.chip
  | _ => c

/-- R117: CRC-16 with polynomial 0x1021 and initial value 0xFFFF; its published check value is 0x29B1. -/
theorem test_crc16 : crc16 [0x31#8, 0x32#8, 0x33#8, 0x34#8, 0x35#8, 0x36#8, 0x37#8, 0x38#8, 0x39#8] = 0x29B1#16 := by decide +kernel

/-- R308: ADDS clamps at the most positive number. -/
theorem test_alu_adds : (alu 0x03 0x7FFFFFFF#32 1#32 false).map (·.r) = some 0x7FFFFFFF#32 := by decide +kernel

/-- R308: ADD wraps, with V and without C. -/
theorem test_alu_add : (alu 0x02 0x7FFFFFFF#32 1#32 false).map (fun o => (o.r, o.c, o.v)) = some (0x80000000#32, false, true) := by decide +kernel

/-- R43: stage POR is followed by stage ROM. -/
theorem test_boot_stage : (after (.bootStageComplete true) State.reset.chip).get Fld.PSY_BST_STG = 1 := by decide +kernel

/-- R60: a SET alias write adds bits. -/
theorem test_set_alias :
    (after (.setAliasWrite (.orr 0) (BitVec.ofNat 32 Reg.IMG_PITCH) 1#32) ((up.set (hEN Pg.IMG)).wr Reg.IMG_PITCH 2#32)).rd Reg.IMG_PITCH = 3#32 := by
  decide +kernel

/-- R54, R55: an access outside every region fills BEA and sets VLD. -/
theorem test_bus_error :
    (let c := after (.registerWrite (.orr 1) 0x90000000#32 0#32) up
     (c.get Fld.SYS_BEA_ADDR, c.on Fld.SYS_BES_VLD, c.get Fld.SYS_BES_MST)) = (0x90000000, true, 1) := by decide +kernel

/-- R125: OV at more than 42.0 V, not at 42.0 V. -/
theorem test_overvoltage :
    ((after (.vinOvervoltage 42000#16) up).on Fld.PWR_STA_OV, (after (.vinOvervoltage 42001#16) up).on Fld.PWR_STA_OV) = (false, true) := by decide +kernel

/-- R98: WAKE from OFF enters WAKING. -/
theorem test_wake : (after (.wake hdr []) ((eng Eng.off).put Fld.PSY_BST_STG 0x0A)).engine = Eng.waking := by decide +kernel

/-- R543: EXTEST is refused in READY. -/
theorem test_extest : (let c := after .extest (eng Eng.ready); (c.dbg.extest, c.on Fld.DBG_IST_XREF)) = (false, true) := by decide +kernel

/-- R349: SET_ADDRESS 5 in the default state. -/
theorem test_set_address :
    (let c := after (.usbStandardRequest 0x00#8 5#8 5#16 0#16 0#16) (linked.put Fld.BRG_USTA_ST 2)
     (c.get Fld.BRG_USTA_ADDR, c.get Fld.BRG_USTA_ST)) = (5, 3) := by decide +kernel

/-- R463: VMPP is K % of VOC. -/
theorem test_mppt :
    (after (.mpptSample 4000#16) (((up.set Fld.HRV_MPPT_EN).clr Fld.HRV_STA_COLD).put Fld.HRV_MPPT_K 76)).get Fld.HRV_VOC_VMPP = 3040 := by decide +kernel

/-- R234: one count up at most moves the position by one, and wraps at the most positive one. -/
theorem test_encoder :
    (after (.encoderCount 0 true 0) ((up.set Fld.ENC_CTL_EN).put (Fld.ENC_POS_P 0) 0x7FFFFFFF)).getS (Fld.ENC_POS_P 0) = -2147483648 := by decide +kernel

/-- R330: a postponed refresh is counted, up to eight. -/
theorem test_refresh :
    ((after (.refresh true) up).cst.postponed,
      (after (.refresh true) { up with cst := { up.cst with postponed := 8 } }).cst.postponed) = (1, 8) := by decide +kernel

/-- R521: channel A opening activates and trips Last Line bit 0. -/
theorem test_ilk_open :
    (let c := after (.ilkOpen 0) (up.put Fld.ILK_IN_FILT 3)
     (bitsOf (c.get Fld.ILK_LLA_A) 0 1, c.get Fld.ILK_IN_FILT)) = (1, 2) := by decide +kernel

/-- R484: the alarm. -/
theorem test_alarm : (after .rtcAlarm ((up.put Fld.RTC_ALRM_S 9).put Fld.RTC_SEC_S 9)).on Fld.RTC_IST_ALRM = true := by decide +kernel

/-- R422, R426: NVS.ADD of -1 to a value of 0 leaves 0. -/
theorem test_nvs_add :
    (let c := (up.setWord (dirAddr 0) 0xC0040080#32).put Fld.NVS_SEL_ID 0
     ((after (.nvsValueAdd .alm 0xFFFFFFFF#32) c).nvs 0).v) = 0#32 := by decide +kernel

/-- R454: REQA is answered with the ATQA 44 00. -/
theorem test_reqa :
    (after (.nimoraReqa false) (((linked.put Fld.NIM_ST_S 1).set Fld.NIM_CTL_EN).set Fld.NIM_STA_FIELD)).alm.nim.out = [0x44#8, 0x00#8] := by
  decide +kernel

/-- R489, R490: a loss of the reference is Last Line cause 8. -/
theorem test_clk_loss :
    (let c := after (.clkLoss 0) up
     (bitsOf (c.get Fld.ILK_LLA_A) 8 1, c.on Fld.CLK_STA_HOLD)) = (1, true) := by decide +kernel

/-- A step takes the oldest command and leaves the others. -/
theorem test_queue :
    (match step { chip := up, pending := [.refresh true, .keygen] } with
     | .next s => (s.chip.cst.postponed, s.pending)
     | _ => (0, [])) = (1, [.keygen]) := by decide +kernel

end Sys2Proof.Tests
end

section
/-!
SUPPORT. The capture of bus errors (R54, R55). SYS and PSY hold BEA, BES and IST at the same offsets, so what a first and a later bus error do is
proved once, for the page at any base `p`.
-/
namespace Sys2Proof.Machine

/-! ### What BES can hold -/

theorem mCode_lt (m : Master) : mCode m < 256 := by
  cases m with
  | orr ctx => exact Nat.lt_trans ctx.isLt (by decide)
  | hel | host | debug | alm => simp [mCode]

theorem mClid_lt (m : Master) : mClid m < 256 := by
  cases m with
  | host clid => exact clid.isLt
  | orr | hel | debug | alm => simp [mClid]

theorem satInc_eq_min (n w : Nat) : satInc n w = min (2 ^ w - 1) (n + 1) := by
  unfold satInc
  split <;> omega

/-! ### The capture registers of the page at `p` -/

def capADDR (p : Nat) : Field := ⟨p + 0x48, 0, 32⟩
def capMST (p : Nat) : Field := ⟨p + 0x4C, 0, 8⟩
def capCLID (p : Nat) : Field := ⟨p + 0x4C, 8, 8⟩
def capKIND (p : Nat) : Field := ⟨p + 0x4C, 16, 2⟩
def capCNT (p : Nat) : Field := ⟨p + 0x4C, 24, 7⟩
def capVLD (p : Nat) : Field := ⟨p + 0x4C, 31, 1⟩
def capBERR (p : Nat) : Field := ⟨p + 0x10, 0, 1⟩

/-- The first bus error after VLD is cleared, captured on the page at `p`. -/
def Chip.captureFirst (c : Chip) (p mst clid addr kind : Nat) : Chip :=
  ((((((c.put (capADDR p) addr).put (capMST p) mst).put (capCLID p) clid).put (capKIND p) kind).put (capCNT p) 1).set (capVLD p)).set (capBERR p)

/-- What a first capture leaves in the page's registers, and that it changes no others (R55). -/
def FirstCaptured (p mst clid addr kind : Nat) (c d : Chip) : Prop :=
  d.get (capADDR p) = addr ∧ d.get (capKIND p) = kind ∧ d.get (capMST p) = mst ∧ d.get (capCLID p) = clid ∧ d.get (capCNT p) = 1 ∧
    d.on (capVLD p) = true ∧ d.on (capBERR p) = true ∧ OnlyRegs c d [p + 0x48, p + 0x4C, p + 0x10]

/-- What a later bus error leaves: one more in CNT up to 127, and all else of the chip as it was (R55). -/
def LaterCounted (p : Nat) (c d : Chip) : Prop :=
  d.get (capCNT p) = min 127 (c.get (capCNT p) + 1) ∧ d.get (capKIND p) = c.get (capKIND p) ∧ d.get (capMST p) = c.get (capMST p) ∧
    d.get (capCLID p) = c.get (capCLID p) ∧ d.on (capVLD p) = true ∧ OnlyRegs c d [p + 0x4C]

/-- No two fields that a capture writes share a bit, so each keeps what is put into it (`RegMap.get_put_apart`). -/
theorem Chip.captureFirst_firstCaptured (c : Chip) (p : Nat) {mst clid addr kind : Nat} (hm : mst < 256) (hc : clid < 256)
    (ha : addr < 0x100000000) (hk : kind < 4) : FirstCaptured p mst clid addr kind c (c.captureFirst p mst clid addr kind) := by
  have honly : OnlyRegs c (c.captureFirst p mst clid addr kind) [p + 0x48, p + 0x4C, p + 0x10] := by
    refine ⟨rfl, fun a hl => ?_⟩
    obtain ⟨hbea, hbes, hist⟩ : a ≠ p + 0x48 ∧ a ≠ p + 0x4C ∧ a ≠ p + 0x10 := by simpa using hl
    simp [Chip.captureFirst, Chip.rd_map, capADDR, capMST, capCLID, capKIND, capCNT, capVLD, capBERR, hbea, hbes, hist]
  refine ⟨?addr, ?kind, ?mst, ?clid, ?cnt, ?vld, ?berr, honly⟩ <;>
    simp [Chip.captureFirst, Chip.get_map, Chip.on_map, Field.apart, Field.fits, capADDR, capMST, capCLID, capKIND, capCNT, capVLD, capBERR,
      Nat.mod_eq_of_lt, hm, hc, ha, hk]

/-- CNT shares no bit with the other fields of BES, so they keep their values while it counts. -/
theorem Chip.bump_laterCounted {c : Chip} {p : Nat} (hv : c.on (capVLD p) = true) : LaterCounted p c (c.bump (capCNT p)) := by
  have hfits : (capCNT p).fits = true := rfl
  have hkeep : ∀ g : Field, (capCNT p).apart g = true → (c.bump (capCNT p)).get g = c.get g := fun g hg =>
    RegMap.get_put_apart c.regs (capCNT p) g _ hfits hg
  have hcnt : (c.bump (capCNT p)).get (capCNT p) = min 127 (c.get (capCNT p) + 1) :=
    calc (c.bump (capCNT p)).get (capCNT p) = satInc (c.get (capCNT p)) 7 % 2 ^ 7 := RegMap.get_put_same c.regs (capCNT p) _ hfits
      _ = min 127 (c.get (capCNT p) + 1) := by rw [satInc_eq_min]; omega
  have honly : OnlyRegs c (c.bump (capCNT p)) [p + 0x4C] := ⟨rfl, fun a hl => RegMap.rd_put_other c.regs (capCNT p) _ (by simpa [capCNT] using hl)⟩
  have hvld : (c.bump (capCNT p)).on (capVLD p) = true := by
    rw [Chip.on, hkeep _ (by simp [Field.apart, capCNT, capVLD])]; exact hv
  exact ⟨hcnt, hkeep _ (by simp [Field.apart, capCNT, capKIND]), hkeep _ (by simp [Field.apart, capCNT, capMST]),
    hkeep _ (by simp [Field.apart, capCNT, capCLID]), hvld, honly⟩

/-! ### Which page captures -/

/-- The page that captures a master's bus errors: PSY for the Almanac core, SYS for every other one (R55). -/
def capturePage (m : Master) : Nat := if m = .alm then Pg.PSY else Pg.SYS

theorem Chip.busError_eq (c : Chip) (m : Master) (addr kind : Nat) :
    c.busError m addr kind = if c.on (capVLD (capturePage m)) then c.bump (capCNT (capturePage m))
      else c.captureFirst (capturePage m) (mCode m) (mClid m) addr kind := by
  unfold Chip.busError capturePage
  by_cases hm : m = .alm
  · rw [if_pos hm, if_pos hm]; rfl
  · rw [if_neg hm, if_neg hm]; rfl

theorem Chip.busError_firstCaptured {c : Chip} {m : Master} {addr kind : Nat} (hv : c.on (capVLD (capturePage m)) = false)
    (ha : addr < 0x100000000) (hk : kind < 4) : FirstCaptured (capturePage m) (mCode m) (mClid m) addr kind c (c.busError m addr kind) := by
  rw [Chip.busError_eq, hv]
  exact c.captureFirst_firstCaptured _ (mCode_lt m) (mClid_lt m) ha hk

theorem Chip.busError_laterCounted {c : Chip} {m : Master} (addr kind : Nat) (hv : c.on (capVLD (capturePage m)) = true) :
    LaterCounted (capturePage m) c (c.busError m addr kind) := by
  rw [Chip.busError_eq, if_pos hv]
  exact Chip.bump_laterCounted hv

/-- Settles O10: the master chooses the page, and the page's VLD decides between a first capture and a count. -/
theorem busErrorCapture : Obligations.BusErrorCapture := by
  intro c m addr kind ha hk
  refine ⟨fun hm => ?sys, fun hv => ?psyFirst, fun hv => ?psyLater⟩
  case sys =>
    have hp : capturePage m = Pg.SYS := if_neg hm
    have hfirst := @Chip.busError_firstCaptured c m addr kind
    have hlater := @Chip.busError_laterCounted c m addr kind
    rw [hp] at hfirst hlater
    exact ⟨fun hv => hfirst hv ha hk, hlater⟩
  case psyFirst => exact Chip.busError_firstCaptured (m := .alm) hv ha hk
  case psyLater => exact Chip.busError_laterCounted (m := .alm) addr kind hv

end Sys2Proof.Machine
end

section
/-!
SUPPORT. Reads of a register page (R57). A page takes 16 KiB: the registers, their complement twins from 0x800 on, and three aliases of the two. What a
read does is shown to rest on the address's place in its 4 KiB alone, which makes a read of the aliases one of the register itself.
-/
namespace Sys2Proof.Machine

/-! ### The bases of the pages -/

theorem pageAt_region {a : Nat} {p : PageDesc} (h : pageAt a = some p) :
    0x40000000 ≤ a ∧ a < 0x40070000 ∨ 0x50000000 ≤ a ∧ a < 0x5005C000 := by
  unfold pageAt at h
  split at h
  case isTrue hl => exact .inl (by simpa using hl)
  case isFalse =>
    split at h
    case isTrue hr => exact .inr (by simpa using hr)
    case isFalse => cases h

/-- The pages of each table follow one another, 16 KiB apart (R52, R53). -/
theorem lPages_base : ∀ i : Fin 28, (lPages[i.val]?).map (·.base) = some (0x40000000 + i.val * 0x4000) := by decide

theorem pPages_base : ∀ i : Fin 23, (pPages[i.val]?).map (·.base) = some (0x50000000 + i.val * 0x4000) := by decide

theorem pageAt_base {a : Nat} {p : PageDesc} (h : pageAt a = some p) : p.base = a / 0x4000 * 0x4000 := by
  obtain ⟨hlo, hhi⟩ | ⟨hlo, hhi⟩ := pageAt_region h
  · have hb := lPages_base ⟨(a - 0x40000000) / 0x4000, by omega⟩
    have hp : lPages[(a - 0x40000000) / 0x4000]? = some p := by simpa [pageAt, hlo, hhi] using h
    rw [hp, Option.map_some, Option.some_inj] at hb
    dsimp only at hb
    omega
  · have hb := pPages_base ⟨(a - 0x50000000) / 0x4000, by omega⟩
    have hl : ¬ a < 0x40070000 := by omega
    have hp : pPages[(a - 0x50000000) / 0x4000]? = some p := by simpa [pageAt, hlo, hhi, hl] using h
    rw [hp, Option.map_some, Option.some_inj] at hb
    dsimp only at hb
    omega

/-! ### What a read of a page's address does -/

/-- The pages lie outside every region whose words are memory, as a read tells them apart. -/
theorem pageAt_not_memory {a : Nat} {p : PageDesc} (h : pageAt a = some p) :
    ¬ 0x80000000 ≤ a ∧ ¬ 0x60000000 ≤ a ∧ ¬ (0x10000000 ≤ a && a < 0x10010000) = true ∧ ¬ (0x14000000 ≤ a && a < 0x14010000) = true := by
  have hr := pageAt_region h
  simp only [Bool.and_eq_true, decide_eq_true_eq]
  omega

/-- What a read does with its data rests on the address's place in its 4 KiB. -/
theorem hookRead_congr {a a' : Nat} {p : PageDesc} (h : pageAt a = some p) (h' : pageAt a' = some p)
    (ho : (a - p.base) % 0x1000 = (a' - p.base) % 0x1000) (m : Master) (w : Word) (c : Chip) : hookRead m a w c = hookRead m a' w c := by
  obtain ⟨s1, s2, s3, s4⟩ := pageAt_not_memory h
  obtain ⟨t1, t2, t3, t4⟩ := pageAt_not_memory h'
  unfold hookRead
  rw [if_neg s1, if_neg s2, if_neg s3, if_neg s4, if_neg t1, if_neg t2, if_neg t3, if_neg t4, h, h']
  simp only [ho]

/-- Every register that does something to its data when read lies below offset 0x800, so a twin's read gives its data as it is. -/
theorem hookRead_twin {a : Nat} {p : PageDesc} (h : pageAt a = some p) (ho : 0x800 ≤ (a - p.base) % 0x1000) (m : Master) (w : Word) (c : Chip) :
    (hookRead m a w c).1 = (w, St.ok) := by
  obtain ⟨s1, s2, s3, s4⟩ := pageAt_not_memory h
  have hbase := pageAt_base h
  have hlt : (a - p.base) % 0x1000 < 0x1000 := Nat.mod_lt _ (by decide)
  unfold hookRead
  rw [if_neg s1, if_neg s2, if_neg s3, if_neg s4, h]
  dsimp only
  generalize (a - p.base) % 0x1000 = o at ho hlt ⊢
  generalize p.base = b at hbase ⊢
  have hdata : ∀ k : Nat, o ≠ (if k = 2 then 0x54 else 0x58) := fun k => by split <;> omega
  have hne : ∀ r : Nat, r % 0x1000 < 0x800 → b + o ≠ r := by omega
  rw [if_neg (show o ≠ 0xC by omega), if_neg (hdata _), if_neg (hne Reg.RNG_HPOP (by decide)), if_neg (hne Reg.CAL_TDA (by decide)),
    if_neg (hne Reg.HTB_TDA (by decide)), if_neg (hne Reg.NVM_TDA (by decide)), if_neg (hne Reg.LOG_TAKE (by decide))]
  split
  case isTrue => rfl
  case isFalse => split <;> rfl

/-! ### Reads of one page, by offset -/

section OnPage
variable {c : Chip} {b x : Nat} {p : PageDesc} (hp : pageAt b = some p) (hb : p.base = b)
include hp hb

theorem pageAt_add (hx : x < 0x4000) : pageAt (b + x) = some p := by
  have hr := pageAt_region hp
  have hal := pageAt_base hp
  rw [← hp]
  unfold pageAt
  have hdiv : ∀ r : Nat, r % 0x4000 = 0 → r ≤ b → (b + x - r) / 0x4000 = (b - r) / 0x4000 := by omega
  obtain ⟨hlo, hhi⟩ | ⟨hlo, hhi⟩ := hr
  · simp [hlo, hhi, show 0x40000000 ≤ b + x by omega, show b + x < 0x40070000 by omega, hdiv 0x40000000 rfl hlo]
  · simp [hlo, hhi, show 0x50000000 ≤ b + x by omega, show b + x < 0x5005C000 by omega, show ¬ b < 0x40070000 by omega,
      show ¬ b + x < 0x40070000 by omega, hdiv 0x50000000 rfl hlo]

theorem locate_add (hx : x < 0x4000) : locate (b + x) = some { page := p, off := x % 0x1000, alias_ := x / 0x1000 } := by
  simp [locate, pageAt_add hp hb hx, hb]

theorem page_add_aligned (h4 : x % 4 = 0) : (b + x) % 4 = 0 := by
  have hal := pageAt_base hp
  omega

/-- A page lies within one power domain. -/
theorem Chip.deadRegion_add (hx : x < 0x4000) : c.deadRegion (b + x) = c.deadRegion b := by
  have hr := pageAt_region hp
  have hal := pageAt_base hp
  have hA : (0x50000000 ≤ b + x ∧ b + x < 0x70000000) ↔ (0x50000000 ≤ b ∧ b < 0x70000000) := by omega
  have hL : (0x10000000 ≤ b + x ∧ b + x < 0x50000000) ↔ (0x10000000 ≤ b ∧ b < 0x50000000) := by omega
  have hM : (0x80000000 ≤ b + x ∧ b + x < 0x84000000) ↔ (0x80000000 ≤ b ∧ b < 0x84000000) := by omega
  simp only [Chip.deadRegion, ← Bool.decide_and, hA, hL, hM]

/-- Two addresses of a page at one place in their 4 KiB answer a read alike and do the same. -/
theorem Chip.load32_congr {y : Nat} (hd : c.deadRegion b = false) (hx : x < 0x4000) (hy : y < 0x4000) (hxy : x % 0x1000 = y % 0x1000) (h4 : y % 4 = 0)
    (m : Master) :
    c.load32 m (b + x) = c.load32 m (b + y) := by
  have hread : ∀ w, hooks.onRead m (b + x) w c = hooks.onRead m (b + y) w c := fun w =>
    hookRead_congr (pageAt_add hp hb hx) (pageAt_add hp hb hy) (by omega) m w c
  have h4' : x % 4 = 0 := by omega
  simp only [Chip.load32, Chip.read32, Chip.deadRegion_add hp hb hx, Chip.deadRegion_add hp hb hy, hd, Bool.false_eq_true, if_false,
    page_add_aligned hp hb h4', page_add_aligned hp hb h4, ne_eq, not_true_eq_false, locate_add hp hb hx, locate_add hp hb hy,
    Chip.readReg, hxy, hread]

/-- A read that the master may make. -/
theorem Chip.load32_mayRead {m : Master} (hd : c.deadRegion b = false) (hm : MayRead c m b) (hx : x < 0x4000) (h4 : x % 4 = 0) :
    c.load32 m (b + x) = hookRead m (b + x) (c.readReg { page := p, off := x % 0x1000, alias_ := x / 0x1000 }) c := by
  simp only [Chip.load32, Chip.read32, Chip.deadRegion_add hp hb hx, hd, Bool.false_eq_true, if_false, page_add_aligned hp hb h4, ne_eq, not_true_eq_false,
    locate_add hp hb hx]
  refine if_pos ?_
  cases m with
  | host x => rw [hb]; exact hm
  | debug => exact hm
  | orr | hel | alm => rfl

/-- A twin's read gives what `readReg` shows at its offset. -/
theorem Chip.load32_twin {m : Master} (hd : c.deadRegion b = false) (hm : MayRead c m b) (hx : x < 0x800) (h4 : x % 4 = 0) :
    (c.load32 m (b + 0x800 + x)).1 = (if guardedAt p x then ~~~(c.rd (b + x)) else 0#32, St.ok) := by
  have hpage : pageAt (b + (0x800 + x)) = some p := pageAt_add hp hb (by omega)
  have hoff : (0x800 + x) % 0x1000 = 0x800 + x := by omega
  have hreg : p.base + (0x800 + x) - 0x800 = b + x := by omega
  rw [Nat.add_assoc, Chip.load32_mayRead hp hb hd hm (by omega) (by omega), hookRead_twin hpage (by omega)]
  simp [Chip.readReg, hoff, hreg]

end OnPage

/-- Settles O11: the aliases lie at their register's place in the other 4 KiB parts of its page, a twin 0x800 above it. -/
theorem aliasAndTwinReads : Obligations.AliasAndTwinReads := by
  intro c m b o p hp hb hd h4
  refine ⟨fun k hk ho => ?same, fun hm ho hg => ?guarded, fun hm ho hg => ?unguarded⟩
  case same =>
    rw [Nat.add_assoc]
    exact Chip.load32_congr hp hb hd (by omega) (by omega) (by omega) h4 m
  case guarded => rw [Chip.load32_twin hp hb hd hm ho h4, if_pos hg]
  case unguarded => rw [Chip.load32_twin hp hb hd hm ho h4, hg, if_neg Bool.false_ne_true]

end Sys2Proof.Machine
end

section
/-!
SUPPORT. What an unpowered domain hears: no event of its own, and no access of a master that lives in it.
-/
namespace Sys2Proof.Machine

/-- A command that leaves the chip leaves the state. -/
theorem act_same {s : State} {f : Chip → Chip} (h : f s.chip = s.chip) : s.act f = .next s := by
  unfold State.act
  rw [h]

theorem Chip.onPads_off {c : Chip} (h : c.lRuns = false) (l : List Nat) (f : Chip → Chip) : c.onPads l f = c := by simp [Chip.onPads, h]

theorem Chip.onPort_off {c : Chip} (hl : c.lRuns = false) (ha : c.fab.aon = false) (p : Nat) (f : Chip → Chip) : c.onPort p f = c := by
  unfold Chip.onPort
  split
  · exact Chip.onA_off ha f
  · exact Chip.onL_off hl f

theorem Chip.onRx_off {c : Chip} (hl : c.lRuns = false) (ha : c.fab.aon = false) (p : Nat) (f : Chip → Chip) : c.onRx p f = c := by
  unfold Chip.onRx
  split
  · exact Chip.onA_off ha f
  · exact Chip.onPads_off hl _ f

/-- Every master but Almanac needs the L-die. -/
theorem Chip.canAccess_dark {c : Chip} {m : Master} (h : c.lRuns = false) (hm : m ≠ .alm) : c.canAccess m = false := by
  simp [Chip.canAccess, hm, h]

theorem Chip.canAccess_unpowered {c : Chip} (ha : c.fab.aon = false) (hl : c.fab.lco = false) (m : Master) : c.canAccess m = false := by
  unfold Chip.canAccess
  split
  · exact ha
  · simp [Chip.lRuns, hl]

section
variable {c : Chip} {m : Master} (h : c.canAccess m = false)
include h

theorem Chip.regWrite_deaf (a : Nat) (v : Word) : c.regWrite m a v = c := by simp [Chip.regWrite, h]

theorem Chip.busWrite_deaf (a : Nat) (v : Word) : c.busWrite m a v = c := by simp [Chip.busWrite, h]

theorem Chip.regPair_deaf (a : Nat) (v : Word) : c.regPair m a v = c := by simp [Chip.regPair, h]

theorem Chip.regRead_deaf (a : Nat) : c.regRead m a = c := by simp [Chip.regRead, h]

theorem Chip.regAccess_deaf (a : Nat) (w : Option Word) : c.regAccess m a w = c := by
  cases w with
  | none => exact Chip.regRead_deaf h a
  | some v => exact Chip.regWrite_deaf h a v

end

/-! The domain that a command asks for (R22): what it does where that domain is off. -/

section
variable {i : Instr} {s : State} {m : Master} {f : Chip → Chip} {a : Nat} {v : Word}

theorem onL_same (h : s.chip.lRuns = false) (e : exec i s = s.act fun c => c.onL f) : exec i s = .next s :=
  e.trans (act_same (Chip.onL_off h f))

theorem onPads_same {l : List Nat} (h : s.chip.lRuns = false) (e : exec i s = s.act fun c => c.onPads l f) :
    exec i s = .next s :=
  e.trans (act_same (Chip.onPads_off h _ f))

theorem onA_same (h : s.chip.fab.aon = false) (e : exec i s = s.act fun c => c.onA f) : exec i s = .next s :=
  e.trans (act_same (Chip.onA_off h f))

theorem onP_same (h : s.chip.fab.aon = false) (e : exec i s = s.act fun c => c.onP f) : exec i s = .next s :=
  e.trans (act_same (Chip.onP_off h f))

theorem regWrite_same (h : s.chip.canAccess m = false) (e : exec i s = s.act fun c => c.regWrite m a v) : exec i s = .next s :=
  e.trans (act_same (Chip.regWrite_deaf h a v))

theorem busWrite_same (h : s.chip.canAccess m = false) (e : exec i s = s.act fun c => c.busWrite m a v) : exec i s = .next s :=
  e.trans (act_same (Chip.busWrite_deaf h a v))

theorem regPair_same (h : s.chip.canAccess m = false) (e : exec i s = s.act fun c => c.regPair m a v) : exec i s = .next s :=
  e.trans (act_same (Chip.regPair_deaf h a v))

theorem regRead_same (h : s.chip.canAccess m = false) (e : exec i s = s.act fun c => c.regRead m a) : exec i s = .next s :=
  e.trans (act_same (Chip.regRead_deaf h a))

theorem regAccess_same {w : Option Word} (h : s.chip.canAccess m = false) (e : exec i s = s.act fun c => c.regAccess m a w) :
    exec i s = .next s :=
  e.trans (act_same (Chip.regAccess_deaf h a w))

end

section
variable {s : State} {m : Master}

theorem exec_usbBusReset {cause : Fin 3} (h : cause.val ≠ 1) (hs : Bool) :
    exec (.usbBusReset cause hs) s = s.act fun c => c.onL fun c => c.usbReset cause.val hs := by
  show s.act (fun c => if cause.val = 1 then c.vbusLost else c.onL fun c => c.usbReset cause.val hs) = _
  simp only [if_neg h]

theorem updPush_same (h : s.chip.canAccess m = false) : exec (.updPush m) s = .next s :=
  act_same (f := fun c => if c.pushWaits then c else c.regWrite m Reg.UPD_CMD 2#32) (by simp only [Chip.regWrite_deaf h, ite_self])

theorem meridianDisable_same (h : s.chip.canAccess m = false) : exec (.meridianDisable m) s = .next s :=
  act_same (f := fun c => if c.canAccess m then ((c.store32 m (Reg.MER_CTL + 0x2000) 1#32).2.merHalt).settle else c)
    (by simp only [h, Bool.false_eq_true, if_false])

theorem fDieWindowRead_same (h : s.chip.canAccess m = false) (ofs : BitVec 21) (r : WindowRead) :
    exec (.fDieWindowRead m ofs r) s = .next s :=
  act_same (f := fun c => let a := 0x60000000 + ofs.toNat; if !c.canAccess m then c else _) (by simp only [h, Bool.not_false, if_true])

theorem uartFrameSent_same (hl : s.chip.lRuns = false) (ha : s.chip.fab.aon = false) (fin : FrameEnd) :
    exec (.uartFrameSent fin) s = .next s := by
  cases fin with
  | sent p => exact act_same (f := fun c => c.onPort p.val _) (Chip.onPort_off hl ha _ _)
  | collided => exact act_same (f := fun c => c.onPort 2 _) (Chip.onPort_off hl ha _ _)

end

/-- An L-die event, and an access of a master other than Almanac, changes nothing while the L-die does not run (R22, R42, R475). -/
theorem exec_dark {i : Instr} {s : State} (h : s.chip.lRuns = false) (hi : i.needsLDie = true) : exec i s = .next s := by
  have deaf : ∀ {m : Master}, decide (m ≠ .alm) = true → s.chip.canAccess m = false := fun hm => Chip.canAccess_dark h (of_decide_eq_true hm)
  cases i with
  | rtFrameReceived | bridgeLoss | regTimeout | pDieReadReturn | postedWriteApplied | retrainDone | retrainTimeout | wakeComplete | wakeTimeout
  | warmupTimeout | idleTimeout | heatBandEnter | heatBandLeave | journalCommitDone | admitWaitExpiry | hostDrainTimeout | itemReportIssue
  | ledgerDecisionTick | ledgerBinTick | flywheelSynth | bdWindowOpen | indexLost | sweepStart | sweepEnd | recordPush | calRunDone | jobLoad
  | jobLoadDone | bandFetch | hvChannelSettled | heat | sensorEdge | edgeWindowExpiry | transportStopped | stall | heliostatFrame
  | microwordExecute | waitTimeout | waitSatisfied | dispatchPreempt | yieldWake | contextWatchdog | contextTimerExpiry | swapMeasureDone
  | bankSwap | ringPush | ringPop | ringPushTimeout | dataEntryConsumed | recordDiscard | refresh | initSweepDone | scrubPass
  | usbStandardRequest | usbSuspend | usbResume | usbRemoteWakeup | spiCsTimeout | rd | wr | wrn | blkrd | blkwr | tun | quote | clientOpen
  | clientClose | responseDelivered | xoffTimeout | tunnelIdleCut | syncPeriodTick | syncEpochTick | syncUrgentWord | syncLost | idleEntry
  | idleExit | standbyEntry | hibernateEntry | shipEntry | clkLoss | pllRelock | freqMonitorWindow | sscDepthChange | gpEdge | activityTimeout
  | safeTmo | tapReset | ep5PrintData => exact onL_same h rfl
  | wake | off | start | abort | drain | halt | resume | clear | service | exit | status | repget | repack => exact onL_same h rfl
  | bdPulse | pixPulse | encoderIndex | encoderLost | spiStat | spiWrite | spiRead | spiAck | spiReset | syncWordReceived | dbgacc | extest =>
    exact onPads_same h rfl
  | retrain | cfsDrop | ownershipWrite | tcmdRun | calDark | calWhite | calSave | jobDelete | mcmd | swapArm | swapDisarm | contextStop
  | contextRestart | hpsh | hdone | uartDataWrite | nvmOpen | nvmCommit | nvmDiscard | tpaSelect | nvsValueWrite | nvsValueAdd | nvsSaveAll
  | mailboxGo | updBegin | updVerify | updAbort | updClone | updReboot | rtcSet | fltDone | fltInj | pkclr => exact regWrite_same (deaf hi) rfl
  | registerWrite | setAliasWrite | clrAliasWrite | togAliasWrite | guardValueWrite | guardTwinWrite => exact busWrite_same (deaf hi) rfl
  | hpop | uartStatusRead | uartDataRead | logTake => exact regRead_same (deaf hi) rfl
  | shadingTableAccess | tableAccess | tdaAccess => exact regAccess_same (deaf hi) rfl
  | updArm | standbyRequest | hibernateRequest | shipRequest | padRelease | lastLineRelease | llForce | debugUnlock | srst =>
    exact regPair_same (deaf hi) rfl
  | encoderCount axis up t => exact act_same (f := fun c => c.onPads _ _) (Chip.onPads_off h _ _)
  | updPush m => exact updPush_same (deaf hi)
  | meridianDisable m => exact meridianDisable_same (deaf hi)
  | fDieWindowRead m ofs r => exact fDieWindowRead_same (deaf hi) ofs r
  | usbBusReset cause hs => exact onL_same h (exec_usbBusReset (of_decide_eq_true hi) hs)
  | bootStageComplete | bootFailRecordRetry | guardWindowExpiry | heldWriteApply | blockStopped | journalCloseRetry | safeStopSaves
  | safeStopLDieOff | safeStopEnd | turradarFrameReceived | turradarResponseTimeout | turradarResponseSend | nvmCommitDone | groupTimeout
  | pagePreloadDone | senseLineRemap | nvsPeriodicSave | mailboxDone | sensorScan | tamper | tempHot | overtempW | overtemp | logGapTimeout
  | logCommit | keygen | updVerifyDone | trialWatchdog | nimoraReqa | nimoraAnticollision | nimoraRats | nimoraHlta | nimoraDeselect | select
  | getChallenge | auth | getResponse | nimoraFieldLost | vstoThresholdCross | supplySwitch | ldarkExpiry | aonShutdown | mpptSample
  | standbyWake | hibernateWake | rtcAlarm | xtal32Loss | ilkOpen | ilkDisc | systemReset | rfFieldDetect | ilkClose | xtal32Return
  | rcCalibration | loadTimeout | vinOvervoltage | brownoutWarning | powerFail | railFault | railRecovery | limiterShed | shedEnd | pwrLimit
  | ilimTrip | reserveTestStart | reserveValidExpiry | hvOv | fuserCut | thDisag | bridgeOc | polyAlignDone | polyHandover | polyStartTimeout
  | polyOvspd | solPeakEnd | solOc | solOpenLoad | reserveTestDone | statusService | ident | logRead | paramRead | paramWrite | time | updService
  | cont | uartRxChar | uartBreak | uartFrameSent | rtFrameLaunch | mirrorUpdate | aonPor | vbusDetect | vinReturn => exact Bool.noConfusion hi

/-- With no domain powered, a command that brings no supply changes nothing (R22). -/
theorem exec_unpowered {i : Instr} {s : State} (h : Unpowered s.chip) (hi : i.powersUp = false) : exec i s = .next s := by
  obtain ⟨hp, ha, hl⟩ := h
  have hr : s.chip.lRuns = false := by simp [Chip.lRuns, hl]
  have deaf : ∀ m : Master, s.chip.canAccess m = false := fun m => Chip.canAccess_unpowered ha hl m
  cases i with
  | rtFrameReceived | bridgeLoss | regTimeout | pDieReadReturn | postedWriteApplied | retrainDone | retrainTimeout | wakeComplete | wakeTimeout
  | warmupTimeout | idleTimeout | heatBandEnter | heatBandLeave | journalCommitDone | admitWaitExpiry | hostDrainTimeout | itemReportIssue
  | ledgerDecisionTick | ledgerBinTick | flywheelSynth | bdWindowOpen | indexLost | sweepStart | sweepEnd | recordPush | calRunDone | jobLoad
  | jobLoadDone | bandFetch | hvChannelSettled | heat | sensorEdge | edgeWindowExpiry | transportStopped | stall | heliostatFrame
  | microwordExecute | waitTimeout | waitSatisfied | dispatchPreempt | yieldWake | contextWatchdog | contextTimerExpiry | swapMeasureDone
  | bankSwap | ringPush | ringPop | ringPushTimeout | dataEntryConsumed | recordDiscard | refresh | initSweepDone | scrubPass
  | usbStandardRequest | usbSuspend | usbResume | usbRemoteWakeup | spiCsTimeout | rd | wr | wrn | blkrd | blkwr | tun | quote | clientOpen
  | clientClose | responseDelivered | xoffTimeout | tunnelIdleCut | syncPeriodTick | syncEpochTick | syncUrgentWord | syncLost | idleEntry
  | idleExit | standbyEntry | hibernateEntry | shipEntry | clkLoss | pllRelock | freqMonitorWindow | sscDepthChange | gpEdge | activityTimeout
  | safeTmo | tapReset | ep5PrintData => exact onL_same hr rfl
  | wake | off | start | abort | drain | halt | resume | clear | service | exit | status | repget | repack => exact onL_same hr rfl
  | bdPulse | pixPulse | encoderIndex | encoderLost | spiStat | spiWrite | spiRead | spiAck | spiReset | syncWordReceived | dbgacc | extest =>
    exact onPads_same hr rfl
  | bootStageComplete | bootFailRecordRetry | guardWindowExpiry | heldWriteApply | blockStopped | journalCloseRetry | safeStopSaves
  | safeStopLDieOff | safeStopEnd | turradarFrameReceived | turradarResponseTimeout | turradarResponseSend | nvmCommitDone | groupTimeout
  | pagePreloadDone | senseLineRemap | nvsPeriodicSave | mailboxDone | sensorScan | tamper | tempHot | overtempW | overtemp | logGapTimeout
  | logCommit | keygen | updVerifyDone | trialWatchdog | nimoraReqa | nimoraAnticollision | nimoraRats | nimoraHlta | nimoraDeselect | select
  | getChallenge | auth | getResponse | nimoraFieldLost | vstoThresholdCross | supplySwitch | ldarkExpiry | aonShutdown | mpptSample
  | standbyWake | hibernateWake | rtcAlarm | xtal32Loss | ilkOpen | ilkDisc | systemReset | rfFieldDetect | ilkClose | xtal32Return
  | rcCalibration | loadTimeout => exact onA_same ha rfl
  | statusService | ident | logRead | paramRead | paramWrite | time | updService | cont => exact onA_same ha rfl
  | vinOvervoltage | brownoutWarning | powerFail | railFault | railRecovery | limiterShed | shedEnd | pwrLimit | ilimTrip | reserveTestStart
  | reserveValidExpiry | hvOv | fuserCut | thDisag | bridgeOc | polyAlignDone | polyHandover | polyStartTimeout | polyOvspd | solPeakEnd | solOc
  | solOpenLoad | reserveTestDone => exact onP_same ha rfl
  | retrain | cfsDrop | ownershipWrite | tcmdRun | calDark | calWhite | calSave | jobDelete | mcmd | swapArm | swapDisarm | contextStop
  | contextRestart | hpsh | hdone | uartDataWrite | nvmOpen | nvmCommit | nvmDiscard | tpaSelect | nvsValueWrite | nvsValueAdd | nvsSaveAll
  | mailboxGo | updBegin | updVerify | updAbort | updClone | updReboot | rtcSet | fltDone | fltInj | pkclr => exact regWrite_same (deaf _) rfl
  | registerWrite | setAliasWrite | clrAliasWrite | togAliasWrite | guardValueWrite | guardTwinWrite => exact busWrite_same (deaf _) rfl
  | hpop | uartStatusRead | uartDataRead | logTake => exact regRead_same (deaf _) rfl
  | shadingTableAccess | tableAccess | tdaAccess => exact regAccess_same (deaf _) rfl
  | updArm | standbyRequest | hibernateRequest | shipRequest | padRelease | lastLineRelease | llForce | debugUnlock | srst =>
    exact regPair_same (deaf _) rfl
  | encoderCount axis up t => exact act_same (f := fun c => c.onPads _ _) (Chip.onPads_off hr _ _)
  | updPush m => exact updPush_same (deaf m)
  | meridianDisable m => exact meridianDisable_same (deaf m)
  | fDieWindowRead m ofs r => exact fDieWindowRead_same (deaf m) ofs r
  | usbBusReset cause hs => exact onL_same hr (exec_usbBusReset (of_decide_eq_false hi) hs)
  | uartRxChar port c pe fe => exact act_same (f := fun c => c.onRx port.val _) (Chip.onRx_off hr ha _ _)
  | uartBreak port => exact act_same (f := fun c => c.onRx port.val _) (Chip.onRx_off hr ha _ _)
  | uartFrameSent fin => exact uartFrameSent_same hr ha fin
  | rtFrameLaunch meas => exact act_same (f := fun c => c.rtLaunch meas) (by simp [Chip.rtLaunch, hp, hl])
  | mirrorUpdate ms => exact act_same (f := fun c => c.mirrors ms.toNat) (by simp [Chip.mirrors, hl])
  | aonPor | vbusDetect | vinReturn => exact Bool.noConfusion hi

/-- Settles O5: each command of the L-die asks for the L-die, each access for its master's domain. -/
theorem darkLDieInert : Obligations.DarkLDieInert := fun _ _ h hi => exec_dark h hi

/-- Settles O4: the front command changes nothing, nor does an idle step, since the always-on domain is off. -/
theorem unpoweredStays : Obligations.UnpoweredStays := by
  intro s t hu hq hstep
  unfold step at hstep
  split at hstep
  case h_1 hnil =>
    cases hstep
    have hidle : s.chip.idle = s.chip := Chip.onA_off hu.2.1 _
    rw [hidle]
    exact ⟨hu, hq, rfl⟩
  case h_2 c rest hcons =>
    rw [hcons] at hq
    rw [exec_unpowered (s := { s with pending := rest }) hu (hq c List.mem_cons_self)] at hstep
    cases hstep
    exact ⟨hu, fun d hd => hq d (List.mem_cons_of_mem _ hd), rfl⟩

end Sys2Proof.Machine
end

section
/-!
SUPPORT. The queue: a command changes the chip and leaves the queue (R22), and what a reset leaves.
-/
namespace Sys2Proof.Machine

/-- Every command changes the chip only. -/
theorem exec_answers (i : Instr) (s : State) : ∃ c : Chip, exec i s = .next { s with chip := c } := by
  cases i with
  | uartFrameSent fin => cases fin <;> exact ⟨_, rfl⟩
  | _ => exact ⟨_, rfl⟩

/-- Settles O1: by the definition of a step. -/
theorem stepRunsFrontCommand : Obligations.StepRunsFrontCommand := fun _ _ _ => rfl

/-- Settles O2: an idle step is the tick of the always-on domain, and a command leaves the queue behind it. -/
theorem stepsAlwaysAnswer : Obligations.StepsAlwaysAnswer := by
  have idle : ∀ s : State, s.pending = [] → step s = .next { s with chip := s.chip.idle } := by
    intro s hs
    unfold step
    rw [hs]
  refine ⟨fun s hs => ⟨fun ha => ?_, fun ha => ?_⟩, fun s => ?_⟩
  · rw [idle s hs]
    exact congrArg (fun c => Host.Outcome.next { s with chip := c }) (Chip.onA_on ha _)
  · rw [idle s hs]
    exact congrArg (fun c => Host.Outcome.next { s with chip := c }) (Chip.onA_off ha _)
  · cases hq : s.pending with
    | nil => exact ⟨_, idle s hq, by simp [hq]⟩
    | cons i rest =>
      obtain ⟨c, hc⟩ := exec_answers i { s with pending := rest }
      refine ⟨{ pending := rest, chip := c }, ?_, rfl⟩
      unfold step
      rw [hq]
      exact hc

/-- Settles O3: the register map and the memory of a reset list nothing. -/
theorem resetState : Obligations.ResetState :=
  ⟨rfl, rfl, rfl, rfl, rfl, rfl, rfl, rfl, rfl, fun _ => rfl, rfl, rfl⟩

end Sys2Proof.Machine
end

section
/-!
SUPPORT. A command whose power domain is on, and what the drivers' outputs leave: they change the pages of the drivers, motion, the stations and the
Heliostat slots, and nothing else (R35, R517, R518).
-/
namespace Sys2Proof.Machine

/-! ### Commands in a powered domain (R22) -/

section
variable {i : Instr} {s : State} {f : Chip → Chip} {d : Chip}

theorem gives_act (e : exec i s = s.act f) (hd : f s.chip = d) : Gives i s d := hd ▸ act_gives e

theorem gives_onL (h : LOn s.chip) (e : exec i s = s.act fun c => c.onL f) (hd : f s.chip = d) : Gives i s d :=
  gives_act e ((Chip.onL_on h f).trans hd)

theorem gives_onA (h : AOn s.chip) (e : exec i s = s.act fun c => c.onA f) (hd : f s.chip = d) : Gives i s d :=
  gives_act e ((Chip.onA_on h f).trans hd)

theorem gives_onP (h : POn s.chip) (e : exec i s = s.act fun c => c.onP f) (hd : f s.chip = d) : Gives i s d :=
  gives_act e ((Chip.onP_on h f).trans hd)

theorem Chip.onPads_on {c : Chip} {l : List Nat} (h : LOn c) (hp : l.all c.padIn = true) (f : Chip → Chip) : c.onPads l f = f c := by
  simp [Chip.onPads, Chip.lRuns, h.1, h.2, hp]

theorem gives_onPads {l : List Nat} (h : LOn s.chip) (hp : l.all s.chip.padIn = true) (e : exec i s = s.act fun c => c.onPads l f)
    (hd : f s.chip = d) : Gives i s d :=
  gives_act e ((Chip.onPads_on h hp f).trans hd)

/-- A write of a command register that passes every check: its effect, then what follows every accepted write (R84). -/
theorem gives_command {m : Master} {a : Nat} {v : Word} (e : exec i s = s.act fun c => c.regWrite m a v) (acc : Accepts s.chip m a v)
    (hc : commandReg a v = true) (hr : hookResv a v s.chip = []) (hp : hookPost m a (s.chip.rd a) v s.chip = (St.ok, d)) :
    Gives i s d.afterWrite :=
  gives_act e (Chip.regWrite_command acc hc hr hp)

theorem Gives.andRuns {P : Chip → Prop} (h : Gives i s d) (hp : P d) : Gives i s d ∧ Runs i s P := ⟨h, h.runs hp⟩

theorem Runs.mono {P Q : Chip → Prop} (h : Runs i s P) (hpq : ∀ c, P c → Q c) : Runs i s Q := by
  obtain ⟨c, e, hc⟩ := h
  exact ⟨c, e, hpq c hc⟩

end

/-! ### Fields of the chip after a field has been put -/

theorem Chip.get_congr {c d : Chip} (h : c.regs = d.regs) (f : Field) : c.get f = d.get f := by
  rw [Chip.get_map, Chip.get_map, h]

theorem Chip.on_congr {c d : Chip} (h : c.regs = d.regs) (f : Field) : c.on f = d.on f := by
  rw [Chip.on, Chip.on, Chip.get_congr h]

/-- A field reads what was last put into it, as far as it is wide. -/
theorem Chip.get_put_same (c : Chip) {f : Field} (v : Nat) (hf : f.fits = true) : (c.put f v).get f = v % 2 ^ f.w :=
  RegMap.get_put_same c.regs f v hf

/-- Putting a value into a field leaves one that shares no bit with it. -/
theorem Chip.get_put_apart (c : Chip) {f g : Field} (v : Nat) (hf : f.fits = true) (h : f.apart g = true) : (c.put f v).get g = c.get g :=
  RegMap.get_put_apart c.regs f g v hf h

theorem Chip.on_put_apart (c : Chip) {f g : Field} (v : Nat) (hf : f.fits = true) (h : f.apart g = true) : (c.put f v).on g = c.on g := by
  rw [Chip.on, Chip.on, Chip.get_put_apart c v hf h]

theorem Chip.on_set_same (c : Chip) {f : Field} (hf : f.fits = true) (hw : 0 < f.w) : (c.set f).on f = true := by
  have : (1 : Nat) % 2 ^ f.w = 1 := Nat.mod_eq_of_lt (Nat.one_lt_two_pow (by omega))
  rw [Chip.on, Chip.set, Chip.get_put_same c 1 hf, this]
  rfl

theorem Chip.on_clr_same (c : Chip) {f : Field} (hf : f.fits = true) : (c.clr f).on f = false := by
  rw [Chip.on, Chip.clr, Chip.get_put_same c 0 hf, Nat.zero_mod]
  rfl

/-! ### What the drivers' outputs leave -/

/-- The pages of the P-die drivers (LDR, HVD, FUS, MDR, SOL) and of motion and its sensors (MOT, SNS). -/
abbrev driverPages : List Nat := [0x14005, 0x14007, 0x14008, 0x14009, 0x1400A, 0x10010, 0x10012]

/-- Only these pages, motion, the stations, the Heliostat slots and the count of free values have changed. -/
def OnlyDrivers (c d : Chip) : Prop :=
  d = { c with regs := d.regs, mot := d.mot, mer := d.mer, hel := d.hel, free := d.free } ∧
    ∀ a, a / 0x4000 ∉ driverPages → d.rd a = c.rd a

namespace OnlyDrivers
variable {b c d : Chip}

theorem refl (c : Chip) : OnlyDrivers c c := ⟨rfl, fun _ _ => rfl⟩

theorem trans (h : OnlyDrivers b c) (k : OnlyDrivers c d) : OnlyDrivers b d :=
  ⟨by rw [k.1, h.1], fun a ha => (k.2 a ha).trans (h.2 a ha)⟩

theorem put (h : OnlyDrivers c d) {f : Field} (hf : f.addr / 0x4000 ∈ driverPages) (v : Nat) : OnlyDrivers c (d.put f v) :=
  h.trans ⟨rfl, fun a ha => by
    have hne : a ≠ f.addr := fun e => ha (e ▸ hf)
    simp [Chip.rd_map, hne]⟩

theorem mot (h : OnlyDrivers c d) (x : Motion) : OnlyDrivers c { d with mot := x } := h.trans ⟨rfl, fun _ _ => rfl⟩

theorem mer (h : OnlyDrivers c d) (x : Meridian) : OnlyDrivers c { d with mer := x } := h.trans ⟨rfl, fun _ _ => rfl⟩

theorem hel (h : OnlyDrivers c d) (x : Heliostat) : OnlyDrivers c { d with hel := x } := h.trans ⟨rfl, fun _ _ => rfl⟩

theorem drawn (h : OnlyDrivers c d) : OnlyDrivers c d.drawn := h.trans ⟨rfl, fun _ _ => rfl⟩

theorem foldl {α : Type} {f : Chip → α → Chip} (l : List α) (hf : ∀ t, ∀ x ∈ l, OnlyDrivers t (f t x)) (h : OnlyDrivers c d) :
    OnlyDrivers c (l.foldl f d) := by
  induction l generalizing d with
  | nil => exact h
  | cons x l ih =>
    exact ih (fun t y hy => hf t y (List.mem_cons_of_mem _ hy)) (h.trans (hf d x List.mem_cons_self))

theorem ite {p : Prop} [Decidable p] (h : OnlyDrivers b c) (k : OnlyDrivers b d) : OnlyDrivers b (if p then c else d) := by
  split
  · exact h
  · exact k

theorem fab (h : OnlyDrivers c d) : d.fab = c.fab := by rw [h.1]
theorem mem (h : OnlyDrivers c d) : d.mem = c.mem := by rw [h.1]
theorem flt (h : OnlyDrivers c d) : d.flt = c.flt := by rw [h.1]

theorem get (h : OnlyDrivers c d) {f : Field} (hf : f.addr / 0x4000 ∉ driverPages) : d.get f = c.get f := by
  show bitsOf (d.rd f.addr).toNat f.lo f.w = bitsOf (c.rd f.addr).toNat f.lo f.w
  rw [h.2 _ hf]

theorem on (h : OnlyDrivers c d) {f : Field} (hf : f.addr / 0x4000 ∉ driverPages) : d.on f = c.on f := by
  unfold Chip.on
  rw [h.get hf]

end OnlyDrivers

theorem onlyDrivers_helCmd (c : Chip) (n m : Nat) : OnlyDrivers c (c.helCmd n m) := by
  unfold Chip.helCmd Chip.setSlot
  split
  · exact (OnlyDrivers.refl c).hel _
  · exact OnlyDrivers.refl c

@[simp] theorem Chip.helCmd_regs (c : Chip) (n m : Nat) : (c.helCmd n m).regs = c.regs := by
  unfold Chip.helCmd Chip.setSlot
  split <;> rfl

/-- A field of no polygon register keeps its value when the polygon driver is switched. -/
theorem Chip.polyDrive_get (c : Chip) (on : Bool) {f : Field} (h1 : Fld.MDR_PSTA_ST.apart f = true) (h2 : Fld.MDR_STA_PST.apart f = true) :
    (c.polyDrive on).get f = c.get f := by
  have hp : ∀ (t : Chip) (st : Nat), (t.polyState st).get f = t.get f := fun t st =>
    (Chip.get_put_apart _ st rfl h2).trans (Chip.get_put_apart _ st rfl h1)
  unfold Chip.polyDrive
  split
  · rfl
  · dsimp only
    split
    · exact hp _ _
    · exact hp _ _

/-- A Last Line trip turns lasers, high voltage, heater and bridges off (R518). -/
theorem Chip.cutDrivers_off (c : Chip) : c.cutDrivers.get Fld.LDR_STA_ON = 0 ∧ c.cutDrivers.get Fld.HVD_STA_ON = 0 ∧
    c.cutDrivers.get Fld.FUS_STA_HTON = 0 ∧ c.cutDrivers.get Fld.MDR_STA_HON = 0 := by
  have hslots : ∀ (l : List Nat) (t : Chip), (l.foldl (fun t n =>
      if t.get (Fld.HLP_CFG_ACT n) = 0 || t.get (Fld.HLP_CFG_ACT n) = 12 then t else t.helCmd n Mode.off) t).regs = t.regs := by
    intro l
    induction l with
    | nil => intro t; rfl
    | cons n l ih =>
      intro t
      rw [List.foldl_cons, ih]
      split
      · rfl
      · exact Chip.helCmd_regs t n _
  have hlit : ∀ (t : Chip) (f : Field), t.markUnlit.get f = t.get f := fun _ _ => rfl
  have hmot : ∀ (t : Chip) (x : Motion) (f : Field), ({ t with mot := x } : Chip).get f = t.get f := fun _ _ _ => rfl
  unfold Chip.cutDrivers Chip.showSols
  dsimp only
  refine ⟨?_, ?_, ?_, ?_⟩ <;> rw [Chip.get_congr (hslots _ _), hlit] <;>
    simp (disch := decide) only [Chip.get_put_same, Chip.get_put_apart, Chip.polyDrive_get, hmot, Nat.zero_mod]

theorem onlyDrivers_polyState (c : Chip) (st : Nat) : OnlyDrivers c (c.polyState st) :=
  (((OnlyDrivers.refl c).put (by decide) st).put (by decide) st).mot _

theorem onlyDrivers_polyDrive (c : Chip) (on : Bool) : OnlyDrivers c (c.polyDrive on) := by
  unfold Chip.polyDrive
  split
  · exact ((OnlyDrivers.refl c).mot _).mot _
  · dsimp only
    split
    · exact ((OnlyDrivers.refl c).mot _).trans (onlyDrivers_polyState _ _)
    · exact ((OnlyDrivers.refl c).mot _).trans (onlyDrivers_polyState _ _)

theorem onlyDrivers_showSols (c : Chip) : OnlyDrivers c c.showSols :=
  ((OnlyDrivers.refl c).put (by decide) _).put (by decide) _

theorem onlyDrivers_markUnlit (c : Chip) : OnlyDrivers c c.markUnlit := (OnlyDrivers.refl c).mer _

theorem onlyDrivers_syncBridges (c : Chip) : OnlyDrivers c c.syncBridges := (OnlyDrivers.refl c).mot _

theorem onlyDrivers_gateDrivers (c : Chip) : OnlyDrivers c c.gateDrivers := by
  unfold Chip.gateDrivers
  dsimp only
  refine OnlyDrivers.trans ?_ (onlyDrivers_syncBridges _)
  refine OnlyDrivers.trans ?_ (onlyDrivers_markUnlit _)
  refine OnlyDrivers.trans ?_ (onlyDrivers_showSols _)
  refine OnlyDrivers.trans ?_ (onlyDrivers_polyDrive _ _)
  exact (((((((OnlyDrivers.refl c).put (by decide) _).put (by decide) _).put (by decide) _).mot _).put (by decide) _).mot _)

/-- What a Last Line trip does to the drivers (R518). -/
theorem onlyDrivers_cutDrivers (c : Chip) : OnlyDrivers c c.cutDrivers := by
  unfold Chip.cutDrivers
  dsimp only
  refine OnlyDrivers.foldl _ (fun t n _ => ?_) ?_
  · split
    · exact OnlyDrivers.refl t
    · exact onlyDrivers_helCmd t n _
  · refine OnlyDrivers.trans ?_ (onlyDrivers_markUnlit _)
    refine OnlyDrivers.put ?_ (by decide) _
    refine OnlyDrivers.trans ?_ (onlyDrivers_polyDrive _ _)
    refine OnlyDrivers.trans ?_ (onlyDrivers_showSols _)
    exact ((((OnlyDrivers.refl c).put (by decide) _).put (by decide) _).put (by decide) _).mot _

theorem onlyDrivers_polyFollow (c : Chip) (rpm : Nat) : OnlyDrivers c (c.polyFollow rpm) := by
  have hp : OnlyDrivers c (c.put Fld.MDR_PSTA_RPM rpm) := (OnlyDrivers.refl c).put (by decide) _
  unfold Chip.polyFollow
  dsimp only
  split
  · split
    · exact hp.trans (onlyDrivers_polyState _ _)
    · split
      · exact hp.trans (onlyDrivers_polyState _ _)
      · exact hp
  · exact hp.trans (onlyDrivers_polyDrive _ _)

theorem onlyDrivers_polyTick (c : Chip) : OnlyDrivers c c.polyTick := by
  unfold Chip.polyTick
  split
  · split
    · exact ((OnlyDrivers.refl c).mot _).trans (onlyDrivers_polyState _ _)
    · exact (OnlyDrivers.refl c).mot _
  · exact OnlyDrivers.refl c

/-! ### One bit of a number -/

theorem bitsOf_one (n b : Nat) : bitsOf n b 1 = (n.testBit b).toNat := by
  have h := Nat.testBit_eq_decide_div_mod_eq (x := n) (i := b)
  rcases Nat.mod_two_eq_zero_or_one (n / 2 ^ b) with e | e <;> simp [bitsOf, h, e]

/-- A bit that is set in a field of more bits reads 1. -/
theorem bitsOf_or_two_pow {n b w : Nat} (h : b < w) : bitsOf ((n ||| 2 ^ b) % 2 ^ w) b 1 = 1 := by
  rw [bitsOf_one, Nat.testBit_mod_two_pow, Nat.testBit_or, Nat.testBit_two_pow_self]
  simp [h]

/-! ### Last Line (R517, R518) -/

/-- The registers of page ILK in which a trip latches. -/
theorem Chip.tripLL_eq (c : Chip) (b : Nat) : ∃ d : Chip, c.tripLL b = d.cutDrivers ∧ d = { c with regs := d.regs } ∧
    (∀ a, a / 0x4000 ≠ 0x14006 → d.rd a = c.rd a) ∧ d.on Fld.ILK_STA_LL = true ∧
    d.get Fld.ILK_LLC_C = (c.get Fld.ILK_LLC_C ||| 2 ^ b) % 2 ^ 13 := by
  have hr : ∀ a, a / 0x4000 ≠ 0x14006 → ∀ f : Field, f.addr / 0x4000 = 0x14006 → a ≠ f.addr := fun a ha f hf e => ha (e ▸ hf)
  unfold Chip.tripLL
  dsimp only
  split
  · refine ⟨_, rfl, rfl, fun a ha => ?_, ?_, ?_⟩
    · have h := hr a ha
      simp [Chip.rd_map, h Fld.ILK_LLC_C rfl, h Fld.ILK_STA_LL rfl, h Fld.ILK_IST_LL rfl, h Fld.ILK_TCNT_N rfl]
    · simp (disch := decide) only [Chip.bump, Chip.set, Chip.on_put_apart]
      exact Chip.on_set_same _ rfl (by decide)
    · simp (disch := decide) only [Chip.bump, Chip.set, Chip.get_put_apart, Chip.get_put_same]
  · rename_i h
    refine ⟨_, rfl, rfl, fun a ha => ?_, ?_, ?_⟩
    · simp [Chip.rd_map, hr a ha Fld.ILK_LLC_C rfl]
    · simp (disch := decide) only [Chip.on_put_apart]
      simpa using h
    · simp (disch := decide) only [Chip.get_put_same]

/-- A trip of Last Line leaves all but page ILK and what the drivers' outputs change. -/
theorem Chip.tripLL_only (c : Chip) (b : Nat) : ∃ d : Chip, OnlyDrivers d (c.tripLL b) ∧ d = { c with regs := d.regs } ∧
    ∀ a, a / 0x4000 ≠ 0x14006 → d.rd a = c.rd a := by
  obtain ⟨d, e, hd, hr, -, -⟩ := c.tripLL_eq b
  exact ⟨d, e ▸ onlyDrivers_cutDrivers d, hd, hr⟩

@[simp] theorem Chip.tripLL_fab (c : Chip) (b : Nat) : (c.tripLL b).fab = c.fab := by
  obtain ⟨d, h, hd, -⟩ := c.tripLL_only b
  rw [h.fab, hd]

@[simp] theorem Chip.tripLL_mem (c : Chip) (b : Nat) : (c.tripLL b).mem = c.mem := by
  obtain ⟨d, h, hd, -⟩ := c.tripLL_only b
  rw [h.mem, hd]

theorem Chip.tripLL_get (c : Chip) (b : Nat) {f : Field} (hf : f.addr / 0x4000 ∉ 0x14006 :: driverPages) : (c.tripLL b).get f = c.get f := by
  obtain ⟨d, h, -, hr⟩ := c.tripLL_only b
  rw [h.get (fun k => hf (List.mem_cons_of_mem _ k))]
  show bitsOf (d.rd f.addr).toNat f.lo f.w = bitsOf (c.rd f.addr).toNat f.lo f.w
  rw [hr _ (fun k => hf (k ▸ List.mem_cons_self))]

theorem Chip.tripLL_on (c : Chip) (b : Nat) {f : Field} (hf : f.addr / 0x4000 ∉ 0x14006 :: driverPages) : (c.tripLL b).on f = c.on f := by
  rw [Chip.on, Chip.on, c.tripLL_get b hf]

/-- After a trip Last Line is latched, by its cause, and the drivers are off (R517, R518). -/
theorem Chip.tripLL_latched (c : Chip) {b : Nat} (hb : b < 13) : (c.tripLL b).on Fld.ILK_STA_LL = true ∧
    bitsOf ((c.tripLL b).get Fld.ILK_LLC_C) b 1 = 1 ∧ (c.tripLL b).get Fld.LDR_STA_ON = 0 ∧ (c.tripLL b).get Fld.HVD_STA_ON = 0 ∧
    (c.tripLL b).get Fld.FUS_STA_HTON = 0 ∧ (c.tripLL b).get Fld.MDR_STA_HON = 0 := by
  obtain ⟨d, e, -, -, hl, hc⟩ := c.tripLL_eq b
  have hk := onlyDrivers_cutDrivers d
  rw [e, hk.on (by decide), hk.get (f := Fld.ILK_LLC_C) (by decide), hc]
  exact ⟨hl, bitsOf_or_two_pow hb, d.cutDrivers_off⟩

/-! ### The log's staging (R438) -/

/-- Staging a log record changes page LOG and what Almanac stages. -/
theorem Chip.stageLog_only (c : Chip) (b : LogBody) : (c.stageLog b).2 = { c with regs := (c.stageLog b).2.regs, alm := (c.stageLog b).2.alm } ∧
    ∀ a, a / 0x4000 ≠ 0x1400F → (c.stageLog b).2.rd a = c.rd a := by
  unfold Chip.stageLog Chip.takeLseq Chip.logArrive
  dsimp only
  refine ⟨by split <;> rfl, fun a ha => ?_⟩
  have h1 : a ≠ Reg.LOG_NSEQ := fun e => ha (e ▸ rfl)
  have h2 : a ≠ Reg.LOG_TAKE := fun e => ha (e ▸ rfl)
  have h3 : a ≠ Pg.LOG + 0xC := fun e => ha (e ▸ rfl)
  have h4 : a ≠ Pg.LOG + 0x10 := fun e => ha (e ▸ rfl)
  have h5 : a ≠ Reg.LOG_DROP := fun e => ha (e ▸ rfl)
  split <;> simp [Chip.rd_map, h1, h2, h3, h4, h5]

@[simp] theorem Chip.stageLog_fab (c : Chip) (b : LogBody) : (c.stageLog b).2.fab = c.fab := by rw [(c.stageLog_only b).1]

@[simp] theorem Chip.stageLog_mem (c : Chip) (b : LogBody) : (c.stageLog b).2.mem = c.mem := by rw [(c.stageLog_only b).1]

@[simp] theorem Chip.stageLog_flt (c : Chip) (b : LogBody) : (c.stageLog b).2.flt = c.flt := by rw [(c.stageLog_only b).1]

theorem Chip.stageLog_get (c : Chip) (b : LogBody) {f : Field} (hf : f.addr / 0x4000 ≠ 0x1400F) : (c.stageLog b).2.get f = c.get f := by
  show bitsOf ((c.stageLog b).2.rd f.addr).toNat f.lo f.w = bitsOf (c.rd f.addr).toNat f.lo f.w
  rw [(c.stageLog_only b).2 _ hf]

theorem Chip.stageLog_on (c : Chip) (b : LogBody) {f : Field} (hf : f.addr / 0x4000 ≠ 0x1400F) : (c.stageLog b).2.on f = c.on f := by
  rw [Chip.on, Chip.on, c.stageLog_get b hf]

end Sys2Proof.Machine
end

section
/-!
SUPPORT. RT frames and the loss of a direction (R28, R33).
-/
namespace Sys2Proof.Machine

theorem onlyDrivers_snapSensors (c : Chip) (mask : Nat) : OnlyDrivers c (c.snapSensors mask) := by
  unfold Chip.snapSensors
  refine OnlyDrivers.foldl _ (fun t n hn => ?_) (OnlyDrivers.refl c)
  split
  · have hn : n < 6 := List.mem_range.mp hn
    refine ((OnlyDrivers.refl t).put ?_ _).drawn
    interval_cases n <;> decide
  · exact OnlyDrivers.refl t

theorem onlyDrivers_showBraking (c : Chip) : OnlyDrivers c c.showBraking := by
  unfold Chip.showBraking
  dsimp only
  split
  · exact (OnlyDrivers.refl c).put (by decide) 1
  · exact OnlyDrivers.refl c

theorem onlyDrivers_driveOutputs (c : Chip) : OnlyDrivers c c.driveOutputs := by
  unfold Chip.driveOutputs Chip.syncClamps Chip.syncPoly Chip.putB
  dsimp only
  refine OnlyDrivers.mot (OnlyDrivers.put (OnlyDrivers.put (OnlyDrivers.put ?_ (by decide) _) (by decide) _) (by decide) _) _
  refine OnlyDrivers.foldl _ (fun t k hk => ?_) (OnlyDrivers.foldl _ (fun t k hk => ?_) (OnlyDrivers.put ?_ (by decide) _))
  · exact OnlyDrivers.ite ((OnlyDrivers.refl t).put (by simp at hk; rcases hk with rfl | rfl | rfl <;> decide) 1) (OnlyDrivers.refl t)
  · exact (OnlyDrivers.refl t).put (by simp at hk; rcases hk with rfl | rfl | rfl <;> decide) _
  · refine OnlyDrivers.foldl _ (fun t k hk => ?_) (OnlyDrivers.refl c)
    exact (OnlyDrivers.refl t).put (by simp at hk; rcases hk with rfl | rfl | rfl | rfl <;> decide) _

/-- A frame from the L-die that is applied on the P-die (R28, R35). -/
theorem onlyDrivers_applyDown (c : Chip) (f : DownFrame) :
    OnlyDrivers { c with fab := { c.fab with down := f, badLP := 0 } } (c.applyDown f) := by
  unfold Chip.applyDown
  exact (((((onlyDrivers_gateDrivers _).trans (onlyDrivers_showBraking _)).trans (onlyDrivers_driveOutputs _)).trans
    (onlyDrivers_polyFollow _ _)).trans (onlyDrivers_polyTick _)).trans (onlyDrivers_snapSensors _ _)

/-- A loss from L to P trips Last Line by bit 5 and turns the drivers off (R33, R517). -/
theorem Chip.bridgeLoss_lToP {c : Chip} (hr : c.fab.retraining = false) (hl : c.fab.lossLP = false) :
    (c.bridgeLoss true).fab.lossLP = true ∧ (c.bridgeLoss true).on Fld.DBR_IST_LOSS = true ∧ (c.bridgeLoss true).on Fld.ILK_STA_LL = true ∧
      bitsOf ((c.bridgeLoss true).get Fld.ILK_LLC_C) 5 1 = 1 ∧ (c.bridgeLoss true).get Fld.LDR_STA_ON = 0 ∧
      (c.bridgeLoss true).get Fld.HVD_STA_ON = 0 ∧ (c.bridgeLoss true).on Fld.FUS_STA_HTON = false ∧ (c.bridgeLoss true).get Fld.MDR_STA_HON = 0 := by
  have key : ∀ d : Chip, (d = (({ c.set Fld.DBR_IST_LOSS with fab := { c.fab with lossLP := true, downFlight := none } }).llActive 5 true).tripLL 5) →
      d.fab.lossLP = true ∧ d.on Fld.DBR_IST_LOSS = true ∧ d.on Fld.ILK_STA_LL = true ∧ bitsOf (d.get Fld.ILK_LLC_C) 5 1 = 1 ∧
        d.get Fld.LDR_STA_ON = 0 ∧ d.get Fld.HVD_STA_ON = 0 ∧ d.get Fld.FUS_STA_HTON = 0 ∧ d.get Fld.MDR_STA_HON = 0 := by
    rintro d rfl
    refine ⟨by rw [Chip.tripLL_fab]; rfl, ?_, Chip.tripLL_latched _ (by decide)⟩
    rw [Chip.tripLL_on _ _ (by decide), Chip.llActive, Chip.on_put_apart _ _ rfl rfl]
    exact Chip.on_set_same c rfl (by decide)
  obtain ⟨h1, h2, h3, h4, h5, h6, h7, h8⟩ := key _ rfl
  have h7 := (congrArg (· != 0) h7 : (_ : Bool) = _)
  unfold Chip.bridgeLoss
  rw [if_neg (by simp [hr])]
  dsimp only
  rw [if_pos rfl, if_neg (by simp [hl])]
  split
  · simp (disch := decide) only [Chip.stageLog_fab, Chip.stageLog_on, Chip.stageLog_get]
    exact ⟨h1, h2, h3, h4, h5, h6, h7, h8⟩
  · exact ⟨h1, h2, h3, h4, h5, h6, h7, h8⟩

theorem Chip.raiseAll_nil (c : Chip) : c.raiseAll [] = c := by
  unfold Chip.raiseAll
  exact ite_self _

/-- A frame from the P-die that reports nothing only brings its readings (R28). -/
theorem Chip.applyUp_quiet {c : Chip} {f : UpFrame} {t : Nat} (hrep : f.reports = []) (hl : f.lossLP = false) (hpf : f.pfail = false)
    (hent : c.on Fld.FLT_STA_ENTRY = false) (hst : c.get Fld.PSY_BST_STG ≠ 0x0A) :
    c.applyUp f t = { c with fab := { c.fab with up := f, badPL := 0 }
                             hel := { c.hel with rtSeq := c.hel.rtSeq + 1, monSeq := Vector.ofFn fun k => (f.monN[k.val]?).getD 0 } } := by
  unfold Chip.applyUp
  extract_lets hadLoss fab hel c1 c2 c3 c4 c5
  have e2 : c2 = c1 := (congrArg c1.raiseAll hrep).trans c1.raiseAll_nil
  have e3 : c3 = c2 := if_neg (e2 ▸ hst)
  have e4 : c4 = c3 := if_neg (by simp [hl])
  have e5 : c5 = c4 := if_neg (by simp [hpf])
  rw [e5, e4, e3, e2]
  exact if_neg (by simp [show c1.on Fld.FLT_STA_ENTRY = false from hent])

/-- Settles O6: frames by their quality, losses by their direction. -/
theorem rtFramesAndLoss : Obligations.RtFramesAndLoss := by
  refine ⟨⟨fun s r hp => ?launch, fun s t f hL hf => ?down, fun s t f hL hf => ?up, fun s t hL hr ht hb => ?badCrc, fun s t hL hr ht hb => ?third,
    fun s t f hL hr ht hb hf => ?missing⟩, fun s hL => ⟨fun hr => ⟨fun hl => ?lossLP, fun hl => ?lossPL, fun hl => ?againLP, fun hl => ?againPL⟩,
      fun hr dir => ?suspended⟩⟩
  case launch =>
    intro d hL hr ht
    refine Gives.andRuns (gives_act (f := fun c => c.rtLaunch r) rfl ?_) ⟨rfl, ⟨_, rfl, rfl, rfl, rfl, rfl, rfl⟩, rfl⟩
    unfold Chip.rtLaunch
    rw [if_pos hp]
    exact if_neg (by simp [show (s.chip.setReadings r) = d from rfl, hL.1, hL.2, hr, ht])
  case down =>
    have h : Gives (.rtFrameReceived .lToP .good t) s (({ s.chip with fab := { s.chip.fab with downFlight := none } }).applyDown f) :=
      gives_onL hL rfl (by simp [Chip.rtReceived, hf])
    have hk := onlyDrivers_applyDown { s.chip with fab := { s.chip.fab with downFlight := none } } f
    exact ⟨h, h.runs ⟨by rw [hk.fab], by rw [hk.fab], by rw [hk.fab], by rw [hk.mem]⟩⟩
  case up =>
    have h : Gives (.rtFrameReceived .pToL .good t) s (({ s.chip with fab := { s.chip.fab with upFlight := none } }).applyUp f t.toNat) :=
      gives_onL hL rfl (by simp [Chip.rtReceived, hf])
    refine ⟨h, fun hrep hl hpf hent hst => h.trans (congrArg (fun c => Host.Outcome.next { s with chip := c }) ?_)⟩
    exact Chip.applyUp_quiet hrep hl hpf hent hst
  case badCrc =>
    have hmin : min 3 (s.chip.fab.badLP + 1) = s.chip.fab.badLP + 1 := by omega
    refine gives_onL hL rfl ?_
    show s.chip.badFrame true true = _
    unfold Chip.badFrame
    rw [if_neg (by simp [hr, hL.2, ht])]
    simp only [if_true, Chip.set_fab, Chip.bump_fab, hmin]
    exact if_neg (by omega)
  case third =>
    refine gives_onL hL rfl ?_
    show s.chip.badFrame true false = _
    unfold Chip.badFrame
    rw [if_neg (by simp [hr, hL.2, ht])]
    simp only [if_true, Bool.false_eq_true, if_false, Chip.set_fab, Chip.bump_fab, hb]
    exact if_pos (by decide)
  case missing =>
    have hmin : min 3 (s.chip.fab.badPL + 1) = s.chip.fab.badPL + 1 := by omega
    refine gives_onL hL rfl ?_
    show s.chip.badFrame false false = _
    unfold Chip.badFrame
    rw [if_neg (by simp [hr, hL.2, ht])]
    simp only [Bool.false_eq_true, if_false, Chip.set_fab, Chip.bump_fab, Chip.set_flt, Chip.bump_flt, hmin, hf]
    exact if_neg (by omega)
  case suspended => exact gives_onL hL rfl (if_pos hr)
  all_goals have hr' : ¬ s.chip.fab.retraining = true := by simp [hr]
  case lossLP =>
    have h : Gives (.bridgeLoss .lToP) s (s.chip.bridgeLoss true) := gives_onL hL rfl rfl
    refine ⟨gives_onL hL rfl ?_, h.runs (Chip.bridgeLoss_lToP hr hl)⟩
    show s.chip.bridgeLoss true = _
    unfold Chip.bridgeLoss
    rw [if_neg hr']
    dsimp only
    rw [if_pos rfl, if_neg (by simp [hl])]
    simp only [Chip.tripLL_fab]
    rfl
  case lossPL =>
    refine gives_onL hL rfl ?_
    show s.chip.bridgeLoss false = _
    unfold Chip.bridgeLoss
    rw [if_neg hr']
    dsimp only
    rw [if_neg Bool.false_ne_true, if_neg (by simp [hl])]
    rfl
  case againLP =>
    refine gives_onL hL rfl ?_
    show s.chip.bridgeLoss true = _
    unfold Chip.bridgeLoss
    rw [if_neg hr']
    exact if_pos hl
  case againPL =>
    refine gives_onL hL rfl ?_
    show s.chip.bridgeLoss false = _
    unfold Chip.bridgeLoss
    rw [if_neg hr']
    exact if_pos hl

end Sys2Proof.Machine
end

section
/-!
SUPPORT. The mirrors of page DBR: what one slot's update writes and leaves (R36), and the statement about all sixteen.
-/
namespace Sys2Proof.Machine

theorem Chip.rd_wr_other (c : Chip) {a b : Nat} (w : Word) (h : b ≠ a) : (c.wr a w).rd b = c.rd b := by simp [Chip.rd_map, h]

theorem Chip.rd_wr_same (c : Chip) (a : Nat) (w : Word) : (c.wr a w).rd a = w := by simp [Chip.rd_map]

theorem Chip.rd_put_other (c : Chip) {f : Field} {b : Nat} (v : Nat) (h : b ≠ f.addr) : (c.put f v).rd b = c.rd b := by simp [Chip.rd_map, h]

theorem Chip.get_rd {c d : Chip} {f : Field} (h : c.rd f.addr = d.rd f.addr) : c.get f = d.get f := by
  show bitsOf (c.rd f.addr).toNat f.lo f.w = bitsOf (d.rd f.addr).toNat f.lo f.w
  rw [h]

theorem Chip.on_rd {c d : Chip} {f : Field} (h : c.rd f.addr = d.rd f.addr) : c.on f = d.on f := by
  rw [Chip.on, Chip.on, Chip.get_rd h]

/-- The address of the source of mirror `n`. -/
def Chip.mirrorSource (c : Chip) (n : Nat) : Nat := 0x50000000 + 4 * c.get (Fld.DBR_MSRC_WOFS n)

/-- The word that mirror `n` takes: 0 where its source does not exist (R36). -/
def Chip.mirrorWord (c : Chip) (n : Nat) : Word := if pRegister (c.mirrorSource n) then c.rd (c.mirrorSource n) else 0#32

/-- The update of mirror `n`. -/
def Chip.mirrorSlot (ms : Nat) (t : Chip) (n : Nat) : Chip :=
  let a := 0x50000000 + 4 * t.get (Fld.DBR_MSRC_WOFS n)
  if !t.on (Fld.DBR_MSRC_EN n) then t
  else
    let ok := pRegister a
    let v := if ok then t.rd a else 0#32
    let same := decide (t.rd (Reg.DBR_MVAL n) = v)
    let t := if ok then t else t.set Fld.DBR_IST_MSRC
    let age := if same && t.get (Fld.DBR_MAGE_MS n) ≠ 0xFFFF then min 0xFFFF (t.get (Fld.DBR_MAGE_MS n) + ms) else if same then 0xFFFF else 0
    let t := (t.wr (Reg.DBR_MVAL n) v).put (Fld.DBR_MAGE_MS n) age
    { t with hel := { t.hel with mirSeq := t.hel.mirSeq.set! n (((t.hel.mirSeq[n]?).getD 0) + 1) } }

/-- An enabled mirror takes its word. -/
theorem Chip.mirrorSlot_value (ms : Nat) (t : Chip) {n : Nat} (h : t.on (Fld.DBR_MSRC_EN n) = true) :
    (t.mirrorSlot ms n).rd (Reg.DBR_MVAL n) = t.mirrorWord n := by
  have hne : Reg.DBR_MVAL n ≠ (Fld.DBR_MAGE_MS n).addr := by show 0x400140C0 + 4 * n ≠ 0x40014100 + 4 * n; omega
  unfold Chip.mirrorSlot
  simp only [h, Bool.not_true, Bool.false_eq_true, if_false]
  exact (Chip.rd_put_other _ _ hne).trans (Chip.rd_wr_same _ _ _)

theorem Chip.mirrorSlot_disabled (ms : Nat) (t : Chip) {n : Nat} (h : t.on (Fld.DBR_MSRC_EN n) = false) : t.mirrorSlot ms n = t := by
  simp [Chip.mirrorSlot, h]

/-- Besides its own value and age an update changes only IST. -/
theorem Chip.mirrorSlot_rd (ms : Nat) (t : Chip) {n a : Nat} (h1 : a ≠ Reg.DBR_MVAL n) (h2 : a ≠ Reg.DBR_MAGE n) (h3 : a ≠ Reg.DBR_IST) :
    (t.mirrorSlot ms n).rd a = t.rd a := by
  unfold Chip.mirrorSlot
  dsimp only
  split
  · rfl
  · refine (Chip.rd_put_other _ _ h2).trans ((Chip.rd_wr_other _ _ h1).trans ?_)
    split
    · rfl
    · exact Chip.rd_put_other _ _ h3

theorem Chip.mirrorSlot_mem (ms : Nat) (t : Chip) (n : Nat) : (t.mirrorSlot ms n).mem = t.mem := by
  unfold Chip.mirrorSlot
  dsimp only
  split
  · rfl
  · show Chip.mem (if _ then t else t.set Fld.DBR_IST_MSRC) = _
    split <;> rfl

/-- After the updates of the first `k` mirrors: each of them holds its word or what it held, and only values, ages and IST have changed. -/
structure MirrorsDone (c d : Chip) (k : Nat) : Prop where
  taken : ∀ n < k, c.on (Fld.DBR_MSRC_EN n) = true → d.rd (Reg.DBR_MVAL n) = c.mirrorWord n
  kept : ∀ n < k, c.on (Fld.DBR_MSRC_EN n) = false → d.rd (Reg.DBR_MVAL n) = c.rd (Reg.DBR_MVAL n)
  later : ∀ n < 16, k ≤ n → d.rd (Reg.DBR_MVAL n) = c.rd (Reg.DBR_MVAL n)
  apart : ∀ a, a ≠ Reg.DBR_IST → (a < Reg.DBR_MVAL 0 ∨ Reg.DBR_MAGE 16 ≤ a) → d.rd a = c.rd a
  memory : d.mem = c.mem

/-- One more update keeps what the updates before it have done. -/
theorem MirrorsDone.next {c d : Chip} {k : Nat} (h : MirrorsDone c d k) (ms : Nat) (hk : k < 16) : MirrorsDone c (d.mirrorSlot ms k) (k + 1) := by
  have hsrc : d.rd (Reg.DBR_MSRC k) = c.rd (Reg.DBR_MSRC k) :=
    h.apart _ (by show 0x40014080 + 4 * k ≠ 0x40014010; omega) (Or.inl (by show 0x40014080 + 4 * k < 0x400140C0 + 4 * 0; omega))
  have hen : d.on (Fld.DBR_MSRC_EN k) = c.on (Fld.DBR_MSRC_EN k) := Chip.on_rd hsrc
  have hword : d.mirrorWord k = c.mirrorWord k := by
    have ha : d.mirrorSource k = c.mirrorSource k := by unfold Chip.mirrorSource; rw [Chip.get_rd (f := Fld.DBR_MSRC_WOFS k) hsrc]
    have hv : d.rd (c.mirrorSource k) = c.rd (c.mirrorSource k) :=
      h.apart _ (by show 0x50000000 + _ ≠ 0x40014010; omega) (Or.inr (by show 0x40014100 + 4 * 16 ≤ 0x50000000 + _; omega))
    rw [Chip.mirrorWord, Chip.mirrorWord, ha, hv]
  have hother : ∀ n < 16, n ≠ k → (d.mirrorSlot ms k).rd (Reg.DBR_MVAL n) = d.rd (Reg.DBR_MVAL n) := fun n hn hnk =>
    Chip.mirrorSlot_rd ms d (by show 0x400140C0 + 4 * n ≠ 0x400140C0 + 4 * k; omega) (by show 0x400140C0 + 4 * n ≠ 0x40014100 + 4 * k; omega)
      (by show 0x400140C0 + 4 * n ≠ 0x40014010; omega)
  refine ⟨fun n hn he => ?_, fun n hn he => ?_, fun n hn hk' => ?_, fun a ha hr => ?_, (Chip.mirrorSlot_mem ms d k).trans h.memory⟩
  · rcases Nat.lt_succ_iff_lt_or_eq.mp hn with hlt | rfl
    · rw [hother n (by omega) (by omega)]; exact h.taken n hlt he
    · rw [Chip.mirrorSlot_value ms d (hen.trans he), hword]
  · rcases Nat.lt_succ_iff_lt_or_eq.mp hn with hlt | rfl
    · rw [hother n (by omega) (by omega)]; exact h.kept n hlt he
    · rw [Chip.mirrorSlot_disabled ms d (hen.trans he)]; exact h.later n hk le_rfl
  · rw [hother n hn (by omega)]; exact h.later n hn (by omega)
  · rw [Chip.mirrorSlot_rd ms d (by show a ≠ 0x400140C0 + 4 * k; simp only [Reg.DBR_MVAL, Reg.DBR_MAGE] at hr; omega)
      (by show a ≠ 0x40014100 + 4 * k; simp only [Reg.DBR_MVAL, Reg.DBR_MAGE] at hr; omega) ha]
    exact h.apart a ha hr

theorem mirrorsDone (c : Chip) (ms : Nat) : ∀ k ≤ 16, MirrorsDone c ((List.range k).foldl (Chip.mirrorSlot ms) c) k := by
  intro k
  induction k with
  | zero => exact fun _ => ⟨by simp, by simp, fun _ _ _ => rfl, fun _ _ _ => rfl, rfl⟩
  | succ k ih =>
    intro hk
    rw [List.range_succ, List.foldl_append]
    exact (ih (by omega)).next ms hk

/-- Settles O8: the slots are updated in turn, each from what the device held before. -/
theorem mirrorsHoldLatest : Obligations.MirrorsHoldLatest := by
  unfold Obligations.MirrorsHoldLatest
  intro s ms hL
  refine ⟨fun hr => ?_, fun hr => gives_act (f := fun c => c.mirrors ms.toNat) rfl (if_pos (by simp [hr]))⟩
  have hd := mirrorsDone s.chip ms.toNat 16 le_rfl
  generalize hf : (List.range 16).foldl (Chip.mirrorSlot ms.toNat) s.chip = d at hd
  let x := (d.pow.vinHist.filter fun x => d.nowMs ≤ x.1 + 1000) ++ [(d.nowMs, d.get (Fld.DBR_MVAL_V 0) % 65536)]
  refine (act_gives (f := fun c => c.mirrors ms.toNat) rfl).runs ⟨{ d with pow := { d.pow with vinHist := x } }, fun n hn => ?_, hd.memory, ?_⟩
  · exact ⟨hd.taken n hn, hd.kept n hn⟩
  · subst hf
    refine (if_neg (by simp [hr, hL.1, hL.2])).trans ?_
    exact if_congr (by rw [Bool.and_eq_true, decide_eq_true_eq, decide_eq_true_eq]; rfl) rfl rfl

end Sys2Proof.Machine
end

section
/-!
SUPPORT. An engine command that passes the checks of R100 and R102 runs, on a chip whose request is in hand. What the queries leave of a command.
-/
namespace Sys2Proof.Machine

/-- The commands that raise no CMD event (R104). -/
abbrev quietCmds : List Nat := [Cmd.status, Cmd.repget, Cmd.repack]

/-- The commands that DOC takes although it is disabled (R102). -/
abbrev alwaysCmds : List Nat := [Cmd.abort, Cmd.halt, Cmd.status, Cmd.repget, Cmd.repack]

/-- A command of the right length by a client with the right, in a state that takes it, runs; its event is raised first (R100, R102). -/
theorem Chip.docDecode_runs {c d : Chip} {h : Hdr} {code : Nat} {args : List Byte} (hc : (BitVec.ofNat 8 code).toNat = code)
    (hlen : cmdLen code = args.length + 1) (hr : c.cmdRight h.clid.toNat code (ofLeBytes (args.take 4)) = true)
    (hen : c.on Fld.DOC_CTL_EN = true ∨ alwaysCmds.contains code = true) (hl : legal code c.engine = true)
    (hs : c.get Fld.PSY_BST_STG = 0x0A ∨ [Cmd.wake, Cmd.service].contains code = false)
    (hd : (if quietCmds.contains code then c else c.event Ev.cmd) = d) :
    c.docDecode h (BitVec.ofNat 8 code :: args) = d.docRun h code (ofLeBytes (args.take 4)) (BitVec.ofNat 8 code :: args) := by
  have hearly : (c.get Fld.PSY_BST_STG != 0x0A && [Cmd.wake, Cmd.service].contains code) = false := by
    rcases hs with e | e
    · simp [e]
    · rw [e, Bool.and_false]
  have hdead : (!c.on Fld.DOC_CTL_EN && !(alwaysCmds.contains code)) = false := by
    rcases hen with e | e
    · simp [e]
    · rw [e, Bool.not_true, Bool.and_false]
  have hq : (code = Cmd.status || code = Cmd.repget || code = Cmd.repack : Bool) = quietCmds.contains code := by
    simp [List.contains_eq_mem, Bool.or_assoc]
  unfold Chip.docDecode
  simp only [List.headD_cons, hc, List.drop_one, List.tail_cons, List.length_cons, hearly, hdead, hlen, hl, hr, hq, hd]
  simp

/-- What the checks of R102 read is as it was before the request was in hand. -/
theorem Chip.inHand_get (c : Chip) (h : Hdr) (op : Nat) (w : Work) {f : Field} (hf : f.addr / 0x4000 ≠ 0x10004) :
    (c.inHand h op w).get f = c.get f := (onlyBridge_inHand c h op w).get hf

theorem Chip.inHand_on (c : Chip) (h : Hdr) (op : Nat) (w : Work) {f : Field} (hf : f.addr / 0x4000 ≠ 0x10004) :
    (c.inHand h op w).on f = c.on f := by rw [Chip.on, Chip.on, c.inHand_get h op w hf]

theorem Chip.event_get (c : Chip) (e : Nat) {f : Field} (hf : f.addr / 0x4000 ≠ 0x10009) : (c.event e).get f = c.get f :=
  (onlyOrr_event c e).get hf

/-- A command in hand finds the engine, the debug pins and the boot stage as they were. -/
theorem Chip.command_dbg (c : Chip) (h : Hdr) (bs : List Byte) : (c.command h bs).dbg = c.dbg :=
  (onlyOrr_event _ _).dbg.trans (onlyBridge_inHand c h 6 _).dbg

theorem Chip.command_doc (c : Chip) (h : Hdr) (bs : List Byte) : (c.command h bs).doc = c.doc :=
  (onlyOrr_event _ _).doc.trans (onlyBridge_inHand c h 6 _).doc

theorem Chip.command_engine (c : Chip) (h : Hdr) (bs : List Byte) : (c.command h bs).engine = c.engine :=
  ((c.inHand h 6 (.command bs)).event_get Ev.cmd (by decide)).trans (c.inHand_get h 6 _ (by decide))

/-- HALT is the one command that acts as soon as it arrives (R108). -/
theorem Chip.earlyHalt_other (c : Chip) (h : Hdr) {code : Nat} (args : List Byte) (hne : BitVec.ofNat 8 code ≠ BitVec.ofNat 8 Cmd.halt) :
    c.earlyHalt h (.command (BitVec.ofNat 8 code :: args)) = c := by
  have : (BitVec.ofNat 8 code :: args) ≠ leBytes 1 Cmd.halt := fun e => hne (List.cons.inj e).1
  simp [Chip.earlyHalt, this]

/-- An engine command that passes the checks of R100 and R102 is done, and answered, with its request in hand. -/
theorem gives_docCommand {i : Instr} {s : State} {h : Hdr} {code : Nat} {args : List Byte} {d e : Chip} (hc : CommandIn s.chip h)
    (hi : exec i s = s.act fun c => c.engineCmd h code args) (hb : (BitVec.ofNat 8 code).toNat = code)
    (hne : BitVec.ofNat 8 code ≠ BitVec.ofNat 8 Cmd.halt) (hlen : cmdLen code = args.length + 1) (hle : cmdLen code ≤ 20)
    (hr : (s.chip.inHand h 6 (.command (BitVec.ofNat 8 code :: args))).cmdRight h.clid.toNat code (ofLeBytes (args.take 4)) = true)
    (hl : legal code s.chip.engine = true) (hs : s.chip.get Fld.PSY_BST_STG = 0x0A ∨ [Cmd.wake, Cmd.service].contains code = false)
    (hd : (if quietCmds.contains code then s.chip.inHand h 6 (.command (BitVec.ofNat 8 code :: args)) else
      s.chip.command h (BitVec.ofNat 8 code :: args)) = d)
    (he : d.docRun h code (ofLeBytes (args.take 4)) (BitVec.ofNat 8 code :: args) = e) : Gives i s e.bridgeOn := by
  refine gives_engineCmd hc hi (by omega) (s.chip.earlyHalt_other h args hne) ((Chip.docDecode_runs hb hlen hr (Or.inl ?_) ?_ ?_ hd).trans he)
  · exact (s.chip.inHand_on h 6 _ (by decide)).trans hc.2.2
  · exact (congrArg (legal code) (s.chip.inHand_get h 6 _ (by decide))).trans hl
  · exact hs.imp_left fun k => (s.chip.inHand_get h 6 _ (by decide)).trans k

/-- Right X lets a client give every command of R100 but START, ABORT, HALT and the queries. -/
theorem Chip.cmdRight_x {c : Chip} {id code : Nat} (arg : Nat) (hx : c.mayX id Pg.DOC = true)
    (hk : [Cmd.status, Cmd.start, Cmd.halt, Cmd.abort, Cmd.repget, Cmd.repack].contains code = false) : c.cmdRight id code arg = true := by
  simp only [List.contains_eq_mem, List.mem_cons, List.not_mem_nil, or_false, decide_eq_false_iff_not, not_or] at hk
  obtain ⟨h1, h2, h3, h4, h5, h6⟩ := hk
  simp [Chip.cmdRight, h1, h2, h3, h4, h5, h6, hx]

/-- A state command, by a client with X, that the legality matrix takes. -/
theorem gives_stateCommand {i : Instr} {s : State} {h : Hdr} {code : Nat} {e : Chip} (hc : CommandIn s.chip h)
    (hx : s.chip.mayX h.clid.toNat Pg.DOC = true) (hi : exec i s = s.act fun c => c.engineCmd h code [])
    (hk : [Cmd.wake, Cmd.off, Cmd.drain, Cmd.resume, Cmd.clear, Cmd.service, Cmd.exit].contains code = true)
    (hl : legal code s.chip.engine = true) (hs : s.chip.get Fld.PSY_BST_STG = 0x0A ∨ [Cmd.wake, Cmd.service].contains code = false)
    (he : (s.chip.command h (leBytes 1 code)).docRun h code 0 (leBytes 1 code) = e) : Gives i s e.bridgeOn := by
  have hr := ((s.chip.inHand_rights h 6 (.command [BitVec.ofNat 8 code]) Pg.DOC).1).trans hx
  simp only [List.contains_eq_mem, List.mem_cons, List.not_mem_nil, or_false, decide_eq_true_eq] at hk
  rcases hk with rfl | rfl | rfl | rfl | rfl | rfl | rfl <;>
    exact gives_docCommand hc hi rfl (by decide) rfl (by decide) (Chip.cmdRight_x _ hr rfl) hl hs rfl he

/-- With nothing open the engine goes to OFF at once (R91, R120). -/
theorem Chip.offAfterItems_empty {c : Chip} (hi : c.doc.items = []) (hc : c.doc.cand = []) (he : c.engine ≠ Eng.drain) :
    c.offAfterItems = ({ c with doc := { c.doc with drainToOff := true } }).enter Eng.off 0x01 := by
  have hk : ({ c with doc := { c.doc with drainToOff := true } } : Chip).engine ≠ Eng.drain := he
  unfold Chip.offAfterItems Chip.offWhenEmpty
  rw [if_neg hk, if_pos]
  simp [hi, hc]

/-- WAKE and SERVICE are done while EXTEST is off (R543). -/
theorem Chip.docRun_wake {c : Chip} (hd : c.dbg.extest = false) (h : Hdr) (arg : Nat) (bs : List Byte) :
    c.docRun h Cmd.wake arg bs = (c.enter Eng.waking 0x01).respond h St.ok [] := by
  show (if c.dbg.extest = true then _ else _) = _
  exact if_neg (by simp [hd])

theorem Chip.docRun_service {c : Chip} (hd : c.dbg.extest = false) (h : Hdr) (arg : Nat) (bs : List Byte) :
    c.docRun h Cmd.service arg bs = ((c.withdrawQueued.startClosings.enter Eng.service 0x01).settleSingles).respond h St.ok [] := by
  show (if c.dbg.extest = true then _ else _) = _
  exact if_neg (by simp [hd])

/-- Settles O15: each command passes DOC's checks and does its row of the transition table. -/
theorem engineStateCommands : Obligations.EngineStateCommands := by
  unfold Obligations.EngineStateCommands
  intro s h hc hx
  have hdbg : ∀ code : Nat, s.chip.dbg.extest = false → (s.chip.command h (leBytes 1 code)).dbg.extest = false := fun code k => by
    rw [Chip.command_dbg, k]
  refine ⟨fun he hd hs => ?_, fun he => ?_, fun he => ?_, fun he hp => ?_, fun he hcl => ⟨?_, fun hi hn hf => ?_⟩, fun he hd hs => ?_,
    fun he => ⟨?_, fun hi hn hf => ?_⟩⟩
  · exact gives_stateCommand hc hx rfl rfl (by rw [he]; rfl) (Or.inl hs) (Chip.docRun_wake (hdbg Cmd.wake hd) _ _ _)
  · exact gives_stateCommand hc hx rfl rfl he (Or.inr rfl) rfl
  · exact gives_stateCommand hc hx rfl rfl (by rw [he]; rfl) (Or.inr rfl) rfl
  · exact gives_stateCommand hc hx rfl rfl (by rw [he]; rfl) (Or.inr rfl) (if_pos hp)
  · exact gives_stateCommand hc hx rfl rfl (by rw [he]; rfl) (Or.inr rfl) (if_pos hcl)
  · rw [← Chip.offAfterItems_empty hi hn (by rw [hf]; decide)]
    exact gives_stateCommand hc hx rfl rfl (by rw [he]; rfl) (Or.inr rfl) (if_pos hcl)
  · refine gives_stateCommand hc hx rfl rfl ?_ (Or.inl hs) (Chip.docRun_service (hdbg Cmd.service hd) _ _ _)
    rcases he with e | e <;> rw [e] <;> rfl
  · exact gives_stateCommand hc hx rfl rfl (by rw [he]; rfl) (Or.inr rfl) rfl
  · rw [← Chip.offAfterItems_empty hi hn (by rw [hf]; decide)]
    exact gives_stateCommand hc hx rfl rfl (by rw [he]; rfl) (Or.inr rfl) rfl

end Sys2Proof.Machine
end

section
/-!
SUPPORT. The commands that name an item, and the queries, of which REPGET and REPACK may name the lost items (R100, R115).
-/
namespace Sys2Proof.Machine

/-- A command in a state that does not take it is refused with 0x21 (R102, R103). -/
theorem Chip.docDecode_refused {c : Chip} {h : Hdr} {code : Nat} {args : List Byte} (hc : (BitVec.ofNat 8 code).toNat = code)
    (hlen : cmdLen code = args.length + 1) (hr : c.cmdRight h.clid.toNat code (ofLeBytes (args.take 4)) = true)
    (hl : legal code c.engine = false) :
    c.docDecode h (BitVec.ofNat 8 code :: args) = (c.cmdRefused h.clid code).respond h St.state [] := by
  unfold Chip.docDecode
  simp only [List.headD_cons, hc, List.drop_one, List.tail_cons, List.length_cons, hlen, hl, hr]
  simp

/-- Who owns an item does not depend on the registers, the bridge or the contexts. -/
theorem Chip.ownerOf_inHand (c : Chip) (h : Hdr) (op : Nat) (w : Work) (id : Nat) : (c.inHand h op w).ownerOf id = c.ownerOf id := by
  rw [(onlyBridge_inHand c h op w).1]; rfl

theorem Chip.ownerOf_command (c : Chip) (h : Hdr) (bs : List Byte) (id : Nat) : (c.command h bs).ownerOf id = c.ownerOf id := by
  refine Eq.trans ?_ (c.ownerOf_inHand h 6 (.command bs) id)
  unfold Chip.command
  rw [(onlyOrr_event _ _).1]
  rfl

/-- Settles O16. HALT alone has acted before its request is in hand (R108); the others run with it. -/
theorem itemCommands : Obligations.ItemCommands := by
  unfold Obligations.ItemCommands
  refine ⟨fun s h args hc hw hlen => ⟨fun he => ?_, fun h1 h2 => ?_⟩, fun s h hc hw => ⟨fun args hlen ho hne => ?_, ?_⟩⟩
  · intro d hst
    refine gives_docCommand (code := Cmd.start) hc rfl rfl (by decide) (by rw [hlen]; rfl) (by decide) ?_ ?_ (Or.inr rfl) rfl (if_pos hst)
    · exact ((s.chip.inHand_rights h 6 _ Pg.DOC).2.1).trans hw
    · rcases he with e | e <;> rw [e] <;> rfl
  · refine gives_engineCmd (code := Cmd.start) hc rfl (by omega) (s.chip.earlyHalt_other h args (by decide))
      (Chip.docDecode_refused rfl (by rw [hlen]; rfl) ?_ ?_)
    · exact ((s.chip.inHand_rights h 6 _ Pg.DOC).2.1).trans hw
    · have e : (s.chip.inHand h 6 (.command (BitVec.ofNat 8 Cmd.start :: args))).engine = s.chip.engine := s.chip.inHand_get h 6 _ (by decide)
      show (_ == _ || _ == _) = false
      rw [e]
      simp [h1, h2]
  · have ht : args.take 4 = args := List.take_of_length_le (by omega)
    refine gives_docCommand (code := Cmd.abort) hc rfl rfl (by decide) (by rw [hlen]; rfl) (by decide) ?_ rfl (Or.inr rfl) rfl ?_
    · have hw' := ((s.chip.inHand_rights h 6 (.command (BitVec.ofNat 8 Cmd.abort :: args)) Pg.DOC).2.1).trans hw
      unfold Chip.cmdRight
      simp [ht, hne, hw', s.chip.ownerOf_inHand, ho]
    · rw [ht]
      have hown := s.chip.ownerOf_command h (leBytes 1 Cmd.abort ++ args) (ofLeBytes args)
      show (if (decide (ofLeBytes args ≠ lostId) && ((s.chip.command h (leBytes 1 Cmd.abort ++ args)).ownerOf _).isNone) = true then _ else _) = _
      exact if_neg (by rw [hown, ho]; simp)
  · intro d hb hd
    have hx : s.chip.earlyHalt h (.command (leBytes 1 Cmd.halt)) = (s.chip.event Ev.halt).haltNow := if_pos (by simp [hw])
    have hrun : d.docDecode h (leBytes 1 Cmd.halt) = (d.event Ev.cmd).haltNow.settleSingles.respond h St.ok [] :=
      Chip.docDecode_runs (code := Cmd.halt) (args := []) rfl rfl hd (Or.inr rfl) rfl (Or.inr rfl) rfl
    refine gives_act (f := fun c => c.engineCmd h Cmd.halt []) rfl ?_
    unfold Chip.engineCmd
    rw [Chip.onL_on hc.1.1, Chip.packet_runs hc.1 hb (by simp) (w := .command (leBytes 1 Cmd.halt)) (by rfl) hx, ← hrun]
    rfl

/-- A query runs with its request in hand and raises no event (R104). -/
theorem gives_query {i : Instr} {s : State} {h : Hdr} {code : Nat} {args : List Byte} {e : Chip} (hc : CommandIn s.chip h)
    (hi : exec i s = s.act fun c => c.engineCmd h code args) (hk : quietCmds.contains code = true) (hlen : cmdLen code = args.length + 1)
    (hr : (s.chip.inHand h 6 (.command (leBytes 1 code ++ args))).cmdRight h.clid.toNat code (ofLeBytes (args.take 4)) = true)
    (he : (s.chip.inHand h 6 (.command (leBytes 1 code ++ args))).docRun h code (ofLeBytes (args.take 4)) (leBytes 1 code ++ args) = e) :
    Gives i s e.bridgeOn := by
  simp only [List.contains_eq_mem, List.mem_cons, List.not_mem_nil, or_false, decide_eq_true_eq] at hk
  rcases hk with rfl | rfl | rfl <;>
    exact gives_docCommand hc hi rfl (by decide) hlen (by decide) hr rfl (Or.inr rfl) rfl he

/-- REPGET and REPACK of the lost items, and of an item with an owner (R100, R115, R118). -/
theorem Chip.docRun_repget {c : Chip} (h : Hdr) {arg : Nat} (bs : List Byte) (hl : arg = lostId → c.lostPages ≠ [])
    (ho : arg ≠ lostId → (c.ownerOf arg).isSome = true) : c.docRun h Cmd.repget arg bs = c.respond h St.ok (c.repgetBytes arg) := by
  show (if (decide (arg = lostId) && c.lostPages.isEmpty) = true then _ else
    if (decide (arg ≠ lostId) && (c.ownerOf arg).isNone) = true then _ else _) = _
  by_cases e : arg = lostId
  · rw [if_neg (by simp [hl e]), if_neg (by simp [e])]; rfl
  · rw [if_neg (by simp [e]), if_neg (by simp [Option.isNone_eq_false_iff.mpr (ho e)])]; rfl

theorem Chip.docRun_repack {c : Chip} (h : Hdr) {arg : Nat} (bs : List Byte) (hl : arg = lostId → c.lostPages ≠ [])
    (ho : arg ≠ lostId → (c.ownerOf arg).isSome = true) (hp : c.repackPages h.clid arg ≠ []) : c.docRun h Cmd.repack arg bs =
      { c with doc := { c.doc with commits := c.doc.commits ++ [(⟨.free h (c.repackPages h.clid arg), 0⟩ : Commit)] } } := by
  show (if (decide (arg = lostId) && c.lostPages.isEmpty) = true then _ else
    if (decide (arg ≠ lostId) && (c.ownerOf arg).isNone) = true then _ else _) = _
  have hrest : (if (c.repackPages h.clid arg).isEmpty = true then c.respond h St.ok [] else { c with doc := { c.doc with
      commits := c.doc.commits ++ [(⟨.free h (c.repackPages h.clid arg), 0⟩ : Commit)] } }) = _ := if_neg (by simp [hp])
  by_cases e : arg = lostId
  · rw [if_neg (by simp [hl e]), if_neg (by simp [e])]
    exact hrest
  · rw [if_neg (by simp [e]), if_neg (by simp [Option.isNone_eq_false_iff.mpr (ho e)])]
    exact hrest

theorem Chip.docRun_noneLost {c : Chip} (h : Hdr) (bs : List Byte) (hl : c.lostPages = []) :
    c.docRun h Cmd.repget lostId bs = c.respond h St.badArg [] := by
  show (if (_ && c.lostPages.isEmpty) = true then _ else _) = _
  exact if_pos (by simp [hl])

/-- Settles O17: a query passes DOC's checks and is answered from the chip with its request in hand. -/
theorem statusAndReports : Obligations.StatusAndReports := by
  unfold Obligations.StatusAndReports
  intro s h hc
  refine ⟨fun hr => ?_, fun args hlen hw hne => ⟨?_, ?_⟩, fun args hlen hx hl => ⟨?_, ?_⟩⟩
  · exact gives_query (code := Cmd.status) hc rfl rfl rfl (((s.chip.inHand_rights h 6 _ Pg.DOC).2.2).trans hr) rfl
  all_goals have ht : args.take 4 = args := List.take_of_length_le (by omega)
  all_goals intro d
  · intro ho
    have hw' : d.mayW h.clid.toNat Pg.DOC = true := ((s.chip.inHand_rights h 6 _ Pg.DOC).2.1).trans hw
    refine gives_query (code := Cmd.repget) hc rfl rfl (by rw [hlen]; rfl) ((if_neg (by rw [ht]; exact hne)).trans hw') ?_
    rw [ht]
    exact Chip.docRun_repget h _ (fun e => absurd e hne) fun _ => ho
  · intro ho hp
    have hw' : d.mayW h.clid.toNat Pg.DOC = true := ((s.chip.inHand_rights h 6 _ Pg.DOC).2.1).trans hw
    refine gives_query (code := Cmd.repack) hc rfl rfl (by rw [hlen]; rfl) ((if_neg (by rw [ht]; exact hne)).trans hw') ?_
    rw [ht]
    exact Chip.docRun_repack h _ (fun e => absurd e hne) (fun _ => ho) hp
  · have hx' : d.mayX h.clid.toNat Pg.DOC = true := ((s.chip.inHand_rights h 6 _ Pg.DOC).1).trans hx
    refine ⟨fun hp => ?_, fun j rest hp => ?_⟩ <;>
      refine gives_query (code := Cmd.repget) hc rfl rfl (by rw [hlen]; rfl) ((if_pos (by rw [ht]; exact hl)).trans hx') ?_ <;> rw [ht]
    · rw [hl]
      exact Chip.docRun_noneLost h _ hp
    · refine (Chip.docRun_repget h _ (fun _ => by show d.lostPages ≠ []; simp [hp]) fun e => absurd hl e).trans ?_
      show d.respond h St.ok (d.repgetBytes (ofLeBytes args)) = _
      unfold Chip.repgetBytes
      rw [if_pos hl, hp]
      rfl
  · intro hp
    have hx' : d.mayX h.clid.toNat Pg.DOC = true := ((s.chip.inHand_rights h 6 _ Pg.DOC).1).trans hx
    refine gives_query (code := Cmd.repack) hc rfl rfl (by rw [hlen]; rfl) ((if_pos (by rw [ht]; exact hl)).trans hx') ?_
    rw [ht]
    have e : d.repackPages h.clid (ofLeBytes args) = d.lostPages := if_pos hl
    rw [← e]
    exact Chip.docRun_repack h _ (fun _ => hp) (fun k => absurd hl k) (by rw [e]; exact hp)

end Sys2Proof.Machine
end

section
/-!
SUPPORT. The F-die's array as commit groups leave it (R411, R412), the journal's commits (R111, R112), and the events of the engine and its items.
-/
namespace Sys2Proof.Machine

/-! ### The F-die's array -/

/-- Only page NVM, memory and the state of the F-die have changed. -/
def OnlyStore (c d : Chip) : Prop := d = { c with regs := d.regs, mem := d.mem, fst := d.fst } ∧ ∀ a, a / 0x4000 ≠ 0x14010 → d.rd a = c.rd a

namespace OnlyStore
variable {b c d : Chip}

theorem refl (c : Chip) : OnlyStore c c := ⟨rfl, fun _ _ => rfl⟩

theorem trans (h : OnlyStore b c) (k : OnlyStore c d) : OnlyStore b d := ⟨by rw [k.1, h.1], fun a ha => (k.2 a ha).trans (h.2 a ha)⟩

theorem put (h : OnlyStore c d) {f : Field} (hf : f.addr / 0x4000 = 0x14010) (v : Nat) : OnlyStore c (d.put f v) :=
  h.trans ⟨rfl, fun _ ha => Chip.rd_put_other _ _ fun e => ha (e ▸ hf)⟩

theorem fst (h : OnlyStore c d) (x : FStore) : OnlyStore c { d with fst := x } := h.trans ⟨rfl, fun _ _ => rfl⟩

theorem fab (h : OnlyStore c d) : d.fab = c.fab := by rw [h.1]

theorem get (h : OnlyStore c d) {f : Field} (hf : f.addr / 0x4000 ≠ 0x14010) : d.get f = c.get f := Chip.get_rd (h.2 _ hf)

theorem on (h : OnlyStore c d) {f : Field} (hf : f.addr / 0x4000 ≠ 0x14010) : d.on f = c.on f := Chip.on_rd (h.2 _ hf)

end OnlyStore

theorem onlyStore_fWrite (c : Chip) (a : Nat) (w : Word) : OnlyStore c (c.fWrite a w) := ⟨rfl, fun _ _ => rfl⟩

theorem onlyStore_fWrites (l : List (Nat × Word)) (c : Chip) : OnlyStore c (c.fWrites l) := by
  unfold Chip.fWrites
  induction l generalizing c with
  | nil => exact OnlyStore.refl c
  | cons x l ih => exact (onlyStore_fWrite c x.1 x.2).trans (ih _)

/-- A commit group writes the array and shows its number (R411, R412). -/
theorem onlyStore_writeGroup (c : Chip) (pages : List (Nat × List Word)) : OnlyStore c (c.writeGroup pages) :=
  ((onlyStore_fWrites _ c).put (by decide) _).put (by decide) _

theorem onlyStore_ownGroup (c : Chip) (safe : Bool) (pages : List (Nat × List Byte)) : OnlyStore c (c.ownGroup safe pages).2 := by
  unfold Chip.ownGroup Chip.groupIf
  dsimp only
  split
  · exact OnlyStore.refl c
  · split
    · exact OnlyStore.refl c
    · split
      · exact OnlyStore.refl c
      · exact onlyStore_writeGroup c _

@[simp] theorem Chip.syncJournal_fab (c : Chip) : c.syncJournal.fab = c.fab := by
  unfold Chip.syncJournal
  dsimp only
  split <;> rfl

@[simp] theorem Chip.iff_true (c : Chip) (f : Chip → Chip) : c.iff true f = f c := rfl

@[simp] theorem Chip.iff_false (c : Chip) (f : Chip → Chip) : c.iff false f = c := rfl

/-- A journal commit does not switch a domain. -/
theorem Chip.jCommit_fab (c : Chip) (page : Nat) (bs : List Byte) : (c.jCommit page bs).2.fab = c.fab := by
  have h := (onlyStore_ownGroup c false [(page, bs)]).fab
  unfold Chip.jCommit
  dsimp only
  split
  · rw [← h]
    generalize (c.ownGroup false [(page, bs)]).2 = t
    cases t.fab.lco
    · rfl
    · exact Chip.syncJournal_fab _
  · rfl

/-! ### The journal's commits -/

/-- A committed record of an item that is open goes on with that item (R111). -/
theorem Chip.withItem_some {c : Chip} {id : Nat} {x : Item} (h : c.item id = some x) (f : Item → Chip) : c.withItem id f = f x := by
  simp [Chip.withItem, h]

/-- The first of the journal's commits, done while no group is open, has its effect (R111, R569). -/
theorem Chip.journalDone_close {c : Chip} {x : Item} {rest : List Commit} (hg : c.gst = 0) (hc : c.doc.commits = ⟨.close, x.id⟩ :: rest)
    (hx : c.item x.id = some x) :
    c.journalDone = (({ c with doc := { c.doc with commits := rest } } : Chip).commitClose x).journalIdle := by
  have hx' : ({ c with doc := { c.doc with commits := rest } } : Chip).item x.id = some x := hx
  unfold Chip.journalDone
  rw [hc]
  dsimp only
  rw [if_neg (by simp [hg]), Chip.withItem_some hx']

/-- A record held for supply is written once the journal takes it (R112). -/
theorem Chip.closeRetry_ok {c : Chip} {id : Nat} {r : HeldRec} (hh : c.doc.held = [r]) (hr : r.item.id = id)
    (hk : (c.jCommit r.item.page (r.stamped c.doc.jseq)).1 = St.ok) :
    c.closeRetry id = (let t := (c.jCommit r.item.page (r.stamped c.doc.jseq)).2
      { t with doc := { t.doc with held := eraseFirst (fun q => q.item.id == id) t.doc.held } }.finalReport r) := by
  unfold Chip.closeRetry
  rw [hh]
  simp only [List.find?_cons, hr, BEq.rfl]
  exact if_pos hk

theorem Chip.finalReport_live {c : Chip} {r : HeldRec} (hr : r.item.rcv = false) (hi : r.item.id ≠ lostId) (hl : c.fab.lco = true) :
    c.finalReport r = (c.sendReport r.item.client ((r.bytes.drop 24).take 32)).syncJournal := by
  simp [Chip.finalReport, hr, hi, hl]

/-- Settles O18, event by event. -/
theorem engineAndItemEvents : Obligations.EngineAndItemEvents := by
  unfold Obligations.EngineAndItemEvents
  refine ⟨⟨fun s hL he hm hl hh hb => ?_, fun s hL he => ?_, fun s hL he => ?_, fun s hL he hi hc ht => ?_, fun s hL he hb hd => ?_,
    fun s hL ht hb he hg hm => ?_⟩, fun s x rest hL hg hc hx => ?_, fun s i r hA hh hr hk => ⟨?_, fun h1 h2 h3 => ?_⟩,
    fun s i x hL hx hq hs hg ha => ?_, fun s i x hL hx hp hs hd => ?_, fun s i x rep rest hL hr hx => ?_⟩
  · refine gives_onL (f := Chip.wakeComplete) hL rfl ?_
    unfold Chip.wakeComplete
    rw [if_neg (by simp [he]), hm]
    dsimp only
    rw [if_neg (by simp [hl, hh]), if_neg (by rcases hb with h | h <;> simp [h])]
  · exact gives_onL hL rfl (if_pos he)
  · exact gives_onL hL rfl (if_pos he)
  · exact gives_onL (f := Chip.idleTimeout) hL rfl (if_pos (by simp [he, hi, hc, ht]))
  · refine gives_onL (f := Chip.heatEnter) hL rfl ((if_neg (by simp [hb, hd])).trans ?_)
    exact congrArg Chip.decision (if_pos he)
  · refine gives_onL (f := Chip.heatLeave) hL rfl ((if_neg (by simp [ht, hb])).trans (if_pos ?_))
    have e : ({ s.chip with doc := { s.chip.doc with heatBand := false } } : Chip).engine = Eng.ready := he
    have m : ({ s.chip with doc := { s.chip.doc with heatBand := false } } : Chip).on Fld.DOC_BCFG_MARK = true := hm
    have g : ({ s.chip with doc := { s.chip.doc with heatBand := false } } : Chip).granted = 0 := hg
    simp [e, m, g]
  · refine gives_onL hL rfl ?_
    rw [Chip.journalDone_close hg hc hx]
  · exact gives_onA hA rfl (Chip.closeRetry_ok hh hr hk)
  · refine gives_onA hA rfl ((Chip.closeRetry_ok hh hr hk).trans (Chip.finalReport_live h1 h2 ?_))
    exact (congrArg Fabric.lco (s.chip.jCommit_fab _ _)).trans h3
  · refine gives_onL hL rfl ?_
    show s.chip.admitExpiry i.toNat = _
    unfold Chip.admitExpiry
    rw [hx]
    exact if_pos (by simp [hq, hs, hg, ha])
  · refine gives_onL hL rfl ?_
    show s.chip.drainTimeout i.toNat = _
    unfold Chip.drainTimeout
    rw [hx]
    exact if_pos (by simp [hp, hs, hd])
  · have hx' : ({ s.chip with doc := { s.chip.doc with ready := rest } } : Chip).item i.toNat = some x := hx
    refine gives_onL hL rfl (congrArg (Chip.reported s.chip) ?_)
    unfold Chip.reportIssue
    rw [hr]
    dsimp only
    rw [if_neg (by simp), hx']

end Sys2Proof.Machine
end

section
/-!
SUPPORT. What a power fail leaves (R126, R132), with the groups of the F-die that it closes.
-/
namespace Sys2Proof.Machine

/-! ### Power fail (R126, R132) -/

theorem onlyStore_showGroup (c : Chip) (n : Nat) : OnlyStore c (c.showGroup n) := by
  have hput : ∀ (t : Chip) (f : Field) (v : Nat), f.addr / 0x4000 = 0x14010 → OnlyStore t (t.put f v) := fun t _ v hf => (OnlyStore.refl t).put hf v
  have h2 : OnlyStore c ((c.put Fld.NVM_GST_ST n).put Fld.NVM_GST_NPG c.fst.pages.length) := ((OnlyStore.refl c).put (by decide) _).put (by decide) _
  unfold Chip.showGroup Chip.putB
  dsimp only
  refine OnlyStore.put (OnlyStore.put ?_ (by decide) _) (by decide) _
  split
  · exact (h2.put (by decide) _).put (by decide) _
  · exact (h2.put (by decide) _).put (by decide) _

theorem onlyStore_openGroup (c : Chip) (m : Master) : OnlyStore c (c.openGroup m) := ((OnlyStore.refl c).fst _).trans (onlyStore_showGroup _ _)

theorem onlyStore_closeGroup (c : Chip) : OnlyStore c c.closeGroup := by
  have h := ((OnlyStore.refl c).fst { c.fst with owner := none, pages := [], sel := none, preload := false }).trans (onlyStore_showGroup _ 0)
  unfold Chip.closeGroup
  dsimp only
  split
  · exact h
  · exact (h.fst _).trans (onlyStore_openGroup _ _)

/-- Staging the record of a power loss changes page LOG and what Almanac stages. -/
theorem Chip.stageLoss_only (c : Chip) (b : LogBody) : c.stageLoss b = { c with regs := (c.stageLoss b).regs, alm := (c.stageLoss b).alm } ∧
    ∀ a, a / 0x4000 ≠ 0x1400F → (c.stageLoss b).rd a = c.rd a := by
  unfold Chip.stageLoss Chip.takeLseq
  refine ⟨rfl, fun a ha => ?_⟩
  have h1 : a ≠ Reg.LOG_NSEQ := fun e => ha (e ▸ rfl)
  have h2 : a ≠ Reg.LOG_TAKE := fun e => ha (e ▸ rfl)
  have h3 : a ≠ Pg.LOG + 0xC := fun e => ha (e ▸ rfl)
  simp [Chip.rd_map, h1, h2, h3]

theorem Chip.stageLoss_pow (c : Chip) (b : LogBody) : (c.stageLoss b).pow = c.pow := by rw [(c.stageLoss_only b).1]

theorem Chip.stageLoss_get (c : Chip) (b : LogBody) {f : Field} (hf : f.addr / 0x4000 ≠ 0x1400F) : (c.stageLoss b).get f = c.get f :=
  Chip.get_rd ((c.stageLoss_only b).2 _ hf)

theorem Chip.stageLoss_on (c : Chip) (b : LogBody) {f : Field} (hf : f.addr / 0x4000 ≠ 0x1400F) : (c.stageLoss b).on f = c.on f :=
  Chip.on_rd ((c.stageLoss_only b).2 _ hf)

theorem Chip.tripLL_pow (c : Chip) (b : Nat) : (c.tripLL b).pow = c.pow := by
  obtain ⟨d, h, hd, -⟩ := c.tripLL_only b
  rw [h.1, hd]

/-- The state in which a power fail closes an open group: PFAIL latched, the reserve test ended, the charger stopped (R126). -/
def Chip.failing (c : Chip) (mv : Nat) : Chip :=
  let v := c.setVin mv
  let d := { v with pow := { v.pow with pfail := true, safeStop := true, resSwitch := true }
                    fst := { v.fst with validAtPfail := c.on Fld.RES_STA_VALID, safeGroups := 0 }
                    ret := { v.ret with req := none } }
  (((d.set Fld.PWR_IST_PFAIL).clr Fld.RES_STA_TBUSY).clr Fld.RET_STA_IMGV).syncCharge

/-- Power fail after the open group is closed: Last Line trips and the record is staged (R132). -/
def Chip.failed (e : Chip) (mv : Nat) : Chip :=
  let f := ((if e.gst = 1 then e.closeGroup else e).llActive 12 true).tripLL 12
  f.stageLoss { kind := 2, cls := 0, code := 2, data := leBytes 2 mv ++ leBytes 2 (f.get Fld.RES_VRES_MV), mst := 0x10 }

theorem Chip.powerFail_first {c : Chip} {mv : Nat} (hp : c.pow.pfail = false) (hv : mv < c.get Fld.PWR_VPF_VPF * 100) :
    c.powerFail mv = (c.failing mv).failed mv := by
  have h1 : (c.setVin mv).get Fld.PWR_VPF_VPF = c.get Fld.PWR_VPF_VPF := Chip.get_put_apart c mv rfl rfl
  have h2 : (c.setVin mv).on Fld.RES_STA_VALID = c.on Fld.RES_STA_VALID := Chip.on_put_apart c mv rfl rfl
  unfold Chip.failing Chip.powerFail
  dsimp only
  rw [if_neg (by simp [h1, show (c.setVin mv).pow = c.pow from rfl, hp]; omega), h2]
  rfl

theorem Chip.failing_state (c : Chip) (mv : Nat) : (c.failing mv).pow.pfail = true ∧ (c.failing mv).pow.safeStop = true ∧
    (c.failing mv).on Fld.PWR_IST_PFAIL = true ∧ (c.failing mv).on Fld.RES_STA_TBUSY = false := by
  refine ⟨rfl, rfl, ?_, ?_⟩ <;> unfold Chip.failing Chip.syncCharge Chip.putB <;> dsimp only <;> rw [Chip.on_put_apart _ _ rfl rfl, Chip.clr,
    Chip.on_put_apart _ _ rfl rfl]
  · rw [Chip.clr, Chip.on_put_apart _ _ rfl rfl]
    exact Chip.on_set_same _ rfl (by decide)
  · exact Chip.on_clr_same _ rfl

/-- What a power fail leaves: a latched Last Line, and what was set before it tripped (R126, R132, R517). -/
theorem Chip.failed_state (e : Chip) (mv : Nat) : (e.failed mv).pow = e.pow ∧ (e.failed mv).on Fld.PWR_IST_PFAIL = e.on Fld.PWR_IST_PFAIL ∧
    (e.failed mv).on Fld.RES_STA_TBUSY = e.on Fld.RES_STA_TBUSY ∧ (e.failed mv).on Fld.ILK_STA_LL = true ∧
    bitsOf ((e.failed mv).get Fld.ILK_LLC_C) 12 1 = 1 := by
  have hs : OnlyStore e (if e.gst = 1 then e.closeGroup else e) := by
    split
    · exact onlyStore_closeGroup e
    · exact OnlyStore.refl e
  unfold Chip.failed
  generalize (if e.gst = 1 then e.closeGroup else e) = g at hs
  obtain ⟨hl, hb, -⟩ := (g.llActive 12 true).tripLL_latched (b := 12) (by decide)
  have hon : ∀ f : Field, f.addr / 0x4000 ∉ 0x14006 :: driverPages → f.addr / 0x4000 ≠ 0x14010 → Fld.ILK_LLA_A.apart f = true →
      ((g.llActive 12 true).tripLL 12).on f = e.on f := fun f h1 h2 h3 => by
    rw [Chip.tripLL_on _ _ h1, Chip.llActive, Chip.on_put_apart _ _ rfl h3, hs.on h2]
  rw [Chip.stageLoss_pow, Chip.stageLoss_on _ _ (by decide), Chip.stageLoss_on _ _ (by decide), Chip.stageLoss_on _ _ (by decide),
    Chip.stageLoss_get _ _ (by decide), Chip.tripLL_pow]
  exact ⟨by rw [Chip.llActive, Chip.put_pow, hs.1], hon _ (by decide) (by decide) rfl, hon _ (by decide) (by decide) rfl, hl, hb⟩

/-- Settles O19: thresholds with their hysteresis, and the steps of the safe stop. -/
theorem supplyAndSafeStop : Obligations.SupplyAndSafeStop := by
  unfold Obligations.SupplyAndSafeStop
  have hov : ∀ (c : Chip) (v : Nat), (c.setVin v).on Fld.PWR_STA_OV = c.on Fld.PWR_STA_OV := fun c v => Chip.on_put_apart c v rfl rfl
  have hbw : ∀ (c : Chip) (v : Nat), (c.setVin v).on Fld.PWR_STA_BW = c.on Fld.PWR_STA_BW := fun c v => Chip.on_put_apart c v rfl rfl
  have hth : ∀ (c : Chip) (v : Nat), ((c.setVin v).get Fld.PWR_VPF_VPF + (c.setVin v).get Fld.PWR_VPF_BWO) * 100 =
      (c.get Fld.PWR_VPF_VPF + c.get Fld.PWR_VPF_BWO) * 100 := fun c v => by
    rw [Chip.setVin, Chip.get_put_apart c v rfl rfl, Chip.get_put_apart c v rfl rfl]
  refine ⟨⟨fun s mv hP h0 hv => ?_, fun s mv hP h1 hv => ?_, fun s mv hP h0 hv => ?_, fun s mv hP h1 hv => ?_⟩,
    fun s mv hP => ⟨fun hp hv => ?_, fun hp => ?_⟩, fun s hA hs => ⟨?_, ?_, fun hr => ?_, fun hr => ?_⟩⟩
  · exact gives_onP (f := fun c => c.vinOver mv.toNat) hP rfl ((if_neg (by simp only [Chip.setVin, h0]; simp)).trans (if_pos hv))
  · exact gives_onP (f := fun c => c.vinOver mv.toNat) hP rfl ((if_pos ((hov _ _).trans h1)).trans (if_pos hv))
  · refine gives_onP (f := fun c => c.vinBrownout mv.toNat) hP rfl ((if_neg ?_).trans (if_pos ?_))
    · rw [hbw, h0]; exact Bool.false_ne_true
    · rw [hth]; exact hv
  · refine gives_onP (f := fun c => c.vinBrownout mv.toNat) hP rfl ((if_pos ((hbw _ _).trans h1)).trans (if_pos ?_))
    rw [hth]; exact hv
  · have h : Gives (.powerFail mv) s ((s.chip.failing mv.toNat).failed mv.toNat) := gives_onP hP rfl (Chip.powerFail_first hp hv)
    refine ⟨h, h.runs ?_⟩
    obtain ⟨k1, k2, k3, k4⟩ := s.chip.failing_state mv.toNat
    obtain ⟨e1, e2, e3, e4, e5⟩ := (s.chip.failing mv.toNat).failed_state mv.toNat
    exact ⟨e1 ▸ k1, e1 ▸ k2, e2.trans k3, e3.trans k4, e4, e5⟩
  · exact gives_onP (f := fun c => c.powerFail mv.toNat) hP rfl (if_pos (by simp [show (s.chip.setVin mv.toNat).pow = s.chip.pow from rfl, hp]))
  · exact gives_onA (f := Chip.safeStopSaves) hA rfl (if_pos hs)
  · exact gives_onA (f := Chip.safeStopOff) hA rfl (if_pos hs)
  · exact gives_onA (f := Chip.safeStopLeave) hA rfl ((if_pos hs).trans (if_neg (by simp [hr])))
  · exact gives_onA (f := Chip.safeStopLeave) hA rfl ((if_pos hs).trans (if_pos hr))

end Sys2Proof.Machine
end

section
/-!
SUPPORT. Rails that fail (R124), and the steps of the input limiter (R127).
-/
namespace Sys2Proof.Machine

/-! ### Rails (R124) -/

theorem Chip.setRail_get (c : Chip) {r : Nat} (good : Bool) {f : Field} (h0 : Fld.PWR_STA_VSYSG.apart f = true)
    (h1 : Fld.PWR_STA_VIOG.apart f = true) (h2 : Fld.PWR_STA_VCOREG.apart f = true) : (c.setRail r good).get f = c.get f := by
  unfold Chip.setRail
  split
  · exact Chip.get_put_apart c _ rfl h0
  · exact Chip.get_put_apart c _ rfl h1
  · exact Chip.get_put_apart c _ rfl h2
  · rfl

/-- The chip in which a rail has been found bad. -/
def Chip.railBad (c : Chip) (r mv : Nat) : Chip :=
  { c.setRail r false with pow := { c.pow with railsFailed := true, failRail := r, failMv := mv } }

theorem Chip.setRail_pow (c : Chip) (r : Nat) (good : Bool) : (c.setRail r good).pow = c.pow := by
  unfold Chip.setRail
  split <;> rfl

theorem Chip.railFault_low {c : Chip} {r mv : Nat} (h : mv < railGood r) : c.railFault r mv =
    if c.get Fld.PSY_BST_STG < 0x0A then (if c.get Fld.PSY_BST_FAIL = 0 then (c.railBad r mv).bootFail 0x02 else c.railBad r mv)
    else (((c.railBad r mv).llActive 4 true).lDieOff).raiseP (report 0x0101 r 0 mv) := by
  have hs : (c.railBad r mv).get Fld.PSY_BST_STG = c.get Fld.PSY_BST_STG := c.setRail_get false rfl rfl rfl
  have hf : (c.railBad r mv).get Fld.PSY_BST_FAIL = c.get Fld.PSY_BST_FAIL := c.setRail_get false rfl rfl rfl
  have hp := c.setRail_pow r false
  rw [← hs, ← hf]
  unfold Chip.railFault Chip.railBad
  rw [if_neg (by omega)]
  dsimp only
  rw [hp]

/-- Only in stages BRIDGE and LOAD does a rail fault bring up the host's side (R46). -/
theorem Chip.railFailed_eq {c : Chip} (h : c.get Fld.PSY_BST_STG ≠ 6) (h' : c.get Fld.PSY_BST_STG ≠ 7) (r mv : Nat) :
    c.railFailed r mv = c.railFault r mv := if_neg (by simp [h, h'])

/-! ### The input limiter (R127) -/

theorem Chip.syncCharge_get (c : Chip) {f : Field} (h : Fld.RES_STA_CHRG.apart f = true) : c.syncCharge.get f = c.get f :=
  Chip.get_put_apart c _ rfl h

theorem Chip.syncCharge_draw (c : Chip) : c.syncCharge.chargeDraw = c.chargeDraw := by
  rw [Chip.chargeDraw, Chip.chargeDraw, c.syncCharge_get rfl, c.syncCharge_get rfl]

/-- The limiter lowers the heater duty where it is not 0 (R127; log entry 152). -/
theorem Chip.lowerHeater_lowers {c : Chip} (h : 0 < c.get Fld.FUS_DTY_D) : c.lowerHeater.get Fld.FUS_DTY_D < c.get Fld.FUS_DTY_D ∧
    c.lowerHeater.pow.heaterCap = c.lowerHeater.get Fld.FUS_DTY_D ∧ c.lowerHeater.mem = c.mem := by
  have hlt : c.freeWord.toNat % c.get Fld.FUS_DTY_D < c.get Fld.FUS_DTY_D := Nat.mod_lt _ h
  have hw : c.get Fld.FUS_DTY_D < 2 ^ 10 := Nat.mod_lt _ (by decide)
  have hg : c.lowerHeater.get Fld.FUS_DTY_D = c.freeWord.toNat % c.get Fld.FUS_DTY_D := by
    unfold Chip.lowerHeater
    dsimp only
    rw [Chip.get_put_same _ _ rfl, if_neg (by omega)]
    exact Nat.mod_eq_of_lt (by show _ < 2 ^ 10; omega)
  refine ⟨hg ▸ hlt, hg ▸ ?_, rfl⟩
  unfold Chip.lowerHeater
  dsimp only
  exact if_neg (by omega)

/-- The readings of a step of the limiter, with ILIMA where the current is above its limit. -/
def Chip.limited (c : Chip) (p i : Nat) : Chip :=
  let d := c.setInput p i
  if d.ilim < i then d.set Fld.PWR_STA_ILIMA else d

theorem Chip.limited_get (c : Chip) (p i : Nat) {f : Field} (hp : Fld.PWR_PIN_CW.apart f = true) (hi : Fld.PWR_IIN_MA.apart f = true)
    (ha : Fld.PWR_STA_ILIMA.apart f = true) : (c.limited p i).get f = c.get f := by
  have h : (c.setInput p i).get f = c.get f := (Chip.get_put_apart _ _ rfl hi).trans (Chip.get_put_apart _ _ rfl hp)
  unfold Chip.limited
  dsimp only
  split
  · exact (Chip.get_put_apart _ 1 rfl ha).trans h
  · exact h

theorem Chip.limited_mem (c : Chip) (p i : Nat) : (c.limited p i).mem = c.mem := by
  unfold Chip.limited
  dsimp only
  split <;> rfl

/-- Where a limit is exceeded the limiter makes a step; the first one starts the shedding and is reported (R127). -/
theorem Chip.shed_over {c : Chip} {p i : Nat} (hx : (c.setInput p i).plim < p ∨ (c.setInput p i).ilim < i) : c.shed p i =
    (let t := (c.limited p i).shedStep (p - (c.setInput p i).plim) (decide ((c.setInput p i).ilim < i))
     if (c.setInput p i).on Fld.PWR_STA_SHED then t
     else (((t.set Fld.PWR_STA_SHED).set Fld.PWR_IST_SHED).syncCharge).raiseP (report 0x0104 0 0 p)) := by
  have hk : ∀ d : Chip, d = c.limited p i → d.plim = (c.setInput p i).plim ∧ d.on Fld.PWR_STA_SHED = (c.setInput p i).on Fld.PWR_STA_SHED := by
    rintro d rfl
    unfold Chip.limited
    dsimp only
    split
    · exact ⟨congrArg (· * 25) (Chip.get_put_apart _ 1 rfl rfl), Chip.on_put_apart _ 1 rfl rfl⟩
    · exact ⟨rfl, rfl⟩
  obtain ⟨h1, h2⟩ := hk _ rfl
  rw [← h1, ← h2]
  unfold Chip.shed
  exact if_neg (by rcases hx with h | h <;> simp [h])

/-- With a charger to pause, and its draw enough, only the charger pauses (R127). -/
theorem Chip.shedStep_pause {c : Chip} {x : Nat} (a : Bool) (h : c.on Fld.RES_STA_CHRG = true) (hx : x ≤ c.chargeDraw) :
    c.shedStep x a = ({ c with pow := { c.pow with chargerPaused := true } }).syncCharge := by
  unfold Chip.shedStep
  rw [if_pos h]
  dsimp only
  rw [if_neg]
  rw [Chip.syncCharge_draw]
  show ¬ c.chargeDraw < x
  omega

/-- With no charger to pause the heater is lowered (R127). -/
theorem Chip.shedStep_heater {c : Chip} {x : Nat} {a : Bool} (h : c.on Fld.RES_STA_CHRG = false) (hx : 0 < x ∨ a = true) :
    c.shedStep x a = c.lowerHeater := by
  unfold Chip.shedStep
  rw [if_neg (by simp [h]), if_pos (by simpa using hx)]

/-- Settles O20. -/
theorem railsAndLimiter : Obligations.RailsAndLimiter := by
  unfold Obligations.RailsAndLimiter
  refine ⟨⟨fun s r mv hP hv => ⟨fun hs => ?_, fun hs hf => ?_⟩, fun s hP hf => gives_onP (f := Chip.railRecovery) hP rfl (if_pos hf)⟩,
    fun s p i hP => ?_, fun s p i hP => ?_, fun s p hP => ?_, fun s i hP => ?_⟩
  · refine gives_onP hP rfl ((Chip.railFailed_eq (by omega) (by omega) _ _).trans ?_)
    rw [Chip.railFault_low hv]
    exact if_neg (by omega)
  · refine gives_onP hP rfl ((Chip.railFailed_eq (by omega) (by omega) _ _).trans ?_)
    rw [Chip.railFault_low hv, if_pos (by omega)]
    exact if_pos hf
  · intro c d hx
    have hon : ∀ {f : Field}, Fld.PWR_PIN_CW.apart f = true → Fld.PWR_IIN_MA.apart f = true → Fld.PWR_STA_ILIMA.apart f = true →
        d.get f = s.chip.get f := fun h1 h2 h3 => s.chip.limited_get _ _ h1 h2 h3
    have hset : ∀ {f : Field}, Fld.PWR_PIN_CW.apart f = true → Fld.PWR_IIN_MA.apart f = true → c.get f = s.chip.get f := fun h1 h2 =>
      (Chip.get_put_apart _ _ rfl h2).trans (Chip.get_put_apart _ _ rfl h1)
    have hchrg : d.on Fld.RES_STA_CHRG = c.on Fld.RES_STA_CHRG := by rw [Chip.on, Chip.on, hon rfl rfl rfl, hset rfl rfl]
    have hdraw : d.chargeDraw = c.chargeDraw := by
      rw [Chip.chargeDraw, Chip.chargeDraw, hon rfl rfl rfl, hon rfl rfl rfl, hset rfl rfl, hset rfl rfl]
    have hon' : c.on Fld.PWR_STA_SHED = true → Gives (.limiterShed p i) s (d.shedStep (p.toNat - c.plim) (decide (c.ilim < i.toNat))) := fun hs =>
      gives_onP hP rfl ((Chip.shed_over hx).trans (if_pos hs))
    refine ⟨fun hs => gives_onP hP rfl ((Chip.shed_over hx).trans (if_neg (ne_true_of_eq_false hs))), hon',
      fun hs hc hp => (hon' hs).runs ?_, fun hs hc hd => (hon' hs).runs ?_⟩
    · rw [Chip.shedStep_pause _ (hchrg.trans hc) (by omega)]
      exact ⟨rfl, (Chip.syncCharge_get _ rfl).trans (hon rfl rfl rfl), s.chip.limited_mem _ _⟩
    · have hdty : d.get Fld.FUS_DTY_D = s.chip.get Fld.FUS_DTY_D := hon rfl rfl rfl
      rw [Chip.shedStep_heater (hchrg.trans hc) (hx.imp (by omega) (by simp)), ← hdty]
      obtain ⟨h1, h2, h3⟩ := Chip.lowerHeater_lowers (hdty ▸ hd)
      exact ⟨h1, h2, h3.trans (s.chip.limited_mem _ _)⟩
  · intro c hs hp hi
    exact gives_onP (f := fun c => c.shedEnd p.toNat i.toNat) hP rfl (if_pos (by simp [show (s.chip.setInput p.toNat i.toNat) = c from rfl, hs, hp,
      hi]))
  · intro c hs hd hx
    exact gives_onP (f := fun c => c.pwrLimit p.toNat) hP rfl (if_pos (by simp [show (s.chip.put Fld.PWR_PIN_CW p.toNat) = c from rfl, hs, hd, hx]))
  · intro c hx
    exact gives_onP (f := fun c => c.ilimTrip i.toNat) hP rfl (if_pos hx)

end Sys2Proof.Machine
end

section
/-!
SUPPORT. A device on its hold-up path, the counterexample to one clause about the reserve (R131).
-/
namespace Sys2Proof.Machine

/-- A device on its hold-up path, the L-die still powered and a byte of its memory written. -/
def heldUp : Chip :=
  let c := State.reset.chip
  { c with fab := { c.fab with lco := true }, pow := { c.pow with resSwitch := true }, mem := memWrite c.mem 0x10000000 1#8 }

/-- The end of the hold-up path switches the L-die off, and its memory is lost (R131, R42). -/
theorem heldUp_loses : POn heldUp ∧ (heldUp.validExpiry 8000).byte 0x10000000 ≠ heldUp.byte 0x10000000 := by decide +kernel

/-- Refutes O21: a VRES reading of 8.0 V or less on the hold-up path ends it (R131), and with the L-die goes its memory, so that
RESERVE_VALID_EXPIRY does not always leave memory as it is. -/
theorem not_reserveAndLedger : ¬ Obligations.ReserveAndLedger := by
  unfold Obligations.ReserveAndLedger
  rintro ⟨⟨-, -, -, -, hexp⟩, -⟩
  obtain ⟨hP, hne⟩ := heldUp_loses
  have hg : Gives (.reserveValidExpiry 8000#16) ⟨heldUp, []⟩ (heldUp.validExpiry 8000) := gives_onP hP rfl rfl
  obtain ⟨c, he, -, -, hm⟩ := hexp ⟨heldUp, []⟩ 8000#16 hP
  have hc : c = heldUp.validExpiry 8000 := by
    have := he.symm.trans hg
    simpa using this
  exact hne (by rw [← hc, Chip.byte, Chip.byte, hm])

end Sys2Proof.Machine
end

section
/-!
SUPPORT. How a BD pulse is judged (R147–R157), and how lock falls (R149).
-/
namespace Sys2Proof.Machine

/-! ### Beam detect (R147–R157) -/

/-- With no spread and no offset the timebase reads the edge's own time (R156). -/
theorem Chip.bdStamp_plain {c : Chip} {t : Nat} (hd : c.get Fld.CLK_STA_SSD = 0) (hm : c.get Fld.MER_SSC_MODE ≠ 2) (ho : c.mer.tbOff = 0) :
    (c.bdStamp t).1 = t := by
  have hdep : c.depth = 0 := by simp [Chip.depth, hd]
  have hoff : (c.timeTo t).mer.tbOff = 0 := by
    have hinc : incOf 0 0 = 524288 := by simpa [incOf] using Rat.floor_intCast 524288
    have hfl : (((t : Rat) - c.mer.tbAt) * 65536).floor = ((t : Int) - c.mer.tbAt) * 65536 := by
      exact_mod_cast Rat.floor_intCast (((t : Int) - c.mer.tbAt) * 65536)
    unfold Chip.timeTo
    simp only [hdep, ho]
    split
    · simp [hinc, hfl]
    · contradiction
    · simp [hfl]
  unfold Chip.bdStamp
  dsimp only
  rw [if_pos (by simp [show (c.timeTo t).depth = c.depth from rfl, hdep]), hoff]
  simp

/-- The timebase only moves on: the registers and the windows it judges by stay. -/
theorem Chip.bdStamp_only (c : Chip) (t : Nat) : ∃ m n, (c.bdStamp t).2 = { c with mer := m, free := n } ∧ m.tracking = c.mer.tracking ∧
    m.meas = c.mer.meas ∧ m.pBd = c.mer.pBd := by
  unfold Chip.bdStamp
  dsimp only
  split
  · exact ⟨_, _, rfl, rfl, rfl, rfl⟩
  · exact ⟨_, _, rfl, rfl, rfl, rfl⟩

theorem Chip.bdStamp_judge (c : Chip) (t u w : Nat) : (c.bdStamp t).2.bdJudge u w = c.bdJudge u w := by
  obtain ⟨m, n, e, h1, h2, h3⟩ := c.bdStamp_only t
  rw [e]
  unfold Chip.bdJudge Chip.inWindow Chip.predBd
  dsimp only
  rw [h1, h2, h3]
  rfl

/-- A rejected pulse leaves the lock as it is. -/
theorem Chip.lockFell_reject (c : Chip) : Chip.lockFell c c.bdReject = c.bdReject := by
  have h : c.bdReject.on Fld.MER_STA_LOCK = c.on Fld.MER_STA_LOCK := (Chip.on_put_apart _ 1 rfl rfl).trans (Chip.on_put_apart _ _ rfl rfl)
  unfold Chip.lockFell
  rw [h]
  exact if_neg (by simp)

/-- A pulse that is too short or outside the window is rejected (R147, R148). -/
theorem Chip.bdPulse_rejected {c : Chip} {t w : Nat} (he : c.on Fld.MER_STA_ENA = true) (hj : c.bdJudge (c.bdStamp t).1 w ≠ .accepted) :
    c.bdPulse t w = (c.bdStamp t).2.bdReject.bdLine := by
  rw [← c.bdStamp_judge t] at hj
  rw [← Chip.lockFell_reject]
  unfold Chip.bdPulse
  rw [if_neg (by simp [he])]
  dsimp only
  split
  · contradiction
  · rfl

/-- Any other is accepted and starts a line (R149, R154). -/
theorem Chip.bdPulse_accepted {c : Chip} {t w : Nat} (he : c.on Fld.MER_STA_ENA = true) (hj : c.bdJudge (c.bdStamp t).1 w = .accepted) :
    c.bdPulse t w = (Chip.lockFell (c.bdStamp t).2 (((c.bdStamp t).2.bdAccept (c.bdStamp t).1).lineStart (c.bdStamp t).1 false)).bdLine := by
  rw [← c.bdStamp_judge t] at hj
  unfold Chip.bdPulse
  rw [if_neg (by simp [he])]
  dsimp only
  rw [hj]

/-! ### Lock and lines (R149, R152, R160) -/

theorem Chip.calLost_on (c : Chip) {f : Field} (h1 : Fld.CAL_STA_BUSY.apart f = true) (h2 : Fld.CAL_CRS_RSLT.apart f = true) :
    c.calLost.on f = c.on f := by
  unfold Chip.calLost
  split
  · rfl
  · exact (Chip.on_put_apart _ 2 rfl h2).trans (Chip.on_put_apart _ 0 rfl h1)

/-- Lock falls with BD (R149). -/
theorem Chip.bdLost_unlocked (c : Chip) : c.bdLost.on Fld.MER_STA_LOCK = false := by
  have h : ((c.clr Fld.MER_STA_LOCK).set Fld.MER_IST_UNLOCK).on Fld.MER_STA_LOCK = false :=
    (Chip.on_put_apart _ 1 rfl rfl).trans (Chip.on_clr_same c rfl)
  have he := (onlyOrr_event ((c.clr Fld.MER_STA_LOCK).set Fld.MER_IST_UNLOCK) Ev.unlock).get (f := Fld.MER_STA_LOCK) (by decide)
  show (c.unlock.clr Fld.MER_STA_FLY).on _ = false
  rw [Chip.clr, Chip.on_put_apart _ _ rfl rfl]
  refine (Chip.calLost_on _ rfl rfl).trans ?_
  show Chip.on (Chip.event _ _) _ = false
  rw [Chip.on, he]
  exact h

/-- With no sweep in progress only the BD laser lights a line (R152). -/
theorem Chip.lights_noSweep {c : Chip} (h : c.noSweep = true) (k : Nat) : c.lights k = false := by
  simp only [Chip.noSweep, Bool.and_eq_true, Bool.not_eq_true'] at h
  obtain ⟨⟨h0, h1⟩, -⟩ := h
  simp [Chip.lights, h0, h1]

/-- Settles O22: a pulse is judged at the timebase's reading; a window without one is bridged, or the BD input is lost. -/
theorem beamAndFlywheel : Obligations.BeamAndFlywheel := by
  unfold Obligations.BeamAndFlywheel
  refine ⟨fun s t w hL hp he => ⟨fun h1 h2 h3 => Chip.bdStamp_plain h1 h2 h3, ?_⟩, fun s hL he ht hm => ⟨fun hf => ?_, fun hf => ?_⟩,
    fun s hL he ht => ?_⟩
  · intro d u
    refine ⟨fun hw => ?_, fun hw h1 h2 h3 => ?_, fun hw ha => ?_⟩
    · refine gives_onPads hL (by simpa using hp) rfl (Chip.bdPulse_rejected he ?_)
      rw [show s.chip.bdJudge u w.toNat = .short from if_pos hw]
      decide
    · refine gives_onPads hL (by simpa using hp) rfl (Chip.bdPulse_rejected he ?_)
      rw [show s.chip.bdJudge u w.toNat = .outside from (if_neg (by omega)).trans (if_neg (by simp [h1, h2, h3]))]
      decide
    · refine gives_onPads hL (by simpa using hp) rfl (Chip.bdPulse_accepted he ((if_neg (by omega)).trans (if_pos ?_)))
      rcases ha with h | h | h <;> simp [h, show (s.chip.bdStamp t).1 = u from rfl]
  · refine gives_onL (f := Chip.flywheel) hL rfl ?_
    unfold Chip.flywheel
    rw [if_neg (by simp [he, ht, hm]), if_neg (by omega)]
  · intro u
    have h : s.chip.flywheel = (Chip.lockFell s.chip (if u.get (Fld.HLP_ST_MODE 0) ≠ Mode.off && !u.on (Fld.HLP_ST_LOSS 0) then
        u.loopLoss 0 2 (u.getS (Fld.HLP_FB_Y 0)) else u)).bdLine := by
      unfold Chip.flywheel
      rw [if_neg (by simp [he, ht, hm]), if_pos hf]
    refine ⟨s.chip.bdLost_unlocked, rfl, rfl, fun hk => gives_onL hL rfl ?_, fun h1 h2 => gives_onL hL rfl ?_⟩
    · rw [h, if_neg]
      rcases hk with k | k <;> simp [k]
    · rw [h, if_pos]
      simp [h1, h2]
  · have h : s.chip.openBdWindow = { s.chip with mer := { s.chip.mer with windowOpen := true, accepted := false, bdLaser := true } } :=
      if_pos (by simp [he, ht])
    refine (gives_onL (f := fun c => c.openBdWindow.bdLine) hL rfl (congrArg Chip.bdLine h)).runs ⟨rfl, rfl, rfl, rfl, rfl, fun hn => ?_⟩
    have hl := Chip.lights_noSweep (c := { s.chip with mer := { s.chip.mer with windowOpen := true, accepted := false, bdLaser := true } }) hn
    have h2 : s.chip.mer.s2.sweeping = false := by simp only [Chip.noSweep, Bool.and_eq_true, Bool.not_eq_true'] at hn; exact hn.2
    refine ⟨?_, ?_⟩ <;> unfold Chip.bdLine Chip.modLines <;> dsimp only
    · rw [hl]
      show ((true && s.chip.on Fld.MER_GEO_BDSRC == false) || false) = _
      cases s.chip.on Fld.MER_GEO_BDSRC <;> rfl
    · rw [h2]
      show ((true && s.chip.on Fld.MER_GEO_BDSRC == true) || (s.chip.mer.mod2 && false && false && _)) = _
      cases s.chip.on Fld.MER_GEO_BDSRC <;> simp

end Sys2Proof.Machine
end

section
/-!
SUPPORT. The facet index, and a station that begins to sweep (R150, R161, R162).
-/
namespace Sys2Proof.Machine

/-! ### Facet index and sweeps (R150, R161, R162) -/

theorem Chip.setStn_stn (c : Chip) (n : Fin 3) (x : Station) : (c.setStn n.val x).stn n.val = x := by
  fin_cases n <;> rfl

theorem Chip.event_stn (c : Chip) (e n : Nat) : (c.event e).stn n = c.stn n := by
  rw [(onlyOrr_event c e).1]
  rfl

/-- A station that begins to sweep (R162). -/
theorem Chip.beginSweep_eq {c : Chip} (n : Fin 3) (x : Station) {u : Chip} (hw : (c.stn n.val).sweeping = false) (hu : c.sweepStart n.val = u)
    (hx : u.stn n.val = x) (hs : x.sweeping = true) : c.beginSweep n.val = if n.val = 2 then u.markSweepStart.modLines u.markSweepStart.firstLit
      else ({ u with mer := { u.mer with edges := u.pixelEdges n.val 0 } }).bdLine := by
  unfold Chip.beginSweep
  rw [hu]
  dsimp only
  by_cases h : n.val = 2
  · rw [if_pos h, if_pos h, if_pos]
    rw [h] at hw hx
    simp [hw, hx, hs]
  · rw [if_neg h, if_neg h, if_pos]
    simp [hw, hx, hs]

/-- Settles O23. -/
theorem facetAndSweep : Obligations.FacetAndSweep := by
  unfold Obligations.FacetAndSweep
  refine ⟨⟨fun s ns hL hp he hi hn => ?_, fun s hL hi hn => ?_⟩, fun s n hL hl he hc hm ha hw => ?_, fun s n raw mon hL hw => ?_⟩
  · exact gives_onPads (f := fun c => c.pixPulse ns.toNat) hL (by simpa using hp) rfl (if_pos (by simp [he, hi, hn]))
  · exact gives_onL (f := Chip.indexLost) hL rfl (if_pos (by simp [hi, hn]))
  · intro d u
    have hu : s.chip.sweepStart n.val = u := if_pos (by simp [hl, hm, ha, hw, he, hc])
    have hx : u.stn n.val = _ := (Chip.event_stn _ _ n.val).trans (Chip.setStn_stn _ n _)
    have hb := Chip.beginSweep_eq n _ hw hu hx rfl
    refine ⟨fun h => ?_, fun h => ?_⟩
    · exact gives_onL hL rfl (hb.trans (if_neg (by omega)))
    · exact gives_onL hL rfl (hb.trans (if_pos h))
  · intro u
    have hu : s.chip.sweepStop n.val = u := if_pos hw
    refine gives_onL hL rfl ?_
    show s.chip.endSweep n.val raw mon = _
    unfold Chip.endSweep
    rw [if_neg (by simp [hw]), hu]

end Sys2Proof.Machine
end

section
/-!
SUPPORT. Register writes through the aliases (R60, R61), and what stops Meridian (R573).
-/
namespace Sys2Proof.Machine

/-! ### Writes through the aliases (R60, R61) -/

/-- Is the field one that a write through one of the aliases leaves alone, or takes at once (R61, R68)? -/
def FieldDesc.aliasOk (f : FieldDesc) (w raw : Word) (resv : List Nat) : Bool :=
  f.acc == .rw && (!touches f raw || (f.cls == .l && f.legal.ok (bitsOf w.toNat f.lo f.w) f.w && !resv.contains f.lo))

/-- The chip after the touched fields of a register have taken their parts of `w`. -/
def aliasIn (fs : List FieldDesc) (a : Nat) (w raw : Word) (c : Chip) : Chip :=
  fs.foldl (fun t f => if touches f raw then t.put ⟨a, f.lo, f.w⟩ (bitsOf w.toNat f.lo f.w) else t) c

theorem writeField_alias {p : PageDesc} {a k : Nat} {m : Master} {w raw : Word} {resv : List Nat} {o : Bool} {f : FieldDesc} (ha : plainL a)
    (hk : k ≠ 0) (h : f.aliasOk w raw resv = true) (j : Judged) : writeField p a m k w raw resv o j f =
      { j with s := if touches f raw then j.s.put ⟨a, f.lo, f.w⟩ (bitsOf w.toNat f.lo f.w) else j.s } := by
  simp only [FieldDesc.aliasOk, Bool.and_eq_true, beq_iff_eq, Bool.or_eq_true, Bool.not_eq_true'] at h
  obtain ⟨hacc, h⟩ := h
  unfold writeField
  rw [hacc]
  dsimp only
  rcases h with h | ⟨⟨hcls, hleg⟩, hres⟩
  · rw [h, if_pos (by simp [hk])]
    rfl
  · by_cases ht : touches f raw = true
    · rw [if_neg (by simp [ht]), hcls]
      dsimp only
      rw [hleg, hres, Chip.lateTh_plain ha, ht]
      rfl
    · rw [Bool.not_eq_true] at ht
      rw [ht, if_pos (by simp [hk])]
      rfl

theorem foldl_writeField_alias {p : PageDesc} {a k : Nat} {m : Master} {w raw : Word} {resv : List Nat} {o : Bool} (ha : plainL a) (hk : k ≠ 0) :
    ∀ (fs : List FieldDesc), fs.all (fun f => f.aliasOk w raw resv) = true → ∀ (c : Chip) (g b x : Bool),
      fs.foldl (writeField p a m k w raw resv o) { s := c, ign := g, bad := b, applied := x } =
        { s := aliasIn fs a w raw c, ign := g, bad := b, applied := x }
  | [], _, _, _, _, _ => rfl
  | f :: fs, h, c, g, b, x => by
    simp only [List.all_cons, Bool.and_eq_true] at h
    rw [List.foldl_cons, writeField_alias ha hk h.1, foldl_writeField_alias ha hk fs h.2]
    rfl

theorem aliasIn_plain {P : Chip → Prop} (hp : ∀ (t : Chip) (f : Field) (v : Nat), P t → P (t.put f v)) (a : Nat) (w raw : Word) :
    ∀ (fs : List FieldDesc) (c : Chip), P c → P (aliasIn fs a w raw c)
  | [], _, h => h
  | f :: fs, c, h => by
    unfold aliasIn
    rw [List.foldl_cons]
    refine aliasIn_plain hp a w raw fs _ ?_
    split
    · exact hp _ _ _ h
    · exact h

/-- What follows the fields of a page's CTL (R57, R58); any other register has nothing to follow. -/
def Chip.headed (c : Chip) (p : PageDesc) (o : Nat) (wasEn : Bool) : Chip := if o = 8 then c.afterCtl hooks p wasEn else c

theorem Chip.afterCtl_shadows {c : Chip} (h : c.shadows = []) (p : PageDesc) (wasEn : Bool) (hen : wasEn = true) :
    (c.afterCtl hooks p wasEn).shadows = [] := by
  subst hen
  unfold Chip.afterCtl
  dsimp only
  rw [Bool.not_true, Bool.and_false, if_neg Bool.false_ne_true]
  split
  · rw [Chip.applyShadows_none (by exact h)]
    exact h
  · exact h

/-- The commit of an aliased write on a page that is enabled: the touched fields take their parts, then what the register does follows. -/
theorem Chip.commit_alias {c d : Chip} {m : Master} {raw w : Word} {p : PageDesc} {o a k : Nat} {fs : List FieldDesc} (ha : plainL a) (hk : k ≠ 0)
    (hn : c.shadows = [] ∧ c.held = []) (ho : o ≠ 0x18 ∧ o ≠ 0x1C) (hb : p.base + o = a) (hf : fieldsAt p o = some fs) (hz : readsZero p o = false)
    (hen : c.on (hEN p.base) = true) (hg : hooks.gate p.base = none) (hw : aliasWord k (c.rd a) raw = w)
    (hfs : fs.all (fun f => f.aliasOk w raw (hookResv a w c)) = true)
    (hval : hookValid p.base (.write a true) (aliasIn fs a w raw c) = [])
    (hp : (if actsOn k raw fs = true then hookPost m a (c.rd a) (askedOf k w fs) ((aliasIn fs a w raw c).headed p o true)
      else (St.ok, (aliasIn fs a w raw c).headed p o true)) = (St.ok, d)) :
    c.commit hooks m p o k raw = (St.ok, d.afterCommit) := by
  obtain ⟨hsh, hheld⟩ := hn
  obtain ⟨h18, h1C⟩ := ho
  have hsh2 : (aliasIn fs a w raw c).shadows = [] := aliasIn_plain (P := fun t => t.shadows = []) (fun _ _ _ h => h) a w raw fs c hsh
  have hsh3 : ((aliasIn fs a w raw c).headed p o true).shadows = [] := by
    unfold Chip.headed
    split
    · exact Chip.afterCtl_shadows hsh2 p true rfl
    · exact hsh2
  have hr : hooks.resv = hookResv := rfl
  have hv : hooks.valid = hookValid := rfl
  have hpo : hooks.post = hookPost := rfl
  have hbr : ∀ q : Bool, (if p.en1 = true then ([] : List Field) else
      if q = true then hookValid p.base (.write a true) (aliasIn fs a w raw c) else []) = [] := by
    intro q
    cases q <;> simp [hval]
  have hhead : (if o = 8 then (aliasIn fs a w raw c).afterCtl hooks p true else aliasIn fs a w raw c) = (aliasIn fs a w raw c).headed p o true := rfl
  unfold Chip.commit Chip.afterCommit
  simp only [hf, hb, hw, hg, Option.getD_none, bne_self_eq_false, Bool.or_false, hen, Bool.not_true, Bool.and_false, Bool.false_and,
    Bool.false_eq_true, if_false]
  simp only [hr, hv, hpo, foldl_writeField_alias ha hk fs hfs, Bool.false_and, Bool.false_eq_true, if_false, hbr, ne_eq,
    not_true_eq_false, h18, h1C, decide_false, hhead, Chip.applyShadows_none hsh3]
  cases hact : actsOn k raw fs
  · rw [hact, if_neg Bool.false_ne_true, Prod.mk.injEq] at hp
    simp only [hp.2, Bool.not_false, Bool.or_true, if_true, hz, Bool.false_eq_true, if_false]
    rfl
  · rw [hact, if_pos rfl] at hp
    simp only [Bool.not_true, Bool.or_false, Bool.false_eq_true, if_false, hp, if_true, hz]
    rfl

/-- The same write as a master makes it, on a page where nothing waits: the checks of R84 come first. -/
theorem Chip.store32_alias {c d : Chip} {x : Fin 4} {raw w : Word} {l : Loc} {a a' : Nat} {fs : List FieldDesc} (ha : plainL a)
    (hL : LOn c) (hn : NoneWaiting c) (ha4 : a' % 4 = 0) (hreg : 0x10000000 ≤ a' ∧ a' < 0x50000000) (hl : locate a' = some l) (hk : l.alias_ ≠ 0)
    (hoff : l.off < 0x800) (ho : l.off ≠ 0x18 ∧ l.off ≠ 0x1C ∧ l.off ≠ 0x20) (hb : l.page.base + l.off = a) (hf : fieldsAt l.page l.off = some fs)
    (hz : readsZero l.page l.off = false) (hgd : guardedAt l.page l.off = false) (hen : c.on (hEN l.page.base) = true)
    (hg : hooks.gate l.page.base = none) (hw : aliasWord l.alias_ (c.rd a) raw = w)
    (hpre : hookPre (.orr x) a (askedOf l.alias_ w fs) c = St.ok) (hfs : fs.all (fun f => f.aliasOk w raw (hookResv a w c)) = true)
    (hval : hookValid l.page.base (.write a true) (aliasIn fs a w raw c) = [])
    (hp : (if actsOn l.alias_ raw fs = true then
        hookPost (.orr x) a (c.rd a) (askedOf l.alias_ w fs) ((aliasIn fs a w raw c).headed l.page l.off true)
      else (St.ok, (aliasIn fs a w raw c).headed l.page l.off true)) = (St.ok, d)) :
    c.store32 (.orr x) a' raw = (St.ok, d.afterCommit) := by
  obtain ⟨hsh, hheld, hgu⟩ := hn
  obtain ⟨h18, h1C, h20⟩ := ho
  have hlat : c.latch l.page.base = none := by simp [Chip.latch, hgu]
  have hcommit := Chip.commit_alias (m := .orr x) ha hk ⟨hsh, hheld⟩ ⟨h18, h1C⟩ hb hf hz hen hg hw hfs hval hp
  have hdead : c.deadRegion a' = false := by
    simp only [Chip.deadRegion, hL.1]
    simp
    omega
  have hj : hooks.judge l.alias_ (.orr x) a w fs c = St.ok := by
    unfold Hooks.judge
    split
    · rfl
    · exact hpre
  have hperm : c.permits (.orr x) l.page l.off w = true := rfl
  have hst : c.stateOk (.orr x) l.page l.off w = true := rfl
  unfold Chip.store32 Chip.write32
  simp only [hdead, Bool.false_eq_true, if_false, ha4, ne_eq, not_true_eq_false, hl]
  unfold Chip.writeReg
  simp only [show ¬ 0x800 ≤ l.off by omega, decide_false, Bool.false_eq_true, if_false, hlat, hf, Option.isNone_some, Bool.false_or, Bool.false_and,
    hb, hw, hperm, Bool.not_true, hgd, Option.getD_some, hj, hst, h20, hheld, List.any_nil, hcommit, hk, ne_eq, not_false_eq_true, decide_true,
    Bool.and_false]
  simp [St.perm, St.state, St.ok]

/-- A bit that is set reads 1. -/
theorem Chip.get_of_on {c : Chip} {f : Field} (hw : f.w = 1) (h : c.on f = true) : c.get f = 1 := by
  have hlt : c.get f < 2 ^ f.w := Nat.mod_lt _ (Nat.two_pow_pos _)
  have hne : c.get f ≠ 0 := by simpa [Chip.on] using h
  rw [hw] at hlt
  omega

/-! ### The stop of Meridian (R573) -/

/-- The fields of MER.CTL: EN, XP, BND and the station enables. -/
def merCtl : List FieldDesc :=
  [{ lo := 0, w := 1, acc := .rw, reset := 0, cls := .l }, { lo := 1, w := 1, acc := .rw, reset := 0, cls := .s },
    { lo := 4, w := 4, acc := .rw, reset := 0, cls := .l, legal := .among [(0, 0), (4, 4), (15, 15)] },
    { lo := 8, w := 3, acc := .rw, reset := 0, cls := .s }]

theorem merCtl_touched : merCtl.map (fun f => touches f 1#32) = [true, false, false, false] := by decide

/-- A write of 1 to the clear address touches EN alone. -/
theorem aliasIn_merCtl (c : Chip) (w : Word) (h : bitsOf w.toNat 0 1 = 0) : aliasIn merCtl Reg.MER_CTL w 1#32 c = c.put Fld.MER_CTL_EN 0 := by
  show c.put Fld.MER_CTL_EN (bitsOf w.toNat 0 1) = _
  rw [h]

theorem aliasOk_merCtl (w : Word) (b : Bool) : merCtl.all (fun f => f.aliasOk w 1#32 (reservedBits [(b, 8)])) = true := by
  cases b <;> rfl

/-- Clearing EN of a page that is enabled only brings its STA and CFS up to date (R57, R58). -/
theorem Chip.afterCtl_cleared {c : Chip} {p : PageDesc} (hs : c.shadows = []) (he : c.on (hEN p.base) = false) :
    c.afterCtl hooks p true = (c.putB (hXPS p.base) (c.on (hXP p.base))).syncShadow p.base := by
  unfold Chip.afterCtl
  dsimp only
  rw [he, Bool.false_and, if_neg Bool.false_ne_true]
  split
  · rw [Chip.applyShadows_none (by exact hs)]
  · rfl

/-- Setting or clearing MER.CTL.EN starts or stops Meridian (R58, R573). -/
theorem hookPost_merCtl (m : Master) (old v : Word) (c : Chip) :
    hookPost m Reg.MER_CTL old v c = (St.ok, c.ctlWritten Pg.MER (bitsOf old.toNat 0 1 = 1)) := rfl

/-- Of MER.CTL only the station enables have reserved values (R147). -/
theorem hookResv_merCtl (w : Word) (c : Chip) : ∃ b : Bool, hookResv Reg.MER_CTL w c = reservedBits [(b, 8)] := by
  let b := (decide (bitsOf w.toNat 8 3 / 2 % 2 = 1) && !c.on Fld.DOC_BCFG_REAR) || (decide
    (bitsOf w.toNat 8 3 / 4 % 2 = 1) && !c.on Fld.DOC_BCFG_MARK)
  have e : hookResv Reg.MER_CTL w c = reservedBits [(b, 8)] ++ [] ++ [] ++ [] ++ [] ++ [] ++ [] ++ [] ++ [] ++ [] ++ [] := rfl
  exact ⟨b, e.trans (by simp)⟩

theorem hookPre_merCtl (x : Fin 4) (w : Word) (c : Chip) : hookPre (.orr x) Reg.MER_CTL w c = St.ok := rfl

theorem bitsOf_clearAlias (w : Word) : bitsOf ((w &&& ~~~1#32).toNat) 0 1 = 0 := by
  rw [bitsOf_one]
  simp

/-- MERIDIAN_DISABLE clears MER.CTL.EN, and what follows that write stops Meridian (R58, R573). -/
theorem Chip.store32_merDisable {c d e : Chip} {x : Fin 4} (hL : LOn c) (hn : NoneWaiting c) (hen : c.on Fld.MER_CTL_EN = true)
    (hd : c.put Fld.MER_CTL_EN 0 = d) (he : (d.putB (hXPS Pg.MER) (d.on (hXP Pg.MER))).syncShadow Pg.MER = e) :
    c.store32 (.orr x) (Reg.MER_CTL + 0x2000) 1#32 = (St.ok, (e.ctlWritten Pg.MER true).afterCommit) := by
  have hp : plainL Reg.MER_CTL := by intro n hn; interval_cases n <;> decide
  have hin : aliasIn merCtl Reg.MER_CTL (c.rd Reg.MER_CTL &&& ~~~1#32) 1#32 c = d := (aliasIn_merCtl _ _ (bitsOf_clearAlias _)).trans hd
  have hoff : d.on (hEN Pg.MER) = false := hd ▸ Chip.on_clr_same c (f := Fld.MER_CTL_EN) rfl
  have hsh : d.shadows = [] := hd ▸ hn.1
  have hhead : d.headed pageMER 8 true = e := (Chip.afterCtl_cleared (p := pageMER) hsh hoff).trans he
  have hold : bitsOf (c.rd Reg.MER_CTL).toNat 0 1 = 1 := Chip.get_of_on (f := Fld.MER_CTL_EN) rfl hen
  have hpost : hookPost (.orr x) Reg.MER_CTL (c.rd Reg.MER_CTL) (c.rd Reg.MER_CTL &&& ~~~1#32) e = (St.ok, e.ctlWritten Pg.MER true) := by
    rw [hookPost_merCtl, hold]
    rfl
  have hfs : merCtl.all (fun f => f.aliasOk (c.rd Reg.MER_CTL &&& ~~~1#32) 1#32 (hookResv Reg.MER_CTL (c.rd Reg.MER_CTL &&& ~~~1#32) c)) = true :=
    by obtain ⟨b, e⟩ := hookResv_merCtl (c.rd Reg.MER_CTL &&& ~~~1#32) c; rw [e]; exact aliasOk_merCtl _ b
  have hval : hookValid Pg.MER (.write Reg.MER_CTL true) d = [] := rfl
  exact Chip.store32_alias (a := Reg.MER_CTL) (l := ⟨pageMER, 8, 2⟩) (fs := merCtl) hp hL hn rfl ⟨by decide, by decide⟩ rfl (by decide) (by decide)
    ⟨by decide, by decide, by decide⟩ rfl rfl rfl rfl hen rfl rfl (hookPre_merCtl x _ c) hfs (hin ▸ hval) ((if_pos rfl).trans (hin ▸ hhead ▸ hpost))

/-- Only Meridian and its page have changed. -/
def OnlyMer (c d : Chip) : Prop := d = { c with regs := d.regs, mer := d.mer } ∧ ∀ a, a / 0x4000 ≠ 0x1000A → d.rd a = c.rd a

namespace OnlyMer
variable {b c d : Chip}

theorem refl (c : Chip) : OnlyMer c c := ⟨rfl, fun _ _ => rfl⟩

theorem trans (h : OnlyMer b c) (k : OnlyMer c d) : OnlyMer b d := ⟨by rw [k.1, h.1], fun a ha => (k.2 a ha).trans (h.2 a ha)⟩

theorem put (h : OnlyMer c d) {f : Field} (hf : f.addr / 0x4000 = 0x1000A) (v : Nat) : OnlyMer c (d.put f v) :=
  h.trans ⟨rfl, fun _ ha => Chip.rd_put_other _ _ fun e => ha (e ▸ hf)⟩

theorem mer (h : OnlyMer c d) (x : Meridian) : OnlyMer c { d with mer := x } := h.trans ⟨rfl, fun _ _ => rfl⟩

end OnlyMer

theorem onlyMer_merSync (c : Chip) : OnlyMer c c.merSync := by
  unfold Chip.merSync Chip.putS Chip.putB
  exact ((((OnlyMer.refl c).put (by decide) _).put (by decide) _).put (by decide) _).put (by decide) _

theorem onlyMer_merHalt {c : Chip} (hl : c.on Fld.MER_STA_LOCK = false) : OnlyMer c c.merHalt := by
  have hs : OnlyMer c c.merStop := by
    unfold Chip.merStop Chip.clr
    rw [if_neg (ne_true_of_eq_false hl)]
    split
    · exact ((((OnlyMer.refl c).mer _).put (by decide) _).put (by decide) _).put (by decide) _
    · exact OnlyMer.refl c
  unfold Chip.merHalt Chip.lockFell
  rw [if_neg (by simp [hl])]
  exact hs

/-- Meridian has stopped (R573). -/
structure MerStopped (c : Chip) : Prop where
  en : c.on Fld.MER_CTL_EN = false
  ena : c.on Fld.MER_STA_ENA = false
  tracking : c.mer.tracking = false
  windowOpen : c.mer.windowOpen = false
  bdLaser : c.mer.bdLaser = false
  mods : c.mer.mod0 = false ∧ c.mer.mod1 = false ∧ c.mer.mod2 = false
  armed : c.mer.s0.armed = false ∧ c.mer.s1.armed = false ∧ c.mer.s2.armed = false

/-- Disabled with no sweep left and out of lock, Meridian stops (R573). -/
theorem merStopped_merHalt {c : Chip} (he : c.on Fld.MER_CTL_EN = false) (ha : c.on Fld.MER_STA_ENA = true) (hn : c.noSweep = true)
    (hl : c.on Fld.MER_STA_LOCK = false) : MerStopped c.merHalt := by
  unfold Chip.merHalt Chip.lockFell
  rw [if_neg (by simp [hl])]
  unfold Chip.merStop
  rw [if_pos (by simp [he, ha, hn]), if_neg (ne_true_of_eq_false hl)]
  refine ⟨?_, Chip.on_clr_same _ rfl, rfl, rfl, rfl, ⟨rfl, rfl, rfl⟩, rfl, rfl, rfl⟩
  simp (disch := decide) only [Chip.clr, Chip.on_put_apart]
  exact he

theorem MerStopped.merSync {c : Chip} (h : MerStopped c) : MerStopped c.merSync := by
  have hk : ∀ f : Field, Fld.MER_RQR_RPIX.apart f = true → Fld.MER_RQR_RES.apart f = true → Fld.MER_STA_SSCA.apart f = true →
      Fld.MER_STA_FCA.apart f = true → c.merSync.on f = c.on f := by
    intro f h1 h2 h3 h4
    unfold Chip.merSync Chip.putS Chip.putB
    rw [Chip.on_put_apart _ _ rfl h4, Chip.on_put_apart _ _ rfl h3, Chip.on_put_apart _ _ rfl h2, Chip.on_put_apart _ _ rfl h1]
  exact ⟨(hk _ rfl rfl rfl rfl).trans h.en, (hk _ rfl rfl rfl rfl).trans h.ena, h.tracking, h.windowOpen, h.bdLaser, h.mods, h.armed⟩

/-- A stopped Meridian has nothing more to stop. -/
theorem MerStopped.merHalt {c : Chip} (h : MerStopped c) : c.merHalt = c := by
  have hs : c.merStop = c := if_neg (by simp [h.ena])
  unfold Chip.merHalt Chip.lockFell
  rw [hs]
  exact if_neg (by simp)

theorem Chip.ctlWritten_merOff {c : Chip} (h : c.on Fld.MER_CTL_EN = false) : c.ctlWritten Pg.MER true = c.merHalt.merSync := by
  have h' : c.on (hEN Pg.MER) = false := h
  show (if _ then _ else if (true && !c.on (hEN Pg.MER)) = true then _ else _) = _
  rw [h', Bool.false_and, if_neg Bool.false_ne_true]
  rfl

/-- With an item admitted and no decision due nothing follows a write (R73, R142). -/
theorem Chip.afterCommit_idle {c : Chip} (hn : c.noneAdmitted = false) (hd : c.pow.decideDue = false) : c.afterCommit = c := by
  unfold Chip.afterCommit
  rw [if_neg (ne_true_of_eq_false hn)]
  exact if_neg (by simp [hd])

/-- MERIDIAN_DISABLE by an Orrery context (R573). -/
theorem gives_meridianDisable {s : State} {x : Fin 4} (hL : LOn s.chip) (hn : NoneWaiting s.chip) (hs : Settled s.chip)
    (hen : s.chip.on Fld.MER_CTL_EN = true) (hena : s.chip.on Fld.MER_STA_ENA = true) (hl : s.chip.on Fld.MER_STA_LOCK = false)
    (hw : s.chip.noSweep = true) (ha : s.chip.noneAdmitted = false) (hd : s.chip.pow.decideDue = false) :
    Runs (.meridianDisable (.orr x)) s fun c => OnlyMer s.chip c ∧ MerStopped c := by
  have hst := Chip.store32_merDisable (x := x) hL hn hen rfl rfl
  generalize hd' : s.chip.put Fld.MER_CTL_EN 0 = d at hst
  generalize he' : (d.putB (hXPS Pg.MER) (d.on (hXP Pg.MER))).syncShadow Pg.MER = e at hst
  have hoff : ∀ {f : Field}, f.addr / 0x4000 = 0x1000A → Fld.MER_CTL_EN.apart f = true → (hXPS Pg.MER).apart f = true →
      (hPEND Pg.MER).apart f = true → (hHOLD Pg.MER).apart f = true → e.on f = s.chip.on f := by
    intro f _ h1 h2 h3 h4
    rw [← he', ← hd']
    unfold Chip.syncShadow Chip.putB
    dsimp only
    rw [Chip.on_put_apart _ _ rfl h4, Chip.on_put_apart _ _ rfl h3, Chip.on_put_apart _ _ rfl h2, Chip.on_put_apart _ _ rfl h1]
  have hec : e.on Fld.MER_CTL_EN = false := by
    rw [← he', ← hd']
    unfold Chip.syncShadow Chip.putB
    dsimp only
    rw [Chip.on_put_apart _ _ rfl rfl, Chip.on_put_apart _ _ rfl rfl, Chip.on_put_apart _ _ rfl rfl]
    exact Chip.on_clr_same s.chip (f := Fld.MER_CTL_EN) rfl
  have hm : OnlyMer s.chip e := by
    rw [← he', ← hd']
    exact ((((OnlyMer.refl s.chip).put (by decide) _).put (by decide) _).put (by decide) _).put (by decide) _
  have hnw : e.noSweep = true := by rw [← hw, ← he', ← hd']; rfl
  have hlock : e.on Fld.MER_STA_LOCK = false := (hoff rfl rfl rfl rfl rfl).trans hl
  have hstop : MerStopped e.merHalt.merSync := (merStopped_merHalt hec ((hoff rfl rfl rfl rfl rfl).trans hena) hnw hlock).merSync
  have honly : OnlyMer s.chip e.merHalt.merSync := (hm.trans (onlyMer_merHalt hlock)).trans (onlyMer_merSync _)
  have hidle : e.merHalt.merSync.afterCommit = e.merHalt.merSync := by
    refine Chip.afterCommit_idle ?_ ?_
    · rw [← ha, honly.1]; rfl
    · rw [honly.1]; exact hd
  have hset : Settled e.merHalt.merSync := by rw [honly.1]; exact hs
  refine (gives_act (d := e.merHalt.merSync) (f := fun c => if c.canAccess (.orr x) then
    ((c.store32 (.orr x) (Reg.MER_CTL + 0x2000) 1#32).2.merHalt).settle else c) rfl ?_).runs ⟨honly, hstop⟩
  have hacc : s.chip.canAccess (.orr x) = true := by simp [Chip.canAccess, Chip.lRuns, hL.1, hL.2]
  rw [if_pos hacc, hst, Chip.ctlWritten_merOff hec, hidle]
  dsimp only
  rw [hstop.merHalt]
  exact Chip.settle_idle hset

/-! ### Line records (R187) -/

/-- A record that need not wait goes to the store, or is dropped where its item has no reservation (R187, R324). -/
theorem Chip.recordPush_one {c : Chip} {r : Rec} {stn : Nat} (hr : c.img.recs = [r]) (hs : r.stn = stn) (hb : c.behindFront r = false) :
    c.recordPush stn = (let d := { c with img := { c.img with recs := [] } }
      let e := match c.rsvOf r.item with
        | some i => d.storeRecord r i
        | none => (d.bump (Fld.RNG_STAT_REF (c.imgRing stn))).dropRecord (c.imgRing stn) r.item
      if r.bytes.headD 0#8 = 0x03#8 then (e.trimRun r.item stn).tryDone r.item else e) := by
  unfold Chip.recordPush
  rw [hr]
  simp only [List.find?_cons, hs, BEq.rfl]
  rw [if_neg (ne_true_of_eq_false hb)]
  simp only [eraseFirst, hs, BEq.rfl, if_true]
  rfl

/-- Settles O24. -/
theorem linesAndMeridianStop : Obligations.LinesAndMeridianStop := by
  unfold Obligations.LinesAndMeridianStop
  refine ⟨fun s x hL hn hs hen hena hl hw ha hd => ?_, fun s stn r hL hr hstn => ⟨?_, fun hb => ?_⟩⟩
  · refine (gives_meridianDisable hL hn hs hen hena hl hw ha hd).mono fun c ⟨hc, k⟩ =>
      ⟨k.en, k.ena, k.tracking, k.windowOpen, k.mods.1, k.mods.2.1, k.mods.2.2, k.armed.1, k.armed.2.1, k.armed.2.2, fun a => ?_,
        fun a h _ => hc.2 a h⟩
    rw [hc.1]
    rfl
  · intro done hb
    have h := Chip.recordPush_one hr hstn hb
    refine ⟨fun i hi => gives_onL (d := _) hL rfl ?_, fun hi => gives_onL hL rfl ?_⟩
    · rw [h, hi]
    · rw [h, hi]
      rfl
  · refine gives_onL hL rfl ?_
    have h : s.chip.recordPush stn.val = s.chip := by
      unfold Chip.recordPush
      rw [hr]
      simp only [List.find?_cons, hstn, BEq.rfl]
      exact if_pos hb
    rw [h]

end Sys2Proof.Machine
end

section
/-!
SUPPORT. The shading table and the calibration runs (R178, R179).
-/
namespace Sys2Proof.Machine

/-! ### The shading table (R178) -/

/-- Only the imaging path's own state has changed. -/
def OnlyImg (c d : Chip) : Prop := d = { c with img := d.img }

theorem onlyImg_setShade (c : Chip) (i : Nat) (w : Word) : OnlyImg c (c.setShade i w) := rfl

theorem onlyImg_foldl {α : Type} {f : Chip → α → Chip} (hf : ∀ t x, OnlyImg t (f t x)) : ∀ (l : List α) (c : Chip), OnlyImg c (l.foldl f c)
  | [], _ => rfl
  | x :: l, c => by
    have h1 := hf c x
    have h2 := onlyImg_foldl hf l (f c x)
    unfold OnlyImg at h1 h2 ⊢
    rw [List.foldl_cons, h2, h1]

theorem find?_takeWhile_cons_dropWhile {α : Type} {l : List (Nat × α)} {id : Nat} {x : Nat × α} (hx : x.1 = id) (hl : ∀ y ∈ l, y.1 ≠ id)
    (p : Nat × α → Bool) : (l.takeWhile p ++ x :: l.dropWhile p).find? (fun c => c.1 == id) = some x := by
  rw [List.find?_append]
  have : (l.takeWhile p).find? (fun c => c.1 == id) = none := by
    rw [List.find?_eq_none]
    intro y hy
    simpa using hl y (List.takeWhile_sublist p |>.subset hy)
  simp [this, hx]

theorem find?_takeWhile_cons_dropWhile_other {α : Type} {l : List (Nat × α)} {id : Nat} {x : Nat × α} (hx : x.1 ≠ id)
    (p : Nat × α → Bool) : (l.takeWhile p ++ x :: l.dropWhile p).find? (fun c => c.1 == id) = l.find? (fun c => c.1 == id) := by
  rw [List.find?_append, List.find?_cons, show (x.1 == id) = false by simpa using hx]
  dsimp only
  rw [← List.find?_append, List.takeWhile_append_dropWhile]

theorem find?_filter_ne {α : Type} (l : List (Nat × α)) {i j : Nat} (h : j ≠ i) :
    (l.filter fun x => x.1 != i).find? (fun x => x.1 == j) = l.find? (fun x => x.1 == j) := by
  rw [List.find?_filter]
  congr 1
  funext x
  by_cases e : x.1 = j
  · simp [e, h]
  · simp [e]

/-- An entry of the table reads what was last put into it, every other one as before (R178). -/
theorem Chip.shade_setShade (c : Chip) (i : Nat) (w : Word) : (c.setShade i w).shade_ i = w := by
  have hl : ∀ y ∈ c.img.shading.filter (fun x => x.1 != i), y.1 ≠ i := fun y hy => by simpa using (List.mem_filter.mp hy).2
  unfold Chip.setShade Chip.shade_
  dsimp only
  split
  · rename_i x hx
    split at hx
    · rename_i e
      rw [List.find?_eq_none.mpr fun y hy => by simpa using hl y hy] at hx
      cases hx
    · rw [find?_takeWhile_cons_dropWhile (x := (i, w)) (id := i) rfl hl] at hx
      cases hx
      rfl
  · rename_i hx
    split at hx
    · rename_i e
      exact e.symm
    · rw [find?_takeWhile_cons_dropWhile (x := (i, w)) (id := i) rfl hl] at hx
      cases hx

theorem Chip.shade_setShade_other (c : Chip) {i j : Nat} (w : Word) (h : j ≠ i) : (c.setShade i w).shade_ j = c.shade_ j := by
  have hf : ∀ l, l = (c.setShade i w).img.shading → l.find? (fun x => x.1 == j) = c.img.shading.find? (fun x => x.1 == j) := by
    rintro l rfl
    unfold Chip.setShade
    dsimp only
    split
    · exact find?_filter_ne _ h
    · exact (find?_takeWhile_cons_dropWhile_other (Ne.symm h) _).trans (find?_filter_ne _ h)
  unfold Chip.shade_
  rw [hf _ rfl]

/-! ### Calibration runs (R179) -/

/-- What a run measures changes the shading table alone. -/
theorem onlyImg_calDark (c : Chip) (r : CalRun) (sums : List (BitVec 32)) : OnlyImg c (c.calDark r sums) :=
  onlyImg_foldl (fun _ _ => onlyImg_setShade _ _ _) _ _

theorem onlyImg_calWhite (c : Chip) (r : CalRun) (sums : List (BitVec 32)) : OnlyImg c (c.calWhite r sums) :=
  onlyImg_foldl (fun _ _ => onlyImg_setShade _ _ _) _ _

/-- The command word of a run keeps all of `v` but its KIND. -/
theorem testBit_command (v : Word) {k i : Nat} (hk : k < 4) (hi : 2 ≤ i) :
    (v &&& 0xFFFFFFFC#32 ||| BitVec.ofNat 32 k).toNat.testBit i = v.toNat.testBit i := by
  have hc : ∀ j < 32, 2 ≤ j → (0xFFFFFFFC#32).getLsbD j = true := by decide
  have hks : ∀ j < 32, 2 ≤ j → (BitVec.ofNat 32 k).getLsbD j = false := by
    intro j h1 h2
    have : k < 2 ^ j := lt_of_lt_of_le hk (Nat.pow_le_pow_right (n := 2) (by decide) h2)
    simp [BitVec.getLsbD_ofNat, Nat.testBit_lt_two_pow this]
  rw [BitVec.testBit_toNat, BitVec.testBit_toNat, BitVec.getLsbD_or, BitVec.getLsbD_and]
  by_cases h : i < 32
  · rw [hc i h hi, hks i h hi]
    simp
  · simp [BitVec.getLsbD_of_ge, show 32 ≤ i by omega]

theorem bitsOf_congr {a b lo w : Nat} (h : ∀ i, lo ≤ i → a.testBit i = b.testBit i) : bitsOf a lo w = bitsOf b lo w := by
  refine Nat.eq_of_testBit_eq fun i => ?_
  simp only [bitsOf, Nat.testBit_mod_two_pow, Nat.testBit_div_two_pow]
  rw [h _ (by omega)]

theorem bitsOf_command (v : Word) {k lo : Nat} (w : Nat) (hk : k < 4) (hlo : 2 ≤ lo) :
    bitsOf (v &&& 0xFFFFFFFC#32 ||| BitVec.ofNat 32 k).toNat lo w = bitsOf v.toNat lo w :=
  bitsOf_congr fun _ hi => testBit_command v hk (by omega)

theorem bitsOf_command_kind (v : Word) {k : Nat} (hk : k < 4) : bitsOf (v &&& 0xFFFFFFFC#32 ||| BitVec.ofNat 32 k).toNat 0 2 = k := by
  have hc : ∀ j < 2, (0xFFFFFFFC#32).getLsbD j = false := by decide
  refine Nat.eq_of_testBit_eq fun i => ?_
  simp only [bitsOf, Nat.testBit_mod_two_pow, pow_zero, Nat.div_one]
  by_cases hi : i < 2
  · rw [BitVec.testBit_toNat, BitVec.getLsbD_or, BitVec.getLsbD_and, hc i hi, BitVec.getLsbD_ofNat]
    simp [hi, show i < 32 by omega]
  · simp [hi, Nat.testBit_lt_two_pow (lt_of_lt_of_le hk (Nat.pow_le_pow_right (n := 2) (by decide) (show 2 ≤ i by omega)))]

/-- CAL.CMD holds commands only, and takes NAVG up to 4 and every KIND but 0 (R179). -/
theorem commandReg_calCmd {w : Word} (hn : bitsOf w.toNat 12 3 ≤ 4) (hk : bitsOf w.toNat 0 2 ≠ 0) : commandReg Reg.CAL_CMD w = true := by
  have e : commandReg Reg.CAL_CMD w = (((Legal.among [(0, 4)]).ok (bitsOf w.toNat 12 3) 3 && true) &&
      (((Legal.among [(1, 3)]).ok (bitsOf w.toNat 0 2) 2 && true) && true)) := rfl
  have h3 : bitsOf w.toNat 0 2 < 4 := Nat.mod_lt _ (by decide)
  have hn' : (Legal.among [(0, 4)]).ok (bitsOf w.toNat 12 3) 3 = true := by simpa [Legal.ok] using hn
  have hk' : (Legal.among [(1, 3)]).ok (bitsOf w.toNat 0 2) 2 = true := by
    simp only [Legal.ok, List.any_cons, List.any_nil, Bool.or_false, Bool.and_eq_true, decide_eq_true_eq]
    omega
  rw [e, hn', hk']
  rfl

/-- A run that may start is under way from its command on (R179). -/
theorem gives_calStart {i : Instr} {s : State} {m : Master} {v : Word} {k : Nat} (hk : k < 4) (h0 : k ≠ 0)
    (e : exec i s = s.act fun c => c.regWrite m Reg.CAL_CMD (v &&& 0xFFFFFFFC#32 ||| BitVec.ofNat 32 k))
    (acc : Accepts s.chip m Reg.CAL_CMD (v &&& 0xFFFFFFFC#32 ||| BitVec.ofNat 32 k)) (he : s.chip.engine = Eng.ready ∨ s.chip.engine = Eng.service)
    (ha : s.chip.noneAdmitted = true) (hl : s.chip.on Fld.MER_STA_LOCK = true) (hb : s.chip.on Fld.CAL_STA_BUSY = false)
      (hn : bitsOf v.toNat 12 3 ≤ 4) :
    Gives i s (({ s.chip with img := { s.chip.img with run := some { kind := k, stn := bitsOf v.toNat 4 2, smsk := bitsOf v.toNat 8 4,
                                                                     navg := 16 * 2 ^ bitsOf v.toNat 12 3,
                                                                     left := if k = 3 then 0 else 16 * 2 ^ bitsOf v.toNat 12 3 } } }.set
         Fld.CAL_STA_BUSY).afterWrite) := by
  have hkind := bitsOf_command_kind v hk
  refine gives_command e acc (commandReg_calCmd ?_ ?_) rfl ?_
  · rw [bitsOf_command v 3 hk (by decide)]; exact hn
  · rw [hkind]; exact h0
  · show s.chip.calStart _ = _
    unfold Chip.calStart
    rw [hkind]
    dsimp only
    rw [if_neg (by rcases he with h | h <;> simp [h, ha, hl, hb]), if_neg h0, bitsOf_command v 2 hk (by decide), bitsOf_command v 4 hk (by decide),
      bitsOf_command v 3 hk (by decide)]

/-- A measured run ends with its result (R179). -/
theorem Chip.calMeasured_end {c : Chip} {r : CalRun} {sums : List (BitVec 32)} (hl : r.left = 0) :
    let e := { c with img := { c.img with run := none } }.clr Fld.CAL_STA_BUSY
    let d := if r.kind = 1 then e.calDark r sums else e.calWhite r sums
    (c.calMeasured r sums).get Fld.CAL_CRS_RSLT = (if c.get Fld.CAL_CFG_BADMAX < d.badCount r then 1 else 0) ∧
      (c.calMeasured r sums).on Fld.CAL_IST_DONE = true ∧ (c.calMeasured r sums).on Fld.CAL_STA_BUSY = false ∧
      (c.calMeasured r sums).img.shading = d.img.shading ∧ (c.calMeasured r sums).mem = c.mem := by
  intro e d
  have hd : OnlyImg e d := by
    show OnlyImg e (if r.kind = 1 then _ else _)
    split
    · exact onlyImg_calDark e r sums
    · exact onlyImg_calWhite e r sums
  have hreg : d.regs = e.regs := by rw [hd]
  have hbm : d.get Fld.CAL_CFG_BADMAX = c.get Fld.CAL_CFG_BADMAX := (Chip.get_congr hreg _).trans (Chip.get_put_apart _ _ rfl rfl)
  have hbusy : d.on Fld.CAL_STA_BUSY = false := (Chip.on_congr hreg _).trans (Chip.on_clr_same _ rfl)
  have hmem : d.mem = c.mem := by rw [hd]; rfl
  have key : ∀ x : Nat, x < 2 → ∀ f : Chip, f = (((d.put Fld.CAL_CRS_BADC
    (d.badCount r)).put Fld.CAL_CRS_RSLT x).inc Fld.CAL_SEQ_N).set Fld.CAL_IST_DONE →
      ∀ g : Chip, (g = f ∨ g = f.set Fld.CAL_IST_FAIL) → g.get Fld.CAL_CRS_RSLT = x ∧ g.on Fld.CAL_IST_DONE = true ∧
        g.on Fld.CAL_STA_BUSY = false ∧ g.img.shading = d.img.shading ∧ g.mem = c.mem := by
    rintro x hx f rfl g (rfl | rfl)
    all_goals
      simp (disch := decide) only [Chip.set, Chip.inc, Chip.on_put_apart, Chip.get_put_apart, Chip.get_put_same]
      refine ⟨Nat.mod_eq_of_lt (by show x < 2 ^ 8; omega), ?_, hbusy, rfl, hmem⟩
      exact Chip.on_set_same _ rfl (by decide)
  unfold Chip.calMeasured
  rw [if_neg (by simp [hl])]
  extract_lets img e' d' n s3 s4
  have hs4 : s4 = (((d.put Fld.CAL_CRS_BADC (d.badCount r)).put Fld.CAL_CRS_RSLT (if c.get Fld.CAL_CFG_BADMAX < d.badCount r then 1 else 0)).inc
      Fld.CAL_SEQ_N).set Fld.CAL_IST_DONE := by rw [← hbm]
  refine key _ (by split <;> decide) s4 hs4 _ ?_
  split
  · exact Or.inr rfl
  · exact Or.inl rfl

/-- The L-die's pages answer while it is powered (R42). -/
theorem Chip.deadRegion_lDie {c : Chip} {a : Nat} (hL : LOn c) (ha : 0x10000000 ≤ a ∧ a < 0x50000000) : c.deadRegion a = false := by
  simp only [Chip.deadRegion, hL.1]
  simp
  omega

/-- A read of CAL.TDA gives the entry at CAL.TAD, which moves on (R178). -/
theorem Chip.load32_calTda {c : Chip} (hL : LOn c) (x : Fin 4) : c.load32 (.orr x) Reg.CAL_TDA = c.calTda none := by
  have hd : c.deadRegion Pg.CAL = false := Chip.deadRegion_lDie hL (by decide)
  exact Chip.load32_mayRead (m := .orr x) (b := Pg.CAL) (x := 0x54) (p := pageCAL) rfl rfl hd trivial (by decide) (by decide)

/-- The fields of CAL.TDA: the gain and the offset of a pixel. -/
def calTdaFields : List FieldDesc :=
  [{ lo := 16, w := 16, acc := .rw, reset := 0, cls := .l }, { lo := 0, w := 12, acc := .rw, reset := 0, cls := .l }]

theorem hookResv_calTda (w : Word) (c : Chip) : hookResv Reg.CAL_TDA w c = [] := rfl

/-- A write of CAL.TDA puts its entry into the table (R178, R195). -/
theorem Chip.regWrite_calTda {c : Chip} {x : Fin 4} {v : Word} (hL : LOn c) (hn : NoneWaiting c) (ha : c.noneAdmitted = true) :
    c.regWrite (.orr x) Reg.CAL_TDA v = ((heldIn calTdaFields Reg.CAL_TDA v c).calTda (some v)).2.afterWrite := by
  have hp : plainL Reg.CAL_TDA := by intro n hn; interval_cases n <;> decide
  have hd : c.deadRegion Reg.CAL_TDA = false := Chip.deadRegion_lDie hL (by decide)
  have hpre : hookPre (.orr x) Reg.CAL_TDA v c = St.ok := by
    unfold hookPre Chip.preState
    rw [ha]
    rfl
  have acc : Accepts c (.orr x) Reg.CAL_TDA v :=
    ⟨by simp [Chip.canAccess, Chip.lRuns, hL.1, hL.2], rfl, hd, rfl, hn, ⟨pageCAL, 0x54, 0⟩, rfl, rfl, by decide, rfl, fun h => absurd h
      (by decide), hpre, rfl⟩
  refine Chip.regWrite_held (l := ⟨pageCAL, 0x54, 0⟩) (fs := calTdaFields) hp acc rfl ⟨by decide, by decide, by decide⟩ rfl rfl rfl rfl ?_ rfl ?_
  · rw [hookResv_calTda]; rfl
  · have hn2 : (heldIn calTdaFields Reg.CAL_TDA v c).noneAdmitted = true := ha
    have hok : ((heldIn calTdaFields Reg.CAL_TDA v c).calTda (some v)).1.2 = St.ok := by
      unfold Chip.calTda
      dsimp only
      rw [if_neg (by simp [hn2])]
    have hpost : hookPost (.orr x) Reg.CAL_TDA (c.rd Reg.CAL_TDA) v (heldIn calTdaFields Reg.CAL_TDA v c) =
      (((heldIn calTdaFields Reg.CAL_TDA v c).calTda (some v)).1.2, ((heldIn calTdaFields Reg.CAL_TDA v c).calTda (some v)).2) := rfl
    rw [hpost, hok]

/-- Settles O25. -/
theorem calibration : Obligations.Calibration := by
  unfold Obligations.Calibration
  refine ⟨fun s m v he ha hl hb hn => ⟨fun acc => ?_, fun acc => ?_, fun acc => ?_⟩, fun c r hr => ?_, fun s sums r hL hr hk hl => ?_,
    fun s sums r hL hr hk => ⟨fun hg => ?_, fun hg => ?_⟩, fun s sums r hL hr hl hk => ?_, fun s x hL hs => ?_, fun s x v hL hn ha hen => ?_⟩
  · exact gives_calStart (k := 1) (by decide) (by decide) rfl acc he ha hl hb hn
  · exact gives_calStart (k := 2) (by decide) (by decide) rfl acc he ha hl hb hn
  · exact gives_calStart (k := 3) (by decide) (by decide) rfl acc he ha hl hb hn
  · simp [Chip.calLost, hr]
  · refine gives_onL hL rfl ?_
    show s.chip.calEnded sums = _
    unfold Chip.calEnded
    rw [hr]
    exact (if_neg hk).trans (if_pos hl)
  · refine gives_onL hL rfl ?_
    show s.chip.calEnded sums = _
    unfold Chip.calEnded
    rw [hr]
    exact (if_pos hk).trans (if_pos hg)
  · refine gives_onL hL rfl ?_
    show s.chip.calEnded sums = _
    unfold Chip.calEnded
    rw [hr]
    exact (if_pos hk).trans (if_neg (by simp [hg]))
  · have h : s.chip.calEnded sums = s.chip.calMeasured r sums := by
      unfold Chip.calEnded
      rw [hr]
      exact if_neg (by omega)
    exact (gives_onL hL rfl h).runs (Chip.calMeasured_end hl)
  · refine gives_act (f := fun c => c.regAccess (.orr x) Reg.CAL_TDA none) rfl ?_
    show s.chip.regRead (.orr x) Reg.CAL_TDA = _
    unfold Chip.regRead
    rw [if_pos (by simp [Chip.canAccess, Chip.lRuns, hL.1, hL.2]),
      if_neg (by rw [show s.chip.mustQueue (.orr x) Reg.CAL_TDA = false from rfl]; decide),
      Chip.load32_calTda hL]
    exact Chip.settle_idle (Settled.of_eq hs rfl rfl rfl rfl rfl)
  · let e := heldIn calTdaFields Reg.CAL_TDA v s.chip
    let w := v &&& 0xFFFF0FFF#32
    have hw : s.chip.regWrite (.orr x) Reg.CAL_TDA v = (e.calTda (some v)).2.afterWrite := Chip.regWrite_calTda hL hn ha
    have hrd : ∀ a, a ≠ Reg.CAL_TDA → e.rd a = s.chip.rd a := fun a h => (Chip.rd_put_other _ _ h).trans (Chip.rd_put_other _ _ h)
    have htad : e.get Fld.CAL_TAD_I = s.chip.get Fld.CAL_TAD_I := Chip.get_rd (hrd _ (by decide))
    have hd : (e.calTda (some v)).2 = ((e.setShade (s.chip.get Fld.CAL_TAD_I) w).wr Reg.CAL_TDA w).put Fld.CAL_TAD_I
        ((s.chip.get Fld.CAL_TAD_I + 1) % 24192) := by
      rw [← htad]
      unfold Chip.calTda
      dsimp only
      rw [if_neg (by simp [show e.noneAdmitted = true from ha])]
    refine (act_gives (f := fun c => c.regAccess (.orr x) Reg.CAL_TDA (some v)) rfl).runs ⟨_, hw, ?_⟩
    rw [hd]
    refine ⟨Chip.shade_setShade e _ w, ?_, fun j hj => ?_, fun a ha => ?_, rfl⟩
    · rw [Chip.get_put_same _ _ rfl]
      have : (s.chip.get Fld.CAL_TAD_I + 1) % 24192 < 24192 := Nat.mod_lt _ (by decide)
      exact Nat.mod_eq_of_lt (by show _ < 2 ^ 15; omega)
    · exact Chip.shade_setShade_other e w hj
    · simp only [List.mem_cons, List.not_mem_nil, or_false, not_or] at ha
      exact (Chip.rd_put_other _ _ ha.2).trans ((Chip.rd_wr_other _ _ ha.1).trans (hrd a ha.1))

end Sys2Proof.Machine
end

section
/-!
SUPPORT. Print jobs (R197–R200), and the high voltage and heat of marking (R203–R214).
-/
namespace Sys2Proof.Machine

/-! ### Print jobs (R197–R200) -/

/-- Settles O26. -/
theorem printJobs : Obligations.PrintJobs := by
  unfold Obligations.PrintJobs
  refine ⟨fun s i hL he => ?_, fun s i l hL hi => ?_, fun s m v i acc hi hst => ?_⟩
  · intro d hl hs hn hf
    refine gives_onL hL rfl (congrArg Chip.settle ?_)
    unfold Chip.jobLoad
    rw [if_neg (by simp [he])]
    dsimp only
    rw [if_neg (by simp [show (s.chip.pullPrint 65536).skipPrint = d from rfl, hl, hs]; omega),
      show (s.chip.pullPrint 65536).skipPrint.jobAt (fun j => j.st == .free) = some i from hf]
  · intro d j hn hb hp
    refine gives_onL hL rfl (congrArg Chip.settle ?_)
    unfold Chip.jobLoadDone
    rw [hi]
    dsimp only
    rw [if_neg (show ¬ d.mrk.stream.length < j.len by omega), show (s.chip.pullPrint 65536).mrk.badData = false from hb,
      if_neg Bool.false_ne_true, hp]
  · refine gives_command rfl acc rfl rfl ?_
    show s.chip.jobDelete v.toNat = _
    unfold Chip.jobDelete
    rw [hi]
    exact if_neg (by rcases hst with h | h <;> simp [h])

/-! ### High voltage and heat (R202–R214) -/

theorem Chip.hvChannel_ramp {c : Chip} {n : Nat} (h : c.hv n = .ramp) : c.hvChannel n =
    if c.hvSettled n then (if n = 3 then c.setHv n .settled else (c.setHv n .settled).hvNext) else c := by
  unfold Chip.hvChannel
  rw [h]

theorem Chip.hvChannel_down {c : Chip} {n : Nat} (h : c.hv n = .down) : c.hvChannel n =
    if n = 3 then (((c.setHv n .off).helCmd (7 + n) Mode.off).clr Fld.MRK_STA_TRNON).hvRelease
    else ((c.setHv n .off).helCmd (7 + n) Mode.off).hvDown := by
  unfold Chip.hvChannel
  rw [h]

/-- Settles O27. -/
theorem markingPower : Obligations.MarkingPower := by
  unfold Obligations.MarkingPower
  refine ⟨⟨fun s i hL hi => ?_, fun s hL hf => ?_, fun s n hL hr hs hn => ?_, fun s n hL hr hs hn => ?_, fun s n hL hd hn => ?_,
    fun s n hL hd hn => ?_⟩,
    fun s n hP hc ho => ?_, fun s k hP => ?_, fun s hP hh hd => ?_, fun s w hL hw he hm hf ht => ?_⟩
  · have h : s.chip.bandFetch = s.chip.bandFetch1 i 40 := by
      unfold Chip.bandFetch
      rw [hi]
    refine ⟨gives_onL hL rfl h, fun b hb hl hr => gives_onL hL rfl (h.trans ?_)⟩
    show (Chip.bandFetch1 s.chip i (39 + 1)) = _
    unfold Chip.bandFetch1
    dsimp only
    rw [hb]
    exact (if_neg (by omega)).trans (if_pos hr)
  · refine gives_onL hL rfl ?_
    show s.chip.bandFetch = _
    unfold Chip.bandFetch
    rw [hf]
    rfl
  · refine gives_onL hL rfl ((Chip.hvChannel_ramp hr).trans ((if_pos hs).trans (if_neg hn)))
  · refine gives_onL hL rfl ((Chip.hvChannel_ramp hr).trans ((if_pos hs).trans (if_pos hn)))
  · exact gives_onL hL rfl ((Chip.hvChannel_down hd).trans (if_neg hn))
  · exact gives_onL hL rfl ((Chip.hvChannel_down hd).trans (if_pos hn))
  · refine gives_onP hP rfl ?_
    have hon : (s.chip.set ⟨Reg.HVD_IST, 8 + n.val, 1⟩).get Fld.HVD_STA_ON = s.chip.get Fld.HVD_STA_ON :=
      Chip.get_rd (Chip.rd_put_other _ _ (show Reg.HVD_STA ≠ Reg.HVD_IST by decide))
    rw [← hon]
    exact if_pos (by simp [hc, ho])
  · have hth : ∀ d : Chip, d = ((s.chip.set Fld.FUS_STA_CUT).set Fld.FUS_IST_CUT).clr Fld.FUS_STA_HTON →
        (if k.val = 0 then d else d.set Fld.FUS_IST_SENS).get (Fld.FUS_TH_T 1) = s.chip.get (Fld.FUS_TH_T 1) := by
      rintro d rfl
      split <;> simp (disch := decide) only [Chip.set, Chip.clr, Chip.get_put_apart]
    refine gives_onP hP rfl ?_
    rw [← hth _ rfl]
    rfl
  · exact gives_onP (f := Chip.thDisag) hP rfl (if_pos (by simp [hh, hd]))
  · intro u
    refine gives_onL hL rfl ?_
    show s.chip.heatFail = _
    unfold Chip.heatFail
    dsimp only
    rw [if_pos ht, hw]
    simp only [List.filter_cons, he, hm, hf, Bool.not_false, Bool.and_self, if_true, List.filter_nil, List.foldl_cons, List.foldl_nil]
    refine if_congr ?_ rfl rfl
    rw [Bool.and_eq_true, decide_eq_true_eq, Bool.not_eq_true']

end Sys2Proof.Machine
end

section
/-!
SUPPORT. A qualified edge on an input without a role, and the checks of an item's windows (R226–R230).
-/
namespace Sys2Proof.Machine

/-! ### Sensors (R226–R230) -/

/-- On an input with no role a qualified edge only shows (R226, R228). -/
theorem Chip.qualified_noRole {c : Chip} {n : Nat} (hn : n < 6) (cov : Bool) (pos : Int) (level ms10 : Nat)
    (hr : c.get (Fld.SNS_SCFG_ROLE n) = 0) : c.qualified n cov pos level ms10 =
      (let lvl := c.get Fld.SNS_LVL_COV
       let d := ((c.put Fld.SNS_LVL_COV (if cov then lvl ||| 2 ^ n else lvl - (if bitsOf lvl n 1 = 1 then 2 ^ n else 0))).putS
         (Fld.SNS_EPOS_P n) pos).set ⟨Reg.SNS_IST, 8 + n, 1⟩
       ((if cov then d.put (Fld.SNS_MON_LO n) level else d.put (Fld.SNS_MON_LC n) level).event (0x36 + n)).applyThreshold n) := by
  have hkeep : ∀ (d : Chip) (k v : Nat), (d.put ⟨Reg.SNS_MON n, k, 10⟩ v).get (Fld.SNS_SCFG_ROLE n) = d.get (Fld.SNS_SCFG_ROLE n) := fun d k v =>
    Chip.get_rd (Chip.rd_put_other _ _ (show 0x40048040 + 4 * n ≠ 0x40048060 + 4 * n by omega))
  have h3 : ∀ v : Nat, (((c.put Fld.SNS_LVL_COV v).putS (Fld.SNS_EPOS_P n) pos).set ⟨Reg.SNS_IST, 8 + n, 1⟩).get (Fld.SNS_SCFG_ROLE n) = 0 := by
    intro v
    have e1 := Chip.rd_put_other ((c.put Fld.SNS_LVL_COV v).putS (Fld.SNS_EPOS_P n) pos) (f := ⟨Reg.SNS_IST, 8 + n, 1⟩) 1
      (show Reg.SNS_SCFG n ≠ Reg.SNS_IST by show 0x40048040 + 4 * n ≠ 0x40048010; omega)
    have e2 := Chip.rd_put_other (c.put Fld.SNS_LVL_COV v) (f := Fld.SNS_EPOS_P n) (codeOf pos 32)
      (show Reg.SNS_SCFG n ≠ Reg.SNS_EPOS n by show 0x40048040 + 4 * n ≠ 0x40048080 + 4 * n; omega)
    have e3 := Chip.rd_put_other c (f := Fld.SNS_LVL_COV) v
      (show Reg.SNS_SCFG n ≠ Reg.SNS_LVL by show 0x40048040 + 4 * n ≠ 0x4004805C; omega)
    rw [← hr]
    exact Chip.get_rd (e1.trans (e2.trans e3))
  unfold Chip.qualified
  extract_lets lvl s1 s2 s3 role s4 passes mot s5 adaptive
  have hrole : role = 0 := by
    show (if cov then s2.put (Fld.SNS_MON_LO n) level else s2.put (Fld.SNS_MON_LC n) level).get _ = 0
    split
    · exact (hkeep _ _ _).trans (h3 _)
    · exact (hkeep _ _ _).trans (h3 _)
  have h5 : s5 = s4 := by
    show (if role = Role.home then _ else if role = Role.dfd then _ else if (_ && _ && _) = true then _ else _) = s4
    rw [if_neg (by rw [hrole]; decide), if_neg (by rw [hrole]; decide), if_neg (by rw [hrole]; simp)]
  have ha : adaptive = false := by
    show (_ && List.contains _ role) = false
    rw [hrole]
    exact Bool.and_false _
  rw [ha, h5]
  rfl

/-- Settles O28. -/
theorem sensorEdgesAndWindows : Obligations.SensorEdgesAndWindows := by
  unfold Obligations.SensorEdgesAndWindows
  refine ⟨fun s n v raw l t hL => ?_, fun s i t hL ht hc hf => ⟨fun role n w hr hn hw hp => ?_, fun role hr hp ha => ?_⟩⟩
  · intro cov was pos
    have hedge : cov ≠ was →
        Gives (.sensorEdge n v raw l t) s ((s.chip.put (Fld.SNS_MON_V n.val) v.toNat).qualified n.val cov pos l.toNat t.toNat) := fun h =>
      gives_onL hL rfl (if_neg h)
    refine ⟨fun h => gives_onL hL rfl (if_pos h), hedge, fun h hr => (hedge h).trans ?_⟩
    have hn := n.isLt
    have hr' : (s.chip.put (Fld.SNS_MON_V n.val) v.toNat).get (Fld.SNS_SCFG_ROLE n.val) = 0 :=
      (Chip.get_rd (Chip.rd_put_other _ _ (show 0x40048040 + 4 * n.val ≠ 0x40048060 + 4 * n.val by omega))).trans hr
    have hl : (s.chip.put (Fld.SNS_MON_V n.val) v.toNat).get Fld.SNS_LVL_COV = s.chip.get Fld.SNS_LVL_COV :=
      Chip.get_rd (Chip.rd_put_other _ _ (show (0x4004805C : Nat) ≠ 0x40048060 + 4 * n.val by omega))
    rw [Chip.qualified_noRole hn cov pos l.toNat t.toNat hr', hl]
  · refine gives_onL hL rfl ?_
    show s.chip.windowExpiry i.toNat role.val true = _
    unfold Chip.windowExpiry
    rw [ht]
    dsimp only
    rw [if_neg (by simp [hc]), if_neg (by simp [hf]), if_neg (by simp [hr]), hn, if_pos rfl, hw, if_pos (by simp [hp])]
    rfl
  · refine gives_onL hL rfl ?_
    show s.chip.windowExpiry i.toNat role.val true = _
    unfold Chip.windowExpiry
    rw [ht]
    dsimp only
    rw [if_neg (by simp [hc]), if_neg (by simp [hf]), if_pos (by simp [hr]), if_pos (by simp [hp, ha])]

end Sys2Proof.Machine
end

section
/-!
SUPPORT. Encoders, stops, stalls, the polygon and the solenoids (R234–R241).
-/
namespace Sys2Proof.Machine

/-! ### Motion (R234–R241) -/

/-- A command that leaves the chip as it is does so whether or not its pads are read. -/
theorem gives_onPads_same {i : Instr} {s : State} {f : Chip → Chip} {l : Chip → List Nat} (e : exec i s = s.act fun c => c.onPads (l c) f)
    (h : f s.chip = s.chip) : Gives i s s.chip := by
  refine gives_act e ?_
  unfold Chip.onPads
  split
  · exact h
  · rfl

/-- Settles O29, event by event. -/
theorem motionEvents : Obligations.MotionEvents := by
  unfold Obligations.MotionEvents
  refine ⟨⟨fun s a up t hL hp ho he hl => ?count, fun s a up t hL ho => ?microstep, fun s a up t hL ho hl => ?lost, fun s a hL hp he hi => ?index,
      fun s a n hL hp he => ?errors, fun s hL => ?stopped⟩,
    ⟨fun s a t x hL he ht ha hx hadm ho hm hv => ?stall, fun s b ma hP h => ?overcurrent⟩,
    ⟨fun s hP ho hst => ?align, fun s hP ho hst => ?handover, fun s hP ho hst hn => ?start, fun s hP ho hst hn => ?third,
      fun s rpm hP h => ?overspeed⟩,
    fun s n hP => ⟨fun h => ?peak, fun h => ?solOc, fun h => ?openLoad⟩⟩
  case count =>
    have hpads : (if (s.chip.axis a.val).openLoop then [] else encPads a.val) = encPads a.val := if_neg (ne_true_of_eq_false ho)
    refine gives_act (f := fun c => c.onPads (if (c.axis a.val).openLoop then [] else encPads a.val) fun c => c.encoderCount hooks a.val up t) rfl
      ((Chip.onPads_on hL (by rw [hpads]; exact hp) _).trans ((if_neg (ne_true_of_eq_false ho)).trans (if_neg (by simp [he, hl]))))
  case microstep =>
    refine gives_act (f := fun c => c.onPads (if (c.axis a.val).openLoop then [] else encPads a.val) fun c => c.encoderCount hooks a.val up t) rfl
      ((Chip.onPads_on hL (by rw [if_pos ho]; rfl) _).trans (if_pos ho))
  case lost =>
    exact gives_onPads_same (f := fun c => c.encoderCount hooks a.val up t)
      (l := fun c => if (c.axis a.val).openLoop then [] else encPads a.val) rfl ((if_neg (ne_true_of_eq_false ho)).trans (if_pos (by simp [hl])))
  case index => exact gives_onPads (f := fun c => c.encoderIndex a.val) hL (by simpa using hp) rfl (if_pos (by simp [he, hi]))
  case errors =>
    intro f d
    have hne : Reg.ENC_CFG a.val ≠ f.addr := by
      show _ ≠ (if a.val = 0 then Fld.ENC_ERR_A else Fld.ENC_ERR_B : Field).addr
      fin_cases a <;> decide
    have hmax : d.get (Fld.ENC_CFG_ERRMAX a.val) = s.chip.get (Fld.ENC_CFG_ERRMAX a.val) := Chip.get_rd (Chip.rd_put_other _ _ hne)
    have h : s.chip.encoderErrors a.val n.toNat = if d.get (Fld.ENC_CFG_ERRMAX a.val) ≤ n.toNat then
        (d.set ⟨Reg.ENC_STA, 10 + a.val, 1⟩).set ⟨Reg.ENC_IST, 10 + a.val, 1⟩ else d := if_neg (by simp [he])
    rw [hmax] at h
    exact ⟨fun hle => gives_onPads hL hp rfl (h.trans (if_pos hle)), fun hlt => gives_onPads hL hp rfl (h.trans (if_neg (by omega)))⟩
  case stopped => exact gives_onL hL rfl rfl
  case stall =>
    refine gives_onL hL rfl (if_pos ?_)
    have hr : (decide (s.chip.engine = Eng.run) || decide (s.chip.engine = Eng.drain)) = true := by simpa using he
    rw [hr, ho, hm]
    simpa using ⟨⟨t, ht, ha, by simp [hx, hadm]⟩, hv⟩
  case overcurrent => exact gives_onP (f := fun c => c.bridgeOc b.val ma.toNat) hP rfl (if_pos h)
  case align => exact gives_onP (f := Chip.polyAligned) hP rfl (if_pos (by simp [ho, hst]))
  case handover =>
    refine gives_onP (f := Chip.polyHandover) hP rfl (if_pos ?_)
    rcases hst with h | ⟨h, h1, h2⟩
    · simp [ho, h]
    · simp [ho, h, h1, h2]
  case start =>
    refine gives_onP (f := Chip.polyTimeout) hP rfl ((if_pos ?_).trans (if_neg ?_))
    · rcases hst with h | h <;> simp [ho, h]
    · show ¬ 3 ≤ s.chip.mot.polyFails + 1
      omega
  case third =>
    refine gives_onP (f := Chip.polyTimeout) hP rfl ?_
    unfold Chip.polyTimeout
    rw [if_pos (by rcases hst with h | h <;> simp [ho, h]), hn]
    exact if_pos (by decide)
  case overspeed => exact gives_onP (f := fun c => c.polyOverspeed rpm.toNat) hP rfl (if_pos h)
  case peak =>
    refine gives_onP hP rfl ?_
    show s.chip.solPeakEnd n.val = _
    unfold Chip.solPeakEnd
    rw [Vector.getElem?_eq_getElem n.isLt, show s.chip.mot.sols[n.val] = .peak from h]
  case solOc =>
    refine gives_onP hP rfl ?_
    show s.chip.solOc n.val = _
    unfold Chip.solOc
    rcases h with h | h <;> rw [Vector.getElem?_eq_getElem n.isLt, h]
  case openLoad =>
    refine gives_onP hP rfl ?_
    show s.chip.solOpenLoad n.val = _
    unfold Chip.solOpenLoad
    rcases h with h | h <;> rw [Vector.getElem?_eq_getElem n.isLt, h]

end Sys2Proof.Machine
end

section
/-!
SUPPORT. Heliostat's mode commands and tables (R250, R255, R268).
-/
namespace Sys2Proof.Machine

/-! ### Heliostat's tables (R268) -/

/-- An entry of the tables reads what was last put into it, as a number with a sign (R268). -/
theorem Chip.tableEntry_setTable (c : Chip) (i v : Nat) : (c.setTable i v).tableEntry i = signedOf (v % 65536) 16 := by
  have hl : ∀ y ∈ c.hel.tables.filter (fun x => x.1 != i), y.1 ≠ i := fun y hy => by simpa using (List.mem_filter.mp hy).2
  unfold Chip.setTable Chip.tableEntry
  dsimp only
  by_cases h0 : v % 65536 = 0
  · rw [if_pos h0, List.find?_eq_none.mpr fun y hy => by simpa using hl y hy, h0]
    rfl
  · rw [if_neg h0, find?_takeWhile_cons_dropWhile (x := (i, v % 65536)) (id := i) rfl hl]

theorem Chip.tableEntry_setTable_other (c : Chip) {i j : Nat} (v : Nat) (h : j ≠ i) : (c.setTable i v).tableEntry j = c.tableEntry j := by
  unfold Chip.setTable Chip.tableEntry
  dsimp only
  by_cases h0 : v % 65536 = 0
  · rw [if_pos h0, find?_filter_ne _ h]
  · rw [if_neg h0, (find?_takeWhile_cons_dropWhile_other (Ne.symm h) _).trans (find?_filter_ne _ h)]

/-- The access to HTB.TDA moves HTB.TAD on and shows the entry there (R268). -/
def Chip.tableNext (c : Chip) (i : Nat) : Chip :=
  let t := c.put Fld.HTB_TAD_I ((i + 1) % 2048)
  t.putS Fld.HTB_TDA_V (t.tableEntry (t.get Fld.HTB_TAD_I))

theorem Chip.tableNext_tad (c : Chip) (i : Nat) : (c.tableNext i).get Fld.HTB_TAD_I = (i + 1) % 2048 := by
  show ((c.put Fld.HTB_TAD_I ((i + 1) % 2048)).put Fld.HTB_TDA_V _).get Fld.HTB_TAD_I = _
  rw [Chip.get_put_apart _ _ rfl rfl, Chip.get_put_same _ _ rfl]
  have : (i + 1) % 2048 < 2048 := Nat.mod_lt _ (by decide)
  exact Nat.mod_eq_of_lt (by show _ < 2 ^ 11; omega)

/-- Heliostat's access to HTB.TDA stands when the slot that the table serves is off (R268). -/
theorem Chip.load32_htbTda {c : Chip} (hL : LOn c) (x : Fin 4) : c.load32 (.orr x) Reg.HTB_TDA =
    ((BitVec.ofNat 32 (codeOf (c.tableEntry (c.get Fld.HTB_TAD_I)) 16), St.ok), c.tableNext (c.get Fld.HTB_TAD_I)) := by
  have hd : c.deadRegion Pg.HTB = false := Chip.deadRegion_lDie hL (by decide)
  exact Chip.load32_mayRead (m := .orr x) (b := Pg.HTB) (x := 0x44) (p := pageHTB) rfl rfl hd trivial (by decide) (by decide)

/-- The field of HTB.TDA: an entry, with its sign. -/
def htbTdaFields : List FieldDesc := [{ lo := 0, w := 16, acc := .rw, reset := 0, cls := .l }]

theorem hookResv_htbTda (w : Word) (c : Chip) : hookResv Reg.HTB_TDA w c = [] := rfl

/-- A write of HTB.TDA puts its entry into the table while the slot the table serves is off (R255, R268). -/
theorem Chip.regWrite_htbTda {c : Chip} {x : Fin 4} {v : Word} (hL : LOn c) (hn : NoneWaiting c)
    (h0 : c.get (Fld.HLP_ST_MODE (match c.get Fld.HTB_TAD_I / 512 with | 0 => 0 | 1 => 1 | 2 => 2 | _ => 11)) = 0) :
    c.regWrite (.orr x) Reg.HTB_TDA v =
      (((heldIn htbTdaFields Reg.HTB_TDA v c).setTable (c.get Fld.HTB_TAD_I) (bitsOf v.toNat 0 16)).tableNext (c.get Fld.HTB_TAD_I)).afterWrite := by
  have hp : plainL Reg.HTB_TDA := by intro n hn; interval_cases n <;> decide
  have hd : c.deadRegion Reg.HTB_TDA = false := Chip.deadRegion_lDie hL (by decide)
  have hpre : hookPre (.orr x) Reg.HTB_TDA v c = St.ok := by
    unfold hookPre Chip.preState
    generalize hz : c.get (Fld.HLP_ST_MODE _) = z
    rw [show z = 0 from hz.symm.trans h0]
    rfl
  have acc : Accepts c (.orr x) Reg.HTB_TDA v :=
    ⟨by simp [Chip.canAccess, Chip.lRuns, hL.1, hL.2], rfl, hd, rfl, hn, ⟨pageHTB, 0x44, 0⟩, rfl, rfl, by decide, rfl,
      fun h => absurd h (by decide), hpre, rfl⟩
  have htad : (heldIn htbTdaFields Reg.HTB_TDA v c).get Fld.HTB_TAD_I = c.get Fld.HTB_TAD_I :=
    Chip.get_rd (Chip.rd_put_other _ _ (by decide))
  rw [← htad]
  refine Chip.regWrite_held (l := ⟨pageHTB, 0x44, 0⟩) (fs := htbTdaFields) hp acc rfl ⟨by decide, by decide, by decide⟩ rfl rfl rfl rfl
    ?_ rfl rfl
  rw [hookResv_htbTda]; rfl

/-! ### Heliostat's mode commands (R250, R255) -/

/-- HEL.MCMD takes a mode up to 5 for one of the twelve slots (R255). -/
theorem commandReg_helMcmd {v : Word} (hm : bitsOf v.toNat 24 3 ≤ 5) (hn : bitsOf v.toNat 0 4 < 12) : commandReg Reg.HEL_MCMD v = true := by
  have e : commandReg Reg.HEL_MCMD v = (((Legal.among [(0, 5)]).ok (bitsOf v.toNat 24 3) 3 && true) &&
      (((Legal.among [(0, 11)]).ok (bitsOf v.toNat 0 4) 4 && true) && true)) := rfl
  have h1 : (Legal.among [(0, 5)]).ok (bitsOf v.toNat 24 3) 3 = true := by simpa [Legal.ok] using hm
  have h2 : (Legal.among [(0, 11)]).ok (bitsOf v.toNat 0 4) 4 = true := by simpa [Legal.ok] using (show bitsOf v.toNat 0 4 ≤ 11 by omega)
  rw [e, h1, h2]
  rfl

theorem Chip.slot_of_modeOk {c : Chip} {n m : Nat} (h : c.modeOk n m = true) : n < 12 := by
  unfold Chip.modeOk at h
  simp only [Bool.and_eq_true, decide_eq_true_eq] at h
  exact h.1.1.1

/-- Settles O30: a command that its slot allows waits for the frame, and the access to a table is the read or the put at HTB.TAD. -/
theorem heliostat : Obligations.Heliostat := by
  unfold Obligations.Heliostat
  refine ⟨⟨fun s t k hL => ?_, fun s m v acc hm hal hok => ?_⟩, fun s x hL hs => ?_, fun s x v hL hn _ h0 => ?_⟩
  · intro a
    exact ⟨fun h => gives_onL (f := fun c => c.helFrame hooks t k.toNat) hL rfl (if_neg (ne_true_of_eq_false h)),
      fun h => gives_onL (f := fun c => c.helFrame hooks t k.toNat) hL rfl (if_pos h)⟩
  · refine gives_command rfl acc (commandReg_helMcmd hm (Chip.slot_of_modeOk hok)) rfl ?_
    have e : hookPost m Reg.HEL_MCMD (s.chip.rd Reg.HEL_MCMD) v s.chip =
      (if !s.chip.modeAllowed (bitsOf v.toNat 0 4) (bitsOf v.toNat 24 3) then (St.badArg, s.chip)
        else if !s.chip.modeOk (bitsOf v.toNat 0 4) (bitsOf v.toNat 24 3) then (St.state, s.chip)
        else (St.ok, s.chip.helCmd (bitsOf v.toNat 0 4) (bitsOf v.toNat 24 3))) := rfl
    rw [e, if_neg (by simp [hal]), if_neg (by simp [hok])]
  · refine gives_act (f := fun c => c.regAccess (.orr x) Reg.HTB_TDA none) rfl ?_
    show s.chip.regRead (.orr x) Reg.HTB_TDA = _
    unfold Chip.regRead
    rw [if_pos (by simp [Chip.canAccess, Chip.lRuns, hL.1, hL.2]), 
      if_neg (by rw [show s.chip.mustQueue (.orr x) Reg.HTB_TDA = false from rfl]; decide), Chip.load32_htbTda hL]
    exact Chip.settle_idle (Settled.of_eq hs rfl rfl rfl rfl rfl)
  · let e := heldIn htbTdaFields Reg.HTB_TDA v s.chip
    have hw := Chip.regWrite_htbTda (x := x) (v := v) hL hn h0
    have hrd : ∀ a, a ≠ Reg.HTB_TDA → e.rd a = s.chip.rd a := fun a h => Chip.rd_put_other _ _ h
    refine (act_gives (f := fun c => c.regAccess (.orr x) Reg.HTB_TDA (some v)) rfl).runs
      ⟨_, hw, ?_, Chip.tableNext_tad _ _, fun j hj => ?_, fun a ha => ?_, rfl⟩
    · refine (Chip.tableEntry_setTable e _ _).trans ?_
      rw [show bitsOf v.toNat 0 16 % 65536 = bitsOf v.toNat 0 16 from Nat.mod_mod _ _]
    · exact Chip.tableEntry_setTable_other e _ hj
    · simp only [List.mem_cons, List.not_mem_nil, or_false, not_or] at ha
      exact (Chip.rd_put_other _ _ ha.1).trans ((Chip.rd_put_other _ _ ha.2).trans (hrd a ha.1))

end Sys2Proof.Machine
end

section
/-!
SUPPORT. The ALU's operations against the integers (R308, R309).
-/
namespace Sys2Proof.Machine

/-! ### The ALU's numbers (R308, R309) -/

/-- A clamped number is read back as it was clamped. -/
theorem toInt_satWord (x : Int) : (satWord x).toInt = max (-2147483648) (min 2147483647 x) := by
  unfold satWord clampInt
  rw [BitVec.toInt_ofInt]
  have h : ∀ y : Int, -2147483648 ≤ y → y ≤ 2147483647 → y.bmod (2 ^ 32) = y := fun y h1 h2 => by
    rw [Int.bmod_eq_of_le] <;> norm_num <;> omega
  split
  · rw [h _ (by omega) (by omega)]; omega
  · split
    · rw [h _ (by omega) (by omega)]; omega
    · rw [h _ (by omega) (by omega)]; omega

theorem outside32_eq_false {x : Int} : outside32 x = false ↔ -2147483648 ≤ x ∧ x ≤ 2147483647 := by
  unfold outside32
  simp [not_lt]

theorem toInt_word_bounds (a : Word) : -2147483648 ≤ a.toInt ∧ a.toInt ≤ 2147483647 := by
  have h1 := a.le_toInt
  have h2 := a.toInt_lt
  norm_num at h1 h2
  omega

/-- V of an operation whose wrapped result is that of the integers modulo 2^32 tells whether the two differ. -/
theorem outside32_iff_ne {r : Word} {x : Int} (h : r.toInt = x.bmod (2 ^ 32)) :
    (outside32 x = false → r.toInt = x) ∧ (outside32 x = true → r.toInt ≠ x) := by
  refine ⟨fun hv => ?_, fun hv e => ?_⟩
  · obtain ⟨h1, h2⟩ := outside32_eq_false.mp hv
    rw [h, Int.bmod_eq_of_le] <;> norm_num <;> omega
  · have hb := toInt_word_bounds r
    rw [e] at hb
    rw [outside32_eq_false.mpr hb] at hv
    cases hv

/-- A rotate to the left undoes the rotate to the right by as much. -/
theorem rotateLeft_rotateRight (a : Word) {n : Nat} (h : n < 32) : (a.rotateRight n).rotateLeft n = a := by
  apply BitVec.eq_of_getLsbD_eq
  intro i hi
  rw [BitVec.getLsbD_rotateLeft, Nat.mod_eq_of_lt h]
  by_cases hin : i < n
  · rw [decide_eq_true hin, cond_true, BitVec.getLsbD_rotateRight, Nat.mod_eq_of_lt h, decide_eq_false (by omega), cond_false]
    simp [show 32 - n + i < 32 by omega, show 32 - n + i - (32 - n) = i by omega]
  · rw [decide_eq_false hin, cond_false, BitVec.getLsbD_rotateRight, Nat.mod_eq_of_lt h, decide_eq_true hi,
      Bool.true_and, decide_eq_true (show i - n < 32 - n by omega), cond_true]
    simp [show n + (i - n) = i by omega]

/-- Only the least number has a negative outside 32 bits. -/
theorem neg_toInt_bounds {a : Word} (h : a ≠ 0x80000000#32) : -2147483648 ≤ -a.toInt ∧ -a.toInt ≤ 2147483647 := by
  have hne : a.toInt ≠ -2147483648 := fun e => h (BitVec.eq_of_toInt_eq e)
  have hb := toInt_word_bounds a
  omega

theorem satWord_neg {a : Word} (h : a ≠ 0x80000000#32) : satWord (-a.toInt) = -a := by
  obtain ⟨h1, h2⟩ := neg_toInt_bounds h
  refine BitVec.eq_of_toInt_eq ?_
  rw [toInt_satWord, BitVec.toInt_neg, Int.bmod_eq_of_le] <;> norm_num <;> omega

/-- Settles O31: each operation against the integers, by the laws of wrapping, clamping and rotating. -/
theorem aluArithmetic : Obligations.AluArithmetic := by
  unfold Obligations.AluArithmetic
  intro a b ci
  have ha := a.isLt
  have hb := b.isLt
  refine ⟨⟨_, rfl, ?_, outside32_iff_ne (BitVec.toInt_add a b)⟩, ⟨_, rfl, ?_, outside32_iff_ne (BitVec.toInt_sub)⟩, ⟨_, rfl, ?_⟩, ⟨_, rfl, ?_⟩,
    ⟨_, rfl, toInt_satWord _⟩, ⟨_, rfl, toInt_satWord _⟩, ⟨_, rfl, toInt_satWord _⟩, ⟨_, rfl, fun h => ⟨?_, ?_⟩, ?_⟩, ⟨_, rfl, ?_⟩, fun h => ⟨_,
      rfl, ?_⟩⟩
  · show (a + b).toNat + (if decide (2 ^ 32 ≤ a.toNat + b.toNat) = true then 2 ^ 32 else 0) = _
    rw [BitVec.toNat_add]
    split <;> rename_i h <;> simp only [decide_eq_true_eq] at h <;> omega
  · show (a - b).toNat + b.toNat = a.toNat + (if decide (b.toNat ≤ a.toNat) = true then 0 else 2 ^ 32)
    rw [BitVec.toNat_sub]
    split <;> rename_i h <;> simp only [decide_eq_true_eq] at h <;> omega
  · cases ci <;> simp <;> split <;> omega
  · cases ci <;> simp <;> split <;> omega
  · exact satWord_neg h
  · exact outside32_eq_false.mpr (neg_toInt_bounds h)
  · rintro rfl
    decide
  · show (a.rotateRight (b.toNat % 64 % 32)).rotateLeft (b.toNat % 32) = a
    rw [show b.toNat % 64 % 32 = b.toNat % 32 by omega]
    exact rotateLeft_rotateRight a (by omega)
  · show (aluDiv a b).r = _ ∧ (aluDiv a b).v = _ ∧ (aluDiv a b).dz = _
    unfold aluDiv
    rw [if_pos (show b = 0 from h)]
    refine ⟨?_, rfl, rfl⟩
    simp only [BitVec.msb_eq_toInt, decide_eq_true_eq]
    rfl

end Sys2Proof.Machine
end

section
/-!
SUPPORT. The contexts of the Orrery: state, address, flags, stack, marks of the slot (R272, R281, R282, R284).
-/
namespace Sys2Proof.Machine

/-! ### Orrery contexts: what the operations on one leave (R272, R281) -/

@[simp] theorem Chip.ctx_setCtx (c : Chip) (k : Nat) (x : Ctx) : (c.setCtx k x).ctx k = x := by
  unfold Chip.setCtx Chip.ctx
  match k with
  | 0 => rfl
  | 1 => rfl
  | 2 => rfl
  | _ + 3 => rfl

@[simp] theorem Chip.ctx_updCtx (c : Chip) (k : Nat) (f : Ctx → Ctx) : (c.updCtx k f).ctx k = f (c.ctx k) := Chip.ctx_setCtx _ _ _

@[simp] theorem Chip.ctx_put (c : Chip) (k : Nat) (f : Field) (v : Nat) : (c.put f v).ctx k = c.ctx k := rfl
@[simp] theorem Chip.ctx_wr (c : Chip) (k a : Nat) (w : Word) : (c.wr a w).ctx k = c.ctx k := rfl
@[simp] theorem Chip.ctx_setCtxSt (c : Chip) (k j st : Nat) : (c.setCtxSt j st).ctx k = c.ctx k := rfl
@[simp] theorem Chip.ctx_setPc (c : Chip) (k j a : Nat) : (c.setPc j a).ctx k = c.ctx k := rfl
@[simp] theorem Chip.ctx_setFlags (c : Chip) (k j : Nat) (f : Flags) : (c.setFlags j f).ctx k = c.ctx k := rfl

@[simp] theorem Chip.rd_setCtx (c : Chip) (k a : Nat) (x : Ctx) : (c.setCtx k x).rd a = c.rd a := rfl
@[simp] theorem Chip.rd_updCtx (c : Chip) (k a : Nat) (f : Ctx → Ctx) : (c.updCtx k f).rd a = c.rd a := rfl
@[simp] theorem Chip.get_updCtx (c : Chip) (k : Nat) (f : Ctx → Ctx) (g : Field) : (c.updCtx k f).get g = c.get g := rfl
@[simp] theorem Chip.on_updCtx (c : Chip) (k : Nat) (f : Ctx → Ctx) (g : Field) : (c.updCtx k f).on g = c.on g := rfl
@[simp] theorem Chip.pc_updCtx (c : Chip) (k j : Nat) (f : Ctx → Ctx) : (c.updCtx k f).pc j = c.pc j := rfl
@[simp] theorem Chip.ctxSt_updCtx (c : Chip) (k j : Nat) (f : Ctx → Ctx) : (c.updCtx k f).ctxSt j = c.ctxSt j := rfl
@[simp] theorem Chip.mem_updCtx (c : Chip) (k : Nat) (f : Ctx → Ctx) : (c.updCtx k f).mem = c.mem := rfl

/-- Of the Orrery's own state a change of a context leaves all but that context. -/
theorem Chip.orr_updCtx (c : Chip) (k : Nat) (f : Ctx → Ctx) :
    (c.updCtx k f).orr.stale = c.orr.stale ∧ (c.updCtx k f).orr.ecc = c.orr.ecc ∧ (c.updCtx k f).orr.evq = c.orr.evq := by
  unfold Chip.updCtx Chip.setCtx
  match k with
  | 0 => exact ⟨rfl, rfl, rfl⟩
  | 1 => exact ⟨rfl, rfl, rfl⟩
  | 2 => exact ⟨rfl, rfl, rfl⟩
  | _ + 3 => exact ⟨rfl, rfl, rfl⟩

/-- A change of a context's state shows in its ST and in ORR.STA only. -/
theorem Chip.rd_setCtxSt (c : Chip) {k st a : Nat} (h1 : a ≠ Reg.ORC_ST k) (h2 : a ≠ Reg.ORR_STA) : (c.setCtxSt k st).rd a = c.rd a :=
  (Chip.rd_put_other _ _ h2).trans (Chip.rd_put_other _ _ h1)

theorem Chip.ctxSt_setCtxSt (c : Chip) {k st : Nat} (h : st < 8) : (c.setCtxSt k st).ctxSt k = st := by
  have : (c.setCtxSt k st).get (Fld.ORC_ST_STATE k) = (c.put (Fld.ORC_ST_STATE k) st).get (Fld.ORC_ST_STATE k) :=
    Chip.get_rd (Chip.rd_put_other _ _ (show 0x40024048 + 128 * k ≠ 0x4002000C by omega))
  refine this.trans ((Chip.get_put_same _ _ rfl).trans (Nat.mod_eq_of_lt h))

theorem Chip.ctxSt_setCtxSt_other (c : Chip) {k j : Nat} (st : Nat) (h : k ≠ j) : (c.setCtxSt k st).ctxSt j = c.ctxSt j :=
  Chip.get_rd (Chip.rd_setCtxSt c (show 0x40024048 + 128 * j ≠ 0x40024048 + 128 * k by omega) (show 0x40024048 + 128 * j ≠ 0x4002000C by omega))

theorem Chip.pc_setCtxSt (c : Chip) (k j st : Nat) : (c.setCtxSt k st).pc j = c.pc j := by
  have : (c.setCtxSt k st).get (Fld.ORC_ST_PC j) = (c.put (Fld.ORC_ST_STATE k) st).get (Fld.ORC_ST_PC j) :=
    Chip.get_rd (Chip.rd_put_other _ _ (show 0x40024048 + 128 * j ≠ 0x4002000C by omega))
  refine this.trans (Chip.get_put_apart _ _ rfl ?_)
  simp [Field.apart]

theorem Chip.pc_setPc (c : Chip) (k a : Nat) : (c.setPc k a).pc k = a % 4096 :=
  (Chip.get_put_same _ _ rfl).trans (Nat.mod_mod _ _)

theorem Chip.pc_lt (c : Chip) (k : Nat) : c.pc k < 4096 := RegMap.get_lt c.regs (Fld.ORC_ST_PC k)

theorem Chip.ctxSt_setPc (c : Chip) (k j a : Nat) : (c.setPc k a).ctxSt j = c.ctxSt j := by
  refine Chip.get_put_apart _ _ rfl ?_
  simp [Field.apart]

theorem Chip.rd_setPc (c : Chip) {k a b : Nat} (h : b ≠ Reg.ORC_ST k) : (c.setPc k a).rd b = c.rd b := Chip.rd_put_other _ _ h

/-- Flags show in FLG only, and read as set. -/
theorem Chip.rd_setFlags (c : Chip) {k a : Nat} (f : Flags) (h : a ≠ Reg.ORC_FLG k) : (c.setFlags k f).rd a = c.rd a :=
  (Chip.rd_put_other _ _ h).trans ((Chip.rd_put_other _ _ h).trans ((Chip.rd_put_other _ _ h).trans (Chip.rd_put_other _ _ h)))

theorem Chip.flagsOf_congr {c d : Chip} {k : Nat} (h : c.rd (Reg.ORC_FLG k) = d.rd (Reg.ORC_FLG k)) : c.flagsOf k = d.flagsOf k := by
  unfold Chip.flagsOf
  rw [Chip.on_rd (f := Fld.ORC_FLG_Z k) h, Chip.on_rd (f := Fld.ORC_FLG_N k) h, Chip.on_rd (f := Fld.ORC_FLG_C k) h, Chip.on_rd (f :=
    Fld.ORC_FLG_V k) h]

theorem Chip.on_putB_same (c : Chip) {f : Field} (b : Bool) (hf : f.fits = true) (hw : f.w = 1) : (c.putB f b).on f = b := by
  show ((c.put f (if b then 1 else 0)).get f != 0) = b
  rw [Chip.get_put_same _ _ hf, hw]
  cases b <;> rfl

theorem Chip.on_putB_apart (c : Chip) {f g : Field} (b : Bool) (hf : f.fits = true) (h : f.apart g = true) : (c.putB f b).on g = c.on g :=
  Chip.on_put_apart c _ hf h

theorem Chip.flagsOf_setFlags (c : Chip) (k : Nat) (f : Flags) : (c.setFlags k f).flagsOf k = f := by
  unfold Chip.flagsOf Chip.setFlags
  simp (disch := simp [Field.apart, Field.fits]) only [Chip.on_putB_same, Chip.on_putB_apart]

theorem Chip.ctx_setStack (c : Chip) (k : Nat) (l : List Frame) : (c.setStack k l).ctx k = { c.ctx k with stack := l } :=
  Chip.ctx_updCtx c k fun x => { x with stack := l }

theorem Chip.pc_setStack (c : Chip) (k j : Nat) (l : List Frame) : (c.setStack k l).pc j = c.pc j := by
  refine (Chip.get_put_apart _ _ rfl ?_).trans rfl
  simp [Field.apart]

theorem Chip.rd_setStack (c : Chip) {k a : Nat} (l : List Frame) (h : a ≠ Reg.ORC_ST k) : (c.setStack k l).rd a = c.rd a :=
  Chip.rd_put_other _ _ h

theorem Chip.ctxSt_setStack (c : Chip) (k j : Nat) (l : List Frame) : (c.setStack k l).ctxSt j = c.ctxSt j := by
  refine (Chip.get_put_apart _ _ rfl ?_).trans rfl
  simp [Field.apart]

/-! ### Marks of the slot: the selected entry and the watchdog's count (R282, R284) -/

/-- Only the Orrery's own state has changed, and of context `k` the selected entry and the watchdog's count. -/
def OnlyMarks (k : Nat) (c d : Chip) : Prop := d = { c with orr := d.orr } ∧ ∃ w p, d.ctx k = { c.ctx k with wdg := w, sel := p }

theorem OnlyMarks.refl (k : Nat) (c : Chip) : OnlyMarks k c c := ⟨rfl, _, _, rfl⟩

theorem OnlyMarks.trans {k : Nat} {a b c : Chip} (h : OnlyMarks k a b) (g : OnlyMarks k b c) : OnlyMarks k a c := by
  obtain ⟨h1, w, p, h2⟩ := h
  obtain ⟨g1, u, q, g2⟩ := g
  refine ⟨?_, u, q, ?_⟩
  · rw [g1, h1]
  · rw [g2, h2]

theorem onlyMarks_updCtx {k : Nat} (c : Chip) {f : Ctx → Ctx} {w : Nat} {p : Option Nat} (h : f (c.ctx k) = { c.ctx k with wdg := w, sel := p }) :
    OnlyMarks k c (c.updCtx k f) := ⟨rfl, w, p, (Chip.ctx_updCtx _ _ _).trans h⟩

theorem OnlyMarks.rd {k : Nat} {c d : Chip} (h : OnlyMarks k c d) (a : Nat) : d.rd a = c.rd a := by rw [h.1]; rfl
theorem OnlyMarks.get {k : Nat} {c d : Chip} (h : OnlyMarks k c d) (f : Field) : d.get f = c.get f := by rw [h.1]; rfl
theorem OnlyMarks.on {k : Nat} {c d : Chip} (h : OnlyMarks k c d) (f : Field) : d.on f = c.on f := by rw [h.1]; rfl
theorem OnlyMarks.pc {k : Nat} {c d : Chip} (h : OnlyMarks k c d) (j : Nat) : d.pc j = c.pc j := h.get _
theorem OnlyMarks.ctxSt {k : Nat} {c d : Chip} (h : OnlyMarks k c d) (j : Nat) : d.ctxSt j = c.ctxSt j := h.get _
theorem OnlyMarks.mem {k : Nat} {c d : Chip} (h : OnlyMarks k c d) : d.mem = c.mem := by rw [h.1]
theorem OnlyMarks.byte {k : Nat} {c d : Chip} (h : OnlyMarks k c d) (a : Nat) : d.byte a = c.byte a := by
  unfold Chip.byte; rw [h.mem]
theorem OnlyMarks.stack {k : Nat} {c d : Chip} (h : OnlyMarks k c d) : (d.ctx k).stack = (c.ctx k).stack := by
  obtain ⟨-, w, p, e⟩ := h; rw [e]
theorem OnlyMarks.lc {k : Nat} {c d : Chip} (h : OnlyMarks k c d) : (d.ctx k).lc = (c.ctx k).lc := by
  obtain ⟨-, w, p, e⟩ := h; rw [e]
theorem OnlyMarks.flagsOf {k : Nat} {c d : Chip} (h : OnlyMarks k c d) (j : Nat) : d.flagsOf j = c.flagsOf j := Chip.flagsOf_congr (h.rd _)

theorem onlyMarks_select (c : Chip) (k : Nat) (p : Option Nat) : OnlyMarks k c (c.select k p) := by
  unfold Chip.select
  dsimp only
  split
  · exact OnlyMarks.refl k c
  · exact onlyMarks_updCtx c rfl

/-- A watchdog that does not run out within `n` slots only counts them (R284). -/
theorem onlyMarks_wdgCount {c : Chip} {k n : Nat} (h : WatchdogQuiet c k n) : OnlyMarks k c (c.wdgCount k n) := by
  unfold Chip.wdgCount
  split
  · exact OnlyMarks.refl k c
  · rename_i h0
    split
    · exact onlyMarks_updCtx c (p := (c.ctx k).sel) rfl
    · dsimp only
      have hlt := h.resolve_left h0
      rw [if_neg]
      · exact onlyMarks_updCtx c (p := (c.ctx k).sel) rfl
      · rw [Chip.ctx_updCtx]
        have : (c.updCtx k fun x => { x with wdg := x.wdg + n }).wdgSlots k = c.wdgSlots k := rfl
        rw [this]
        exact not_le.mpr hlt

/-- The watchdog has no more to count after `n` slots than it counted before. -/
theorem wdg_wdgCount_le {c : Chip} {k n : Nat} (h : WatchdogQuiet c k n) : ((c.wdgCount k n).ctx k).wdg ≤ (c.ctx k).wdg + n := by
  unfold Chip.wdgCount
  split
  · omega
  · rename_i h0
    split
    · rw [Chip.ctx_updCtx]
      exact Nat.zero_le _
    · dsimp only
      have hlt := h.resolve_left h0
      rw [if_neg, Chip.ctx_updCtx]
      rw [Chip.ctx_updCtx]
      exact not_le.mpr hlt

end Sys2Proof.Machine
end

section
/-!
SUPPORT. The start of a slot: cycle, latches of the dispatch entries, compare (R269, R277–R279).
-/
namespace Sys2Proof.Machine

/-! ### Masks -/

theorem maskOf_succ (n : Nat) (p : Nat → Bool) : maskOf (n + 1) p = if p n then maskOf n p + 2 ^ n else maskOf n p := by
  unfold maskOf
  rw [List.range_succ, List.foldl_append]
  rfl

theorem maskOf_lt (n : Nat) (p : Nat → Bool) : maskOf n p < 2 ^ n := by
  induction n with
  | zero => exact Nat.one_pos
  | succ n ih =>
    rw [maskOf_succ, Nat.pow_succ]
    split <;> omega

/-- Bit `i` of a mask tells whether `i` is in it. -/
theorem testBit_maskOf (n : Nat) (p : Nat → Bool) (i : Nat) : (maskOf n p).testBit i = (decide (i < n) && p i) := by
  induction n with
  | zero => simp [maskOf]
  | succ n ih =>
    rw [maskOf_succ]
    have hlt := maskOf_lt n p
    by_cases hn : p n = true
    · rw [if_pos hn, Nat.add_comm]
      by_cases e : i = n
      · subst e
        rw [Nat.testBit_two_pow_add_eq, Nat.testBit_lt_two_pow hlt]
        simp [hn]
      · by_cases hi : i < n
        · rw [Nat.testBit_two_pow_add_gt hi, ih]
          simp [hi, show i < n + 1 by omega]
        · rw [Nat.testBit_lt_two_pow, decide_eq_false (by omega), Bool.false_and]
          calc 2 ^ n + maskOf n p < 2 ^ n + 2 ^ n := by omega
            _ = 2 ^ (n + 1) := by rw [Nat.pow_succ]; omega
            _ ≤ 2 ^ i := Nat.pow_le_pow_right (by decide) (by omega)
    · rw [if_neg hn, ih]
      by_cases e : i = n
      · simp [e, hn]
      · simp [show i < n + 1 ↔ i < n by omega]

theorem maskOf_eq_zero {n : Nat} {p : Nat → Bool} (h : ∀ i < n, p i = false) : maskOf n p = 0 := by
  refine Nat.eq_of_testBit_eq fun i => ?_
  rw [testBit_maskOf, Nat.zero_testBit]
  by_cases hi : i < n
  · simp [h i hi]
  · simp [hi]

theorem bitsOf_one_eq_one (n i : Nat) : (bitsOf n i 1 == 1) = n.testBit i := by
  rw [bitsOf_one]
  cases n.testBit i <;> rfl

/-! ### The start of a slot (R269, R277, R278) -/

theorem Chip.deliverEvents_none {c : Chip} (h : c.orr.evq = []) (n : Nat) : c.deliverEvents n = c := by
  unfold Chip.deliverEvents
  dsimp only
  rw [h]
  show { c with orr := { c.orr with evq := [] } } = c
  rw [← h]

/-- With no event on its way a slot only moves the cycle count on. -/
theorem Chip.atSlot_quiet {c : Chip} (h : c.orr.evq = []) (k j : Nat) :
    c.atSlot k j = c.put Fld.ORR_CYC_N ((c.nextCycle k + 4 * j) % 2 ^ 32) := Chip.deliverEvents_none (c := c.put Fld.ORR_CYC_N _) h _

/-- What a slot's start can change: the cycle count, the context's pending latches and the levels it has seen. -/
def SlotBegun (k : Nat) (c d : Chip) : Prop :=
  (∀ a, a ≠ Reg.ORR_CYC → a ≠ Reg.ORC_PEND k → d.rd a = c.rd a) ∧ d.mem = c.mem ∧ d.fab = c.fab ∧ d.orr.stale = c.orr.stale ∧ d.orr.ecc = c.orr.ecc ∧
    d.orr.evq = c.orr.evq ∧ ∃ x, d.ctx k = { c.ctx k with seen := x }

/-- The latches and the levels seen after the compare of a slot (R278). -/
theorem Chip.latchLevels_eq (c : Chip) (k : Nat) : ∃ new seen, c.latchLevels k =
    (c.put (Fld.ORC_PEND_PND k) ((c.get (Fld.ORC_PEND_PND k) ||| new) &&& maskOf 8 fun n => c.on (Fld.ORC_DSP_EN k n))).updCtx k
      fun x => { x with seen := seen } := ⟨_, _, rfl⟩

theorem slotBegun_latchLevels (c : Chip) (k : Nat) : SlotBegun k c (c.latchLevels k) := by
  obtain ⟨new, seen, h⟩ := Chip.latchLevels_eq c k
  obtain ⟨h1, h2, h3⟩ := Chip.orr_updCtx (c.put (Fld.ORC_PEND_PND k) ((c.get (Fld.ORC_PEND_PND k) ||| new) &&& maskOf 8 fun n =>
    c.on (Fld.ORC_DSP_EN k n))) k fun x => { x with seen := seen }
  rw [h]
  exact ⟨fun a _ ha => Chip.rd_put_other _ _ ha, rfl, rfl, h1, h2, h3, seen, Chip.ctx_updCtx _ _ _⟩

theorem slotBegun_put (c : Chip) (k v : Nat) : SlotBegun k c (c.put Fld.ORR_CYC_N v) :=
  ⟨fun _ h _ => Chip.rd_put_other _ _ h, rfl, rfl, rfl, rfl, rfl, _, rfl⟩

theorem SlotBegun.trans {k : Nat} {a b c : Chip} (h : SlotBegun k a b) (g : SlotBegun k b c) : SlotBegun k a c := by
  obtain ⟨h1, h2, h3, h4, h5, h6, x, h7⟩ := h
  obtain ⟨g1, g2, g3, g4, g5, g6, y, g7⟩ := g
  exact ⟨fun a ha hb => (g1 a ha hb).trans (h1 a ha hb), g2.trans h2, g3.trans h3, g4.trans h4, g5.trans h5, g6.trans h6, y, by rw [g7, h7]⟩

theorem slotBegun_start {c : Chip} (h : c.orr.evq = []) (k j : Nat) : SlotBegun k c ((c.atSlot k j).latchLevels k) := by
  rw [Chip.atSlot_quiet h]
  exact (slotBegun_put c k _).trans (slotBegun_latchLevels _ k)

theorem SlotBegun.get {k : Nat} {c d : Chip} (h : SlotBegun k c d) (f : Field) (h1 : f.addr ≠ Reg.ORR_CYC) (h2 : f.addr ≠ Reg.ORC_PEND k) :
    d.get f = c.get f := Chip.get_rd (h.1 _ h1 h2)

theorem Chip.get_pend_latchLevels (c : Chip) (k : Nat) : ∃ new, (c.latchLevels k).get (Fld.ORC_PEND_PND k) =
    ((c.get (Fld.ORC_PEND_PND k) ||| new) &&& maskOf 8 fun n => c.on (Fld.ORC_DSP_EN k n)) := by
  obtain ⟨new, seen, h⟩ := Chip.latchLevels_eq c k
  refine ⟨new, ?_⟩
  rw [h, Chip.get_updCtx, Chip.get_put_same _ _ rfl]
  exact Nat.mod_eq_of_lt (lt_of_le_of_lt Nat.and_le_right (maskOf_lt 8 _))

/-- The pending latch of an enabled entry stays at the compare (R278). -/
theorem Chip.pends_latchLevels {c : Chip} {k n : Nat} (hn : n < 8) (h : c.pends k n = true) (he : c.on (Fld.ORC_DSP_EN k n) = true) :
    (c.latchLevels k).pends k n = true := by
  obtain ⟨new, e⟩ := Chip.get_pend_latchLevels c k
  unfold Chip.pends at h ⊢
  rw [bitsOf_one_eq_one] at h ⊢
  rw [e, Nat.testBit_and, Nat.testBit_or, testBit_maskOf, h]
  simp [hn, he]

/-- An entry that is not enabled is not pending after the compare (R278). -/
theorem Chip.not_pends_latchLevels {c : Chip} {k n : Nat} (he : c.on (Fld.ORC_DSP_EN k n) = false) :
    (c.latchLevels k).pends k n = false := by
  obtain ⟨new, e⟩ := Chip.get_pend_latchLevels c k
  unfold Chip.pends
  rw [bitsOf_one_eq_one, e, Nat.testBit_and, testBit_maskOf]
  simp [he]

theorem Chip.preemptor_none {c : Chip} {k : Nat} (h : ∀ n < 8, c.pends k n = false) : c.preemptor k = none := by
  unfold Chip.preemptor
  rw [List.find?_eq_none.mpr fun n hn => by simp [h n (List.mem_range.mp hn)]]
  rfl

/-- The compare of a slot with no entry enabled finds none. -/
theorem Chip.preemptor_begun {c : Chip} {k : Nat} (h : NoDispatch c k) : ((c.atSlot k 0).latchLevels k).preemptor k = none := by
  obtain ⟨-, hev, -, hen⟩ := h
  refine Chip.preemptor_none fun n hn => Chip.not_pends_latchLevels ?_
  rw [Chip.atSlot_quiet hev]
  exact (Chip.on_rd (Chip.rd_put_other _ _ (show 0x40024050 + 128 * k + 4 * n ≠ 0x4002004C by omega))).trans (hen n hn)

end Sys2Proof.Machine
end

section
/-!
SUPPORT. The slot of a running context and the acts of a plain word (R270, R299).
-/
namespace Sys2Proof.Machine

/-! ### The slot of a running context (R270, R299) -/

theorem SlotBegun.ctxSt {k : Nat} {c d : Chip} (h : SlotBegun k c d) (j : Nat) : d.ctxSt j = c.ctxSt j :=
  h.get _ (show 0x40024048 + 128 * j ≠ 0x4002004C by omega) (show 0x40024048 + 128 * j ≠ 0x40024070 + 128 * k by omega)

theorem SlotBegun.pc {k : Nat} {c d : Chip} (h : SlotBegun k c d) (j : Nat) : d.pc j = c.pc j :=
  h.get _ (show 0x40024048 + 128 * j ≠ 0x4002004C by omega) (show 0x40024048 + 128 * j ≠ 0x40024070 + 128 * k by omega)

theorem SlotBegun.sel {k : Nat} {c d : Chip} (h : SlotBegun k c d) : (d.ctx k).sel = (c.ctx k).sel := by
  obtain ⟨-, -, -, -, -, -, x, e⟩ := h
  rw [e]

/-- A running context with no entry selected fetches its word. -/
theorem Chip.slotOf_run {c : Chip} {k : Fin 4} (err : Nat) (hst : c.ctxSt k.val = CtxSt.run) (hev : c.orr.evq = []) (hsel :
    (c.ctx k.val).sel = none) :
    c.slotOf k err = (((c.atSlot k.val 0).latchLevels k.val).fetchSlot k err [] (c.nextCycle k.val)).select k.val
      (((c.atSlot k.val 0).latchLevels k.val).preemptor k.val) := by
  have hb := slotBegun_start hev k.val 0
  have h1 : ((c.atSlot k.val 0).latchLevels k.val).ctxSt k.val = CtxSt.run := (hb.ctxSt _).trans hst
  have h2 : (((c.atSlot k.val 0).latchLevels k.val).ctx k.val).sel = none := hb.sel.trans hsel
  unfold Chip.slotOf
  dsimp only
  rw [h1, h2, hev]
  rfl

/-- The word at an address of the control store, where none is just being written. -/
theorem Chip.fetchWord_quiet {c : Chip} (h : c.orr.stale = none) (a cyc : Nat) : c.fetchWord a cyc = c.num (ctlStore + 16 * a) 16 := by
  unfold Chip.fetchWord
  rw [h]

/-- A good word with no wait executes in the slot that fetches it. -/
theorem Chip.fetchSlot_good {c : Chip} {k : Fin 4} {again : List Nat} {cyc : Nat} (hs : c.orr.stale = none) (he : c.pc k.val ∉ c.orr.ecc)
    (hw : (c.mwordAt (c.pc k.val)).wait = false) :
    c.fetchSlot k 0 again cyc =
      let d := c.updCtx k.val fun x => { x with word := c.num (ctlStore + 16 * c.pc k.val) 16 }
      d.execWord k (c.mwordAt (c.pc k.val)) (c.test k.val (c.mwordAt (c.pc k.val))) again cyc := by
  have hm : mword (c.num (ctlStore + 16 * c.pc k.val) 16) = c.mwordAt (c.pc k.val) := by
    unfold Chip.mwordAt
    rw [Nat.mod_eq_of_lt (Chip.pc_lt c k.val)]
  unfold Chip.fetchSlot
  dsimp only
  rw [if_neg (by simp [he]), if_neg (show ¬ (0 = 1) by decide), Chip.fetchWord_quiet hs, hm, if_neg (by simp [hw])]

/-- A word that reads no memory and writes none acts with what it has read (R299). -/
theorem Chip.execWord_acts {c : Chip} {k : Fin 4} {m : MWord} {t : Bool} {again : List Nat} {cyc : Nat} (hr : m.reserved = false)
    (hs : c.stackFault k.val m = false) (ha : m.asel ≠ 0x1F) (hd : m.dst ≠ 3) :
    c.execWord k m t again cyc = c.wordActs k m (c.snapshot k.val m t none) (c.operand k.val m.asel m.imm) again cyc := by
  unfold Chip.execWord
  dsimp only
  rw [hr, hs, if_neg (by decide), if_neg (by decide), if_neg (by simp [ha])]
  unfold Chip.goOn Chip.snapshot
  dsimp only
  rw [if_neg ha]
  dsimp only
  rw [if_neg (by simp [Chip.queueFull, hd])]

theorem Chip.raiseSevs_zero (c : Chip) : c.raiseSevs 0 = c := rfl

theorem Chip.actGates_zero (c : Chip) : c.actGates 0 = c := rfl

/-- What a plain word does (R299): its result, its flags and the next address. -/
theorem Chip.wordActs_plain {c : Chip} {k : Fin 4} {m : MWord} {p : Snap} {a : Word} {again : List Nat} {cyc : Nat} (hm : m.plain = true) :
    c.wordActs k m p a again cyc =
      let f : Flags := { z := p.fz, n := p.fn, c := p.fc, v := p.fv }
      let o := (alu m.alu a p.b f.c).getD { r := a }
      let s := c.updCtx k.val fun x => { x with
        evl := if p.seen && !again.contains m.cnd then x.evl.filter (· != m.cnd) else x.evl, dz := o.dz || (x.dz && m.flg != 7),
        rref := false, remp := false, berr := false, memData := none, saved := none }
      let s := (((s.setCtxSt k.val CtxSt.run).writeDst k m.dst p.w13 cyc o.r).setFlags k.val (flagsAfter m.flg o f)).nextWord k.val m p.lc p.t
      s.iff ((s.ctx k.val).pairHold && s.ctxSt k.val == CtxSt.run) fun t =>
        (t.iff (c.on (Fld.ORC_ST_LOCK k.val)) fun u => u.set (Fld.ORC_ST_LJIT k.val)).setCtxSt k.val CtxSt.busw := by
  unfold MWord.plain at hm
  simp only [Bool.and_eq_true, beq_iff_eq] at hm
  obtain ⟨⟨⟨⟨⟨⟨⟨⟨⟨⟨-, -⟩, h1⟩, h2⟩, h3⟩, h4⟩, h5⟩, h6⟩, h7⟩, -⟩, -⟩ := hm
  unfold Chip.wordActs Chip.actRing Chip.actMotion Chip.actLines Chip.actTimer Chip.actMode
  rw [h1, h2, h3, h4, h5, h6, h7]
  rfl

end Sys2Proof.Machine
end

section
/-!
SUPPORT. The next address, and the slot of a plain word (R299–R301).
-/
namespace Sys2Proof.Machine

/-! ### The next address (R300, R301) -/

/-- What the forms of SEQ up to LOOP can change: the address, the stack, the loop counter and the entry in service. -/
def SeqStep (k : Nat) (c d : Chip) : Prop :=
  (∀ a, a ≠ Reg.ORC_ST k → a ≠ Reg.ORC_PEND k → d.rd a = c.rd a) ∧ d.ctxSt k = c.ctxSt k ∧ d.mem = c.mem ∧
    ∃ l x, d.ctx k = { c.ctx k with stack := l, lc := x }

theorem SeqStep.refl (k : Nat) (c : Chip) : SeqStep k c c := ⟨fun _ _ _ => rfl, rfl, rfl, (c.ctx k).stack, (c.ctx k).lc, rfl⟩

theorem seqStep_setPc (c : Chip) (k a : Nat) : SeqStep k c (c.setPc k a) :=
  ⟨fun _ h _ => Chip.rd_setPc c h, Chip.ctxSt_setPc c k k a, rfl, (c.ctx k).stack, (c.ctx k).lc, rfl⟩

theorem SeqStep.trans {k : Nat} {a b c : Chip} (h : SeqStep k a b) (g : SeqStep k b c) : SeqStep k a c := by
  obtain ⟨h1, h2, h3, l, x, h4⟩ := h
  obtain ⟨g1, g2, g3, u, y, g4⟩ := g
  exact ⟨fun a p q => (g1 a p q).trans (h1 a p q), g2.trans h2, g3.trans h3, u, y, by rw [g4, h4]⟩

theorem seqStep_setStack (c : Chip) (k : Nat) (l : List Frame) : SeqStep k c (c.setStack k l) :=
  ⟨fun _ h _ => Chip.rd_setStack c l h, Chip.ctxSt_setStack c k k l, rfl, l, (c.ctx k).lc, Chip.ctx_setStack c k l⟩

theorem seqStep_setLc (c : Chip) (k : Nat) (x : Word) : SeqStep k c (c.updCtx k fun y => { y with lc := x }) :=
  ⟨fun _ _ _ => rfl, rfl, rfl, (c.ctx k).stack, x, Chip.ctx_updCtx c k _⟩

theorem seqStep_putInsv (c : Chip) (k v : Nat) : SeqStep k c (c.put (Fld.ORC_PEND_INSV k) v) :=
  ⟨fun _ _ h => Chip.rd_put_other _ _ h,
    Chip.get_rd (Chip.rd_put_other _ _ (show 0x40024048 + 128 * k ≠ 0x40024070 + 128 * k by omega)), rfl, (c.ctx k).stack, (c.ctx k).lc, rfl⟩

theorem Chip.nextWord_seq0 {c : Chip} {k : Nat} {m : MWord} (h : m.seq = 0) (lc : Word) (t : Bool) :
    c.nextWord k m lc t = c.setPc k (c.pc k + 1) := by
  unfold Chip.nextWord; rw [h]; rfl

theorem Chip.nextWord_seq1 {c : Chip} {k : Nat} {m : MWord} (h : m.seq = 1) (lc : Word) (t : Bool) : c.nextWord k m lc t = c.setPc k m.tgt := by
  unfold Chip.nextWord; rw [h]; rfl

theorem Chip.nextWord_seq2 {c : Chip} {k : Nat} {m : MWord} (h : m.seq = 2) (lc : Word) (t : Bool) :
    c.nextWord k m lc t = c.setPc k (if t then m.tgt else c.pc k + 1) := by
  unfold Chip.nextWord; rw [h]; rfl

theorem Chip.nextWord_seq3 {c : Chip} {k : Nat} {m : MWord} (h : m.seq = 3) (lc : Word) (t : Bool) :
    c.nextWord k m lc t = (c.setStack k ({ addr := (c.pc k + 1) % 4096, entry := none } :: (c.ctx k).stack)).setPc k m.tgt := by
  unfold Chip.nextWord; rw [h]; rfl

theorem Chip.nextWord_seq4 {c : Chip} {k : Nat} {m : MWord} {f : Frame} {rest : List Frame} (h : m.seq = 4) (hs : (c.ctx k).stack = f :: rest)
    (lc : Word) (t : Bool) : ∃ d, SeqStep k (c.setStack k rest) d ∧ d.ctx k = (c.setStack k rest).ctx k ∧ c.nextWord k m lc t = d.setPc k f.addr := by
  unfold Chip.nextWord
  rw [h]
  dsimp only
  rw [hs]
  dsimp only
  cases f.entry with
  | none => exact ⟨c.setStack k rest, SeqStep.refl k _, rfl, rfl⟩
  | some n => exact ⟨_, seqStep_putInsv (c.setStack k rest) k _, Chip.ctx_put _ _ _ _, rfl⟩

theorem Chip.nextWord_seq4_empty {c : Chip} {k : Nat} {m : MWord} (h : m.seq = 4) (hs : (c.ctx k).stack = []) (lc : Word) (t : Bool) :
    c.nextWord k m lc t = c := by
  unfold Chip.nextWord; rw [h]; dsimp only; rw [hs]; rfl

theorem Chip.nextWord_seq5 {c : Chip} {k : Nat} {m : MWord} (h : m.seq = 5) (lc : Word) (t : Bool) :
    c.nextWord k m lc t = if lc = 0#32 then c.setPc k (c.pc k + 1)
      else (if m.dst = 1 then c else c.updCtx k fun x => { x with lc := lc - 1 }).setPc k m.tgt := by
  unfold Chip.nextWord; rw [h]; rfl

theorem seqStep_nextWord (c : Chip) (k : Nat) {m : MWord} (h : m.seq ≤ 5) (lc : Word) (t : Bool) : SeqStep k c (c.nextWord k m lc t) := by
  have : m.seq = 0 ∨ m.seq = 1 ∨ m.seq = 2 ∨ m.seq = 3 ∨ m.seq = 4 ∨ m.seq = 5 := by omega
  obtain h | h | h | h | h | h := this
  · rw [Chip.nextWord_seq0 h]; exact seqStep_setPc _ _ _
  · rw [Chip.nextWord_seq1 h]; exact seqStep_setPc _ _ _
  · rw [Chip.nextWord_seq2 h]; exact seqStep_setPc _ _ _
  · rw [Chip.nextWord_seq3 h]; exact (seqStep_setStack _ _ _).trans (seqStep_setPc _ _ _)
  · cases hs : (c.ctx k).stack with
    | nil => rw [Chip.nextWord_seq4_empty h hs]; exact SeqStep.refl k c
    | cons f rest =>
      obtain ⟨d, hd, -, e⟩ := Chip.nextWord_seq4 h hs lc t
      rw [e]
      exact ((seqStep_setStack _ _ _).trans hd).trans (seqStep_setPc _ _ _)
  · rw [Chip.nextWord_seq5 h]
    split
    · exact seqStep_setPc _ _ _
    · split
      · exact seqStep_setPc _ _ _
      · exact (seqStep_setLc _ _ _).trans (seqStep_setPc _ _ _)

/-! ### A slot of a plain word -/

/-- What every step of a slot before the result leaves: all registers but the cycle count and the context's latches and state, memory, and of the
context its address, stack, loop counter and watchdog. -/
def SlotKept (k : Nat) (c d : Chip) : Prop :=
  (∀ a, a ≠ Reg.ORR_CYC → a ≠ Reg.ORC_PEND k → a ≠ Reg.ORC_ST k → a ≠ Reg.ORR_STA → d.rd a = c.rd a) ∧ d.pc k = c.pc k ∧
    d.mem = c.mem ∧ (d.ctx k).stack = (c.ctx k).stack ∧ (d.ctx k).lc = (c.ctx k).lc ∧ (d.ctx k).pairHold = (c.ctx k).pairHold ∧
    (d.ctx k).wdg = (c.ctx k).wdg

theorem SlotKept.trans {k : Nat} {a b c : Chip} (h : SlotKept k a b) (g : SlotKept k b c) : SlotKept k a c := by
  obtain ⟨h1, h2, h3, h4, h5, h6, h7⟩ := h
  obtain ⟨g1, g2, g3, g4, g5, g6, g7⟩ := g
  exact ⟨fun a p q r t => (g1 a p q r t).trans (h1 a p q r t), g2.trans h2, g3.trans h3, g4.trans h4, g5.trans h5, g6.trans h6, g7.trans h7⟩

theorem SlotBegun.kept {k : Nat} {c d : Chip} (h : SlotBegun k c d) : SlotKept k c d := by
  have hpc := h.pc k
  obtain ⟨h1, h2, -, -, -, -, x, e⟩ := h
  exact ⟨fun a p q _ _ => h1 a p q, hpc, h2, by rw [e], by rw [e], by rw [e], by rw [e]⟩

theorem slotKept_updCtx (c : Chip) (k : Nat) {f : Ctx → Ctx} (h : (f (c.ctx k)).stack = (c.ctx k).stack ∧ (f (c.ctx k)).lc = (c.ctx k).lc ∧
    (f (c.ctx k)).pairHold = (c.ctx k).pairHold ∧ (f (c.ctx k)).wdg = (c.ctx k).wdg) : SlotKept k c (c.updCtx k f) := by
  unfold SlotKept
  rw [Chip.ctx_updCtx]
  exact ⟨fun _ _ _ _ _ => rfl, rfl, rfl, h⟩

theorem slotKept_setCtxSt (c : Chip) (k st : Nat) : SlotKept k c (c.setCtxSt k st) :=
  ⟨fun _ _ _ h1 h2 => Chip.rd_setCtxSt c h1 h2, Chip.pc_setCtxSt c k k st, rfl, rfl, rfl, rfl, rfl⟩

theorem SlotKept.on {k : Nat} {c d : Chip} (h : SlotKept k c d) (f : Field) (h1 : f.addr ≠ Reg.ORR_CYC) (h2 : f.addr ≠ Reg.ORC_PEND k)
    (h3 : f.addr ≠ Reg.ORC_ST k) (h4 : f.addr ≠ Reg.ORR_STA) : d.on f = c.on f := Chip.on_rd (h.1 _ h1 h2 h3 h4)

theorem SlotKept.wdgQuiet {k n : Nat} {c d : Chip} (h : SlotKept k c d) (hw : WatchdogQuiet c k n) : WatchdogQuiet d k n := by
  obtain ⟨hr, -, -, -, -, -, e⟩ := h
  have hus : d.get (Fld.ORC_WDG_US k) = c.get (Fld.ORC_WDG_US k) := Chip.get_rd (hr _ (show 0x40024078 + 128 * k ≠ 0x4002004C by omega)
    (show 0x40024078 + 128 * k ≠ 0x40024070 + 128 * k by omega) (show 0x40024078 + 128 * k ≠ 0x40024048 + 128 * k by omega)
    (show 0x40024078 + 128 * k ≠ 0x4002000C by omega))
  unfold WatchdogQuiet Chip.wdgSlots at *
  rw [hus, e]
  exact hw

theorem SlotKept.pairHold {k : Nat} {c d : Chip} (h : SlotKept k c d) : (d.ctx k).pairHold = (c.ctx k).pairHold := by
  obtain ⟨-, -, -, -, -, e, -⟩ := h
  exact e

/-- A W register of the context is not among what a slot changes before its result. -/
theorem SlotKept.rd_w {k : Nat} {c d : Chip} (h : SlotKept k c d) {j : Nat} (hj : j < 16) : d.rd (Reg.ORC_W k j) = c.rd (Reg.ORC_W k j) :=
  h.1 _ (show 0x40024080 + 128 * k + 4 * j ≠ 0x4002004C by omega) (show 0x40024080 + 128 * k + 4 * j ≠ 0x40024070 + 128 * k by omega)
    (show 0x40024080 + 128 * k + 4 * j ≠ 0x40024048 + 128 * k by omega) (show 0x40024080 + 128 * k + 4 * j ≠ 0x4002000C by omega)

theorem SlotKept.flagsOf {k : Nat} {c d : Chip} (h : SlotKept k c d) : d.flagsOf k = c.flagsOf k :=
  Chip.flagsOf_congr (h.1 _ (show 0x4002404C + 128 * k ≠ 0x4002004C by omega) (show 0x4002404C + 128 * k ≠ 0x40024070 + 128 * k by omega)
    (show 0x4002404C + 128 * k ≠ 0x40024048 + 128 * k by omega) (show 0x4002404C + 128 * k ≠ 0x4002000C by omega))

theorem Chip.num_congr {c d : Chip} (h : d.mem = c.mem) (a n : Nat) : d.num a n = c.num a n := by
  have hb : ∀ n a, d.bytes a n = c.bytes a n := by
    intro n
    induction n with
    | zero => intro a; rfl
    | succ n ih => intro a; show d.byte a :: _ = c.byte a :: _; rw [ih]; unfold Chip.byte; rw [h]
  unfold Chip.num
  rw [hb]

/-- Where a word's result goes that is not memory's: nowhere, or to a W register. -/
theorem Chip.writeDst_word (c : Chip) (k : Fin 4) {dst : Nat} (h : 0x10 ≤ dst) (w13 cyc : Nat) (r : Word) :
    c.writeDst k dst w13 cyc r = c.wr (Reg.ORC_W k.val (dst - 0x10)) r := by
  unfold Chip.writeDst
  rw [if_neg (by omega), if_neg (by omega), if_neg (by omega), if_neg (by omega), if_neg (by omega)]

/-- The result of a word where it goes to no memory: written, with the flags, and the next address taken. -/
def Chip.wordResult (c : Chip) (k : Fin 4) (m : MWord) (o : AluOut) (f : Flags) (lc : Word) (t : Bool) : Chip :=
  ((if m.dst = 0 then c else c.wr (Reg.ORC_W k.val (m.dst - 0x10)) o.r).setFlags k.val (flagsAfter m.flg o f)).nextWord k.val m lc t

theorem Chip.pairHold_wordResult {c : Chip} {k : Fin 4} {m : MWord} (hs : m.seq ≤ 5) (o : AluOut) (f : Flags) (lc : Word) (t : Bool) :
    ((c.wordResult k m o f lc t).ctx k.val).pairHold = (c.ctx k.val).pairHold ∧ ((c.wordResult k m o f lc t).ctx k.val).wdg = (c.ctx k.val).wdg := by
  obtain ⟨-, -, -, l, x, e⟩ := seqStep_nextWord ((if m.dst = 0 then c else c.wr (Reg.ORC_W k.val (m.dst - 0x10)) o.r).setFlags k.val
    (flagsAfter m.flg o f)) k.val hs lc t
  unfold Chip.wordResult
  rw [e, Chip.ctx_setFlags]
  split <;> exact ⟨rfl, rfl⟩

/-- A plain word executes: its result from what it has read, in a context that runs on (R299). -/
theorem Chip.execWord_plain {c : Chip} {k : Fin 4} {m : MWord} {t : Bool} {again : List Nat} {cyc : Nat} (hm : m.plain = true) (hs : m.seq ≤ 5)
    (hf : c.stackFault k.val m = false) (hd : m.dst = 0 ∨ 0x10 ≤ m.dst) (hp : (c.ctx k.val).pairHold = false) :
    ∃ e o, SlotKept k.val c e ∧ e.ctxSt k.val = CtxSt.run ∧
      o = (alu m.alu (c.operand k.val m.asel m.imm) (c.operand k.val m.bsel m.imm) (c.flagsOf k.val).c).getD { r := c.operand k.val m.asel m.imm } ∧
      c.execWord k m t again cyc = e.wordResult k m o (c.flagsOf k.val) (c.ctx k.val).lc t := by
  have hp2 := hm
  unfold MWord.plain at hp2
  simp only [Bool.and_eq_true, bne_iff_ne, ne_eq] at hp2
  obtain ⟨⟨⟨⟨⟨⟨⟨⟨⟨⟨-, hr⟩, -⟩, -⟩, -⟩, -⟩, -⟩, -⟩, -⟩, ha⟩, -⟩ := hp2
  rw [Chip.execWord_acts (by simpa using hr) hf ha (by omega), Chip.wordActs_plain hm]
  extract_lets f o s1 s2
  have hk : SlotKept k.val c (s1.setCtxSt k.val CtxSt.run) := (slotKept_updCtx c k.val ⟨rfl, rfl, rfl, rfl⟩).trans (slotKept_setCtxSt _ _ _)
  refine ⟨s1.setCtxSt k.val CtxSt.run, o, hk,
    Chip.ctxSt_setCtxSt _ (by decide), rfl, ?_⟩
  have hw : (s1.setCtxSt k.val CtxSt.run).writeDst k m.dst (c.snapshot k.val m t none).w13 cyc o.r =
      if m.dst = 0 then s1.setCtxSt k.val CtxSt.run else (s1.setCtxSt k.val CtxSt.run).wr (Reg.ORC_W k.val (m.dst - 0x10)) o.r := by
    by_cases h0 : m.dst = 0
    · rw [if_pos h0, h0]; rfl
    · rw [if_neg h0, Chip.writeDst_word _ _ (by omega)]
  have h2 : s2 = (s1.setCtxSt k.val CtxSt.run).wordResult k m o (c.flagsOf k.val) (c.ctx k.val).lc t := by
    show ((((s1.setCtxSt k.val CtxSt.run).writeDst k m.dst (c.snapshot k.val m t none).w13 cyc o.r).setFlags k.val (flagsAfter m.flg o f)).nextWord
      k.val m (c.ctx k.val).lc t) = _
    rw [hw]
    rfl
  have hph : (s2.ctx k.val).pairHold = false := by
    rw [h2, (Chip.pairHold_wordResult hs _ _ _ _).1]
    exact hk.pairHold.trans hp
  rw [hph]
  exact h2

end Sys2Proof.Machine
end

section
/-!
SUPPORT. The slot of a quiet context, and the words that compute and branch (R299–R301).
-/
namespace Sys2Proof.Machine

/-! ### The slot of a quiet context -/

theorem Chip.mwordAt_congr {c d : Chip} (h : d.mem = c.mem) (a : Nat) : d.mwordAt a = c.mwordAt a := by
  unfold Chip.mwordAt
  rw [Chip.num_congr h]

theorem Chip.stackFault_congr {c d : Chip} {k : Nat} (h : (d.ctx k).stack = (c.ctx k).stack) (m : MWord) : d.stackFault k m = c.stackFault k m := by
  unfold Chip.stackFault
  rw [h]

/-- The state in which the word of a quiet context executes. -/
def Chip.fetched (c : Chip) (k : Nat) : Chip :=
  ((c.atSlot k 0).latchLevels k).updCtx k fun x => { x with word := c.num (ctlStore + 16 * c.pc k) 16 }

theorem slotKept_fetched {c : Chip} {k : Nat} (h : c.orr.evq = []) : SlotKept k c (c.fetched k) :=
  (slotBegun_start h k 0).kept.trans (slotKept_updCtx _ _ ⟨rfl, rfl, rfl, rfl⟩)

/-- The slot of a quiet context is the execution of its word (R270). -/
theorem Chip.slotOf_quiet {c : Chip} {k : Fin 4} (hq : SlotQuiet c k.val) (hw : (c.mwordAt (c.pc k.val)).wait = false) :
    c.slotOf k 0 = ((c.fetched k.val).execWord k (c.mwordAt (c.pc k.val))
      (((c.atSlot k.val 0).latchLevels k.val).test k.val (c.mwordAt (c.pc k.val))) [] (c.nextCycle k.val)).select k.val none := by
  obtain ⟨hst, -, hnd, hs, he, -⟩ := hq
  obtain ⟨hsel, hev, -, -⟩ := id hnd
  have hb := slotBegun_start hev k.val 0
  have hpc := hb.pc k.val
  obtain ⟨-, hmem, -, hstale, hecc, -, -⟩ := hb
  have hmw : ((c.atSlot k.val 0).latchLevels k.val).mwordAt (((c.atSlot k.val 0).latchLevels k.val).pc k.val) = c.mwordAt (c.pc k.val) := by
    rw [hpc, Chip.mwordAt_congr hmem]
  rw [Chip.slotOf_run 0 hst hev hsel, Chip.preemptor_begun hnd,
    Chip.fetchSlot_good (hstale.trans hs) (by rw [hpc, hecc]; exact he) (by rw [hmw]; exact hw), hmw, hpc, Chip.num_congr hmem]
  rfl

theorem Chip.rd_wordResult {c : Chip} {k : Fin 4} {m : MWord} (hs : m.seq ≤ 5) (o : AluOut) (f : Flags) (lc : Word) (t : Bool) {a : Nat}
    (h1 : a ≠ Reg.ORC_ST k.val) (h2 : a ≠ Reg.ORC_PEND k.val) (h3 : a ≠ Reg.ORC_FLG k.val) (h4 : m.dst ≠ 0 → a ≠ Reg.ORC_W k.val (m.dst - 0x10)) :
    (c.wordResult k m o f lc t).rd a = c.rd a := by
  obtain ⟨hr, -⟩ := seqStep_nextWord ((if m.dst = 0 then c else c.wr (Reg.ORC_W k.val (m.dst - 0x10)) o.r).setFlags k.val
    (flagsAfter m.flg o f)) k.val hs lc t
  refine (hr a h1 h2).trans ((Chip.rd_setFlags _ _ h3).trans ?_)
  split
  · rfl
  · rename_i h0
    exact Chip.rd_wr_other _ _ (h4 h0)

theorem WatchdogQuiet.of_eq {c d : Chip} {k n : Nat} (hw : WatchdogQuiet c k n) (h1 : d.rd (Reg.ORC_WDG k) = c.rd (Reg.ORC_WDG k))
    (h2 : (d.ctx k).wdg = (c.ctx k).wdg) : WatchdogQuiet d k n := by
  have hus : d.get (Fld.ORC_WDG_US k) = c.get (Fld.ORC_WDG_US k) := Chip.get_rd h1
  unfold WatchdogQuiet Chip.wdgSlots at *
  rw [hus, h2]
  exact hw

theorem wdgQuiet_wordResult {c : Chip} {k : Fin 4} {m : MWord} {n : Nat} (hw : WatchdogQuiet c k.val n) (hs : m.seq ≤ 5) (o : AluOut) (f : Flags)
    (lc : Word) (t : Bool) : WatchdogQuiet (c.wordResult k m o f lc t) k.val n :=
  WatchdogQuiet.of_eq hw (Chip.rd_wordResult hs o f lc t (show 0x40024078 + 128 * k.val ≠ 0x40024048 + 128 * k.val by omega)
    (show 0x40024078 + 128 * k.val ≠ 0x40024070 + 128 * k.val by omega) (show 0x40024078 + 128 * k.val ≠ 0x4002404C + 128 * k.val by omega)
    fun _ => show 0x40024078 + 128 * k.val ≠ 0x40024080 + 128 * k.val + 4 * (m.dst - 0x10) by omega) (Chip.pairHold_wordResult hs o f lc t).2

/-- The dispatch compare leaves the watchdog's count. -/
theorem wdgQuiet_select {c : Chip} {k n : Nat} (h : WatchdogQuiet c k n) (p : Option Nat) : WatchdogQuiet (c.select k p) k n := by
  unfold Chip.select
  dsimp only
  split
  · exact h
  · refine h.of_eq rfl ?_
    rw [Chip.ctx_updCtx]

/-- The slot of a quiet context with a plain word (R299): its result, up to the marks of the slot. -/
theorem slot_plain {c : Chip} {k : Fin 4} (hq : SlotQuiet c k.val) (hm : (c.mwordAt (c.pc k.val)).plain = true)
    (hs : (c.mwordAt (c.pc k.val)).seq ≤ 5) (hf : c.stackFault k.val (c.mwordAt (c.pc k.val)) = false)
    (hd : (c.mwordAt (c.pc k.val)).dst = 0 ∨ 0x10 ≤ (c.mwordAt (c.pc k.val)).dst) :
    ∃ e o t, SlotKept k.val c e ∧ e.ctxSt k.val = CtxSt.run ∧
      (∀ x, (c.mwordAt (c.pc k.val)).asel < 0x10 → (c.mwordAt (c.pc k.val)).bsel < 0x10 →
        alu (c.mwordAt (c.pc k.val)).alu (c.rd (Reg.ORC_W k.val (c.mwordAt (c.pc k.val)).asel))
          (c.rd (Reg.ORC_W k.val (c.mwordAt (c.pc k.val)).bsel)) (c.flagsOf k.val).c = some x → o = x) ∧
      ((c.mwordAt (c.pc k.val)).cnd = 0x20 → t = (c.on Fld.MER_STA_LOCK != (c.mwordAt (c.pc k.val)).cpol)) ∧
      OnlyMarks k.val (e.wordResult k (c.mwordAt (c.pc k.val)) o (c.flagsOf k.val) (c.ctx k.val).lc t) (c.runSlot k 0) := by
  have hw : (c.mwordAt (c.pc k.val)).wait = false := by
    unfold MWord.plain at hm
    simp only [Bool.and_eq_true] at hm
    obtain ⟨⟨⟨⟨⟨⟨⟨⟨⟨⟨hw, -⟩, -⟩, -⟩, -⟩, -⟩, -⟩, -⟩, -⟩, -⟩, -⟩ := hm
    simpa using hw
  obtain ⟨hst, hph, hnd, -, -, hwd⟩ := id hq
  obtain ⟨-, hev, -, -⟩ := id hnd
  have hb := slotBegun_start hev k.val 0
  have hk : SlotKept k.val c (c.fetched k.val) := slotKept_fetched hev
  obtain ⟨-, -, -, hstk, hlc, hpair, -⟩ := id hk
  obtain ⟨e, o, he, hrun, ho, hx⟩ := Chip.execWord_plain (t := ((c.atSlot k.val 0).latchLevels k.val).test k.val (c.mwordAt (c.pc k.val)))
    (again := []) (cyc := c.nextCycle k.val) hm hs ((Chip.stackFault_congr hstk _).trans hf) hd (hpair.trans hph)
  have hke := hk.trans he
  refine ⟨e, o, ((c.atSlot k.val 0).latchLevels k.val).test k.val (c.mwordAt (c.pc k.val)), hke, hrun, fun x ha hbs hax => ?_, fun hc => ?_, ?_⟩
  · have hop : ∀ j, j < 0x10 → ∀ i, (c.fetched k.val).operand k.val j i = c.rd (Reg.ORC_W k.val j) := fun j hj i => by
      unfold Chip.operand
      rw [if_pos hj, hk.rd_w hj]
    rw [ho, hop _ ha, hop _ hbs, hk.flagsOf, hax]
    rfl
  · unfold Chip.test
    rw [hc]
    show (((c.atSlot k.val 0).latchLevels k.val).on Fld.MER_STA_LOCK != _) = _
    rw [hb.kept.on Fld.MER_STA_LOCK (by decide) (show 0x4002800C ≠ 0x40024070 + 128 * k.val by omega)
      (show 0x4002800C ≠ 0x40024048 + 128 * k.val by omega) (by decide)]
  · unfold Chip.runSlot
    rw [Chip.slotOf_quiet hq hw, hx, hlc, hk.flagsOf]
    exact (onlyMarks_select _ _ _).trans (onlyMarks_wdgCount (wdgQuiet_select (wdgQuiet_wordResult (hke.wdgQuiet hwd) hs _ _ _ _) _))

theorem MWord.tgt_lt (w : Nat) : (mword w).tgt < 4096 := Nat.mod_lt _ (by decide)

theorem Chip.tgt_lt (c : Chip) (a : Nat) : (c.mwordAt a).tgt < 4096 := MWord.tgt_lt _

theorem Chip.pc_wordResult_base (c : Chip) (k : Fin 4) (m : MWord) (o : AluOut) (f : Flags) :
    ((if m.dst = 0 then c else c.wr (Reg.ORC_W k.val (m.dst - 0x10)) o.r).setFlags k.val (flagsAfter m.flg o f)).pc k.val = c.pc k.val := by
  refine Chip.get_rd ((Chip.rd_setFlags _ _ (show 0x40024048 + 128 * k.val ≠ 0x4002404C + 128 * k.val by omega)).trans ?_)
  split
  · rfl
  · exact Chip.rd_wr_other _ _ (show 0x40024048 + 128 * k.val ≠ 0x40024080 + 128 * k.val + 4 * (m.dst - 0x10) by omega)

/-- After a word with no stack or loop in it the context stands at the next address, in its state, with its flags. -/
theorem Chip.wordResult_seq0 {c : Chip} {k : Fin 4} {m : MWord} (hs : m.seq = 0) (o : AluOut) (f : Flags) (lc : Word) (t : Bool) :
    (c.wordResult k m o f lc t).pc k.val = (c.pc k.val + 1) % 4096 := by
  unfold Chip.wordResult
  rw [Chip.nextWord_seq0 hs, Chip.pc_setPc, Chip.pc_wordResult_base]

theorem Chip.ctxSt_wordResult {c : Chip} {k : Fin 4} {m : MWord} (hs : m.seq ≤ 5) (o : AluOut) (f : Flags) (lc : Word) (t : Bool) :
    (c.wordResult k m o f lc t).ctxSt k.val = c.ctxSt k.val := by
  obtain ⟨-, h, -⟩ := seqStep_nextWord ((if m.dst = 0 then c else c.wr (Reg.ORC_W k.val (m.dst - 0x10)) o.r).setFlags k.val
    (flagsAfter m.flg o f)) k.val hs lc t
  refine h.trans (Chip.get_rd ((Chip.rd_setFlags _ _ (show 0x40024048 + 128 * k.val ≠ 0x4002404C + 128 * k.val by omega)).trans ?_))
  split
  · rfl
  · exact Chip.rd_wr_other _ _ (show 0x40024048 + 128 * k.val ≠ 0x40024080 + 128 * k.val + 4 * (m.dst - 0x10) by omega)

theorem Chip.flagsOf_wordResult {c : Chip} {k : Fin 4} {m : MWord} (hs : m.seq ≤ 5) (o : AluOut) (f : Flags) (lc : Word) (t : Bool) :
    (c.wordResult k m o f lc t).flagsOf k.val = flagsAfter m.flg o f := by
  obtain ⟨h, -⟩ := seqStep_nextWord ((if m.dst = 0 then c else c.wr (Reg.ORC_W k.val (m.dst - 0x10)) o.r).setFlags k.val
    (flagsAfter m.flg o f)) k.val hs lc t
  exact (Chip.flagsOf_congr (h _ (show 0x4002404C + 128 * k.val ≠ 0x40024048 + 128 * k.val by omega)
    (show 0x4002404C + 128 * k.val ≠ 0x40024070 + 128 * k.val by omega))).trans (Chip.flagsOf_setFlags _ _ _)

theorem Chip.rd_wordResult_dst {c : Chip} {k : Fin 4} {m : MWord} (hs : m.seq ≤ 5) (hd : m.dst ≠ 0) (o : AluOut) (f : Flags) (lc : Word) (t : Bool) :
    (c.wordResult k m o f lc t).rd (Reg.ORC_W k.val (m.dst - 0x10)) = o.r := by
  obtain ⟨h, -⟩ := seqStep_nextWord ((if m.dst = 0 then c else c.wr (Reg.ORC_W k.val (m.dst - 0x10)) o.r).setFlags k.val
    (flagsAfter m.flg o f)) k.val hs lc t
  refine (h _ (show 0x40024080 + 128 * k.val + 4 * (m.dst - 0x10) ≠ 0x40024048 + 128 * k.val by omega)
    (show 0x40024080 + 128 * k.val + 4 * (m.dst - 0x10) ≠ 0x40024070 + 128 * k.val by omega)).trans ((Chip.rd_setFlags _ _
      (show 0x40024080 + 128 * k.val + 4 * (m.dst - 0x10) ≠ 0x4002404C + 128 * k.val by omega)).trans ?_)
  rw [if_neg hd]
  exact Chip.rd_wr_same _ _ _

theorem Chip.mem_wordResult {c : Chip} {k : Fin 4} {m : MWord} (hs : m.seq ≤ 5) (o : AluOut) (f : Flags) (lc : Word) (t : Bool) :
    (c.wordResult k m o f lc t).mem = c.mem := by
  obtain ⟨-, -, h, -⟩ := seqStep_nextWord ((if m.dst = 0 then c else c.wr (Reg.ORC_W k.val (m.dst - 0x10)) o.r).setFlags k.val
    (flagsAfter m.flg o f)) k.val hs lc t
  refine h.trans ?_
  split <;> rfl

theorem Chip.byte_congr {c d : Chip} (h : d.mem = c.mem) (a : Nat) : d.byte a = c.byte a := by
  unfold Chip.byte
  rw [h]

/-- Settles O32: the slot of a quiet context is its word's result, up to the marks of the slot. -/
theorem microwordComputes : Obligations.MicrowordComputes := by
  unfold Obligations.MicrowordComputes
  intro s k o hL hq
  extract_lets m
  intro hm hseq hd1 hd2 ha hb halu
  have hs : m.seq ≤ 5 := by omega
  have h0 : m.dst ≠ 0 := by omega
  have hf : s.chip.stackFault k.val m = false := by simp [Chip.stackFault, hseq]
  obtain ⟨e, o', t, hk, hrun, ho, -, hres⟩ := slot_plain hq hm hs hf (Or.inr hd1)
  obtain rfl := ho o ha hb halu
  obtain ⟨hrd, hpc, hmem, -⟩ := id hk
  refine (gives_onL (f := fun c => c.runSlot k 0) hL rfl rfl).runs ⟨?_, ?_, ?_, ?_, fun j hj hne => ?_, fun a h1 h2 => ?_, fun a => ?_⟩
  · exact (hres.rd _).trans (Chip.rd_wordResult_dst hs h0 _ _ _ _)
  · exact (hres.flagsOf _).trans (Chip.flagsOf_wordResult hs _ _ _ _)
  · rw [hres.pc, Chip.wordResult_seq0 hseq, hpc]
  · rw [hres.ctxSt, Chip.ctxSt_wordResult hs, hrun]
  · refine (hres.rd _).trans ((Chip.rd_wordResult hs _ _ _ _ ?_ ?_ ?_ fun _ => ?_).trans (hk.rd_w hj))
    · show 0x40024080 + 128 * k.val + 4 * j ≠ 0x40024048 + 128 * k.val; omega
    · show 0x40024080 + 128 * k.val + 4 * j ≠ 0x40024070 + 128 * k.val; omega
    · show 0x40024080 + 128 * k.val + 4 * j ≠ 0x4002404C + 128 * k.val; omega
    · show 0x40024080 + 128 * k.val + 4 * j ≠ 0x40024080 + 128 * k.val + 4 * (m.dst - 0x10); omega
  · have hkl := k.isLt
    refine (hres.rd _).trans ((Chip.rd_wordResult hs _ _ _ _ ?_ ?_ ?_ fun _ => ?_).trans (hrd a ?_ ?_ ?_ ?_))
    · show a ≠ 0x40024048 + 128 * k.val; omega
    · show a ≠ 0x40024070 + 128 * k.val; omega
    · show a ≠ 0x4002404C + 128 * k.val; omega
    · show a ≠ 0x40024080 + 128 * k.val + 4 * (m.dst - 0x10); omega
    · show a ≠ 0x4002004C; omega
    · show a ≠ 0x40024070 + 128 * k.val; omega
    · show a ≠ 0x40024048 + 128 * k.val; omega
    · show a ≠ 0x4002000C; omega
  · exact Chip.byte_congr (hres.mem.trans ((Chip.mem_wordResult hs _ _ _ _).trans hmem)) a

/-- Settles O33: each form of SEQ gives the next address of the word's result. -/
theorem sequencerAddresses : Obligations.SequencerAddresses := by
  unfold Obligations.SequencerAddresses
  intro s k hL hq
  extract_lets m
  intro hm hdst
  have hgive : Gives (.microwordExecute k 0) s (s.chip.runSlot k 0) := gives_onL (f := fun c => c.runSlot k 0) hL rfl rfl
  have htgt : m.tgt % 4096 = m.tgt := Nat.mod_eq_of_lt (Chip.tgt_lt _ _)
  have hslot : m.seq ≤ 5 → s.chip.stackFault k.val m = false → ∃ e f t, SlotKept k.val s.chip e ∧
      (m.cnd = 0x20 → t = (s.chip.on Fld.MER_STA_LOCK != m.cpol)) ∧
      OnlyMarks k.val ((e.setFlags k.val f).nextWord k.val m (s.chip.ctx k.val).lc t) (s.chip.runSlot k 0) := fun h1 h2 => by
    obtain ⟨e, o, t, hk, -, -, ht, hres⟩ := slot_plain hq hm h1 h2 (Or.inl hdst)
    refine ⟨e, flagsAfter m.flg o (s.chip.flagsOf k.val), t, hk, ht, ?_⟩
    unfold Chip.wordResult at hres
    rw [if_pos hdst] at hres
    exact hres
  have hpcf : ∀ (e : Chip) (f : Flags), (e.setFlags k.val f).pc k.val = e.pc k.val := fun e f =>
    Chip.get_rd (Chip.rd_setFlags _ _ (show 0x40024048 + 128 * k.val ≠ 0x4002404C + 128 * k.val by omega))
  refine ⟨fun hseq => ?_, fun hseq hcnd hpol => ?_, fun hseq hlen => ?_, fun a rest hseq ha hst => ?_, fun hseq hlc => ?_⟩
  · obtain ⟨e, f, t, hk, -, hres⟩ := hslot (by omega) (by simp [Chip.stackFault, hseq])
    refine hgive.runs ?_
    rw [hres.pc, Chip.nextWord_seq1 hseq, Chip.pc_setPc, htgt]
  · obtain ⟨e, f, t, ⟨-, hpc, -⟩, ht, hres⟩ := hslot (by omega) (by simp [Chip.stackFault, hseq])
    refine hgive.runs ?_
    rw [hres.pc, Chip.nextWord_seq2 hseq, Chip.pc_setPc, hpcf, hpc, ht hcnd, hpol]
    cases s.chip.on Fld.MER_STA_LOCK with
    | false => rfl
    | true => exact htgt
  · obtain ⟨e, f, t, ⟨-, hpc, -, hstk, -⟩, -, hres⟩ := hslot (by omega) (by simp [Chip.stackFault, hseq, hlen])
    refine hgive.runs ⟨?_, ?_⟩
    · rw [hres.pc, Chip.nextWord_seq3 hseq, Chip.pc_setPc, htgt]
    · rw [hres.stack, Chip.nextWord_seq3 hseq, Chip.ctx_setPc, Chip.ctx_setStack, Chip.ctx_setFlags, hpcf, hpc, hstk]
  · obtain ⟨e, f, t, ⟨-, -, -, hstk, -⟩, -, hres⟩ := hslot (by omega) (by simp [Chip.stackFault, hseq, hst])
    obtain ⟨d, -, hd, hx⟩ := Chip.nextWord_seq4 (c := e.setFlags k.val f) hseq (hstk.trans hst) (s.chip.ctx k.val).lc t
    refine hgive.runs ⟨?_, ?_⟩
    · rw [hres.pc, hx, Chip.pc_setPc]
      exact Nat.mod_eq_of_lt ha
    · rw [hres.stack, hx, Chip.ctx_setPc, hd, Chip.ctx_setStack]
  · obtain ⟨e, f, t, hk, -, hres⟩ := hslot (by omega) (by simp [Chip.stackFault, hseq])
    have hn : (e.setFlags k.val f).nextWord k.val m (s.chip.ctx k.val).lc t =
        ((e.setFlags k.val f).updCtx k.val fun x => { x with lc := (s.chip.ctx k.val).lc - 1 }).setPc k.val m.tgt := by
      rw [Chip.nextWord_seq5 hseq, if_neg hlc, if_neg (by omega)]
    refine hgive.runs ⟨?_, ?_⟩
    · rw [hres.pc, hn, Chip.pc_setPc, htgt]
    · rw [hres.lc, hn, Chip.ctx_setPc, Chip.ctx_updCtx]

end Sys2Proof.Machine
end

section
/-!
SUPPORT. Slots that end a wait or stop their context (R275, R276, R281, R298).
-/
namespace Sys2Proof.Machine

/-! ### The slot of a context that waits (R274–R276) -/

/-- A waiting context with nothing to dispatch goes on with its hold. -/
theorem Chip.slotOf_wait {c : Chip} {k : Fin 4} (err : Nat) (hst : c.ctxSt k.val = CtxSt.wait) (hnd : NoDispatch c k.val) :
    c.slotOf k err = (((c.atSlot k.val 0).latchLevels k.val).holdSlot k ((c.ctx k.val).k + 1) [] (c.nextCycle k.val)).select k.val none := by
  obtain ⟨hsel, hev, -, -⟩ := id hnd
  have hb := slotBegun_start hev k.val 0
  have h1 : ((c.atSlot k.val 0).latchLevels k.val).ctxSt k.val = CtxSt.wait := (hb.ctxSt _).trans hst
  have h2 : (((c.atSlot k.val 0).latchLevels k.val).ctx k.val).sel = none := hb.sel.trans hsel
  have h3 : (((c.atSlot k.val 0).latchLevels k.val).ctx k.val).k = (c.ctx k.val).k := by
    obtain ⟨-, -, -, -, -, -, x, e⟩ := hb
    rw [e]
  unfold Chip.slotOf
  dsimp only
  rw [h1, h2, hev, h3, Chip.preemptor_begun hnd]
  rfl

/-- Of what a slot's start leaves, what a wait looks at. -/
theorem SlotBegun.hold {k : Nat} {c d : Chip} (h : SlotBegun k c d) :
    (d.ctx k).word = (c.ctx k).word ∧ (d.ctx k).limit = (c.ctx k).limit ∧ (d.ctx k).k = (c.ctx k).k := by
  obtain ⟨-, -, -, -, -, -, x, e⟩ := h
  rw [e]
  exact ⟨rfl, rfl, rfl⟩

/-- The branch condition LOCK reads Meridian's lock. -/
theorem Chip.test_lock {c : Chip} {k : Nat} {m : MWord} (hc : m.cnd = 0x20) (hp : m.cpol = false) : c.test k m = c.on Fld.MER_STA_LOCK := by
  unfold Chip.test
  rw [hc, hp]
  exact Bool.bne_false _

theorem SlotKept.lock {k : Nat} {c d : Chip} (h : SlotKept k c d) : d.on Fld.MER_STA_LOCK = c.on Fld.MER_STA_LOCK :=
  h.on Fld.MER_STA_LOCK (by decide) (show 0x4002800C ≠ 0x40024070 + 128 * k by omega) (show 0x4002800C ≠ 0x40024048 + 128 * k by omega) (by decide)

/-- A wait whose limit has come ends without its word's fields (R276). -/
theorem Chip.holdSlot_expires {c : Chip} {k : Fin 4} {n : Nat} {again : List Nat} {cyc : Nat} (hl : c.on (Fld.ORC_ST_LOCK k.val) = false)
    (ht : c.test k.val (mword (c.ctx k.val).word) = false) (h0 : (c.ctx k.val).limit ≠ 0) (hn : (c.ctx k.val).limit ≤ n) :
    c.holdSlot k n again cyc = c.expire k.val := by
  unfold Chip.holdSlot
  dsimp only
  rw [hl, ht, if_neg (by decide), if_neg (by decide), if_pos (by simp [h0, hn])]

/-- A wait whose condition is true ends with its word (R275). -/
theorem Chip.holdSlot_acts {c : Chip} {k : Fin 4} {n : Nat} {again : List Nat} {cyc : Nat} (hl : c.on (Fld.ORC_ST_LOCK k.val) = false)
    (ht : c.test k.val (mword (c.ctx k.val).word) = true) :
    c.holdSlot k n again cyc = c.execWord k (mword (c.ctx k.val).word) true again cyc := by
  unfold Chip.holdSlot
  dsimp only
  rw [hl, ht, if_neg (by decide), if_pos rfl]

/-- The end of a wait by its limit shows in TMOX, TMXC and ORR.IST before the next address is taken. -/
def Chip.timedOut (c : Chip) (k : Nat) : Chip := (((c.quiet k).set (Fld.ORC_FLG_TMOX k)).bump (Fld.ORC_TMXC_N k)).set Fld.ORR_IST_TMOX

theorem Chip.rd_timedOut (c : Chip) {k a : Nat} (h1 : a ≠ Reg.ORC_FLG k) (h2 : a ≠ Reg.ORC_TMXC k) (h3 : a ≠ Reg.ORR_IST) :
    (c.timedOut k).rd a = c.rd a :=
  (Chip.rd_put_other _ _ h3).trans ((Chip.rd_put_other _ _ h2).trans ((Chip.rd_put_other _ _ h1).trans (Chip.rd_updCtx _ _ _ _)))

theorem Chip.expire_eq (c : Chip) (k : Nat) : c.expire k = ((c.timedOut k).setPc k ((c.timedOut k).pc k + 1)).setCtxSt k CtxSt.run := rfl

theorem Chip.rd_expire (c : Chip) {k a : Nat} (h1 : a ≠ Reg.ORC_ST k) (h2 : a ≠ Reg.ORR_STA) : (c.expire k).rd a = (c.timedOut k).rd a :=
  (Chip.rd_setCtxSt _ h1 h2).trans (Chip.rd_setPc _ h1)

theorem Chip.ctx_expire (c : Chip) (k : Nat) : (c.expire k).ctx k = { c.ctx k with rref := false, remp := false, berr := false } :=
  Chip.ctx_updCtx c k fun x => { x with rref := false, remp := false, berr := false }

theorem Chip.tmox_expire (c : Chip) (k : Nat) : (c.expire k).on (Fld.ORC_FLG_TMOX k) = true := by
  refine (Chip.on_rd (Chip.rd_expire c (show 0x4002404C + 128 * k ≠ 0x40024048 + 128 * k by omega)
    (show 0x4002404C + 128 * k ≠ 0x4002000C by omega))).trans ?_
  refine (Chip.on_rd ((Chip.rd_put_other _ _ (show 0x4002404C + 128 * k ≠ 0x40020010 by omega)).trans
    (Chip.rd_put_other _ _ (show 0x4002404C + 128 * k ≠ 0x40024074 + 128 * k by omega)))).trans ?_
  exact Chip.on_set_same (c.quiet k) rfl Nat.one_pos

theorem Chip.ist_expire (c : Chip) (k : Nat) : (c.expire k).on Fld.ORR_IST_TMOX = true :=
  (Chip.on_rd (Chip.rd_expire c (show 0x40020010 ≠ 0x40024048 + 128 * k by omega) (by decide))).trans (Chip.on_set_same _ rfl (by decide))

theorem Chip.pc_expire (c : Chip) (k : Nat) : (c.expire k).pc k = (c.pc k + 1) % 4096 := by
  have h : (c.timedOut k).pc k = c.pc k := Chip.get_rd (Chip.rd_timedOut c (show 0x40024048 + 128 * k ≠ 0x4002404C + 128 * k by omega)
    (show 0x40024048 + 128 * k ≠ 0x40024074 + 128 * k by omega) (show 0x40024048 + 128 * k ≠ 0x40020010 by omega))
  rw [Chip.expire_eq, Chip.pc_setCtxSt, Chip.pc_setPc, h]

theorem Chip.ctxSt_expire (c : Chip) (k : Nat) : (c.expire k).ctxSt k = CtxSt.run := Chip.ctxSt_setCtxSt _ (by decide)

theorem Chip.rd_w_expire (c : Chip) (k j : Nat) : (c.expire k).rd (Reg.ORC_W k j) = c.rd (Reg.ORC_W k j) :=
  (Chip.rd_expire c (show 0x40024080 + 128 * k + 4 * j ≠ 0x40024048 + 128 * k by omega)
    (show 0x40024080 + 128 * k + 4 * j ≠ 0x4002000C by omega)).trans
  (Chip.rd_timedOut c (show 0x40024080 + 128 * k + 4 * j ≠ 0x4002404C + 128 * k by omega)
    (show 0x40024080 + 128 * k + 4 * j ≠ 0x40024074 + 128 * k by omega) (show 0x40024080 + 128 * k + 4 * j ≠ 0x40020010 by omega))

theorem wdgQuiet_expire {c : Chip} {k n : Nat} (h : WatchdogQuiet c k n) : WatchdogQuiet (c.expire k) k n := by
  refine h.of_eq ((Chip.rd_expire c (show 0x40024078 + 128 * k ≠ 0x40024048 + 128 * k by omega)
    (show 0x40024078 + 128 * k ≠ 0x4002000C by omega)).trans
    (Chip.rd_timedOut c (show 0x40024078 + 128 * k ≠ 0x4002404C + 128 * k by omega)
      (show 0x40024078 + 128 * k ≠ 0x40024074 + 128 * k by omega) (show 0x40024078 + 128 * k ≠ 0x40020010 by omega))) ?_
  rw [Chip.ctx_expire]

/-! ### The end of a wait -/

theorem wdgQuiet_mono {c : Chip} {k m n : Nat} (h : WatchdogQuiet c k n) (hmn : m ≤ n) : WatchdogQuiet c k m :=
  h.imp id fun h => by omega

theorem SlotBegun.lockBit {k : Nat} {c d : Chip} (h : SlotBegun k c d) : d.on (Fld.ORC_ST_LOCK k) = c.on (Fld.ORC_ST_LOCK k) :=
  Chip.on_rd (h.1 _ (show 0x40024048 + 128 * k ≠ 0x4002004C by omega) (show 0x40024048 + 128 * k ≠ 0x40024070 + 128 * k by omega))

/-- The slot in which a wait on the lock expires (R276). -/
theorem slot_expires {c : Chip} {k : Fin 4} (hst : c.ctxSt k.val = CtxSt.wait) (hl : c.on (Fld.ORC_ST_LOCK k.val) = false) (hnd : NoDispatch c k.val)
    (hw : WatchdogQuiet c k.val 1) (hc : (mword (c.ctx k.val).word).cnd = 0x20) (hp : (mword (c.ctx k.val).word).cpol = false)
    (hlock : c.on Fld.MER_STA_LOCK = false) (h0 : (c.ctx k.val).limit ≠ 0) (hn : (c.ctx k.val).limit ≤ (c.ctx k.val).k + 1) :
    ∃ d, SlotKept k.val c d ∧ OnlyMarks k.val (d.expire k.val) (c.runSlot k 0) := by
  obtain ⟨-, hev, -, -⟩ := id hnd
  have hb := slotBegun_start hev k.val 0
  obtain ⟨hword, hlim, hk⟩ := hb.hold
  refine ⟨_, hb.kept, ?_⟩
  unfold Chip.runSlot
  rw [Chip.slotOf_wait 0 hst hnd, Chip.holdSlot_expires (hb.lockBit.trans hl) (by rw [hword, Chip.test_lock hc hp, hb.kept.lock, hlock])
    (by rw [hlim]; exact h0) (by rw [hlim]; exact hn)]
  exact (onlyMarks_select _ _ _).trans (onlyMarks_wdgCount (wdgQuiet_select (wdgQuiet_expire (hb.kept.wdgQuiet hw)) _))

theorem Chip.setCtx_ctx (c : Chip) (k : Nat) : c.setCtx k (c.ctx k) = c := by
  unfold Chip.setCtx Chip.ctx
  match k with
  | 0 => rfl
  | 1 => rfl
  | 2 => rfl
  | _ + 3 => rfl

/-- A watchdog that does not run out within `n` slots: its count after them (R284). -/
theorem Chip.wdgCount_quiet {c : Chip} {k n : Nat} (h : WatchdogQuiet c k n) :
    ∃ w ≤ (c.ctx k).wdg + n, c.wdgCount k n = c.updCtx k fun x => { x with wdg := w } := by
  unfold Chip.wdgCount
  split
  · exact ⟨(c.ctx k).wdg, by omega, (Chip.setCtx_ctx c k).symm⟩
  · rename_i h0
    split
    · exact ⟨0, by omega, rfl⟩
    · dsimp only
      have hlt := h.resolve_left h0
      rw [if_neg]
      · exact ⟨(c.ctx k).wdg + n, le_refl _, rfl⟩
      · rw [Chip.ctx_updCtx]
        exact not_le.mpr hlt

/-- The slots that a wait skips with its condition false (R275): only the cycle, the wait's count and the watchdog's. -/
def Chip.skipped (c : Chip) (k j w : Nat) : Chip :=
  ((c.atSlot k (j - 1)).updCtx k fun x => { x with k := x.k + j, rref := false, remp := false, berr := false }).updCtx k fun x => { x with wdg := w }

theorem Chip.ctx_skipped {c : Chip} (h : c.orr.evq = []) (k j w : Nat) :
    (c.skipped k j w).ctx k = { c.ctx k with k := (c.ctx k).k + j, rref := false, remp := false, berr := false, wdg := w } := by
  unfold Chip.skipped
  rw [Chip.ctx_updCtx, Chip.ctx_updCtx, Chip.atSlot_quiet h]
  rfl

theorem Chip.rd_skipped {c : Chip} (h : c.orr.evq = []) (k j w : Nat) {a : Nat} (ha : a ≠ Reg.ORR_CYC) : (c.skipped k j w).rd a = c.rd a := by
  unfold Chip.skipped
  rw [Chip.rd_updCtx, Chip.rd_updCtx, Chip.atSlot_quiet h]
  exact Chip.rd_put_other _ _ ha

theorem Chip.evq_skipped {c : Chip} (h : c.orr.evq = []) (k j w : Nat) : (c.skipped k j w).orr.evq = [] := by
  unfold Chip.skipped
  rw [(Chip.orr_updCtx _ _ _).2.2, (Chip.orr_updCtx _ _ _).2.2, Chip.atSlot_quiet h]
  exact h

theorem noDispatch_skipped {c : Chip} {k : Nat} (h : NoDispatch c k) (j w : Nat) : NoDispatch (c.skipped k j w) k := by
  obtain ⟨hsel, hev, hp, hen⟩ := h
  refine ⟨?_, Chip.evq_skipped hev k j w, ?_, fun n hn => ?_⟩
  · rw [Chip.ctx_skipped hev]; exact hsel
  · exact (Chip.get_rd (Chip.rd_skipped hev k j w (show 0x40024070 + 128 * k ≠ 0x4002004C by omega))).trans hp
  · exact (Chip.on_rd (Chip.rd_skipped hev k j w (show 0x40024050 + 128 * k + 4 * n ≠ 0x4002004C by omega))).trans (hen n hn)

/-- What a slot leaves of the registers, of the address and of memory. -/
def SlotFrame (k : Nat) (c d : Chip) : Prop :=
  (∀ a, a ≠ Reg.ORR_CYC → a ≠ Reg.ORC_PEND k → a ≠ Reg.ORC_ST k → a ≠ Reg.ORR_STA → d.rd a = c.rd a) ∧ d.pc k = c.pc k ∧ d.mem = c.mem

theorem SlotKept.frame {k : Nat} {c d : Chip} (h : SlotKept k c d) : SlotFrame k c d := by
  obtain ⟨h1, h2, h3, -⟩ := h
  exact ⟨h1, h2, h3⟩

theorem SlotFrame.trans {k : Nat} {a b c : Chip} (h : SlotFrame k a b) (g : SlotFrame k b c) : SlotFrame k a c := by
  obtain ⟨h1, h2, h3⟩ := h
  obtain ⟨g1, g2, g3⟩ := g
  exact ⟨fun a p q r t => (g1 a p q r t).trans (h1 a p q r t), g2.trans h2, g3.trans h3⟩

theorem slotFrame_skipped {c : Chip} (h : c.orr.evq = []) (k j w : Nat) : SlotFrame k c (c.skipped k j w) := by
  refine ⟨fun a ha _ _ _ => Chip.rd_skipped h k j w ha, Chip.get_rd (Chip.rd_skipped h k j w (show 0x40024048 + 128 * k ≠ 0x4002004C by omega)), ?_⟩
  unfold Chip.skipped
  rw [Chip.mem_updCtx, Chip.mem_updCtx, Chip.atSlot_quiet h]
  rfl

theorem wdgQuiet_skipped {c : Chip} {k j w : Nat} (h : c.orr.evq = []) (hq : WatchdogQuiet c k (j + 1)) (hw : w ≤ (c.ctx k).wdg + j) :
    WatchdogQuiet (c.skipped k j w) k 1 := by
  have hus : (c.skipped k j w).get (Fld.ORC_WDG_US k) = c.get (Fld.ORC_WDG_US k) :=
    Chip.get_rd (Chip.rd_skipped h k j w (show 0x40024078 + 128 * k ≠ 0x4002004C by omega))
  unfold WatchdogQuiet Chip.wdgSlots at *
  rw [hus, Chip.ctx_skipped h]
  exact hq.imp id fun hq => by show w + 1 < _; omega

/-- A wait on the lock that stays false ends in the slot of its limit (R275, R276). -/
theorem waitTimeout_expires {c : Chip} {k : Fin 4} (hst : c.ctxSt k.val = CtxSt.wait) (hl : c.on (Fld.ORC_ST_LOCK k.val) = false)
    (hnd : NoDispatch c k.val) (hw : WatchdogQuiet c k.val ((c.ctx k.val).limit - (c.ctx k.val).k + 1))
    (hc : (mword (c.ctx k.val).word).cnd = 0x20) (hp : (mword (c.ctx k.val).word).cpol = false) (hlock : c.on Fld.MER_STA_LOCK = false)
    (hlt : (c.ctx k.val).k < (c.ctx k.val).limit) :
    ∃ d, SlotFrame k.val c d ∧ OnlyMarks k.val (d.expire k.val) (c.waitTimeout k) := by
  obtain ⟨hsel, hev, hpd, hen⟩ := id hnd
  have hpre : c.preemptor k.val = none := by
    refine Chip.preemptor_none fun n hn => ?_
    unfold Chip.pends
    rw [bitsOf_one_eq_one, hpd, Nat.zero_testBit]
  have hwaits : c.waits k.val = true := by
    unfold Chip.waits
    rw [hst, hl, hsel, hpre]
    rfl
  have hcond : (c.waits k.val && (c.ctx k.val).limit ≠ 0 && (c.ctx k.val).k < (c.ctx k.val).limit && c.orr.evq.isEmpty &&
      !c.test k.val (mword (c.ctx k.val).word) && (c.get (Fld.ORC_WDG_US k.val) = 0 ||
        (c.ctx k.val).wdg + ((c.ctx k.val).limit - (c.ctx k.val).k - 1) < c.wdgSlots k.val)) = true := by
    rw [hwaits, hev, Chip.test_lock hc hp, hlock]
    have h0 : (c.ctx k.val).limit ≠ 0 := by omega
    obtain h | h := hw
    · simp [h0, hlt, h]
    · have : (c.ctx k.val).wdg + ((c.ctx k.val).limit - (c.ctx k.val).k - 1) < c.wdgSlots k.val := by omega
      simp [h0, hlt, this]
  unfold Chip.waitTimeout
  dsimp only
  rw [if_pos hcond]
  by_cases hskip : (c.ctx k.val).limit - (c.ctx k.val).k - 1 = 0
  · rw [if_pos hskip]
    obtain ⟨d, hd, h⟩ := slot_expires hst hl hnd (wdgQuiet_mono hw (by omega)) hc hp hlock (by omega) (by omega)
    exact ⟨d, hd.frame, h⟩
  · rw [if_neg hskip]
    obtain ⟨j, hj⟩ : ∃ j, j = (c.ctx k.val).limit - (c.ctx k.val).k - 1 := ⟨_, rfl⟩
    rw [← hj]
    have hc1 : WatchdogQuiet ((c.atSlot k.val (j - 1)).updCtx k.val fun x => { x with k := x.k + j, rref := false, remp := false, berr := false })
        k.val j := by
      refine WatchdogQuiet.of_eq (wdgQuiet_mono hw (by omega)) ?_ ?_
      · rw [Chip.rd_updCtx, Chip.atSlot_quiet hev]
        exact Chip.rd_put_other _ _ (show 0x40024078 + 128 * k.val ≠ 0x4002004C by omega)
      · rw [Chip.ctx_updCtx, Chip.atSlot_quiet hev]
        rfl
    obtain ⟨w, hwle, hcount⟩ := Chip.wdgCount_quiet hc1
    rw [Chip.ctx_updCtx, Chip.atSlot_quiet hev] at hwle
    rw [hcount]
    have hrd : ∀ {a : Nat}, a ≠ Reg.ORR_CYC → (c.skipped k.val j w).rd a = c.rd a := fun ha => Chip.rd_skipped hev k.val j w ha
    have hx := Chip.ctx_skipped hev k.val j w
    obtain ⟨d, hd, h⟩ := slot_expires (c := c.skipped k.val j w) (k := k)
      ((Chip.get_rd (hrd (show 0x40024048 + 128 * k.val ≠ 0x4002004C by omega))).trans hst)
      ((Chip.on_rd (hrd (show 0x40024048 + 128 * k.val ≠ 0x4002004C by omega))).trans hl) (noDispatch_skipped hnd j w)
      (wdgQuiet_skipped hev (wdgQuiet_mono hw (by omega)) hwle) (by rw [hx]; exact hc) (by rw [hx]; exact hp)
      ((Chip.on_rd (hrd (by decide))).trans hlock) (by rw [hx]; show (c.ctx k.val).limit ≠ 0; omega)
      (by rw [hx]; show (c.ctx k.val).limit ≤ (c.ctx k.val).k + j + 1; omega)
    exact ⟨d, (slotFrame_skipped hev k.val j w).trans hd.frame, h⟩

/-- The end of a wait by its condition: the word acts in that slot (R275). -/
theorem waitSatisfied_acts {c : Chip} {k : Fin 4} (hst : c.ctxSt k.val = CtxSt.wait) (hl : c.on (Fld.ORC_ST_LOCK k.val) = false)
    (hnd : NoDispatch c k.val) (hph : (c.ctx k.val).pairHold = false) (hw : WatchdogQuiet c k.val 1)
    (hc : (mword (c.ctx k.val).word).cnd = 0x20) (hp : (mword (c.ctx k.val).word).cpol = false) (hlock : c.on Fld.MER_STA_LOCK = true)
    (hm : ({ mword (c.ctx k.val).word with wait := false }).plain = true) (hseq : (mword (c.ctx k.val).word).seq = 0)
    (hd : (mword (c.ctx k.val).word).dst = 0) :
    ∃ e m o f lc t, SlotKept k.val c e ∧ e.ctxSt k.val = CtxSt.run ∧ m.seq = 0 ∧
      OnlyMarks k.val (e.wordResult k m o f lc t) (c.waitSatisfied k) := by
  obtain ⟨hsel, hev, hpd, -⟩ := id hnd
  have hpre : c.preemptor k.val = none := by
    refine Chip.preemptor_none fun n hn => ?_
    unfold Chip.pends
    rw [bitsOf_one_eq_one, hpd, Nat.zero_testBit]
  have hwaits : (c.waits k.val && c.test k.val (mword (c.ctx k.val).word)) = true := by
    unfold Chip.waits
    rw [hst, hl, hsel, hpre, Chip.test_lock hc hp, hlock]
    rfl
  have hb := slotBegun_start hev k.val 0
  obtain ⟨hword, -, -⟩ := hb.hold
  have hk := hb.kept
  obtain ⟨-, -, -, hstk, -, hpair, -⟩ := id hk
  obtain ⟨e, o, he, hrun, -, hx⟩ := Chip.execWord_plain (c := (c.atSlot k.val 0).latchLevels k.val) (k := k)
    (m := { mword (c.ctx k.val).word with wait := false }) (t := true) (again := []) (cyc := c.nextCycle k.val) hm
    (by show (mword _).seq ≤ 5; omega) (by simp [Chip.stackFault, hseq]) (Or.inl hd) (hpair.trans hph)
  refine ⟨e, { mword (c.ctx k.val).word with wait := false }, o, ((c.atSlot k.val 0).latchLevels k.val).flagsOf k.val,
    (((c.atSlot k.val 0).latchLevels k.val).ctx k.val).lc, true, hk.trans he, hrun, hseq, ?_⟩
  unfold Chip.waitSatisfied Chip.runSlot
  rw [if_pos hwaits, Chip.slotOf_wait 0 hst hnd, Chip.holdSlot_acts (hb.lockBit.trans hl) (by rw [hword, Chip.test_lock hc hp, hk.lock, hlock]),
    hword]
  have hexec : ((c.atSlot k.val 0).latchLevels k.val).execWord k (mword (c.ctx k.val).word) true [] (c.nextCycle k.val) =
      ((c.atSlot k.val 0).latchLevels k.val).execWord k { mword (c.ctx k.val).word with wait := false } true [] (c.nextCycle k.val) := rfl
  rw [hexec, hx]
  exact (onlyMarks_select _ _ _).trans (onlyMarks_wdgCount (wdgQuiet_select (wdgQuiet_wordResult ((hk.trans he).wdgQuiet hw)
    (by show (mword _).seq ≤ 5; omega) _ _ _ _) _))

/-! ### Words that stop their context (R281, R298) -/

theorem Chip.execWord_reserved {c : Chip} {k : Fin 4} {m : MWord} {t : Bool} {again : List Nat} {cyc : Nat} (h : m.reserved = true) :
    c.execWord k m t again cyc = c.ctxFault k.val 0x0704 := by
  unfold Chip.execWord
  exact if_pos h

theorem Chip.execWord_stackFault {c : Chip} {k : Fin 4} {m : MWord} {t : Bool} {again : List Nat} {cyc : Nat} (h : m.reserved = false)
    (hs : c.stackFault k.val m = true) : c.execWord k m t again cyc = c.ctxFault k.val 0x0701 := by
  unfold Chip.execWord
  exact (if_neg (by simp [h])).trans (if_pos hs)

/-- Settles O34: the slot of a word that faults, and the slots that end a wait. -/
theorem contextFaultsAndWaits : Obligations.ContextFaultsAndWaits := by
  unfold Obligations.ContextFaultsAndWaits
  refine ⟨fun s k hL hq => ⟨?_, ?_⟩, fun s k hL hst hl hnd hph hw => ?_⟩
  · extract_lets m d
    intro hwt
    have hgive : ∀ e : Chip, d.execWord k m (((s.chip.atSlot k.val 0).latchLevels k.val).test k.val m) [] (s.chip.nextCycle k.val) = e →
        Gives (.microwordExecute k 0) s ((e.select k.val none).wdgCount k.val 1) := fun e h => by
      refine gives_onL (f := fun c => c.runSlot k 0) hL rfl ?_
      rw [← h]
      exact congrArg (fun t => t.wdgCount k.val 1) (Chip.slotOf_quiet hq hwt)
    have hstk : (d.ctx k.val).stack = (s.chip.ctx k.val).stack := by
      obtain ⟨-, -, ⟨-, hev, -⟩, -⟩ := hq
      obtain ⟨-, -, -, h, -⟩ := slotKept_fetched (c := s.chip) (k := k.val) hev
      exact h
    refine ⟨fun hr => hgive _ (Chip.execWord_reserved hr), fun hr hs hlen => hgive _ (Chip.execWord_stackFault hr ?_),
      fun hr hs hemp => hgive _ (Chip.execWord_stackFault hr ?_)⟩
    · simp [Chip.stackFault, hs, hstk, hlen]
    · simp [Chip.stackFault, hs, hstk, hemp]
  · intro d
    obtain ⟨hst, -, hnd, -⟩ := hq
    obtain ⟨hsel, hev, -, -⟩ := id hnd
    have hb := slotBegun_start hev k.val 0
    have hpc : d.pc k.val = s.chip.pc k.val := hb.pc k.val
    obtain ⟨-, -, -, -, hecc, -⟩ := hb
    refine gives_onL (f := fun c => c.runSlot k 2) hL rfl ?_
    show (s.chip.slotOf k 2).wdgCount k.val 1 = _
    rw [Chip.slotOf_run 2 hst hev hsel, Chip.preemptor_begun hnd]
    have hf : d.fetchSlot k 2 [] (s.chip.nextCycle k.val) =
      ((({ d with orr := { d.orr with ecc := d.pc k.val :: d.orr.ecc.filter (fun x => x != d.pc k.val) } }).put Fld.ORR_ECE_ADDR
        (d.pc k.val)).set Fld.ORR_IST_ECC2).ctxFault k.val 0x0703 := by
      unfold Chip.fetchSlot
      exact if_pos rfl
    show ((d.fetchSlot k 2 [] (s.chip.nextCycle k.val)).select k.val none).wdgCount k.val 1 = _
    rw [hf, hpc, show d.orr.ecc = s.chip.orr.ecc from hecc]
  · intro m hc hp
    refine ⟨fun hlock hlt => ?_, fun hlock hm hseq hd => ?_⟩
    · obtain ⟨d, ⟨hr, hpc, hmem⟩, hres⟩ := waitTimeout_expires hst hl hnd hw hc hp hlock hlt
      refine (gives_onL (f := fun c => c.waitTimeout k) hL rfl rfl).runs ⟨?_, ?_, ?_, ?_, fun a => ?_, fun j hj => ?_⟩
      · rw [hres.on, Chip.tmox_expire]
      · rw [hres.on, Chip.ist_expire]
      · rw [hres.pc, Chip.pc_expire, hpc]
      · rw [hres.ctxSt, Chip.ctxSt_expire]
      · exact Chip.byte_congr (hres.mem.trans hmem) a
      · rw [hres.rd, Chip.rd_w_expire]
        exact hr _ (show 0x40024080 + 128 * k.val + 4 * j ≠ 0x4002004C by omega)
          (show 0x40024080 + 128 * k.val + 4 * j ≠ 0x40024070 + 128 * k.val by omega)
          (show 0x40024080 + 128 * k.val + 4 * j ≠ 0x40024048 + 128 * k.val by omega)
          (show 0x40024080 + 128 * k.val + 4 * j ≠ 0x4002000C by omega)
    · obtain ⟨e, m', o, f, lc, t, ⟨-, hpc, hmem, -⟩, hrun, hseq', hres⟩ :=
        waitSatisfied_acts hst hl hnd hph (wdgQuiet_mono hw (by omega)) hc hp hlock hm hseq hd
      have hs : m'.seq ≤ 5 := by omega
      refine (gives_onL (f := fun c => c.waitSatisfied k) hL rfl rfl).runs ⟨?_, ?_, fun a => ?_⟩
      · rw [hres.pc, Chip.wordResult_seq0 hseq', hpc]
      · rw [hres.ctxSt, Chip.ctxSt_wordResult hs, hrun]
      · exact Chip.byte_congr (hres.mem.trans ((Chip.mem_wordResult hs _ _ _ _).trans hmem)) a

end Sys2Proof.Machine
end

section
/-!
SUPPORT. Entries taken, contexts woken, stopped and restarted (R279–R284, R294, R296).
-/
namespace Sys2Proof.Machine

/-! ### An entry is taken (R279–R283) -/

theorem bitsOf_and_clear (a : Nat) {n : Nat} (hn : n < 8) : bitsOf ((a &&& (255 - 2 ^ n)) % 2 ^ 8) n 1 = 0 := by
  have hc : ∀ i < 8, (255 - 2 ^ i).testBit i = false := by decide
  rw [bitsOf_one, Nat.testBit_mod_two_pow, Nat.testBit_and, hc n hn]
  simp

/-- What an entry of kind CALL leaves: its vector, the address pushed, and the entry in service instead of pending (R280). -/
def Taken (k n back : Nat) (c d : Chip) : Prop :=
  d.pc k = c.get (Fld.ORC_DSP_VEC k n) ∧ d.ctxSt k = CtxSt.run ∧
    d.ctx k = { c.ctx k with stack := { addr := back % 4096, entry := some n } :: (c.ctx k).stack, sel := none } ∧
    bitsOf (d.get (Fld.ORC_PEND_PND k)) n 1 = 0 ∧ bitsOf (d.get (Fld.ORC_PEND_INSV k)) n 1 = 1 ∧ d.rd (Reg.ORC_WDG k) = c.rd (Reg.ORC_WDG k)

theorem taken_takeEntry {c : Chip} {k n : Nat} (back : Nat) (hn : n < 8) (hkind : c.on (Fld.ORC_DSP_KIND k n) = false)
    (hlen : (c.ctx k).stack.length < 8) : Taken k n back c (c.takeEntry k n back) := by
  unfold Chip.takeEntry
  dsimp only
  rw [hkind, if_neg (by decide), if_neg (by omega)]
  have hrd : ∀ (t : Chip) (v a : Nat), a ≠ Reg.ORC_ST k → a ≠ Reg.ORR_STA → ((t.setPc k v).setCtxSt k CtxSt.run).rd a = t.rd a :=
    fun t v a h1 h2 => (Chip.rd_setCtxSt _ h1 h2).trans (Chip.rd_setPc _ h1)
  refine ⟨?_, Chip.ctxSt_setCtxSt _ (by decide), ?_, ?_, ?_, ?_⟩
  · rw [Chip.pc_setCtxSt, Chip.pc_setPc]
    exact Nat.mod_eq_of_lt (RegMap.get_lt c.regs (Fld.ORC_DSP_VEC k n))
  · rw [Chip.ctx_setCtxSt, Chip.ctx_setPc, Chip.ctx_put, Chip.ctx_setStack, Chip.ctx_updCtx, Chip.ctx_put]
  · have h : ∀ (t : Chip) (v w : Nat) (l : List Frame), ((((t.setStack k l).put (Fld.ORC_PEND_INSV k) w).setPc k v).setCtxSt k CtxSt.run).get
        (Fld.ORC_PEND_PND k) = t.get (Fld.ORC_PEND_PND k) := fun t v w l => by
      refine (Chip.get_rd (hrd _ v _ (show 0x40024070 + 128 * k ≠ 0x40024048 + 128 * k by omega)
        (show 0x40024070 + 128 * k ≠ 0x4002000C by omega))).trans ((Chip.get_put_apart _ _ rfl (by simp [Field.apart])).trans ?_)
      exact Chip.get_rd (Chip.rd_setStack t l (show 0x40024070 + 128 * k ≠ 0x40024048 + 128 * k by omega))
    rw [h, Chip.get_updCtx, Chip.get_put_same _ _ rfl]
    exact bitsOf_and_clear _ hn
  · refine (congrArg (fun x => bitsOf x n 1) (Chip.get_rd (hrd _ _ _ (show 0x40024070 + 128 * k ≠ 0x40024048 + 128 * k by omega)
      (show 0x40024070 + 128 * k ≠ 0x4002000C by omega)))).trans ?_
    rw [Chip.get_put_same _ _ rfl]
    exact bitsOf_or_two_pow hn
  · refine (hrd _ _ _ (show 0x40024078 + 128 * k ≠ 0x40024048 + 128 * k by omega) (show 0x40024078 + 128 * k ≠ 0x4002000C by omega)).trans
      ((Chip.rd_put_other _ _ (show 0x40024078 + 128 * k ≠ 0x40024070 + 128 * k by omega)).trans
        ((Chip.rd_setStack _ _ (show 0x40024078 + 128 * k ≠ 0x40024048 + 128 * k by omega)).trans ?_))
    rw [Chip.rd_updCtx]
    exact Chip.rd_put_other _ _ (show 0x40024078 + 128 * k ≠ 0x40024070 + 128 * k by omega)

/-- A running context takes the entry that its last slot has selected, where that is still pending (R280, R282). -/
theorem Chip.slotOf_takes {c : Chip} {k : Fin 4} {n : Nat} (err : Nat) (hst : c.ctxSt k.val = CtxSt.run) (hev : c.orr.evq = [])
    (hsel : (c.ctx k.val).sel = some n) (hn : n < 8) (hp : c.pends k.val n = true) (he : c.on (Fld.ORC_DSP_EN k.val n) = true) :
    c.slotOf k err = ((((c.atSlot k.val 0).latchLevels k.val).quiet k.val).takeEntry k.val n (c.pc k.val)) := by
  have hb := slotBegun_start hev k.val 0
  have h1 : ((c.atSlot k.val 0).latchLevels k.val).ctxSt k.val = CtxSt.run := (hb.ctxSt _).trans hst
  have h2 : (((c.atSlot k.val 0).latchLevels k.val).ctx k.val).sel = some n := hb.sel.trans hsel
  have h3 : ((c.atSlot k.val 0).latchLevels k.val).pends k.val n = true := by
    refine Chip.pends_latchLevels hn ?_ ?_
    · rw [Chip.atSlot_quiet hev]
      unfold Chip.pends
      rw [Chip.get_rd (Chip.rd_put_other _ _ (show 0x40024070 + 128 * k.val ≠ 0x4002004C by omega))]
      exact hp
    · rw [Chip.atSlot_quiet hev]
      exact (Chip.on_rd (Chip.rd_put_other _ _ (show 0x40024050 + 128 * k.val + 4 * n ≠ 0x4002004C by omega))).trans he
  have hback : ((c.atSlot k.val 0).latchLevels k.val).backAddr k.val = c.pc k.val := by
    unfold Chip.backAddr
    rw [h1, if_neg (by decide), hb.pc]
  unfold Chip.slotOf
  dsimp only
  rw [h1, h2, if_neg (by decide), if_neg (by decide), show Option.filter _ (some n) = some n from by simp [Option.filter, h3]]
  dsimp only
  rw [hback]

/-- The slot that takes an entry, with what the watchdog counts. -/
theorem slot_takes {c : Chip} {k : Fin 4} {n : Nat} (hst : c.ctxSt k.val = CtxSt.run) (hev : c.orr.evq = [])
    (hsel : (c.ctx k.val).sel = some n) (hn : n < 8) (hp : c.pends k.val n = true) (he : c.on (Fld.ORC_DSP_EN k.val n) = true)
    (hw : WatchdogQuiet c k.val 1) (hkind : c.on (Fld.ORC_DSP_KIND k.val n) = false) (hlen : (c.ctx k.val).stack.length < 8) :
    (c.runSlot k 0).pc k.val = c.get (Fld.ORC_DSP_VEC k.val n) ∧ (c.runSlot k 0).ctxSt k.val = CtxSt.run ∧
      ((c.runSlot k 0).ctx k.val).stack = { addr := c.pc k.val, entry := some n } :: (c.ctx k.val).stack ∧
      ((c.runSlot k 0).ctx k.val).sel = none ∧ bitsOf ((c.runSlot k 0).get (Fld.ORC_PEND_PND k.val)) n 1 = 0 ∧
      bitsOf ((c.runSlot k 0).get (Fld.ORC_PEND_INSV k.val)) n 1 = 1 := by
  obtain ⟨hrd, hctx⟩ : (∀ a, a ≠ Reg.ORR_CYC → a ≠ Reg.ORC_PEND k.val → (((c.atSlot k.val 0).latchLevels k.val).quiet k.val).rd a = c.rd a) ∧
      (((((c.atSlot k.val 0).latchLevels k.val).quiet k.val).ctx k.val).stack = (c.ctx k.val).stack ∧
        ((((c.atSlot k.val 0).latchLevels k.val).quiet k.val).ctx k.val).wdg = (c.ctx k.val).wdg) := by
    have hb := slotBegun_start hev k.val 0
    obtain ⟨hr, -, -, -, -, -, x, e⟩ := hb
    refine ⟨hr, ?_⟩
    unfold Chip.quiet
    rw [Chip.ctx_updCtx, e]
    exact ⟨rfl, rfl⟩
  have hdsp : ∀ f : Field, f.addr = Reg.ORC_DSP k.val n → (((c.atSlot k.val 0).latchLevels k.val).quiet k.val).get f = c.get f := fun f hf =>
    Chip.get_rd (hrd _ (by rw [hf]; show 0x40024050 + 128 * k.val + 4 * n ≠ 0x4002004C; omega)
      (by rw [hf]; show 0x40024050 + 128 * k.val + 4 * n ≠ 0x40024070 + 128 * k.val; omega))
  obtain ⟨hpc, hrun, hx, hpnd, hins, hwdg⟩ := taken_takeEntry (c := ((c.atSlot k.val 0).latchLevels k.val).quiet k.val) (k := k.val) (n := n)
    (c.pc k.val) hn ((congrArg (· != 0) (hdsp _ rfl)).trans hkind) (by rw [hctx.1]; exact hlen)
  have hq : WatchdogQuiet ((((c.atSlot k.val 0).latchLevels k.val).quiet k.val).takeEntry k.val n (c.pc k.val)) k.val 1 :=
    hw.of_eq (hwdg.trans (hrd _ (show 0x40024078 + 128 * k.val ≠ 0x4002004C by omega)
      (show 0x40024078 + 128 * k.val ≠ 0x40024070 + 128 * k.val by omega))) (by rw [hx]; exact hctx.2)
  obtain ⟨w, -, hcount⟩ := Chip.wdgCount_quiet hq
  unfold Chip.runSlot
  rw [Chip.slotOf_takes 0 hst hev hsel hn hp he, hcount]
  refine ⟨hpc.trans (hdsp _ rfl), hrun, ?_, ?_, hpnd, hins⟩
  · rw [Chip.ctx_updCtx, hx]
    show ({ addr := c.pc k.val % 4096, entry := some n } : Frame) :: _ = _
    rw [Nat.mod_eq_of_lt (Chip.pc_lt c k.val), hctx.1]
  · rw [Chip.ctx_updCtx, hx]

theorem find?_range_of_unique {p : Nat → Bool} {m n : Nat} (hn : n < m) (h : ∀ j < m, p j = decide (j = n)) : (List.range m).find? p = some n := by
  rw [List.find?_range_eq_some]
  refine ⟨by simpa using h n hn, by simpa using hn, fun j hj => ?_⟩
  rw [h j (by omega), decide_eq_false (by omega)]
  rfl

/-- A context leaves SLEEP at the address behind its YIELD with an entry selected (R283). -/
def Chip.woken (c : Chip) (k n : Nat) : Chip :=
  (((c.quiet k).setPc k (c.pc k + 1)).setCtxSt k CtxSt.run).updCtx k fun x => { x with sel := some n }

theorem Chip.rd_woken (c : Chip) (k n : Nat) {a : Nat} (h1 : a ≠ Reg.ORC_ST k) (h2 : a ≠ Reg.ORR_STA) : (c.woken k n).rd a = c.rd a := by
  unfold Chip.woken
  rw [Chip.rd_updCtx, Chip.rd_setCtxSt _ h1 h2, Chip.rd_setPc _ h1]
  rfl

theorem Chip.ctx_woken (c : Chip) (k n : Nat) :
    (c.woken k n).ctx k = { c.ctx k with rref := false, remp := false, berr := false, sel := some n } := by
  unfold Chip.woken
  rw [Chip.ctx_updCtx, Chip.ctx_setCtxSt, Chip.ctx_setPc]
  unfold Chip.quiet
  rw [Chip.ctx_updCtx]

theorem Chip.evq_woken (c : Chip) (k n : Nat) : (c.woken k n).orr.evq = c.orr.evq := by
  unfold Chip.woken
  rw [(Chip.orr_updCtx _ _ _).2.2]
  exact (Chip.orr_updCtx c k fun x => { x with rref := false, remp := false, berr := false }).2.2

theorem Chip.ctxSt_woken (c : Chip) (k n : Nat) : (c.woken k n).ctxSt k = CtxSt.run := by
  unfold Chip.woken
  rw [Chip.ctxSt_updCtx, Chip.ctxSt_setCtxSt _ (by decide)]

theorem Chip.pc_woken (c : Chip) (k n : Nat) : (c.woken k n).pc k = (c.pc k + 1) % 4096 := by
  unfold Chip.woken
  rw [Chip.pc_updCtx, Chip.pc_setCtxSt, Chip.pc_setPc]

/-- A sleeping context with an entry pending wakes and has it selected (R283). -/
theorem slot_wakes {c : Chip} {k : Fin 4} {n : Nat} (hst : c.ctxSt k.val = CtxSt.sleep) (hev : c.orr.evq = []) (hsel : (c.ctx k.val).sel = none)
    (hn : n < 8) (hp : c.get (Fld.ORC_PEND_PND k.val) = 2 ^ n) (hen : ∀ j < 8, c.on (Fld.ORC_DSP_EN k.val j) = decide (j = n))
    (hw : WatchdogQuiet c k.val 2) :
    (c.runSlot k 0).ctxSt k.val = CtxSt.run ∧ (c.runSlot k 0).orr.evq = [] ∧ ((c.runSlot k 0).ctx k.val).sel = some n ∧
      (c.runSlot k 0).pends k.val n = true ∧ (∀ f : Field, f.addr = Reg.ORC_DSP k.val n → (c.runSlot k 0).get f = c.get f) ∧
      WatchdogQuiet (c.runSlot k 0) k.val 1 ∧ ((c.runSlot k 0).ctx k.val).stack = (c.ctx k.val).stack ∧
      (c.runSlot k 0).pc k.val = (c.pc k.val + 1) % 4096 := by
  have hb := slotBegun_start hev k.val 0
  have hfr : ∀ f : Field, f.addr = Reg.ORC_DSP k.val n → ((c.atSlot k.val 0).latchLevels k.val).get f = c.get f := fun f hf =>
    hb.get f (by rw [hf]; show 0x40024050 + 128 * k.val + 4 * n ≠ 0x4002004C; omega)
      (by rw [hf]; show 0x40024050 + 128 * k.val + 4 * n ≠ 0x40024070 + 128 * k.val; omega)
  have hqst : ((c.atSlot k.val 0).latchLevels k.val).ctxSt k.val = CtxSt.sleep := (hb.ctxSt _).trans hst
  have hqsel : (((c.atSlot k.val 0).latchLevels k.val).ctx k.val).sel = none := hb.sel.trans hsel
  have hpends : ∀ j < 8, ((c.atSlot k.val 0).latchLevels k.val).pends k.val j = decide (j = n) := by
    intro j hj
    rw [Chip.atSlot_quiet hev]
    have hen' : (c.put Fld.ORR_CYC_N ((c.nextCycle k.val + 4 * 0) % 2 ^ 32)).on (Fld.ORC_DSP_EN k.val j) = decide (j = n) :=
      (Chip.on_rd (Chip.rd_put_other _ _ (show 0x40024050 + 128 * k.val + 4 * j ≠ 0x4002004C by omega))).trans (hen j hj)
    by_cases e : j = n
    · subst e
      rw [decide_eq_true rfl] at hen' ⊢
      refine Chip.pends_latchLevels hj ?_ hen'
      unfold Chip.pends
      rw [bitsOf_one_eq_one, Chip.get_rd (Chip.rd_put_other _ _ (show 0x40024070 + 128 * k.val ≠ 0x4002004C by omega)), hp,
        Nat.testBit_two_pow_self]
    · rw [decide_eq_false e] at hen' ⊢
      exact Chip.not_pends_latchLevels hen'
  have hlow : ((c.atSlot k.val 0).latchLevels k.val).lowestPending k.val = some n := find?_range_of_unique hn hpends
  have hslot : c.slotOf k 0 = ((c.atSlot k.val 0).latchLevels k.val).woken k.val n := by
    unfold Chip.slotOf
    dsimp only
    rw [hqst, hqsel, hlow]
    rfl
  have hwk : ∀ {a : Nat}, a ≠ Reg.ORC_ST k.val → a ≠ Reg.ORR_STA →
      (((c.atSlot k.val 0).latchLevels k.val).woken k.val n).rd a = ((c.atSlot k.val 0).latchLevels k.val).rd a :=
    fun h1 h2 => Chip.rd_woken _ _ _ h1 h2
  have hctx := Chip.ctx_woken ((c.atSlot k.val 0).latchLevels k.val) k.val n
  obtain ⟨hr, -, -, -, -, hevq, x, hx⟩ := id hb
  have hwdg : (((c.atSlot k.val 0).latchLevels k.val).woken k.val n).rd (Reg.ORC_WDG k.val) = c.rd (Reg.ORC_WDG k.val) :=
    (hwk (show 0x40024078 + 128 * k.val ≠ 0x40024048 + 128 * k.val by omega) (show 0x40024078 + 128 * k.val ≠ 0x4002000C by omega)).trans
      (hr _ (show 0x40024078 + 128 * k.val ≠ 0x4002004C by omega) (show 0x40024078 + 128 * k.val ≠ 0x40024070 + 128 * k.val by omega))
  have hw1 : WatchdogQuiet (((c.atSlot k.val 0).latchLevels k.val).woken k.val n) k.val 1 :=
    (wdgQuiet_mono hw (by omega)).of_eq hwdg (by rw [hctx, hx])
  obtain ⟨w, hwle, hcount⟩ := Chip.wdgCount_quiet hw1
  rw [hctx, hx] at hwle
  unfold Chip.runSlot
  rw [hslot, hcount]
  refine ⟨?_, ?_, ?_, ?_, fun f hf => ?_, ?_, ?_, ?_⟩
  · rw [Chip.ctxSt_updCtx, Chip.ctxSt_woken]
  · rw [(Chip.orr_updCtx _ _ _).2.2, Chip.evq_woken, hevq, hev]
  · rw [Chip.ctx_updCtx, hctx]
  · have h := hpends n hn
    unfold Chip.pends at h ⊢
    rw [Chip.get_updCtx, Chip.get_rd (hwk (show 0x40024070 + 128 * k.val ≠ 0x40024048 + 128 * k.val by omega)
      (show 0x40024070 + 128 * k.val ≠ 0x4002000C by omega)), h]
    exact decide_eq_true rfl
  · rw [Chip.get_updCtx]
    exact (Chip.get_rd (hwk (by rw [hf]; show 0x40024050 + 128 * k.val + 4 * n ≠ 0x40024048 + 128 * k.val; omega)
      (by rw [hf]; show 0x40024050 + 128 * k.val + 4 * n ≠ 0x4002000C; omega))).trans (hfr f hf)
  · have hus : (((c.atSlot k.val 0).latchLevels k.val).woken k.val n).get (Fld.ORC_WDG_US k.val) = c.get (Fld.ORC_WDG_US k.val) := Chip.get_rd hwdg
    unfold WatchdogQuiet Chip.wdgSlots at *
    rw [Chip.get_updCtx, hus, Chip.ctx_updCtx]
    exact hw.imp id fun h => by show w + 1 < _; have hwle' : w ≤ (c.ctx k.val).wdg + 1 := hwle; omega
  · rw [Chip.ctx_updCtx, hctx, hx]
  · rw [Chip.pc_updCtx, Chip.pc_woken, hb.pc]

/-! ### ORC.CMD (R296) -/

theorem commandReg_orcCmd {op k : Nat} (ho : op = 1 ∨ op = 2) (hk : k < 4) : commandReg Reg.ORC_CMD (BitVec.ofNat 32 (256 * op + k)) = true := by
  obtain rfl | rfl := ho
  · interval_cases k <;> rfl
  · interval_cases k <;> rfl

/-- The command word of ORC.CMD holds the context in bits 0 and 1, STOP or RESTART above. -/
theorem bitsOf_orcCmd : ∀ op ∈ [1, 2], ∀ k < 4,
    bitsOf (BitVec.ofNat 32 (256 * op + k)).toNat 0 2 = k ∧ bitsOf (BitVec.ofNat 32 (256 * op + k)).toNat 8 2 = op := by decide

theorem gives_orcCmd {i : Instr} {s : State} {m : Master} {op k : Nat} (ho : op = 1 ∨ op = 2) (hk : k < 4)
    (e : exec i s = s.act fun c => c.regWrite m Reg.ORC_CMD (BitVec.ofNat 32 (256 * op + k)))
    (acc : Accepts s.chip m Reg.ORC_CMD (BitVec.ofNat 32 (256 * op + k))) :
    Gives i s (if op = 1 then s.chip.stopCtx k else s.chip.startCtx k).afterWrite := by
  refine gives_command e acc (commandReg_orcCmd ho hk) rfl ?_
  obtain ⟨hk', ho'⟩ := bitsOf_orcCmd op (by simpa using ho) k hk
  show (St.ok, s.chip.orcCmd _) = _
  unfold Chip.orcCmd
  rw [hk', ho']

/-- Settles O35: the slots that take an entry or wake a context, and what the commands of a context do. -/
theorem dispatchAndControl : Obligations.DispatchAndControl := by
  unfold Obligations.DispatchAndControl
  refine ⟨⟨fun s k n hL hst hsel hev hw hp he hkind hlen => ?_, fun s k n hL hst hsel hev hw hen hp hkind hlen => ?_⟩,
    fun s k hL hr hus => ?_, fun s k n hL ht => ?_, fun s m k acc => ⟨fun h => ?_, fun h1 h2 => ?_⟩, fun s m k acc => ?_⟩
  · have hpnd : s.chip.pends k.val n.val = true := by
      unfold Chip.pends
      rw [hp]
      rfl
    obtain ⟨h1, h2, h3, h4, h5, h6⟩ := slot_takes hst hev hsel n.isLt hpnd he hw hkind hlen
    refine (gives_onL (f := fun c => c.dispatchPreempt k) hL rfl ?_).runs ⟨h1, h2, h3, h4, h5, h6⟩
    show s.chip.dispatchPreempt k = s.chip.runSlot k 0
    unfold Chip.dispatchPreempt
    dsimp only
    rw [hst, hsel]
    exact (if_pos (by simp)).trans (if_pos rfl)
  · obtain ⟨h1, h2, h3, h4, h5, h6, h7, h8⟩ := slot_wakes hst hev hsel n.isLt hp hen hw
    obtain ⟨g1, g2, g3, -, -, -⟩ := slot_takes h1 h2 h3 n.isLt h4 ((congrArg (· != 0) (h5 _ rfl)).trans ((hen n.val n.isLt).trans
      (decide_eq_true rfl)))
      h6 ((congrArg (· != 0) (h5 _ rfl)).trans hkind) (by rw [h7]; exact hlen)
    refine (gives_onL (f := fun c => c.yieldWake k) hL rfl ?_).runs ⟨g1.trans (h5 _ rfl), g2, ?_⟩
    · show s.chip.yieldWake k = (s.chip.runSlot k 0).runSlot k 0
      unfold Chip.yieldWake
      have hlow : (s.chip.lowestPending k.val).isSome = true := by
        unfold Chip.lowestPending
        rw [List.find?_isSome]
        refine ⟨n.val, by simp, ?_⟩
        unfold Chip.pends
        rw [bitsOf_one_eq_one, hp, Nat.testBit_two_pow_self]
      rw [hst, hlow]
      rfl
    · rw [g3, h7, h8]
  · refine gives_onL (f := fun c => c.ctxWatchdog k.val) hL rfl (if_pos ?_)
    simp [hr, hus]
  · refine gives_onL (f := fun c => c.timerExpiry k.val n.val) hL rfl ?_
    show s.chip.timerExpiry k.val n.val = _
    obtain ⟨t, h⟩ := Option.isSome_iff_exists.mp ht
    unfold Chip.timerExpiry
    rw [h]
  · have g := gives_orcCmd (op := 1) (i := .contextStop m k) (Or.inl rfl) k.isLt rfl acc
    have hs : s.chip.stopCtx k.val = (s.chip.updCtx k.val fun x => { x with memData := none, saved := none }).setCtxSt k.val CtxSt.stopped :=
      if_neg (by obtain h | h := h <;> simp [h])
    rw [if_pos rfl, hs] at g
    exact g
  · have g := gives_orcCmd (op := 1) (i := .contextStop m k) (Or.inl rfl) k.isLt rfl acc
    have hs : s.chip.stopCtx k.val = s.chip.updCtx k.val fun x => { x with stopAfter := true } := if_pos (by simp [h1, h2])
    rw [if_pos rfl, hs] at g
    exact g
  · exact gives_orcCmd (op := 2) (i := .contextRestart m k) (Or.inr rfl) k.isLt rfl acc

end Sys2Proof.Machine
end

section
/-!
SUPPORT. The microword banks exchanged and the contexts started (R291, R292).
-/
namespace Sys2Proof.Machine

/-! ### Two ranges of memory exchanged (R291) -/

/-- The bytes of a list are moved by `f`; a byte at no image of an address keeps its value. -/
theorem memFind_moved_other (f : Nat → Nat) : ∀ (l m : List Host.Cell) (x : Nat), (∀ c ∈ l, f c.1 ≠ x) →
    memFind (l.foldl (fun t c => memWrite t (f c.1) c.2) m) x = memFind m x
  | [], _, _, _ => rfl
  | c :: l, m, x, h => by
    rw [List.foldl_cons, memFind_moved_other f l _ x fun y hy => h y (List.mem_cons_of_mem _ hy), memFind_write,
      if_neg (Ne.symm (h c (List.mem_cons_self)))]

theorem memWfFrom_ge : ∀ {l : List Host.Cell} {lo : Nat}, memWfFrom lo l = true → ∀ c ∈ l, lo ≤ c.1
  | [], _, _, _, h => absurd h (List.not_mem_nil)
  | (k, b) :: l, lo, hw, c, h => by
    simp only [memWfFrom, Bool.and_eq_true, decide_eq_true_eq] at hw
    obtain ⟨⟨hlo, -⟩, hl⟩ := hw
    obtain rfl | h := List.mem_cons.mp h
    · exact hlo
    · exact le_trans (by omega) (memWfFrom_ge hl c h)

/-- A byte at the image of an address takes the value listed for that address. -/
theorem memFind_moved {f : Nat → Nat} {P : Nat → Prop} (hf : ∀ a b, P a → P b → f a = f b → a = b) :
    ∀ (l m : List Host.Cell) (lo y : Nat), memWfFrom lo l = true → (∀ c ∈ l, P c.1) → P y → memFind m (f y) = 0#8 →
      memFind (l.foldl (fun t c => memWrite t (f c.1) c.2) m) (f y) = memFind l y
  | [], _, _, _, _, _, _, h => h
  | (k, b) :: l, m, lo, y, hw, hP, hy, h0 => by
    simp only [memWfFrom, Bool.and_eq_true, decide_eq_true_eq] at hw
    obtain ⟨-, hl⟩ := hw
    have hPl : ∀ c ∈ l, P c.1 := fun c hc => hP c (List.mem_cons_of_mem _ hc)
    have hPk : P k := hP _ List.mem_cons_self
    rw [List.foldl_cons]
    show _ = if k = y then b else memFind l y
    by_cases e : k = y
    · subst e
      rw [if_pos rfl, memFind_moved_other f l _ (f k), memFind_write, if_pos rfl]
      intro c hc e
      have h1 := hf _ _ (hPl c hc) hPk e
      have h2 := memWfFrom_ge hl c hc
      omega
    · rw [if_neg e]
      refine memFind_moved hf l _ (k + 1) y hl hPl hy ?_
      rw [memFind_write, if_neg fun e' => e (hf _ _ hPk hy e'.symm)]
      exact h0

theorem Chip.foldl_setByte_mem (f : Nat → Nat) : ∀ (l : List Host.Cell) (c : Chip),
    (l.foldl (fun t x => t.setByte (f x.1) x.2) c).mem = l.foldl (fun t x => memWrite t (f x.1) x.2) c.mem
  | [], _ => rfl
  | _ :: l, _ => Chip.foldl_setByte_mem f l _

theorem Chip.foldl_setByte_only (f : Nat → Nat) : ∀ (l : List Host.Cell) (c : Chip),
    l.foldl (fun t x => t.setByte (f x.1) x.2) c = { c with mem := (l.foldl (fun t x => t.setByte (f x.1) x.2) c).mem }
  | [], _ => rfl
  | x :: l, c => by
    have := Chip.foldl_setByte_only f l (c.setByte (f x.1) x.2)
    rw [List.foldl_cons, this]
    rfl

/-- The cells of `x … x + n - 1`. -/
def cellsIn (m : List Host.Cell) (x n : Nat) : List Host.Cell := m.filter fun c => x ≤ c.1 && c.1 < x + n

theorem memFind_cellsIn (m : List Host.Cell) (x n a : Nat) : memFind (cellsIn m x n) a = if x ≤ a ∧ a < x + n then memFind m a else 0#8 := by
  have := memFind_filter m (fun k => x ≤ k && k < x + n) a
  unfold cellsIn
  rw [this]
  congr 1
  simp

theorem mem_cellsIn {m : List Host.Cell} {x n : Nat} {c : Host.Cell} (h : c ∈ cellsIn m x n) : x ≤ c.1 ∧ c.1 < x + n := by
  simpa using (List.mem_filter.mp h).2

/-- The cells outside both ranges. -/
def cellsOut (m : List Host.Cell) (a b n : Nat) : List Host.Cell :=
  m.filter fun c => !(a ≤ c.1 && c.1 < a + n) && !(b ≤ c.1 && c.1 < b + n)

theorem memFind_cellsOut (m : List Host.Cell) (a b n x : Nat) :
    memFind (cellsOut m a b n) x = if (a ≤ x ∧ x < a + n) ∨ (b ≤ x ∧ x < b + n) then 0#8 else memFind m x := by
  have := memFind_filter m (fun k => !(a ≤ k && k < a + n) && !(b ≤ k && k < b + n)) x
  unfold cellsOut
  rw [this]
  by_cases h1 : a ≤ x ∧ x < a + n
  · simp [h1]
  · by_cases h2 : b ≤ x ∧ x < b + n
    · simp [h2]
    · rw [if_pos (by simp only [Bool.and_eq_true, Bool.not_eq_true', Bool.and_eq_false_iff, decide_eq_false_iff_not]; omega), if_neg (by tauto)]

theorem Chip.mem_swapRanges (c : Chip) (a b n : Nat) : (c.swapRanges a b n).mem =
    (cellsIn c.mem b n).foldl (fun t x => memWrite t (x.1 - b + a) x.2)
      ((cellsIn c.mem a n).foldl (fun t x => memWrite t (x.1 - a + b) x.2) (cellsOut c.mem a b n)) :=
  (Chip.foldl_setByte_mem (fun x => x - b + a) _ _).trans
    (congrArg (fun m => List.foldl (fun t x => memWrite t (x.1 - b + a) x.2) m (cellsIn c.mem b n)) (Chip.foldl_setByte_mem (fun x => x - a + b) _ _))

theorem Chip.swapRanges_only (c : Chip) (a b n : Nat) : c.swapRanges a b n = { c with mem := (c.swapRanges a b n).mem } := by
  unfold Chip.swapRanges
  dsimp only
  rw [Chip.foldl_setByte_only (fun x => x - b + a), Chip.foldl_setByte_only (fun x => x - a + b)]

/-- The exchange of two ranges apart from each other. -/
theorem memFind_swapRanges {c : Chip} (hw : Memory.wf c.mem = true) {a b n : Nat} (hab : a + n ≤ b) :
    (∀ i < n, memFind (c.swapRanges a b n).mem (a + i) = memFind c.mem (b + i) ∧ memFind (c.swapRanges a b n).mem (b + i) = memFind c.mem (a + i)) ∧
      ∀ x, (x < a ∨ a + n ≤ x) → (x < b ∨ b + n ≤ x) → memFind (c.swapRanges a b n).mem x = memFind c.mem x := by
  rw [Chip.mem_swapRanges]
  have hfirst : ∀ x, (x < b ∨ b + n ≤ x) → memFind ((cellsIn c.mem a n).foldl (fun t x => memWrite t (x.1 - a + b) x.2) (cellsOut c.mem a b n)) x =
      memFind (cellsOut c.mem a b n) x := fun x hx => by
    refine memFind_moved_other (fun y => y - a + b) _ _ x fun y hy e => ?_
    have := mem_cellsIn hy
    omega
  have hsecond : ∀ m x, (x < a ∨ a + n ≤ x) → memFind ((cellsIn c.mem b n).foldl (fun t x => memWrite t (x.1 - b + a) x.2) m) x = memFind m x :=
    fun m x hx => by
      refine memFind_moved_other (fun y => y - b + a) _ _ x fun y hy e => ?_
      have := mem_cellsIn hy
      omega
  refine ⟨fun i hi => ⟨?_, ?_⟩, fun x hxa hxb => ?_⟩
  · have h := memFind_moved (f := fun y => y - b + a) (P := fun y => b ≤ y) (fun u v hu hv e => by omega) (cellsIn c.mem b n)
      ((cellsIn c.mem a n).foldl (fun t x => memWrite t (x.1 - a + b) x.2) (cellsOut c.mem a b n)) 0 (b + i) (memWfFrom_filter _ _ _ hw)
      (fun y hy => (mem_cellsIn hy).1) (by omega) (by
        rw [hfirst _ (by omega), memFind_cellsOut, if_pos (by omega)])
    rw [show b + i - b + a = a + i by omega, memFind_cellsIn, if_pos (by omega)] at h
    exact h
  · have h := memFind_moved (f := fun y => y - a + b) (P := fun y => a ≤ y) (fun u v hu hv e => by omega) (cellsIn c.mem a n)
      (cellsOut c.mem a b n) 0 (a + i) (memWfFrom_filter _ _ _ hw) (fun y hy => (mem_cellsIn hy).1) (by omega)
      (by rw [memFind_cellsOut, if_pos (by omega)])
    rw [show a + i - a + b = b + i by omega, memFind_cellsIn, if_pos (by omega)] at h
    rw [hsecond _ _ (by omega)]
    exact h
  · rw [hsecond _ _ hxa, hfirst _ hxb, memFind_cellsOut, if_neg (by omega)]

/-! ### The start of the contexts (R292) -/

theorem Chip.rd_foldl_wr {f : Nat → Nat} {w : Word} {a : Nat} : ∀ (l : List Nat) (c : Chip), (∀ j ∈ l, a ≠ f j) →
    (l.foldl (fun t j => t.wr (f j) w) c).rd a = c.rd a
  | [], _, _ => rfl
  | j :: l, _, h => (Chip.rd_foldl_wr l _ fun i hi => h i (List.mem_cons_of_mem _ hi)).trans (Chip.rd_wr_other _ _ (h j List.mem_cons_self))

/-- A context with its own state cleared (R291, R292). -/
theorem Chip.rd_clearCtx (c : Chip) {k a : Nat} (h1 : a ≠ Reg.ORC_FLG k) (h2 : a ≠ Reg.ORC_PEND k) (h3 : a ≠ Reg.ORC_ST k)
    (h4 : ∀ j < 16, a ≠ Reg.ORC_W k j) : (c.clearCtx k).rd a = c.rd a := by
  unfold Chip.clearCtx
  dsimp only
  rw [Chip.rd_put_other _ _ h3, Chip.rd_wr_other _ _ h2, Chip.rd_wr_other _ _ h1, Chip.rd_foldl_wr _ _ fun j hj => h4 j (List.mem_range.mp hj),
    Chip.rd_setCtx]

/-- What a context's start writes: its own registers and RUNC. -/
theorem Chip.rd_startCtx (c : Chip) {k a : Nat} (h1 : a ≠ Reg.ORC_FLG k) (h2 : a ≠ Reg.ORC_PEND k) (h3 : a ≠ Reg.ORC_ST k) (h4 : a ≠ Reg.ORR_STA)
    (h5 : ∀ j < 16, a ≠ Reg.ORC_W k j) : (c.startCtx k).rd a = c.rd a := by
  unfold Chip.startCtx
  dsimp only
  rw [Chip.rd_setCtxSt _ h3 h4, Chip.rd_put_other _ _ h3, Chip.rd_setPc _ h3, Chip.rd_clearCtx c h1 h2 h3 h5]

theorem Chip.ctxSt_startCtx (c : Chip) (k : Nat) : (c.startCtx k).ctxSt k = CtxSt.run := Chip.ctxSt_setCtxSt _ (by decide)

theorem Chip.pc_startCtx (c : Chip) (k : Nat) : (c.startCtx k).pc k = c.get (Fld.ORC_ENT_A k) := by
  have hlt : c.get (Fld.ORC_ENT_A k) < 4096 := RegMap.get_lt c.regs (Fld.ORC_ENT_A k)
  have h : ((((c.clearCtx k).setPc k (c.get (Fld.ORC_ENT_A k))).put (Fld.ORC_ST_LOCK k)
      (((c.clearCtx k).setPc k (c.get (Fld.ORC_ENT_A k))).get (Fld.ORC_CFG_LOCK k)))).pc k = c.get (Fld.ORC_ENT_A k) := by
    refine (Chip.get_put_apart _ _ rfl (by simp [Field.apart])).trans ((Chip.pc_setPc _ _ _).trans (Nat.mod_eq_of_lt hlt))
  exact (Chip.pc_setCtxSt _ _ _ _).trans h

/-- A context's start leaves the state and the entry of another. -/
theorem Chip.rd_startCtx_apart (c : Chip) {k j : Nat} (h : j ≠ k) (a : Nat) (ha : a = Reg.ORC_ST j ∨ a = Reg.ORC_ENT j) :
    (c.startCtx k).rd a = c.rd a := by
  have h' : a = 0x40024048 + 128 * j ∨ a = 0x40024040 + 128 * j := ha
  refine Chip.rd_startCtx c ?_ ?_ ?_ ?_ fun i hi => ?_
  · show a ≠ 0x4002404C + 128 * k; omega
  · show a ≠ 0x40024070 + 128 * k; omega
  · show a ≠ 0x40024048 + 128 * k; omega
  · show a ≠ 0x4002000C; omega
  · show a ≠ 0x40024080 + 128 * k + 4 * i; omega

theorem Chip.foldl_startCtx_apart {k : Nat} : ∀ (l : List Nat) (c : Chip), k ∉ l → ∀ a, a = Reg.ORC_ST k ∨ a = Reg.ORC_ENT k →
    (l.foldl (fun t j => t.startCtx j) c).rd a = c.rd a
  | [], _, _, _, _ => rfl
  | j :: l, c, h, a, ha => by
    rw [List.mem_cons, not_or] at h
    exact (Chip.foldl_startCtx_apart l _ h.2 a ha).trans (Chip.rd_startCtx_apart c h.1 a ha)

theorem Chip.foldl_startCtx_runs {k : Nat} : ∀ (l : List Nat) (c : Chip), l.Nodup → k ∈ l →
    (l.foldl (fun t j => t.startCtx j) c).ctxSt k = CtxSt.run ∧ (l.foldl (fun t j => t.startCtx j) c).pc k = c.get (Fld.ORC_ENT_A k)
  | [], _, _, h => absurd h List.not_mem_nil
  | j :: l, c, hn, h => by
    obtain ⟨hj, hl⟩ := List.nodup_cons.mp hn
    by_cases e : k = j
    · subst e
      have hst := Chip.foldl_startCtx_apart l (c.startCtx k) hj _ (Or.inl rfl)
      exact ⟨(Chip.get_rd hst).trans (Chip.ctxSt_startCtx c k), (Chip.get_rd hst).trans (Chip.pc_startCtx c k)⟩
    · obtain ⟨h1, h2⟩ := Chip.foldl_startCtx_runs l (c.startCtx j) hl ((List.mem_cons.mp h).resolve_left e)
      exact ⟨h1, h2.trans (Chip.get_rd (Chip.rd_startCtx_apart c e _ (Or.inr rfl)))⟩

/-- Every context runs from its entry (R292). -/
theorem Chip.orrStart_runs (c : Chip) {k : Nat} (hk : k < 4) : c.orrStart.ctxSt k = CtxSt.run ∧ c.orrStart.pc k = c.get (Fld.ORC_ENT_A k) :=
  Chip.foldl_startCtx_runs [0, 1, 2, 3] c (by decide) (by simp; omega)

theorem Chip.mem_foldl_wr {f : Nat → Nat} {w : Word} : ∀ (l : List Nat) (c : Chip), (l.foldl (fun t j => t.wr (f j) w) c).mem = c.mem
  | [], _ => rfl
  | _ :: l, _ => Chip.mem_foldl_wr l _

theorem Chip.mem_startCtx (c : Chip) (k : Nat) : (c.startCtx k).mem = c.mem := by
  simp only [Chip.startCtx, Chip.setCtxSt, Chip.syncRunc, Chip.setPc, Chip.clearCtx, Chip.put_mem, Chip.wr_mem]
  exact Chip.mem_foldl_wr (List.range 16) (c.setCtx k noCtx)

theorem Chip.mem_orrStart (c : Chip) : c.orrStart.mem = c.mem :=
  (Chip.mem_startCtx _ _).trans ((Chip.mem_startCtx _ _).trans ((Chip.mem_startCtx _ _).trans (Chip.mem_startCtx _ _)))

/-! ### BANK_SWAP (R291) -/

/-- The banks exchanged, with the marks of their words. -/
def Chip.swapped (c : Chip) : Chip :=
  { c.swapRanges ctlStore staging 0x10000 with
    orr := { (c.swapRanges ctlStore staging 0x10000).orr with
      ecc := (c.swapRanges ctlStore staging 0x10000).orr.eccStage, eccStage := (c.swapRanges ctlStore staging 0x10000).orr.ecc, stale := none } }

theorem Chip.bankSwap_eq {c : Chip} (hs : c.shadows = []) (ha : c.on Fld.ORR_STA_ARMD = true) (hn : c.noneAdmitted = true)
    (hc : c.doc.commits = []) (hb : ∀ k < 4, c.ctxSt k ≠ CtxSt.busw) (he : c.on Fld.ORR_CTL_EN = true) :
    c.bankSwap hooks = ((((c.swapped.orrStart.clr Fld.ORR_STA_ARMD).inc Fld.ORR_SWPC_N).set Fld.ORR_IST_SWAP).set Fld.ORR_STA_HOSTC).set
      Fld.MSR_FLG_HOSTC := by
  have h0 : (c.ctxSt 0 == CtxSt.busw) = false := by simpa using hb 0 (by decide)
  have h1 : (c.ctxSt 1 == CtxSt.busw) = false := by simpa using hb 1 (by decide)
  have h2 : (c.ctxSt 2 == CtxSt.busw) = false := by simpa using hb 2 (by decide)
  have h3 : (c.ctxSt 3 == CtxSt.busw) = false := by simpa using hb 3 (by decide)
  have hsh : c.swapped.shadows = [] := (congrArg Chip.shadows (Chip.swapRanges_only c _ _ _)).trans hs
  unfold Chip.bankSwap
  rw [if_pos (by simp [ha, hn, hc, he, h0, h1, h2, h3])]
  refine congrArg (fun d : Chip => ((((d.orrStart.clr Fld.ORR_STA_ARMD).inc Fld.ORR_SWPC_N).set Fld.ORR_IST_SWAP).set Fld.ORR_STA_HOSTC).set
    Fld.MSR_FLG_HOSTC) ?_
  exact Chip.applyShadows_none hsh _ _

/-- Settles O36: arming is a write of ORR.SWP, and the swap exchanges both banks and starts the contexts. -/
theorem bankSwap : Obligations.BankSwap := by
  unfold Obligations.BankSwap
  refine ⟨fun s m acc => ?_, fun s m acc ha => ?_, fun s hL hm => ?_, fun s hL hs hw ha hn hc hb he => ?_⟩
  · exact gives_command rfl acc rfl rfl rfl
  · refine gives_command rfl acc rfl rfl ?_
    show (St.ok, s.chip.swapDisarm) = _
    unfold Chip.swapDisarm
    rw [if_pos ha]
  · refine gives_onL (f := fun c => c.swapMeasured.settle) hL rfl ?_
    show s.chip.swapMeasured.settle = _
    unfold Chip.swapMeasured
    rw [if_pos hm]
  · refine (gives_onL (f := fun c => c.bankSwap hooks) hL rfl (Chip.bankSwap_eq hs ha hn hc hb he)).runs ?_
    have hregs : s.chip.swapped.regs = s.chip.regs := 
      (congrArg Chip.regs (Chip.swapRanges_only s.chip ctlStore staging 0x10000) :)
    obtain ⟨hin, hout⟩ := memFind_swapRanges hw (a := ctlStore) (b := staging) (n := 0x10000) (by decide)
    have hmem : (((((s.chip.swapped.orrStart.clr Fld.ORR_STA_ARMD).inc Fld.ORR_SWPC_N).set Fld.ORR_IST_SWAP).set Fld.ORR_STA_HOSTC).set
        Fld.MSR_FLG_HOSTC).mem = (s.chip.swapRanges ctlStore staging 0x10000).mem := by
      rw [Chip.set_mem, Chip.set_mem, Chip.set_mem, Chip.inc_mem, Chip.clr_mem, Chip.mem_orrStart]
      rfl
    have hbyte : ∀ (d : Chip) (x : Nat), 0x8000 ≤ x → d.byte x = memFind d.mem x := fun d x hx => if_neg (by omega)
    have h1 : (0x8000 : Nat) ≤ ctlStore := by decide
    have h2 : (0x8000 : Nat) ≤ staging := by decide
    refine ⟨?_, ?_, ?_, fun k hk => ?_, fun i hi => ?_, fun a hc1 hc2 => ?_⟩
    · simp (disch := decide) only [Chip.set, Chip.clr, Chip.inc, Chip.on_put_apart]
      exact Chip.on_clr_same _ rfl
    · simp (disch := decide) only [Chip.set, Chip.on_put_apart]
      exact Chip.on_set_same _ rfl (by decide)
    · simp (disch := decide) only [Chip.set, Chip.on_put_apart]
      exact Chip.on_set_same _ rfl (by decide)
    · obtain ⟨hst, hpc⟩ := Chip.orrStart_runs s.chip.swapped hk
      have hrd : ∀ a, a = Reg.ORC_ST k → (((((s.chip.swapped.orrStart.clr Fld.ORR_STA_ARMD).inc Fld.ORR_SWPC_N).set Fld.ORR_IST_SWAP).set
          Fld.ORR_STA_HOSTC).set Fld.MSR_FLG_HOSTC).rd a = s.chip.swapped.orrStart.rd a := fun a ha => by
        have ha' : a = 0x40024048 + 128 * k := ha
        refine (Chip.rd_put_other _ _ (show a ≠ 0x50048104 by omega)).trans ((Chip.rd_put_other _ _ (show a ≠ 0x4002000C by omega)).trans
          ((Chip.rd_put_other _ _ (show a ≠ 0x40020010 by omega)).trans ((Chip.rd_put_other _ _ (show a ≠ 0x40020044 by omega)).trans
            (Chip.rd_put_other _ _ (show a ≠ 0x4002000C by omega)))))
      exact ⟨(Chip.get_rd (hrd _ rfl)).trans hst, (Chip.get_rd (hrd _ rfl)).trans (hpc.trans (Chip.get_congr hregs _))⟩
    · obtain ⟨g1, g2⟩ := hin i hi
      rw [hbyte _ _ (le_trans h1 (Nat.le_add_right _ _)), hbyte _ _ (le_trans h2 (Nat.le_add_right _ _)),
        hbyte _ _ (le_trans h2 (Nat.le_add_right _ _)), hbyte _ _ (le_trans h1 (Nat.le_add_right _ _)), hmem]
      exact ⟨g1, g2⟩
    · unfold Chip.byte
      rw [hmem, hout a hc1 hc2]

end Sys2Proof.Machine
end

section
/-!
SUPPORT. Words of memory; entries of rings pushed and popped (R320–R324).
-/
namespace Sys2Proof.Machine

/-! ### Words of memory -/

theorem leBytes_length : ∀ n v : Nat, (leBytes n v).length = n
  | 0, _ => rfl
  | n + 1, v => congrArg (· + 1) (leBytes_length n (v / 256))

/-- Little-endian bytes spell the number modulo their range (R6). -/
theorem ofLeBytes_leBytes : ∀ n v : Nat, ofLeBytes (leBytes n v) = v % 256 ^ n
  | 0, v => (Nat.mod_one v).symm
  | n + 1, v => by
    show (BitVec.ofNat 8 v).toNat + 256 * ofLeBytes (leBytes n (v / 256)) = _
    have e : v % 256 ^ (n + 1) = v % 256 + 256 * (v / 256 % 256 ^ n) := by rw [Nat.pow_succ', Nat.mod_mul]
    rw [ofLeBytes_leBytes n, BitVec.toNat_ofNat, e]

theorem byte_setBytes (c : Chip) {a x : Nat} (bs : List Byte) (hx : 0x8000 ≤ x) :
    (c.setBytes a bs).byte x = if a ≤ x ∧ x < a + bs.length then (bs[x - a]?).getD 0#8 else c.byte x := by
  have h : ∀ d : Chip, d.byte x = memFind d.mem x := fun d => if_neg (by omega)
  rw [h, h]
  exact memFind_writes bs c.mem a x

/-- What has just been written is read back. -/
theorem bytes_setBytes (c : Chip) : ∀ (bs : List Byte) (a : Nat), 0x8000 ≤ a → (c.setBytes a bs).bytes a bs.length = bs := by
  intro bs a ha
  have h : ∀ (l : List Byte) (k : Nat), bs.drop k = l → (c.setBytes a bs).bytes (a + k) l.length = l := by
    intro l
    induction l with
    | nil => intro k _; rfl
    | cons b l ih =>
      intro k hk
      have hlt : k < bs.length := by
        by_contra h
        rw [List.drop_eq_nil_of_le (by omega)] at hk
        cases hk
      have hb : bs[k]? = some b := by
        rw [← List.head?_drop, hk]
        rfl
      show _ :: _ = _
      rw [byte_setBytes c bs (by omega), if_pos (by omega), show a + k - a = k by omega, hb,
        show a + k + 1 = a + (k + 1) from rfl, ih (k + 1) (by rw [← List.drop_drop, hk]; rfl)]
      rfl
  exact h bs 0 rfl

theorem word_setWord (c : Chip) {a : Nat} (w : Word) (ha : 0x8000 ≤ a) : (c.setWord a w).word a = w := by
  unfold Chip.word Chip.num Chip.setWord
  have h := bytes_setBytes c (leBytes 4 w.toNat) a ha
  rw [leBytes_length] at h
  rw [h, ofLeBytes_leBytes]
  refine BitVec.eq_of_toNat_eq ?_
  have := w.isLt
  rw [BitVec.toNat_ofNat]
  omega

/-! ### Rings (R320, R321) -/

theorem Chip.ring_setRing (c : Chip) (n : Nat) (r : RingSt) : (c.setRing n r).ring n = r := by
  have hl : ∀ y ∈ c.cst.rings.filter (fun x => x.1 != n), y.1 ≠ n := fun y hy => by simpa using (List.mem_filter.mp hy).2
  unfold Chip.setRing Chip.ring
  dsimp only [Chip.put_cst]
  by_cases h0 : r = noEntries
  · rw [if_pos h0, List.find?_eq_none.mpr fun y hy => by simpa using hl y hy, h0]
  · rw [if_neg h0, find?_takeWhile_cons_dropWhile (x := (n, r)) (id := n) rfl hl]

theorem Chip.ring_setRing_other (c : Chip) {n j : Nat} (r : RingSt) (h : j ≠ n) : (c.setRing n r).ring j = c.ring j := by
  unfold Chip.setRing Chip.ring
  dsimp only [Chip.put_cst]
  by_cases h0 : r = noEntries
  · rw [if_pos h0, find?_filter_ne _ h]
  · rw [if_neg h0, (find?_takeWhile_cons_dropWhile_other (Ne.symm h) _).trans (find?_filter_ne _ h)]

theorem Chip.rd_setRing (c : Chip) {n a : Nat} (r : RingSt) (h : a ≠ Reg.RNG_RDEP n) : (c.setRing n r).rd a = c.rd a := Chip.rd_put_other _ _ h

theorem Chip.mem_setRing (c : Chip) (n : Nat) (r : RingSt) : (c.setRing n r).mem = c.mem := rfl

/-- A push with room by the ring's producer stores its entry (R321). -/
theorem Chip.push_stores {c : Chip} {n : Nat} {k : RCls} (e : Entry) (hp : c.get (Fld.RNG_RCFG_PRD n) = k.code) (ho : c.ringOpen n = true)
    (hl : (c.ring n).ents.length < c.ringCap n) (hs : (c.ring n).stalled = none) : c.push n k e = (.stored, c.storeEntry n e) := by
  unfold Chip.push
  dsimp only
  rw [if_neg (by simp [hp]), if_neg (by simp [ho]), if_pos (by simp [hl, hs])]

/-- Settles O37: the push stores the entry at the ring's tail, which moves on. -/
theorem ringPushAppends : Obligations.RingPushAppends := by
  unfold Obligations.RingPushAppends
  intro c n k v hn hp ho hl hs hc
  rw [Chip.push_stores { val := v } hp ho hl hs]
  unfold Chip.storeEntry
  dsimp only
  refine ⟨rfl, ?_, fun j hj => ?_, ?_, ?_, ?_⟩
  · rw [Chip.ring_setRing]
  · rw [Chip.ring_setRing_other _ _ hj]
    rfl
  · have h : ∀ (d : Chip) (r : RingSt) (a : Nat), (d.setRing n r).word a = d.word a := fun d r a =>
      congrArg (BitVec.ofNat 32) (Chip.num_congr (Chip.mem_setRing d n r) a 4)
    rw [h]
    exact word_setWord c v (by unfold store; omega)
  · rw [Chip.ring_setRing]
  · refine (Chip.get_put_same _ _ rfl).trans ?_
    rw [List.length_append]
    rfl

/-! ### Pushes and pops of a ring's own classes (R321–R324) -/

theorem Chip.push_full {c : Chip} {n : Nat} {k : RCls} (e : Entry) (hp : c.get (Fld.RNG_RCFG_PRD n) = k.code) (ho : c.ringOpen n = true)
    (hl : c.ringCap n ≤ (c.ring n).ents.length) : c.push n k e =
      if k.stallable then (.full, ((if (c.ring n).stalled.isNone then c.setRing n { c.ring n with stalled := some e } else c).bump
        (Fld.RNG_STAT_STL n)).set Fld.RNG_IST_STALL) else (.full, c.refusedPush n) := by
  unfold Chip.push
  dsimp only
  rw [if_neg (by simp [hp]), if_neg (by simp [ho]), if_neg (by simp; omega)]

/-- A push of a word on a ring with nothing held is the push of its entry (R324). -/
theorem Chip.pushOrHold_word {c : Chip} {n : Nat} {k : RCls} {v : Word} {who : Option Master} (hs : (c.ring n).stalled = none)
    (hh : (c.ring n).held = []) :
    c.pushOrHold n k v [] who = match c.push n k { val := v } with
      | (.full, t) => (.full, if k.stallable then t.setRing n { t.ring n with pusher := who } else t)
      | x => x := by
  unfold Chip.pushOrHold
  dsimp only
  rw [if_neg (by simp [hs, hh])]
  rfl

theorem Chip.dropDiscarded_none {c : Chip} {n : Nat} (h : (c.ring n).discard = []) (k : Nat) : c.dropDiscarded n k = c := by
  cases k with
  | zero => rfl
  | succ k =>
    unfold Chip.dropDiscarded
    dsimp only
    split
    · rw [h, if_neg (by simp)]
    · rfl

theorem Chip.retryPush_none {c : Chip} {n : Nat} (h : (c.ring n).stalled = none) : c.retryPush n = c := by
  unfold Chip.retryPush
  dsimp only
  rw [h]

theorem Chip.imgRing_setRing (c : Chip) {n : Nat} (hn : n < 64) (r : RingSt) (stn : Nat) : (c.setRing n r).imgRing stn = c.imgRing stn := by
  have h : (c.setRing n r).rd Reg.IMG_RING = c.rd Reg.IMG_RING := Chip.rd_setRing c r (show 0x4002C058 ≠ 0x4001C108 + 16 * n by omega)
  unfold Chip.imgRing
  rw [Chip.get_rd (f := Fld.IMG_RING_RING0) h, Chip.get_rd (f := Fld.IMG_RING_RING1) h]

/-- The consumption of an entry on a ring that no read station writes changes nothing more (R339). -/
theorem Chip.consumed_plain {c : Chip} {n : Nat} (e : Entry) (h0 : n ≠ c.imgRing 0) (h1 : n ≠ c.imgRing 1) : c.consumed n e = c := by
  unfold Chip.consumed
  dsimp only
  rw [if_neg h0, if_neg h1]

/-- A pop by the ring's consumer of an entry that carries no data takes the oldest (R321). -/
theorem Chip.popRing_takes {c : Chip} {n : Nat} (hn : n < 64) {k : RCls} {e : Entry} {es : List Entry} (hc : c.get (Fld.RNG_RCFG_CNS n) = k.code)
    (ho : c.ringOpen n = true) (hd : c.ringData n = false) (he : (c.ring n).ents = e :: es) (hdis : (c.ring n).discard = [])
    (hst : (c.ring n).stalled = none) (hue : c.cst.ue = []) (h0 : n ≠ c.imgRing 0) (h1 : n ≠ c.imgRing 1) :
    c.popRing n k = (.entry e, c.setRing n { c.ring n with ents := es }) := by
  unfold Chip.popRing
  rw [if_neg (by simp [Chip.storeBad, hue])]
  unfold Chip.pop
  dsimp only
  rw [if_neg (by simp [hc]), if_neg (by simp [ho]), Chip.dropDiscarded_none hdis, he]
  dsimp only
  rw [if_pos (show (c.ring n).discard.isEmpty = true by rw [hdis]; rfl), if_neg (by simp [hd]), Chip.consumed_plain e
    (by rw [Chip.imgRing_setRing _ hn]; exact h0) (by rw [Chip.imgRing_setRing _ hn]; exact h1), Chip.retryPush_none
      (by rw [Chip.ring_setRing]; exact hst)]

theorem Chip.ringPush_word {c : Chip} {n : Nat} {k : RCls} {v : Word} (hs : (c.ring n).stalled = none) (hh : (c.ring n).held = [])
    {d : Chip} {r : PushRes} (h : c.push n k { val := v } = (r, d)) :
    c.ringPush n k v [] =
      (let t := if r = .full ∧ k.stallable then d.setRing n { d.ring n with pusher := none } else d
       if k = .img ∧ r ≠ .stored then t.dropRecord n (c.ringItem n) else t) := by
  have he : (if c.ringData n then ([] : List Byte) else []) = [] := by split <;> rfl
  unfold Chip.ringPush
  rw [he, Chip.pushOrHold_word hs hh, h]
  cases r <;> cases k <;> rfl

/-- Settles O38: a ring's own producer and consumer, through the push and the pop of its entries. -/
theorem ringPushPop : Obligations.RingPushPop := by
  unfold Obligations.RingPushPop
  intro s n k hL ho
  have hpush : ∀ (v : Word) (d : Chip), s.chip.ringPush n.val (rclsOf k.val) v [] = d → Gives (.ringPush n k v []) s d.settle := fun v d h =>
    gives_onL (f := fun c => (c.ringPush n.val (rclsOf k.val) v []).settle) hL rfl (congrArg Chip.settle h)
  refine ⟨fun hd v hp hst hh => ⟨fun hl => hpush v _ ?_, fun hl hk => hpush v _ ?_, fun hl hk => hpush v _ ?_, fun hl hk => hpush v _ ?_⟩,
    fun hd e es hc hk he hdis hst hue h0 h1 => ?_, fun hk hn hc => ?_⟩
  · rw [Chip.ringPush_word hst hh (Chip.push_stores { val := v } hp ho hl hst)]
    dsimp only
    rw [if_neg (by simp), if_neg (by simp)]
    rfl
  · have himg : rclsOf k.val ≠ .img := fun e => by rw [e] at hk; cases hk
    have hfull := Chip.push_full { val := v } hp ho hl
    rw [if_pos hk, if_pos (by rw [hst]; rfl)] at hfull
    rw [Chip.ringPush_word hst hh hfull]
    dsimp only
    rw [if_neg (by simp [himg]), if_pos ⟨rfl, hk⟩]
  · have hfull := Chip.push_full { val := v } hp ho hl
    rw [hk, if_neg (by decide)] at hfull
    rw [hk, Chip.ringPush_word hst hh hfull]
    rfl
  · have hfull := Chip.push_full { val := v } hp ho hl
    rw [hk, if_neg (by decide)] at hfull
    rw [hk, Chip.ringPush_word hst hh hfull]
    rfl
  · refine gives_onL (f := fun c => (c.drain n.val (rclsOf k.val)).settle) hL rfl (congrArg Chip.settle ?_)
    have hdrain : s.chip.drain n.val (rclsOf k.val) = s.chip.ringPop n.val (rclsOf k.val) :=
      if_neg (by
        intro h
        simp only [Bool.and_eq_true, decide_eq_true_eq, List.contains_eq_mem] at h
        exact hk h.1.1.1 h.1.1.2)
    have hdata : (s.chip.setRing n.val { s.chip.ring n.val with ents := es }).ringData n.val = false :=
      (Chip.on_rd (Chip.rd_setRing _ _ (show 0x4001C100 + 16 * n.val ≠ 0x4001C108 + 16 * n.val by omega))).trans hd
    rw [hdrain]
    unfold Chip.ringPop
    rw [Chip.popRing_takes n.isLt hc ho hd he hdis hst hue h0 h1]
    dsimp only
    rw [if_neg (by simp [hdata]), if_neg (by simp [hdata])]
  · extract_lets d
    have hgive : ∀ t : Chip, s.chip.drain n.val (rclsOf k.val) = t → Gives (.ringPop n k) s t.settle := fun t h =>
      gives_onL (f := fun c => (c.drain n.val (rclsOf k.val)).settle) hL rfl (congrArg Chip.settle h)
    have hdrain : s.chip.drain n.val (rclsOf k.val) = if !d.linkUp false || !d.streamHead false n.val then d
        else match d.takeHead n.val with
          | some (_, bs, t) => ({ t with hb := { t.hb with usbOut := bs } }).afterConsume
          | none => d.ringPop n.val (rclsOf k.val) := by
      unfold Chip.drain
      exact if_pos (by simp [hk, hn, ho, hc])
    refine ⟨fun h => hgive _ ?_, fun hl hs q bs t ht => hgive _ ?_⟩
    · rw [hdrain, if_pos (by obtain h | h := h <;> simp [h])]
    · rw [hdrain, if_neg (by simp [hl, hs]), ht]

end Sys2Proof.Machine
end

section
/-!
SUPPORT. The host's registers of the rings, and what ends an entry (R322–R325, R340).
-/
namespace Sys2Proof.Machine

/-! ### The host's registers of the rings (R322–R325) -/

theorem commandReg_rngHpsh (v : Word) : commandReg Reg.RNG_HPSH v = true := by
  have e : commandReg Reg.RNG_HPSH v = ((Legal.any.ok (bitsOf v.toNat 0 32) 32 && true) && true) := rfl
  rw [e]
  rfl

/-- A push of a word by HPSH on a ring with nothing held. -/
theorem Chip.hpsh_word {c d : Chip} {m : Master} {v : Word} {r : PushRes} (ho : c.ringOpen (c.get Fld.RNG_HSEL_RING) = true)
    (hs : (c.ring (c.get Fld.RNG_HSEL_RING)).stalled = none) (hh : (c.ring (c.get Fld.RNG_HSEL_RING)).held = [])
    (h : c.push (c.get Fld.RNG_HSEL_RING) .host { val := v } = (r, d)) (hr : r = .stored ∨ r = .full) :
    c.hpsh m v = (St.ok, if r = .full then
      d.setRing (c.get Fld.RNG_HSEL_RING) { d.ring (c.get Fld.RNG_HSEL_RING) with pusher := some m } else d) := by
  unfold Chip.hpsh
  dsimp only
  rw [if_neg (by simp [ho]), Chip.pushOrHold_word hs hh, h]
  obtain rfl | rfl := hr <;> rfl

theorem Chip.load32_rngHpop {c : Chip} (hL : LOn c) (x : Fin 4) : c.load32 (.orr x) Reg.RNG_HPOP = c.hpop := by
  have hd : c.deadRegion Pg.RNG = false := Chip.deadRegion_lDie hL (by decide)
  exact Chip.load32_mayRead (m := .orr x) (b := Pg.RNG) (x := 0x48) (p := pageRNG) rfl rfl hd trivial (by decide) (by decide)

/-- The oldest popped entry that is not on its way over SPI is complete (R325). -/
theorem Chip.complete_oldest {c : Chip} {n : Nat} {e : Entry} {es : List Entry} (h : (c.ring n).popped = e :: es) (hq : c.spiHolds n e = false) :
    c.complete n = ((c.setRing n { c.ring n with popped := es }).consumed n e).retryPush n := by
  have hp : (!c.spiHolds n e) = true := by rw [hq]; rfl
  have herase : eraseFirst (fun e => !c.spiHolds n e) (e :: es) = es := if_pos hp
  unfold Chip.complete Chip.completeIf
  dsimp only
  rw [h, List.find?_cons_of_pos (p := fun e => !c.spiHolds n e) hp]
  dsimp only
  rw [herase]

/-- The oldest push that the host holds on a ring of its own is given up, and the next ones go on (R324). -/
theorem Chip.pushTimeout_eq {c : Chip} {n : Nat} (h : c.get (Fld.RNG_RCFG_PRD n) = RCls.host.code) :
    c.pushTimeout n = ((c.dropPush n).1, (c.dropPush n).2.retryHeld n ((c.dropPush n).2.ring n).held.length) := if_pos h

/-- Settles O39: the writes and the read of the host's registers, and the ends of a push, of an entry and of an item's records. -/
theorem hostRingsAndEntries : Obligations.HostRingsAndEntries := by
  unfold Obligations.HostRingsAndEntries
  refine ⟨⟨fun s m v acc => ?_, fun s x e es hL => ?_, fun s m e es acc => ?_⟩,
    fun s n hL hp => ⟨fun e hw hst hh => ?_, fun r hw hd ht => ?_⟩, fun s n e es hL hpop hq => ?_, fun s i hL hi => ?_⟩
  · intro n hp ho hs hh
    have hgive : ∀ d, s.chip.hpsh m v = (St.ok, d) → Gives (.hpsh m v) s d.afterWrite := fun d h =>
      gives_command rfl acc (commandReg_rngHpsh v) rfl h
    refine ⟨fun hl => hgive _ ?_, fun hl => hgive _ ?_⟩
    · rw [Chip.hpsh_word ho hs hh (Chip.push_stores { val := v } hp ho hl hs) (Or.inl rfl)]
      rfl
    · have hfull := Chip.push_full { val := v } hp ho hl
      rw [if_pos (by decide), if_pos (by rw [hs]; rfl)] at hfull
      rw [Chip.hpsh_word ho hs hh hfull (Or.inr rfl)]
      rfl
  · intro n hc ho hd he hdis hst hue h0 h1
    have hn : n < 64 := RegMap.get_lt s.chip.regs Fld.RNG_HSEL_RING
    have hpop :
        s.chip.hpop = ((e.val, St.ok), ((s.chip.setRing n { s.chip.ring n with ents := es }).clr Fld.RNG_HSTA_EMP).wr Reg.RNG_HPOP e.val) := by
      unfold Chip.hpop
      rw [if_neg (by simp [show s.chip.ringOpen (s.chip.get Fld.RNG_HSEL_RING) = true from ho]),
        Chip.popRing_takes hn (k := .host) hc ho hd he hdis hst hue h0 h1]
    refine gives_act (f := fun c => c.regRead (.orr x) Reg.RNG_HPOP) rfl ?_
    show s.chip.regRead (.orr x) Reg.RNG_HPOP = _
    unfold Chip.regRead
    rw [if_pos (by simp [Chip.canAccess, Chip.lRuns, hL.1, hL.2]),
      if_neg (by rw [show s.chip.mustQueue (.orr x) Reg.RNG_HPOP = false from rfl]; decide), Chip.load32_rngHpop hL, hpop]
  · intro n hp hq hc
    refine gives_command rfl acc rfl rfl ?_
    show (St.ok, s.chip.hdone 1#32) = _
    unfold Chip.hdone Chip.entryConsumed
    dsimp only
    rw [if_pos (by rw [hc]; decide), Chip.complete_oldest hp hq]
  · refine gives_onL (f := fun c => (c.pushExpired n.val).settle) hL rfl (congrArg Chip.settle ?_)
    have hdrop : s.chip.pushTimeout n.val = ((s.chip.ring n.val).pusher, s.chip.setRing n.val { s.chip.ring n.val with stalled := none, pusher :=
      none }) := by
      rw [Chip.pushTimeout_eq hp]
      unfold Chip.dropPush
      dsimp only
      rw [hst]
      dsimp only
      rw [Chip.ring_setRing, hh]
      rfl
    unfold Chip.pushExpired
    rw [hdrop, hw]
  · intro d t
    refine gives_onL (f := fun c => (c.pushExpired n.val).settle) hL rfl (congrArg Chip.settle ?_)
    unfold Chip.pushExpired
    rw [Chip.pushTimeout_eq hp, hw]
    dsimp only
    split
    · rename_i p f h
      exact absurd h (ht p f)
    · rw [if_pos (by rw [hd]; simp)]
  · refine gives_onL (f := fun c => (c.entryConsumed n.val).settle) hL rfl ?_
    show (s.chip.complete n.val).afterConsume.settle = _
    rw [Chip.complete_oldest hpop hq]
  · refine gives_onL (f := fun c => (c.recordDiscard i.toNat).settle) hL rfl (congrArg Chip.settle (if_pos ?_))
    rw [hi]
    rfl

end Sys2Proof.Machine
end

section
/-!
SUPPORT. Refresh, first sweep and scrubbing of the Central Store (R330–R333).
-/
namespace Sys2Proof.Machine

/-! ### Upkeep of the store (R330–R333) -/

/-- The pool and the reservations do not change with the counters of errors. -/
theorem Chip.rd_countStoreUe (c : Chip) (a : Nat) {b : Nat} (h1 : b ≠ Reg.CST_ECC) (h2 : b ≠ Reg.CST_UEA) (h3 : b ≠ Reg.CST_IST) :
    (c.countStoreUe a).rd b = c.rd b :=
  (Chip.rd_put_other _ _ h3).trans ((Chip.rd_put_other _ _ h2).trans (Chip.rd_put_other _ _ h1))

theorem Chip.inPool_countStoreUe (c : Chip) (a g : Nat) : (c.countStoreUe a).inPool g = c.inPool g := by
  have h : ∀ f : Field, f.addr ≠ Reg.CST_ECC → f.addr ≠ Reg.CST_UEA → f.addr ≠ Reg.CST_IST → (c.countStoreUe a).get f = c.get f :=
    fun f h1 h2 h3 => Chip.get_rd (Chip.rd_countStoreUe c a h1 h2 h3)
  unfold Chip.inPool Chip.printRegion
  rw [h Fld.CST_SYSR_BASE (by decide) (by decide) (by decide), h Fld.CST_SYSR_SZ (by decide) (by decide) (by decide),
    h Fld.CST_HSTR_BASE (by decide) (by decide) (by decide), h Fld.CST_HSTR_SZ (by decide) (by decide) (by decide),
    h Fld.MRK_PRB_A (by decide) (by decide) (by decide), h Fld.MRK_PRS_N (by decide) (by decide) (by decide)]

theorem Chip.granuleItem_countStoreUe (c : Chip) (a g : Nat) : (c.countStoreUe a).granuleItem g = c.granuleItem g := by
  have h : ∀ f : Field, 0x40018080 ≤ f.addr → (c.countStoreUe a).get f = c.get f := fun f hf =>
    Chip.get_rd (Chip.rd_countStoreUe c a (show f.addr ≠ 0x40018050 by omega) (show f.addr ≠ 0x40018054 by omega) (show f.addr ≠ 0x40018010 by omega))
  have h1 : ∀ i, (c.countStoreUe a).get (Fld.CST_RSVF_BASE i) = c.get (Fld.CST_RSVF_BASE i) := fun i =>
    h _ (show 0x40018080 ≤ 0x40018084 + 16 * i by omega)
  have h2 : ∀ i, (c.countStoreUe a).get (Fld.CST_RSVF_G i) = c.get (Fld.CST_RSVF_G i) := fun i =>
    h _ (show 0x40018080 ≤ 0x40018084 + 16 * i by omega)
  have h3 : ∀ i, (c.countStoreUe a).get (Fld.CST_RSVR_BASE i) = c.get (Fld.CST_RSVR_BASE i) := fun i =>
    h _ (show 0x40018080 ≤ 0x40018088 + 16 * i by omega)
  have h4 : ∀ i, (c.countStoreUe a).get (Fld.CST_RSVR_G i) = c.get (Fld.CST_RSVR_G i) := fun i =>
    h _ (show 0x40018080 ≤ 0x40018088 + 16 * i by omega)
  have h5 : ∀ i, (c.countStoreUe a).get (Fld.CST_RSVI_ITEM i) = c.get (Fld.CST_RSVI_ITEM i) := fun i =>
    h _ (show 0x40018080 ≤ 0x40018080 + 16 * i by omega)
  unfold Chip.granuleItem
  simp only [h1, h2, h3, h4, h5]

/-- A word of the store that a scrub finds broken beyond correction (R332, R333). -/
theorem Chip.scrub_uncorrectable {c : Chip} {o : Nat} (hp : c.get Fld.CST_SCRB_PER ≠ 0) (hd : c.fab.dst = true)
    (hi : c.on Fld.CST_STA_INIT = false) (hu : c.cst.ue = []) :
    c.scrub o 2 =
      let a := store + o / 8 * 8
      let d := c.countStoreUe a
      let d := { d with cst := { d.cst with ue := [a] } }
      (if c.inPool (o / 65536) && !c.cst.bad.contains (o / 65536) then
        ((({ d with cst := { d.cst with bad := o / 65536 :: d.cst.bad } }).inc Fld.CST_BADG_N).set Fld.CST_IST_BADG).syncPool.raise
          (report 0x0804 0 0 (o / 65536)) else d).storeUe a := by
  unfold Chip.scrub
  dsimp only
  rw [if_neg (by simp [hp, hd, hi]), if_neg (by decide), if_neg (by decide)]
  have hue : (c.countStoreUe (store + o / 8 * 8)).cst.ue = [] := hu
  have hcond : (if (c.countStoreUe (store + o / 8 * 8)).cst.ue.contains (store + o / 8 * 8) = true then c.countStoreUe (store + o / 8 * 8)
      else { c.countStoreUe (store + o / 8 * 8) with cst := { (c.countStoreUe (store + o / 8 * 8)).cst with
        ue := (store + o / 8 * 8) :: (c.countStoreUe (store + o / 8 * 8)).cst.ue } }) =
      { c.countStoreUe (store + o / 8 * 8) with cst := { (c.countStoreUe (store + o / 8 * 8)).cst with ue := [store + o / 8 * 8] } } := by
    rw [if_neg (by rw [hue]; simp), hue]
  rw [hcond]
  have hpool : ({ c.countStoreUe (store + o / 8 * 8) with cst := { (c.countStoreUe (store + o / 8 * 8)).cst with ue :=
    [store + o / 8 * 8] } } : Chip).inPool
      (o / 65536) = c.inPool (o / 65536) := Chip.inPool_countStoreUe c _ _
  rw [hpool]
  rfl

/-- Settles O40: refresh, the end of the first sweep, and a scrubbed word by what it holds. -/
theorem storeUpkeep : Obligations.StoreUpkeep := by
  unfold Obligations.StoreUpkeep
  refine ⟨fun s hL hr => ⟨fun h => ?_, fun h => ?_, ?_⟩, fun s hL hi => ?_, fun s o hL hd hp hi => ⟨?_, ?_, fun hu => ?_⟩⟩
  · exact gives_onL (f := fun c => c.refresh true) hL rfl ((if_neg (ne_true_of_eq_false hr)).trans (if_pos (by simp [h])))
  · exact gives_onL (f := fun c => c.refresh true) hL rfl ((if_neg (ne_true_of_eq_false hr)).trans ((if_neg (by simp; omega)).trans (if_pos rfl)))
  · exact gives_onL (f := fun c => c.refresh false) hL rfl ((if_neg (ne_true_of_eq_false hr)).trans ((if_neg (by simp)).trans (if_neg (by decide))))
  · exact gives_onL (f := Chip.sweepDone) hL rfl (if_pos hi)
  · exact gives_onL (f := fun c => c.scrub o.toNat 0) hL rfl ((if_neg (by simp [hp, hd, hi])).trans (if_pos rfl))
  · exact gives_onL (f := fun c => c.scrub o.toNat 1) hL rfl ((if_neg (by simp [hp, hd, hi])).trans ((if_neg (by decide)).trans (if_pos rfl)))
  · intro d d'
    have hx := Chip.scrub_uncorrectable (o := o.toNat) hp hd hi hu
    refine ⟨fun hpool hg => gives_onL (f := fun c => c.scrub o.toNat 2) hL rfl (hx.trans ?_),
      fun hpool hbad => gives_onL (f := fun c => c.scrub o.toNat 2) hL rfl (hx.trans ?_)⟩
    · dsimp only
      rw [if_neg (by simp [hpool])]
      have hgi : d'.granuleItem (o.toNat / 65536) = none := (Chip.granuleItem_countStoreUe s.chip _ _).trans hg
      show d'.storeUe (store + o.toNat / 8 * 8) = d'
      unfold Chip.storeUe
      rw [show (store + o.toNat / 8 * 8 - store) / 65536 = o.toNat / 65536 by omega, hgi]
    · dsimp only
      rw [if_pos (by simp [hpool, hbad])]
      rfl

end Sys2Proof.Machine
end

section
/-!
SUPPORT. The life of a commit group (R408–R410).
-/
namespace Sys2Proof.Machine

/-! ### A page is selected and preloaded (R409) -/

/-- The field of NVM.TPA: the number of the page. -/
def nvmTpaFields : List FieldDesc := [{ lo := 0, w := 15, acc := .rw, reset := 0, cls := .l }]

/-- The field of NVM.TDA: a word of the page. -/
def nvmTdaFields : List FieldDesc := [{ lo := 0, w := 32, acc := .rw, reset := 0, cls := .l }]

theorem hookResv_nvmTpa (v : Word) (c : Chip) : hookResv Reg.NVM_TPA v c = [] := rfl
theorem hookResv_nvmTda (v : Word) (c : Chip) : hookResv Reg.NVM_TDA v c = [] := rfl

theorem Chip.regWrite_nvmTpa {c d : Chip} {m : Master} {v : Word} (acc : Accepts c m Reg.NVM_TPA v)
    (h : ((heldIn nvmTpaFields Reg.NVM_TPA v c).wr Reg.NVM_TPA (c.rd Reg.NVM_TPA)).tpaSelect m (bitsOf v.toNat 0 15) = (St.ok, d)) :
    c.regWrite m Reg.NVM_TPA v = d.afterWrite := by
  have hp : plainL Reg.NVM_TPA := by intro n hn; interval_cases n <;> decide
  refine Chip.regWrite_held (l := ⟨pageNVM, 0x48, 0⟩) (fs := nvmTpaFields) hp acc rfl ⟨by decide, by decide, by decide⟩ rfl rfl rfl rfl ?_ rfl h
  rw [hookResv_nvmTpa]; rfl

theorem Chip.regWrite_nvmTda {c d : Chip} {m : Master} {v : Word} (acc : Accepts c m Reg.NVM_TDA v)
    (h : (((heldIn nvmTdaFields Reg.NVM_TDA v c).wr Reg.NVM_TDA (c.rd Reg.NVM_TDA)).tdaAccess m (some v)).1.2 = St.ok)
    (hd : (((heldIn nvmTdaFields Reg.NVM_TDA v c).wr Reg.NVM_TDA (c.rd Reg.NVM_TDA)).tdaAccess m (some v)).2 = d) :
    c.regWrite m Reg.NVM_TDA v = d.afterWrite := by
  have hp : plainL Reg.NVM_TDA := by intro n hn; interval_cases n <;> decide
  refine Chip.regWrite_held (l := ⟨pageNVM, 0x50, 0⟩) (fs := nvmTdaFields) hp acc rfl ⟨by decide, by decide, by decide⟩ rfl rfl rfl rfl ?_ rfl ?_
  · rw [hookResv_nvmTda]; rfl
  · have e : hookPost m Reg.NVM_TDA (c.rd Reg.NVM_TDA) v (heldIn nvmTdaFields Reg.NVM_TDA v c) =
        ((((heldIn nvmTdaFields Reg.NVM_TDA v c).wr Reg.NVM_TDA (c.rd Reg.NVM_TDA)).tdaAccess m (some v)).1.2,
          (((heldIn nvmTdaFields Reg.NVM_TDA v c).wr Reg.NVM_TDA (c.rd Reg.NVM_TDA)).tdaAccess m (some v)).2) := rfl
    rw [e, h, hd]

/-- A write of NVM.TPA or NVM.TDA is judged on the registers as they stood. -/
theorem Chip.rd_heldBack (c : Chip) (fs : List FieldDesc) (v : Word) (a : Nat) (h : ∀ b ≠ a, (heldIn fs a v c).rd b = c.rd b) (b : Nat) :
    ((heldIn fs a v c).wr a (c.rd a)).rd b = c.rd b := by
  by_cases e : b = a
  · rw [e, Chip.rd_wr_same]
  · rw [Chip.rd_wr_other _ _ e, h b e]

theorem Chip.preloadDone_fst (c : Chip) : c.preloadDone.fst = { c.fst with preload := false } ∧ c.preloadDone.mem = c.mem := by
  have hf : ∀ (l : List Nat) (d : Chip), (l.foldl (fun t a => t.countUE a) d).fst = d.fst ∧ (l.foldl (fun t a => t.countUE a) d).mem = d.mem := by
    intro l
    induction l with
    | nil => intro d; exact ⟨rfl, rfl⟩
    | cons a l ih => intro d; exact ih (d.countUE a)
  unfold Chip.preloadDone
  split
  · exact hf _ _
  · rename_i h
    rw [Bool.not_eq_true] at h
    refine ⟨?_, rfl⟩
    rw [← h]

theorem Chip.get_npg_showGroup (c : Chip) (st : Nat) : (c.showGroup st).get Fld.NVM_GST_NPG = c.fst.pages.length % 2 ^ Fld.NVM_GST_NPG.w := by
  unfold Chip.showGroup Chip.putB
  dsimp only [Chip.put_fst]
  cases c.fst.owner with
  | none =>
    dsimp only
    simp (disch := decide) only [Chip.get_put_apart, Chip.get_put_same]
  | some m =>
    dsimp only
    simp (disch := decide) only [Chip.get_put_apart, Chip.get_put_same]

theorem Chip.showGroup_kept (c : Chip) (st : Nat) : (c.showGroup st).fst = c.fst ∧ (c.showGroup st).mem = c.mem := by
  unfold Chip.showGroup
  dsimp only [Chip.put_fst]
  cases c.fst.owner <;> exact ⟨rfl, rfl⟩

/-- The page is staged, with its words as they stand, behind the pages staged before. -/
def Chip.withPage (c : Chip) (p : Nat) : Chip :=
  let d := c.preloadDone
  { d with fst := { d.fst with sel := some p, preload := true, pages := d.fst.pages ++ [(p, d.pageWords p)] } }

/-- The owner selects a page that is not staged yet: it is preloaded as the page last staged (R409). -/
theorem Chip.tpaSelect_new {c : Chip} {m : Master} {p : Nat} (hg : c.gst = 1) (ho : c.fst.owner = some m) (hm : c.mayStage m p = true)
    (hp : c.protected_ p = false) (hn : ∀ x ∈ c.fst.pages, x.1 ≠ p) (hl : c.fst.pages.length < 64) (hlt : p < 2 ^ 15) :
    ∃ d, c.tpaSelect m p = (St.ok, d) ∧ d.fst.owner = some m ∧ d.fst.sel = some p ∧ d.fst.preload = true ∧
      d.fst.pages = c.fst.pages ++ [(p, c.pageWords p)] ∧ d.get Fld.NVM_TWI_I = 0 ∧ d.get Fld.NVM_TPA_P = p ∧
      d.get Fld.NVM_GST_NPG = (c.fst.pages.length + 1) % 2 ^ Fld.NVM_GST_NPG.w ∧ d.mem = c.mem := by
  have hany : c.fst.pages.any (·.1 == p) = false := by
    rw [List.any_eq_false]
    intro x hx
    simpa using hn x hx
  obtain ⟨hfst, hmem⟩ := Chip.preloadDone_fst c
  have hpw : c.preloadDone.pageWords p = c.pageWords p := by
    unfold Chip.pageWords Chip.word
    simp only [Chip.num_congr hmem]
  obtain ⟨k1, k2⟩ := Chip.showGroup_kept (c.withPage p) 1
  have hx : c.tpaSelect m p = (St.ok, (((c.withPage p).showGroup 1).put Fld.NVM_TWI_I 0).put Fld.NVM_TPA_P p) := by
    unfold Chip.tpaSelect
    rw [if_neg (by omega), if_neg (by simp [Chip.ownsGroup, ho]), if_neg (by omega), if_neg (by simp [hm, hp]), if_neg (by simp [hany]), if_neg
      (by omega)]
    rfl
  have hf : ((((c.withPage p).showGroup 1).put Fld.NVM_TWI_I 0).put Fld.NVM_TPA_P p).fst = (c.withPage p).fst := k1
  have hpages : (c.withPage p).fst.pages = c.fst.pages ++ [(p, c.pageWords p)] := by
    show c.preloadDone.fst.pages ++ [(p, c.preloadDone.pageWords p)] = _
    rw [hfst, hpw]
  refine ⟨_, hx, ?_, ?_, ?_, ?_, ?_, ?_, ?_, k2.trans hmem⟩
  · rw [hf]
    show c.preloadDone.fst.owner = _
    rw [hfst]
    exact ho
  · rw [hf]; rfl
  · rw [hf]; rfl
  · rw [hf, hpages]
  · rw [Chip.get_put_apart _ _ rfl rfl, Chip.get_put_same _ _ rfl]
    rfl
  · rw [Chip.get_put_same _ _ rfl]
    exact Nat.mod_eq_of_lt hlt
  · rw [Chip.get_put_apart _ _ rfl rfl, Chip.get_put_apart _ _ rfl rfl, Chip.get_npg_showGroup, hpages, List.length_append]
    rfl

/-- The word of a staged page that TWI names is written, and TWI moves on. -/
def Chip.withWord (c : Chip) (p : Nat) (v : Word) : Chip :=
  (({ c with fst := { c.fst with pages := updFirst (·.1 == p) (fun x => (x.1, x.2.set (c.get Fld.NVM_TWI_I) v)) c.fst.pages } } : Chip).put
    Fld.NVM_TWI_I ((c.get Fld.NVM_TWI_I + 1) % 16)).put Fld.NVM_TDA_D v.toNat

/-- The owner reads or writes the word of the selected page that TWI names, which moves on (R409). -/
theorem Chip.tdaAccess_owner {c : Chip} {m : Master} {p : Nat} (hg : c.gst = 1) (ho : c.fst.owner = some m) (hs : c.fst.sel = some p) :
    (∀ v, c.tdaAccess m (some v) = ((v, St.ok), c.withWord p v)) ∧
    c.tdaAccess m none =
      (((((((c.fst.pages.find? (·.1 == p)).map (·.2)).getD [])[c.get Fld.NVM_TWI_I]?).getD 0#32), St.ok),
        (c.put Fld.NVM_TWI_I ((c.get Fld.NVM_TWI_I + 1) % 16)).put Fld.NVM_TDA_D
          (((((c.fst.pages.find? (·.1 == p)).map (·.2)).getD [])[c.get Fld.NVM_TWI_I]?).getD 0#32).toNat) := by
  unfold Chip.tdaAccess
  constructor
  · intro v
    rw [if_neg (by omega), if_neg (by simp [Chip.ownsGroup, ho]), if_neg (by omega), hs]
    rfl
  · rw [if_neg (by omega), if_neg (by simp [Chip.ownsGroup, ho]), if_neg (by omega), hs]

/-- A field that fills its register reads as the register. -/
theorem Chip.rd_of_get_full {c : Chip} {a : Nat} {v : Word} (h : c.get ⟨a, 0, 32⟩ = v.toNat) : c.rd a = v := by
  refine BitVec.eq_of_toNat_eq (Eq.trans ?_ h)
  show (c.rd a).toNat = (c.rd a).toNat / 2 ^ 0 % 2 ^ 32
  rw [pow_zero, Nat.div_one, Nat.mod_eq_of_lt (c.rd a).isLt]

theorem Chip.load32_nvmTda {c : Chip} {m : Master} (ha : c.fab.aon = true)
    (hm : MayRead c m Pg.NVM) : c.load32 m Reg.NVM_TDA = c.tdaAccess m none := by
  have hd : c.deadRegion Pg.NVM = false := by
    unfold Chip.deadRegion
    rw [ha]
    rfl
  exact Chip.load32_mayRead (m := m) (b := Pg.NVM) (x := 0x50) (p := pageNVM) rfl rfl hd hm (by decide) (by decide)

/-- Settles O41: each command of a commit group by the branch of the group's state and owner. -/
theorem commitGroups : Obligations.CommitGroups := by
  unfold Obligations.CommitGroups
  refine ⟨fun s m acc => ⟨fun hg => ?_, fun hg => ?_⟩, fun s m p acc hg ho hm hp hn hl => ?_, fun s m v p acc hg ho hs => ?_,
    fun s m p hc ha hq hm hst hg ho hs => ?_, fun s m acc hg ho hp hu hc => ?_, fun s m acc hg ho => ?_, fun s hA hg => ?_,
    fun s p hA hs hp hpo => ?_, fun s p a w hA hp hl hpo h1 h2 => ?_, fun s hA hp => ?_⟩
  · refine gives_command rfl acc rfl rfl ?_
    show s.chip.nvmOpen m = _
    unfold Chip.nvmOpen
    rw [hg]
    rfl
  · refine gives_command rfl acc rfl rfl ?_
    show s.chip.nvmOpen m = _
    unfold Chip.nvmOpen
    rw [hg]
    rfl
  · let e := (heldIn nvmTpaFields Reg.NVM_TPA (p.setWidth 32) s.chip).wr Reg.NVM_TPA (s.chip.rd Reg.NVM_TPA)
    have hrd : ∀ b, e.rd b = s.chip.rd b := Chip.rd_heldBack s.chip nvmTpaFields _ Reg.NVM_TPA fun b hb => Chip.rd_put_other _ _ hb
    have hbits : bitsOf (p.setWidth 32).toNat 0 15 = p.toNat := by
      have := p.isLt
      rw [BitVec.toNat_setWidth]
      unfold bitsOf
      omega
    have hprot : e.protected_ p.toNat = false := by
      unfold Chip.protected_
      rw [Chip.get_rd (f := Fld.NVM_BP_BP) (hrd _)]
      exact hp
    obtain ⟨d, hd, h1, h2, h3, h4, h5, h6, h7, h8⟩ := Chip.tpaSelect_new (c := e) ((Chip.get_rd (hrd _)).trans hg) ho
      (show e.mayStage m p.toNat = true from hm) hprot hn hl p.isLt
    exact (act_gives (f := fun c => c.regWrite m Reg.NVM_TPA (p.setWidth 32)) rfl).runs
      ⟨d, h1, h2, h3, h4, h5, h6, h7, h8, Chip.regWrite_nvmTpa acc (by rw [hbits]; exact hd)⟩
  · let e := (heldIn nvmTdaFields Reg.NVM_TDA v s.chip).wr Reg.NVM_TDA (s.chip.rd Reg.NVM_TDA)
    have hrd : ∀ b, e.rd b = s.chip.rd b := Chip.rd_heldBack s.chip nvmTdaFields _ Reg.NVM_TDA fun b hb => Chip.rd_put_other _ _ hb
    have htwi : e.get Fld.NVM_TWI_I = s.chip.get Fld.NVM_TWI_I := Chip.get_rd (hrd _)
    obtain ⟨hx, -⟩ := Chip.tdaAccess_owner (c := e) (m := m) (p := p) ((Chip.get_rd (hrd _)).trans hg) ho hs
    have hlt : (s.chip.get Fld.NVM_TWI_I + 1) % 16 < 16 := Nat.mod_lt _ (by decide)
    refine (act_gives (f := fun c => c.regAccess m Reg.NVM_TDA (some v)) rfl).runs
      ⟨e.withWord p v, ho, hs, ?_, ?_, ?_, fun a ha => ?_, rfl, Chip.regWrite_nvmTda acc (congrArg (fun r => r.1.2) (hx v)) (congrArg Prod.snd
        (hx v))⟩
    · show updFirst _ _ e.fst.pages = _
      rw [htwi]
      rfl
    · refine (Chip.get_put_apart _ _ rfl rfl).trans ((Chip.get_put_same _ _ rfl).trans ?_)
      rw [htwi]
      exact Nat.mod_eq_of_lt hlt
    · refine Chip.rd_of_get_full ((Chip.get_put_same _ _ rfl).trans ?_)
      exact Nat.mod_eq_of_lt v.isLt
    · simp only [List.mem_cons, List.not_mem_nil, or_false, not_or] at ha
      exact (Chip.rd_put_other _ _ ha.2).trans ((Chip.rd_put_other _ _ ha.1).trans (hrd a))
  · obtain ⟨-, hx⟩ := Chip.tdaAccess_owner (c := s.chip) (m := m) (p := p) hg ho hs
    have hread : s.chip.regRead m Reg.NVM_TDA = { (s.chip.tdaAccess m none).2 with
        fab := { (s.chip.tdaAccess m none).2.fab with rdata := (s.chip.tdaAccess m none).1.1, rstat := (s.chip.tdaAccess m none).1.2 } } := by
      unfold Chip.regRead
      rw [if_pos hc, if_neg (by simp [hq]), Chip.load32_nvmTda ha hm, hx]
      exact Chip.settle_idle (Settled.of_eq hst rfl rfl rfl rfl rfl)
    refine (act_gives (f := fun c => c.regAccess m Reg.NVM_TDA none) rfl).runs ?_
    show _ ∧ _
    rw [show s.chip.regAccess m Reg.NVM_TDA none = s.chip.regRead m Reg.NVM_TDA from rfl, hread, hx]
    have hlt : (s.chip.get Fld.NVM_TWI_I + 1) % 16 < 16 := Nat.mod_lt _ (by decide)
    refine ⟨rfl, rfl, ?_, rfl, rfl⟩
    refine (Chip.get_put_apart _ _ rfl rfl).trans ((Chip.get_put_same _ _ rfl).trans ?_)
    exact Nat.mod_eq_of_lt hlt
  · refine gives_command rfl acc rfl rfl ?_
    show s.chip.nvmCommit m = _
    have hany : s.chip.fst.pages.any (fun p => s.chip.protected_ p.1) = false := by
      rw [List.any_eq_false]
      intro x hx
      simp [hu x hx]
    unfold Chip.nvmCommit
    rw [if_neg (by simp [hg]), if_neg (by simp [Chip.ownsGroup, ho]), if_neg (by omega), if_neg (by simp [hany]), if_neg (by simp [hc]),
      if_neg (by simpa using hp)]
  · refine gives_command rfl acc rfl rfl ?_
    show s.chip.nvmDiscard m = _
    unfold Chip.nvmDiscard
    rw [if_neg (by simp [hg]), if_neg (by simp [Chip.ownsGroup, ho]), if_neg (by omega)]
  · refine gives_onA (f := fun c => c.groupTimeout.settle) hA rfl (congrArg Chip.settle ?_)
    exact if_pos hg
  · refine gives_onA (f := Chip.preloadDone) hA rfl ((if_pos hp).trans ?_)
    rw [hpo]
    rfl
  · refine gives_onA (f := Chip.preloadDone) hA rfl ((if_pos hp).trans ?_)
    rw [hpo, hl, List.filter_cons_of_pos (by simp [h1, h2])]
    rfl
  · exact gives_onA (f := Chip.preloadDone) hA rfl (if_neg (by simp [hp]))

end Sys2Proof.Machine
end

section
/-!
SUPPORT. What a commit of the ferroelectric store writes, and where (R411, R412).
-/
namespace Sys2Proof.Machine

/-! ### Word writes of the ferroelectric array -/

theorem byte_fWrite_apart (c : Chip) {a x : Nat} (w : Word) (h : x < a ∨ a + 4 ≤ x) : (c.fWrite a w).byte x = c.byte x := by
  by_cases hx : x < 0x8000
  · unfold Chip.byte
    rw [if_pos hx, if_pos hx]
  · refine (byte_setBytes c (leBytes 4 w.toNat) (Nat.not_lt.mp hx)).trans (if_neg ?_)
    rw [leBytes_length]
    omega

theorem byte_fWrites_apart : ∀ (l : List (Nat × Word)) (c : Chip) (x : Nat), (∀ y ∈ l, x < y.1 ∨ y.1 + 4 ≤ x) →
    (c.fWrites l).byte x = c.byte x
  | [], _, _, _ => rfl
  | y :: l, c, x, h => (byte_fWrites_apart l (c.fWrite y.1 y.2) x fun z hz => h z (List.mem_cons_of_mem _ hz)).trans
      (byte_fWrite_apart c y.2 (h y List.mem_cons_self))

theorem Chip.word_congr_bytes {c d : Chip} {a : Nat} (h : ∀ x, a ≤ x → x < a + 4 → d.byte x = c.byte x) : d.word a = c.word a := by
  unfold Chip.word Chip.num Chip.bytes Chip.bytes Chip.bytes Chip.bytes Chip.bytes
  rw [h a (by omega) (by omega), h (a + 1) (by omega) (by omega), h (a + 1 + 1) (by omega) (by omega), h (a + 1 + 1 + 1) (by omega) (by omega)]

theorem word_fWrites_apart {l : List (Nat × Word)} {c : Chip} {a : Nat} (h : ∀ y ∈ l, a + 4 ≤ y.1 ∨ y.1 + 4 ≤ a) :
    (c.fWrites l).word a = c.word a :=
  Chip.word_congr_bytes fun x h1 h2 => byte_fWrites_apart l c x fun y hy => by have := h y hy; omega

/-- A word that is written stands as written where no other write reaches it. -/
theorem word_fWrites {a : Nat} {w : Word} (ha : 0x8000 ≤ a) : ∀ (l : List (Nat × Word)) (c : Chip), (a, w) ∈ l →
    (∀ y ∈ l, y = (a, w) ∨ a + 4 ≤ y.1 ∨ y.1 + 4 ≤ a) → (c.fWrites l).word a = w
  | [], _, h, _ => absurd h List.not_mem_nil
  | y :: l, c, h, hl => by
    by_cases hm : (a, w) ∈ l
    · exact word_fWrites ha l (c.fWrite y.1 y.2) hm fun z hz => hl z (List.mem_cons_of_mem _ hz)
    · obtain rfl := (List.mem_cons.mp h).resolve_right hm
      refine (word_fWrites_apart (c := c.fWrite a w) fun z hz => ?_).trans (word_setWord c w ha)
      exact (hl z (List.mem_cons_of_mem _ hz)).resolve_left fun e => hm (e ▸ hz)

/-! ### The pages of a group in their order (R411) -/

theorem mem_pageInsert {p y : Nat × List Word} : ∀ {l : List (Nat × List Word)}, y ∈ pageInsert p l → y = p ∨ y ∈ l
  | [], h => Or.inl (List.mem_singleton.mp h)
  | x :: l, h => by
    unfold pageInsert at h
    split at h
    · exact List.mem_cons.mp h
    · split at h
      · exact (List.mem_cons.mp h).imp id (List.mem_cons_of_mem _)
      · obtain rfl | h := List.mem_cons.mp h
        · exact Or.inr List.mem_cons_self
        · exact (mem_pageInsert h).imp id (List.mem_cons_of_mem _)

theorem self_mem_pageInsert (p : Nat × List Word) : ∀ l : List (Nat × List Word), p ∈ pageInsert p l
  | [] => List.mem_singleton.mpr rfl
  | x :: l => by
    unfold pageInsert
    split
    · exact List.mem_cons_self
    · split
      · exact List.mem_cons_self
      · exact List.mem_cons_of_mem _ (self_mem_pageInsert p l)

theorem mem_pageInsert_of_ne {p y : Nat × List Word} (h : y.1 ≠ p.1) : ∀ {l : List (Nat × List Word)}, y ∈ l → y ∈ pageInsert p l
  | x :: l, hy => by
    unfold pageInsert
    split
    · exact List.mem_cons_of_mem _ hy
    · split
      · rename_i hx
        obtain rfl | hy := List.mem_cons.mp hy
        · exact absurd hx.symm h
        · exact List.mem_cons_of_mem _ hy
      · obtain rfl | hy := List.mem_cons.mp hy
        · exact List.mem_cons_self
        · exact List.mem_cons_of_mem _ (mem_pageInsert_of_ne h hy)

theorem pageInsert_length_le (p : Nat × List Word) : ∀ l : List (Nat × List Word), (pageInsert p l).length ≤ l.length + 1
  | [] => le_refl _
  | x :: l => by
    unfold pageInsert
    split
    · exact le_refl _
    · split
      · exact Nat.le_succ _
      · exact Nat.succ_le_succ (pageInsert_length_le p l)

/-- The pages of a group in ascending order. -/
def inOrder (pages : List (Nat × List Word)) : List (Nat × List Word) := pages.foldl (fun l p => pageInsert p l) []

theorem foldl_pageInsert_length : ∀ (ps l : List (Nat × List Word)), (ps.foldl (fun l p => pageInsert p l) l).length ≤ l.length + ps.length
  | [], _ => le_refl _
  | p :: ps, l => by
    have h1 := foldl_pageInsert_length ps (pageInsert p l)
    have h2 := pageInsert_length_le p l
    rw [List.foldl_cons, List.length_cons]
    omega

theorem mem_foldl_pageInsert {y : Nat × List Word} : ∀ (ps l : List (Nat × List Word)),
    y ∈ ps.foldl (fun l p => pageInsert p l) l → y ∈ l ∨ y ∈ ps
  | [], _, h => Or.inl h
  | p :: ps, l, h => by
    obtain h | h := mem_foldl_pageInsert ps (pageInsert p l) h
    · obtain rfl | h := mem_pageInsert h
      · exact Or.inr List.mem_cons_self
      · exact Or.inl h
    · exact Or.inr (List.mem_cons_of_mem _ h)

theorem foldl_pageInsert_mem {y : Nat × List Word} : ∀ (ps l : List (Nat × List Word)), (ps.map (·.1)).Nodup →
    (y ∈ l ∧ y.1 ∉ ps.map (·.1)) ∨ y ∈ ps → y ∈ ps.foldl (fun l p => pageInsert p l) l
  | [], _, _, h => h.elim (fun h => h.1) fun h => absurd h List.not_mem_nil
  | p :: ps, l, hn, h => by
    rw [List.map_cons, List.nodup_cons] at hn
    refine foldl_pageInsert_mem ps (pageInsert p l) hn.2 ?_
    obtain ⟨hy, hne⟩ | hy := h
    · rw [List.map_cons, List.mem_cons, not_or] at hne
      exact Or.inl ⟨mem_pageInsert_of_ne hne.1 hy, hne.2⟩
    · obtain rfl | hy := List.mem_cons.mp hy
      · exact Or.inl ⟨self_mem_pageInsert _ _, hn.1⟩
      · exact Or.inr hy

theorem mem_inOrder {pages : List (Nat × List Word)} (hn : (pages.map (·.1)).Nodup) {y : Nat × List Word} : y ∈ inOrder pages ↔ y ∈ pages :=
  ⟨fun h => (mem_foldl_pageInsert pages [] h).resolve_left List.not_mem_nil, fun h => foldl_pageInsert_mem pages [] hn (Or.inr h)⟩

theorem inOrder_length_le (pages : List (Nat × List Word)) : (inOrder pages).length ≤ pages.length := by
  have := foldl_pageInsert_length pages []
  simpa [inOrder] using this

/-! ### The writes of a commit (R411, R412) -/

theorem mem_pageWrites {base : Nat} {ws : List Word} {y : Nat × Word} (h : y ∈ pageWrites base ws) :
    ∃ i < ws.length, y = (base + 4 * i, (ws[i]?).getD 0#32) := by
  obtain ⟨i, hi, rfl⟩ := List.mem_map.mp h
  exact ⟨i, List.mem_range.mp hi, rfl⟩

theorem wordsOf_length : ∀ l : List Byte, (wordsOf l).length = l.length / 4
  | [] => rfl
  | [_] => by simp [wordsOf]
  | [_, _] => by simp [wordsOf]
  | [_, _, _] => by simp [wordsOf]
  | _ :: _ :: _ :: _ :: r => by
    show (wordsOf r).length + 1 = _
    rw [wordsOf_length r]
    simp only [List.length_cons]
    omega

/-- A write of a commit: in the descriptor's area beside CWORD and DWORD, one of these, or a word of a page at its home. -/
def CommitWrite (n : Word) (pages : List (Nat × List Word)) (y : Nat × Word) : Prop :=
  (pageAddr 128 ≤ y.1 ∧ y.1 + 4 ≤ pageAddr 195 ∧ (y.1 + 4 ≤ cword ∨ dword + 4 ≤ y.1)) ∨ y = (cword, n) ∨ y = (dword, n) ∨
    ∃ x ∈ pages, ∃ i < 16, y = (pageAddr x.1 + 4 * i, (x.2[i]?).getD 0#32)

theorem mem_descWrites {gseq : Nat} {pl : List Nat} (hl : pl.length ≤ 64) {y : Nat × Word} (h : y ∈ descWrites gseq pl) :
    pageAddr 128 ≤ y.1 ∧ y.1 + 4 ≤ pageAddr 195 ∧ (y.1 + 4 ≤ cword ∨ dword + 4 ≤ y.1) := by
  unfold descWrites at h
  obtain h | h := List.mem_append.mp h
  · obtain ⟨i, hi, rfl⟩ := mem_pageWrites h
    rw [wordsOf_length] at hi
    simp only [List.length_append, leBytes_length] at hi
    simp only [pageAddr, fDie, cword, dword]
    omega
  · obtain ⟨i, hi, rfl⟩ := mem_pageWrites h
    have hlen : ∀ l : List Nat, (l.flatMap (leBytes 2)).length = 2 * l.length := by
      intro l
      induction l with
      | nil => rfl
      | cons a l ih => rw [List.flatMap_cons, List.length_append, ih, leBytes_length, List.length_cons]; omega
    rw [wordsOf_length, hlen, List.length_append, List.length_replicate] at hi
    simp only [pageAddr, fDie, cword, dword]
    omega

theorem mem_commitWrites {gseq : Nat} {pages : List (Nat × List Word)} (hl : pages.length ≤ 64) (hw : ∀ x ∈ pages, x.2.length = 16)
    (hn : (pages.map (·.1)).Nodup) {y : Nat × Word} (h : y ∈ commitWrites gseq pages) : CommitWrite (BitVec.ofNat 32 gseq) pages y := by
  have hps := inOrder_length_le pages
  unfold commitWrites at h
  simp only [List.mem_append, List.mem_singleton] at h
  obtain (((h | h) | h) | h) | h := h
  · obtain ⟨i, hi, hy⟩ := List.mem_flatMap.mp h
    have hi' : i < (inOrder pages).length := List.mem_range.mp hi
    have hx : ((((inOrder pages)[i]?).map (·.2)).getD []).length = 16 := by
      rw [List.getElem?_eq_getElem hi']
      exact hw _ ((mem_inOrder hn).mp (List.getElem_mem hi'))
    obtain ⟨j, hj, rfl⟩ := mem_pageWrites hy
    refine Or.inl ?_
    have hj' : j < 16 := hx ▸ hj
    simp only [pageAddr, fDie, cword, dword]
    omega
  · exact Or.inl (mem_descWrites (by rw [List.length_map]; exact le_trans hps hl) h)
  · exact Or.inr (Or.inl h)
  · obtain ⟨x, hx, hy⟩ := List.mem_flatMap.mp h
    have hx' : x ∈ pages := (mem_inOrder hn).mp hx
    obtain ⟨i, hi, rfl⟩ := mem_pageWrites hy
    exact Or.inr (Or.inr (Or.inr ⟨x, hx', i, hw x hx' ▸ hi, rfl⟩))
  · exact Or.inr (Or.inr (Or.inl h))

theorem home_mem_commitWrites {gseq : Nat} {pages : List (Nat × List Word)} (hn : (pages.map (·.1)).Nodup) {x : Nat × List Word} (hx : x ∈ pages)
    {i : Nat} (hi : i < x.2.length) : (pageAddr x.1 + 4 * i, (x.2[i]?).getD 0#32) ∈ commitWrites gseq pages := by
  unfold commitWrites
  simp only [List.mem_append, List.mem_singleton]
  refine Or.inl (Or.inr (List.mem_flatMap.mpr ⟨x, (mem_inOrder hn).mpr hx, List.mem_map.mpr ⟨i, List.mem_range.mpr hi, rfl⟩⟩))

theorem cword_mem_commitWrites (gseq : Nat) (pages : List (Nat × List Word)) : (cword, BitVec.ofNat 32 gseq) ∈ commitWrites gseq pages := by
  unfold commitWrites
  simp

theorem dword_mem_commitWrites (gseq : Nat) (pages : List (Nat × List Word)) : (dword, BitVec.ofNat 32 gseq) ∈ commitWrites gseq pages := by
  unfold commitWrites
  simp

theorem eq_of_mem_nodup {pages : List (Nat × List Word)} (hn : (pages.map (·.1)).Nodup) {x y : Nat × List Word} (hx : x ∈ pages)
    (hy : y ∈ pages) (h : x.1 = y.1) : x = y := List.inj_on_of_nodup_map hn hx hy h

/-- What stands in a group that is closed. -/
def FStore.emptied (f : FStore) : FStore := { f with owner := none, pages := [], sel := none, preload := false }

theorem closeGroup_quiet {c : Chip} (h : c.fst.heldOpen = []) : c.closeGroup = ({ c with fst := c.fst.emptied } : Chip).showGroup 0 := by
  have h' : (({ c with fst := c.fst.emptied } : Chip).showGroup 0).fst.heldOpen = [] := by
    rw [(Chip.showGroup_kept _ _).1]
    exact h
  unfold Chip.closeGroup
  dsimp only
  split
  · rfl
  · rename_i m r hm
    exact absurd (h'.symm.trans hm) (List.cons_ne_nil m r).symm

theorem Chip.gst_showGroup (c : Chip) (st : Nat) : (c.showGroup st).gst = st % 8 := by
  unfold Chip.showGroup Chip.putB Chip.gst
  dsimp only [Chip.put_fst]
  cases c.fst.owner <;> dsimp only <;> simp (disch := decide) only [Chip.get_put_apart, Chip.get_put_same] <;> rfl

theorem Chip.rd_showGroup (c : Chip) (st : Nat) {a : Nat} (h1 : a ≠ Fld.NVM_GST_ST.addr) (h2 : a ≠ Fld.NVM_STA_OPEN.addr) :
    (c.showGroup st).rd a = c.rd a := by
  have hput : ∀ (c : Chip) (f : Field) (v : Nat), f.addr = Fld.NVM_GST_ST.addr ∨ f.addr = Fld.NVM_STA_OPEN.addr → (c.put f v).rd a = c.rd a :=
    fun c f v h => Chip.rd_put_other c v (f := f) fun e => h.elim (fun h => h1 (e.trans h)) fun h => h2 (e.trans h)
  unfold Chip.showGroup Chip.putB
  dsimp only [Chip.put_fst]
  cases c.fst.owner <;> dsimp only <;> simp (disch := decide) only [hput]

theorem rd_closeGroup_quiet {c : Chip} (h : c.fst.heldOpen = []) {a : Nat} (h1 : a ≠ Fld.NVM_GST_ST.addr) (h2 : a ≠ Fld.NVM_STA_OPEN.addr) :
    c.closeGroup.rd a = c.rd a := by
  rw [closeGroup_quiet h, Chip.rd_showGroup _ 0 h1 h2]
  rfl

/-- A word written to the array ends its poison (R419); the rest of the F-die's state is as it was. -/
theorem fWrites_fst (l : List (Nat × Word)) (c : Chip) : (c.fWrites l).fst = { c.fst with poison := (c.fWrites l).fst.poison } := by
  induction l generalizing c with
  | nil => rfl
  | cons y l ih => exact ih (c.fWrite y.1 y.2)

/-- Settles O42: of the writes of the commit none reaches another's word, and what closes the group writes no memory. -/
theorem commitWritesPages : Obligations.CommitWritesPages := by
  unfold Obligations.CommitWritesPages
  intro s hA hg hheld hset hl hn hp
  have hw : ∀ x ∈ s.chip.fst.pages, x.2.length = 16 := fun x hx => (hp x hx).2.2
  let n := s.chip.nextGseq
  let b := (s.chip.fWrites (commitWrites n s.chip.fst.pages)).put Fld.NVM_GSEQ_N n
  let d := b.set Fld.NVM_IST_CMTD
  have hfst : d.fst = { s.chip.fst with poison := d.fst.poison } := fWrites_fst (commitWrites n s.chip.fst.pages) s.chip
  have hopen : d.fst.heldOpen = [] := by rw [hfst]; exact hheld
  have hclose : d.closeGroup = ({ d with fst := d.fst.emptied } : Chip).showGroup 0 := closeGroup_quiet hopen
  have hkept : d.closeGroup.fst = d.fst.emptied ∧ d.closeGroup.mem = d.mem := hclose ▸ Chip.showGroup_kept _ 0
  have hdone : s.chip.commitDone = d.closeGroup := if_pos hg
  have hstore : d.closeGroup = { s.chip with regs := d.closeGroup.regs, mem := d.closeGroup.mem, fst := d.closeGroup.fst } :=
    ((onlyStore_writeGroup s.chip s.chip.fst.pages).trans (onlyStore_closeGroup _)).1
  have hset' : Settled d.closeGroup := by
    refine hset.of_eq ?_ ?_ ?_ ?_ ?_
    · rw [hstore]
    · rw [hkept.1, hfst]; rfl
    · rw [hstore]
    · rw [hstore]
    · rw [hstore]
  have hword : ∀ a, d.closeGroup.word a = (s.chip.fWrites (commitWrites n s.chip.fst.pages)).word a := fun a =>
    Chip.word_congr_bytes fun x _ _ => by unfold Chip.byte; rw [hkept.2]; rfl
  have hcases : ∀ y ∈ commitWrites n s.chip.fst.pages, CommitWrite (BitVec.ofNat 32 n) s.chip.fst.pages y := fun y => mem_commitWrites hl hw hn
  have hhome : ∀ x ∈ s.chip.fst.pages, fDie + 64 * 256 ≤ pageAddr x.1 := fun x hx => by
    have := (hp x hx).1
    unfold pageAddr
    omega
  refine (gives_onA (d := d.closeGroup) hA rfl ((congrArg Chip.settle hdone).trans (Chip.settle_idle hset'))).runs
    ⟨fun x hx i hi => (hword _).trans (word_fWrites (by have := hhome x hx; unfold fDie at this; omega) _ _
      (home_mem_commitWrites hn hx (by rw [hw x hx]; exact hi))
      fun y hy => ?_), (hword _).trans (word_fWrites (by decide) _ _ (cword_mem_commitWrites _ _) fun y hy => ?_),
     (hword _).trans (word_fWrites (by decide) _ _ (dword_mem_commitWrites _ _) fun y hy => ?_), ?_, ?_, ?_, ?_, ?_, fun a ha hx => ?_⟩
  case refine_1 =>
    have hxi := hhome x hx
    obtain h | rfl | rfl | ⟨z, hz, j, hj, rfl⟩ := hcases y hy
    · simp only [pageAddr, fDie] at h hxi ⊢
      omega
    · simp only [pageAddr, fDie, cword] at hxi ⊢
      omega
    · simp only [pageAddr, fDie, dword] at hxi ⊢
      omega
    · by_cases e : z.1 = x.1
      · obtain rfl := eq_of_mem_nodup hn hz hx e
        by_cases e : j = i
        · exact Or.inl (e ▸ rfl)
        · exact Or.inr (by omega)
      · simp only [pageAddr]
        exact Or.inr (by omega)
  case refine_2 =>
    obtain h | rfl | rfl | ⟨z, hz, j, hj, rfl⟩ := hcases y hy
    · simp only [pageAddr, fDie, cword, dword] at h ⊢
      omega
    · exact Or.inl rfl
    · exact Or.inr (Or.inl (show cword + 4 ≤ dword by decide))
    · have hzi := hhome z hz
      simp only [pageAddr, fDie, cword] at hzi ⊢
      omega
  case refine_3 =>
    obtain h | rfl | rfl | ⟨z, hz, j, hj, rfl⟩ := hcases y hy
    · simp only [pageAddr, fDie, cword, dword] at h ⊢
      omega
    · exact Or.inr (Or.inr (show cword + 4 ≤ dword by decide))
    · exact Or.inl rfl
    · have hzi := hhome z hz
      simp only [pageAddr, fDie, dword] at hzi ⊢
      omega
  case refine_4 =>
    rw [Chip.get_rd (rd_closeGroup_quiet hopen (a := Fld.NVM_GSEQ_N.addr) (by decide) (by decide))]
    simp (disch := decide) only [d, b, Chip.set, Chip.get_put_apart, Chip.get_put_same]
    exact Nat.mod_eq_of_lt (Nat.mod_lt _ (by decide))
  case refine_5 =>
    rw [Chip.on_rd (rd_closeGroup_quiet hopen (a := Fld.NVM_IST_CMTD.addr) (by decide) (by decide))]
    exact Chip.on_set_same b (f := Fld.NVM_IST_CMTD) (by decide) (by decide)
  case refine_6 =>
    rw [hclose, Chip.gst_showGroup]
  case refine_7 => rw [hkept.1]; rfl
  case refine_8 => rw [hkept.1]; rfl
  case refine_9 =>
    have hbyte : d.closeGroup.byte a = (s.chip.fWrites (commitWrites n s.chip.fst.pages)).byte a := by unfold Chip.byte; rw [hkept.2]; rfl
    refine hbyte.trans (byte_fWrites_apart _ _ _ fun y hy => ?_)
    obtain h | rfl | rfl | ⟨z, hz, j, hj, rfl⟩ := hcases y hy
    · simp only [pageAddr, fDie, cword, dword] at h ha
      omega
    · simp only [pageAddr, fDie, cword] at ha ⊢
      omega
    · simp only [pageAddr, fDie, dword] at ha ⊢
      omega
    · have := hx z hz
      omega

end Sys2Proof.Machine
end

section
/-!
SUPPORT. Reads of the F-die's window, and of the cells and lines they pass (R407, R418–R420).
-/
namespace Sys2Proof.Machine

/-! ### Reads of the F-die's window (R407) -/

section
variable {c : Chip} {o : Nat} (ho : o < 0x200000)
include ho

theorem deadRegion_window (ha : c.fab.aon = true) : c.deadRegion (0x60000000 + o) = false := by
  unfold Chip.deadRegion
  rw [ha]
  simp
  omega

theorem locate_window : locate (0x60000000 + o) = none := by
  unfold locate pageAt
  rw [if_neg (by simp; omega), if_neg (by simp; omega)]
  rfl

theorem bankOf_window : bankOf (0x60000000 + o) = o / 2 ^ 18 := by
  unfold bankOf bitsOf fDie
  rw [Nat.add_sub_cancel_left]
  omega

theorem load32_window (ha : c.fab.aon = true) (h4 : o % 4 = 0) (m : Master) :
    c.load32 m (0x60000000 + o) = c.windowRead (0x60000000 + o) := by
  unfold Chip.load32 Chip.read32
  rw [if_neg (ne_true_of_eq_false (deadRegion_window ho ha)), if_neg (by omega), locate_window ho]
  dsimp only
  rw [if_pos (by simp; omega)]
  show hookRead m _ _ c = _
  unfold hookRead
  rw [if_neg (by omega), if_pos (by omega)]

theorem regRead_window {m : Master} (hm : c.canAccess m = true) (ha : c.fab.aon = true) (hq : c.mustQueue m (0x60000000 + o) = false) (h4 : o % 4 = 0)
    {w : Word} {st : Status} {t : Chip} (hr : c.windowRead (0x60000000 + o) = ((w, st), t)) :
    c.regRead m (0x60000000 + o) = Chip.settle { t with fab := { t.fab with rdata := w, rstat := st } } := by
  unfold Chip.regRead
  rw [if_pos hm, if_neg (ne_true_of_eq_false hq), load32_window ho ha h4, hr]

end

/-- No commit is in progress whose pages a read would show as they will be. -/
theorem newWord_quiet {c : Chip} {past : Bool} (h : c.gst ≠ 2 ∨ (past = false ∧ c.fst.passed = false)) (a : Nat) : c.newWord a = none := by
  unfold Chip.newWord
  obtain h | ⟨-, h⟩ := h
  · simp [h]
  · simp [h]

theorem windowRead_key {c : Chip} {a : Nat} (h : 0x601E0000 ≤ a) : c.windowRead a = ((0#32, St.perm), c) := if_pos h

theorem windowRead_poison {c : Chip} {a : Nat} (h : a < 0x601E0000) (hn : c.newWord a = none) (hp : c.fst.poison.contains a = true) :
    c.windowRead a = ((c.word a, St.internal), c.countUE a) := by
  unfold Chip.windowRead
  rw [if_neg (by omega), hn, if_neg (by simp), if_pos hp]

theorem windowRead_plain {c : Chip} {a : Nat} (h : a < 0x601E0000) (hn : c.newWord a = none) (hp : c.fst.poison.contains a = false) :
    c.windowRead a = ((c.word a, St.ok), c) := by
  unfold Chip.windowRead
  rw [if_neg (by omega), hn, if_neg (by simp), if_neg (ne_true_of_eq_false hp)]

theorem windowRead_new {c : Chip} {a : Nat} {w : Word} (h : a < 0x601E0000) (hn : c.newWord a = some w) : c.windowRead a = ((w, St.ok), c) := by
  unfold Chip.windowRead
  rw [if_neg (by omega), hn, if_pos (by rfl)]
  rfl

theorem passPoint_quiet {c : Chip} {past : Bool} (h : c.gst ≠ 2 ∨ (past = false ∧ c.fst.passed = false)) : c.iff past Chip.passPoint = c := by
  obtain h | ⟨rfl, -⟩ := h
  · cases past
    · rfl
    · exact if_neg h
  · rfl

section
variable {s : State} {m : Master} {o : BitVec 21} {past : Bool} (hm : s.chip.canAccess m = true)
include hm

theorem fDieWindowRead_held (hq : s.chip.mustQueue m (0x60000000 + o.toNat) = true) (f : CellFault) (hg : s.chip.gst ≠ 2) :
    Gives (.fDieWindowRead m o ⟨f, past⟩) s
      { s.chip with fab := { s.chip.fab with
          reads := s.chip.fab.reads ++ [{ master := m, addr := 0x60000000 + o.toNat, dst := 1, found := f }] } } := by
  refine gives_act (f := fun c => _) rfl ?_
  dsimp only
  rw [hm, passPoint_quiet (Or.inl hg), if_neg (by decide), if_pos hq]

theorem fDieWindowRead_made (hq : s.chip.mustQueue m (0x60000000 + o.toNat) = false)
    (hg : s.chip.gst ≠ 2 ∨ (past = false ∧ s.chip.fst.passed = false))
    {f : CellFault} {d : Chip} (hr : (s.chip.regRead m (0x60000000 + o.toNat)).cellsRead (0x60000000 + o.toNat) f = d) :
    Gives (.fDieWindowRead m o ⟨f, past⟩) s d := by
  refine gives_act (f := fun c => _) rfl (Eq.trans ?_ hr)
  dsimp only
  rw [hm, passPoint_quiet hg, if_neg (by decide), if_neg (ne_true_of_eq_false hq)]

end

section
variable {c : Chip} {a : Nat}

theorem cellsRead_refused {f : CellFault} (h1 : c.fab.rstat ≠ St.ok) (h2 : c.fab.rstat ≠ St.internal) : c.cellsRead a f = c :=
  if_pos (by simp [h1, h2])

theorem cellsRead_none : c.cellsRead a .none = c := by
  unfold Chip.cellsRead
  split <;> rfl

theorem cellsRead_cell_bad (h : c.fab.rstat ≠ St.ok) : c.cellsRead a .cell = c := by
  unfold Chip.cellsRead
  dsimp only
  rw [if_pos h]
  split <;> rfl

theorem cellsRead_cell (h : c.fab.rstat = St.ok) (hs : c.on (Fld.NVM_SLB_SPX (bankOf a)) = false) : c.cellsRead a .cell = c.cellFault a := by
  unfold Chip.cellsRead
  rw [if_neg (by simp [h])]
  dsimp only
  rw [if_neg (not_not.mpr h), if_neg (ne_true_of_eq_false hs)]

theorem cellsRead_cell_spent (h : c.fab.rstat = St.ok) (hs : c.on (Fld.NVM_SLB_SPX (bankOf a)) = true) :
    c.cellsRead a .cell = (let t := (c.countUE a).drawn
      { t with fab := { t.fab with rdata := Config.freeWord c.free, rstat := St.internal } }) := by
  unfold Chip.cellsRead
  rw [if_neg (by simp [h])]
  dsimp only
  rw [if_neg (not_not.mpr h), if_pos hs]

theorem cellsRead_line {b : Fin 39} (h : c.fab.rstat = St.ok) : c.cellsRead a (.line b) =
    if c.fst.broken.contains (bankOf a, b.val) then c.countCE
    else if c.get (Fld.NVM_SLB_SP0 (bankOf a)) = b.val ∨ c.get (Fld.NVM_SLB_SP1 (bankOf a)) = b.val then c
    else c.countCE.brokenLine (bankOf a) b.val := by
  unfold Chip.cellsRead
  rw [if_neg (by simp [h]), h]
  simp only [Bool.or_eq_true, decide_eq_true_eq]
  rfl

end

theorem passPoint_kept (c : Chip) : ∃ b : Bool, c.passPoint = { c with fst := { c.fst with passed := b } } := by
  unfold Chip.passPoint
  split
  · exact ⟨true, rfl⟩
  · exact ⟨c.fst.passed, rfl⟩

theorem countUE_uea (c : Chip) {a : Nat} (h : a < 2 ^ 32) : (c.countUE a).get Fld.NVM_UEA_A = a := by
  unfold Chip.countUE Chip.set
  rw [Chip.get_put_apart _ _ rfl (by decide), Chip.get_put_same _ _ rfl]
  exact Nat.mod_eq_of_lt h

theorem countUE_ue (c : Chip) (a : Nat) : (c.countUE a).on Fld.NVM_IST_UE = true :=
  Chip.on_set_same ((c.bump Fld.NVM_ECC_UE).put Fld.NVM_UEA_A a) (by decide) (by decide)

theorem countUE_regsKept (c : Chip) (a : Nat) : RegsKept c (c.countUE a) [Reg.NVM_ECC, Reg.NVM_UEA, Reg.NVM_IST] := by
  intro b hb
  simp only [List.mem_cons, List.not_mem_nil, or_false, not_or] at hb
  obtain ⟨h1, h2, h3⟩ := hb
  unfold Chip.countUE Chip.set Chip.bump
  rw [Chip.rd_put_other _ _ h3, Chip.rd_put_other _ _ h2, Chip.rd_put_other _ _ h1]

/-- A cell fault in a bank with no spare left: the word reads POISON, with a free value (R420). -/
theorem cellsRead_spent {c : Chip} {a : Nat} (h : c.fab.rstat = St.ok) (hs : c.on (Fld.NVM_SLB_SPX (bankOf a)) = true) (ha : a < 2 ^ 32) :
    (c.cellsRead a .cell).fab.rstat = St.internal ∧ (c.cellsRead a .cell).fab.rdata = Config.freeWord c.free ∧
      (c.cellsRead a .cell).free = c.free + 1 ∧ (c.cellsRead a .cell).get Fld.NVM_UEA_A = a ∧ (c.cellsRead a .cell).on Fld.NVM_IST_UE = true ∧
      (c.cellsRead a .cell).mem = c.mem ∧ RegsKept c (c.cellsRead a .cell) [Reg.NVM_ECC, Reg.NVM_UEA, Reg.NVM_IST] := by
  have hrd : ∀ b, (c.cellsRead a .cell).rd b = (c.countUE a).rd b := fun b => by
    rw [cellsRead_cell_spent h hs]
    rfl
  refine ⟨?_, ?_, ?_, (Chip.get_rd (hrd _)).trans (countUE_uea c ha), (Chip.on_rd (hrd _)).trans (countUE_ue c a), ?_,
    fun b hb => (hrd b).trans (countUE_regsKept c a b hb)⟩ <;> rw [cellsRead_cell_spent h hs] <;> rfl

/-- A read that passes its point of the commit in hand is judged by the chip as the pass leaves it. -/
theorem fDieWindowRead_past {s : State} {m : Master} {o : BitVec 21} {w : Word} (hm : s.chip.canAccess m = true) (ha : s.chip.fab.aon = true)
    (hq : s.chip.mustQueue m (0x60000000 + o.toNat) = false) (h4 : o.toNat % 4 = 0)
    (hr : s.chip.passPoint.windowRead (0x60000000 + o.toNat) = ((w, St.ok), s.chip.passPoint)) :
    Gives (.fDieWindowRead m o ⟨.none, true⟩) s { s.chip.passPoint with fab := { s.chip.fab with rdata := w, rstat := St.ok } }.settle := by
  refine gives_act (f := fun c => _) rfl ?_
  obtain ⟨b, hb⟩ := passPoint_kept s.chip
  have hfab : s.chip.passPoint.fab = s.chip.fab := by rw [hb]
  have hmust : s.chip.passPoint.mustQueue m (0x60000000 + o.toNat) = false := by rw [hb]; exact hq
  have hcan : s.chip.passPoint.canAccess m = true := by rw [hb]; exact hm
  dsimp only
  rw [hm, if_neg (by decide), show s.chip.iff true Chip.passPoint = s.chip.passPoint from rfl, if_neg (ne_true_of_eq_false hmust), cellsRead_none,
    regRead_window o.isLt hcan (by rw [hfab]; exact ha) hmust h4 hr, hfab]

/-- Settles O43: the window's value and status, then what the cells and lines that were read do to them. -/
theorem fdieReads : Obligations.FdieReads := by
  unfold Obligations.FdieReads
  intro s m o past hm ha
  have ho : o.toNat < 0x200000 := o.isLt
  refine ⟨fun hq f hg => fDieWindowRead_held hm hq f hg, fun hq h4 hg => ⟨fun hk => ?_, fun hk hp => ?_, fun f hf hk hp hs => ?_,
    fun hk hp hs => ?_⟩,
    fun w hq h4 hk hpast hg hn => ?_⟩
  · refine fDieWindowRead_made hm hq hg ?_
    rw [regRead_window ho hm ha hq h4 (windowRead_key (by omega)), cellsRead_none]
  · refine fDieWindowRead_made hm hq hg ?_
    rw [regRead_window ho hm ha hq h4 (windowRead_plain (by omega) (newWord_quiet hg _) hp), cellsRead_none]
  · refine fDieWindowRead_made hm hq hg ?_
    have hset : Settled (let d := s.chip.countUE (0x60000000 + o.toNat)
           { d with fab := { d.fab with rdata := s.chip.word (0x60000000 + o.toNat), rstat := St.internal } } : Chip) := hs.of_eq rfl rfl rfl rfl rfl
    rw [regRead_window ho hm ha hq h4 (windowRead_poison (by omega) (newWord_quiet hg _) hp), Chip.settle_idle hset]
    obtain rfl | rfl := hf
    · exact cellsRead_none
    · exact cellsRead_cell_bad (show St.internal ≠ St.ok by decide)
  · have hset : Settled { s.chip with fab := { s.chip.fab with rdata := s.chip.word (0x60000000 + o.toNat), rstat := St.ok } } :=
      hs.of_eq rfl rfl rfl rfl rfl
    have hr := regRead_window ho hm ha hq h4 (windowRead_plain (by omega) (newWord_quiet hg _) hp)
    rw [Chip.settle_idle hset] at hr
    rw [← bankOf_window ho]
    refine ⟨fun hx => fDieWindowRead_made hm hq hg ?_, fun hx => (fDieWindowRead_made hm hq hg rfl).runs ?_,
      fun b => ⟨fun hb => fDieWindowRead_made hm hq hg ?_, fun hb h1 => fDieWindowRead_made hm hq hg ?_,
        fun hb h1 h2 => fDieWindowRead_made hm hq hg ?_⟩⟩
    · rw [hr]
      exact cellsRead_cell rfl hx
    · rw [hr]
      exact cellsRead_spent rfl hx (by omega)
    · rw [hr, cellsRead_line rfl]
      exact if_pos hb
    · rw [hr, cellsRead_line rfl]
      exact (if_neg (ne_true_of_eq_false hb)).trans (if_pos h1)
    · rw [hr, cellsRead_line rfl]
      exact (if_neg (ne_true_of_eq_false hb)).trans (if_neg (not_or.mpr ⟨h1, h2⟩))
  · subst hpast
    exact fDieWindowRead_past hm ha hq h4 (windowRead_new (by omega) hn)

end Sys2Proof.Machine
end

section
/-!
SUPPORT. The values of the directory and their slots (R421–R426), and the remap of a block (R418).
-/
namespace Sys2Proof.Machine

/-! ### The values of the directory (R421–R426) -/

def nvsValFields : List FieldDesc := [{ lo := 0, w := 32, acc := .rw, reset := 0, cls := .l }]

theorem hookResv_nvsVal (v : Word) (c : Chip) : hookResv Reg.NVS_VAL v c = [] := rfl

/-- A write of NVS.VAL is held back from its register: the value goes to the slots. -/
theorem Chip.regWrite_nvsVal {c : Chip} {m : Master} {v : Word} (acc : Accepts c m Reg.NVS_VAL v) :
    ∃ e : Chip, c.regWrite m Reg.NVS_VAL v = ((e.nvsStore (c.get Fld.NVS_SEL_ID) v).showNvs).afterWrite ∧
      e.fst = c.fst ∧ e.mem = c.mem ∧ ∀ b, e.rd b = c.rd b := by
  have hp : plainL Reg.NVS_VAL := by intro n hn; interval_cases n <;> decide
  let f := heldIn nvsValFields Reg.NVS_VAL v c
  have hf : ∀ b ≠ Reg.NVS_VAL, f.rd b = c.rd b := fun b hb => Chip.rd_put_other _ _ hb
  refine ⟨f.wr Reg.NVS_VAL (c.rd Reg.NVS_VAL), ?_, rfl, rfl, Chip.rd_heldBack c nvsValFields v Reg.NVS_VAL hf⟩
  refine Chip.regWrite_held (l := ⟨pageNVS, 0x44, 0⟩) (fs := nvsValFields) hp acc rfl
    ⟨by decide, by decide, by decide⟩ rfl rfl rfl rfl ?_ rfl ?_
  · rw [hookResv_nvsVal]; rfl
  · have hsel : f.get Fld.NVS_SEL_ID = c.get Fld.NVS_SEL_ID := Chip.get_rd (hf _ (by decide))
    have e : hookPost m Reg.NVS_VAL (c.rd Reg.NVS_VAL) v f =
        (St.ok, ((f.wr Reg.NVS_VAL (c.rd Reg.NVS_VAL)).nvsStore (f.get Fld.NVS_SEL_ID) v).showNvs) := rfl
    rw [e, hsel]

theorem Chip.showNvs_kept (c : Chip) : c.showNvs.fst = c.fst ∧ c.showNvs.mem = c.mem := by
  unfold Chip.showNvs Chip.putB
  exact ⟨rfl, rfl⟩

theorem Chip.rd_showNvs_other (c : Chip) {a : Nat} (h1 : a ≠ Reg.NVS_DCFG) (h2 : a ≠ Reg.NVS_VAL) (h3 : a ≠ Reg.NVS_VST) :
    c.showNvs.rd a = c.rd a := by
  unfold Chip.showNvs Chip.putB
  dsimp only
  rw [Chip.rd_put_other _ _ h3, Chip.rd_put_other _ _ h3, Chip.rd_put_other _ _ h3, Chip.rd_put_other _ _ h3, Chip.rd_put_other _ _ h3,
    Chip.rd_put_other _ _ h2, Chip.rd_wr_other _ _ h1]

/-- NVS.VAL shows the value of NVS.SEL. -/
theorem Chip.rd_val_showNvs (c : Chip) : c.showNvs.rd Reg.NVS_VAL = (c.nvsOn (c.get Fld.NVS_SEL_ID)).v := by
  unfold Chip.showNvs Chip.putB
  dsimp only
  rw [Chip.rd_put_other _ _ (by decide), Chip.rd_put_other _ _ (by decide), Chip.rd_put_other _ _ (by decide), Chip.rd_put_other _ _ (by decide),
    Chip.rd_put_other _ _ (by decide)]
  exact Chip.rd_of_get_full ((Chip.get_put_same _ _ rfl).trans (Nat.mod_eq_of_lt (BitVec.isLt _)))

theorem Chip.nvs_congr {c d : Chip} (h : d.fst.vals = c.fst.vals) (id : Nat) : d.nvs id = c.nvs id := by
  unfold Chip.nvs
  rw [h]

theorem Chip.nvs_setNvs (c : Chip) (id : Nat) (v : NvsVal) : (c.setNvs id v).nvs id = v := by
  unfold Chip.setNvs Chip.nvs
  dsimp only
  rw [find?_takeWhile_cons_dropWhile (x := (id, v)) (id := id) rfl fun y hy => by simpa using (List.mem_filter.mp hy).2]

theorem Chip.word_congr_mem {c d : Chip} (h : d.mem = c.mem) (a : Nat) : d.word a = c.word a :=
  Chip.word_congr_bytes fun x _ _ => by unfold Chip.byte; rw [h]

/-- What the directory says depends on memory and its poison alone (R421). -/
theorem Chip.dirOf_congr {c d : Chip} (h : d.mem = c.mem) (hp : d.fst.poison = c.fst.poison) (id : Nat) : d.dirOf id = c.dirOf id := by
  have hv : ∀ n, d.validDirs n = c.validDirs n := by
    intro n
    induction n with
    | zero => rfl
    | succ n ih =>
      unfold Chip.validDirs
      rw [ih, Chip.word_congr_mem h, hp]
  unfold Chip.dirOf
  rw [Chip.word_congr_mem h, hv, hp]

section
variable {c : Chip} {id : Nat} {w v : Word} (hw : c.dirOf id = some w)
include hw

/-- A volatile-held value changes in SRAM only (R425). -/
theorem Chip.nvsStore_held (hv : dirVH w = true) : c.nvsStore id v = (c.setNvs id { c.nvs id with v := v, dirty := true }).showNvs := by
  unfold Chip.nvsStore
  rw [hw]
  exact if_pos hv

theorem Chip.nvsStore_slot (hv : dirVH w = false) : c.nvsStore id v = c.slotWrite id v := by
  unfold Chip.nvsStore
  rw [hw]
  exact if_neg (ne_true_of_eq_false hv)

end

/-- The next slot of a ring, and its SEQ (R422). -/
def nextSlot (w : Word) (o : NvsVal) : Nat := if o.valid then (o.idx + 1) % dirNSLT w else 0
def nextSeq (o : NvsVal) : Nat := if o.valid then (if o.seq = 65535 then 1 else o.seq + 1) else 1

theorem wordsOf_slotBytes (v : Word) (q : Nat) : ∃ x : Word, wordsOf (slotBytes v.toNat q) = [v, x] := by
  let r := leBytes 2 q ++ leBytes 2 (crc16 (leBytes 4 v.toNat ++ leBytes 2 q)).toNat
  have h : wordsOf (slotBytes v.toNat q) = [BitVec.ofNat 32 (ofLeBytes (leBytes 4 v.toNat)), BitVec.ofNat 32 (ofLeBytes r)] := rfl
  refine ⟨BitVec.ofNat 32 (ofLeBytes r), h.trans ?_⟩
  rw [ofLeBytes_leBytes, show v.toNat % 256 ^ 4 = v.toNat from Nat.mod_eq_of_lt v.isLt, BitVec.ofNat_toNat, BitVec.setWidth_eq]

/-- A value goes whole into its next slot, and nothing else of the array changes (R422). -/
theorem Chip.slotWrite_next {c : Chip} {id : Nat} {w : Word} (v : Word) (hw : c.dirOf id = some w)
    (hp : c.protected_ ((slotAddr w (nextSlot w (c.nvs id)) - fDie) / 64) = false) :
    (c.slotWrite id v).nvs id = { v := v, valid := true, idx := nextSlot w (c.nvs id), seq := nextSeq (c.nvs id), dirty := false } ∧
      (c.slotWrite id v).word (slotAddr w (nextSlot w (c.nvs id))) = v ∧
      MemKeptOutside c (c.slotWrite id v) (slotAddr w (nextSlot w (c.nvs id))) (slotAddr w (nextSlot w (c.nvs id)) + 8) := by
  obtain ⟨x, hx⟩ := wordsOf_slotBytes v (nextSeq (c.nvs id))
  let a := slotAddr w (nextSlot w (c.nvs id))
  let d := (c.fWrites [(a, v), (a + 4, x)]).setNvs id
    { v := v, valid := true, idx := nextSlot w (c.nvs id), seq := nextSeq (c.nvs id), dirty := false }
  have ha : 0x8000 ≤ a := by unfold a slotAddr; omega
  have hd : c.slotWrite id v = d.showNvs := by
    unfold Chip.slotWrite
    rw [hw]
    refine (if_neg (ne_true_of_eq_false hp)).trans ?_
    rw [show wordsOf (slotBytes v.toNat
      (if (c.nvs id).valid then (if (c.nvs id).seq = 65535 then 1 else (c.nvs id).seq + 1) else 1)) = [v, x] from hx]
    rfl
  obtain ⟨hf, hm⟩ := d.showNvs_kept
  rw [hd]
  refine ⟨(Chip.nvs_congr (congrArg FStore.vals hf) id).trans (Chip.nvs_setNvs _ id _), (Chip.word_congr_mem hm a).trans ?_, fun y hy => ?_⟩
  · refine (Chip.word_congr_mem (c := c.fWrites [(a, v), (a + 4, x)]) rfl a).trans (word_fWrites ha _ _ List.mem_cons_self fun z hz => ?_)
    simp only [List.mem_cons, List.not_mem_nil, or_false] at hz
    obtain rfl | rfl := hz
    · exact Or.inl rfl
    · exact Or.inr (Or.inl (le_refl _))
  · have hb : d.showNvs.byte y = (c.fWrites [(a, v), (a + 4, x)]).byte y := by unfold Chip.byte; rw [hm]; rfl
    refine hb.trans (byte_fWrites_apart _ _ _ fun z hz => ?_)
    simp only [List.mem_cons, List.not_mem_nil, or_false] at hz
    obtain rfl | rfl := hz <;> dsimp only <;> omega

/-- Settles O44: each write of a value by where the directory holds it; the remap of a block by its first step. -/
theorem slotRings : Obligations.SlotRings := by
  unfold Obligations.SlotRings
  refine ⟨fun s m v acc => ⟨fun w hw hv => ?_, fun w hw hv hp => ?_⟩, fun s m d acc => ?_, fun s m acc => ?_,
    fun s hA => ⟨fun h0 h1 => ?_, fun h => ?_⟩,
    fun s k hA => ⟨fun hg => ?_, fun hg h1 hs h0 hp hr => ?_⟩⟩
  · obtain ⟨e, hrun, hf, hm, hr⟩ := Chip.regWrite_nvsVal acc
    let id := s.chip.get Fld.NVS_SEL_ID
    have hdir : e.dirOf id = some w := (Chip.dirOf_congr hm (congrArg FStore.poison hf) id).trans hw
    let x := e.setNvs id { e.nvs id with v := v, dirty := true }
    rw [Chip.nvsStore_held hdir hv] at hrun
    obtain ⟨f1, m1⟩ := x.showNvs_kept
    obtain ⟨f2, m2⟩ := x.showNvs.showNvs_kept
    have hnvs : x.showNvs.nvs id = { e.nvs id with v := v, dirty := true } :=
      (Chip.nvs_congr (congrArg FStore.vals f1) id).trans (Chip.nvs_setNvs e id _)
    have hnvs' : x.showNvs.showNvs.nvs id = x.showNvs.nvs id := Chip.nvs_congr (congrArg FStore.vals f2) id
    refine (act_gives (f := fun c => c.regWrite m Reg.NVS_VAL v) rfl).runs ⟨x.showNvs.showNvs, ?_, ?_, ?_, ?_, hrun⟩
    · rw [hnvs', hnvs]
    · rw [hnvs', hnvs]
    · have hsel : x.showNvs.get Fld.NVS_SEL_ID = id :=
        (Chip.get_rd (x.rd_showNvs_other (by decide) (by decide) (by decide))).trans (Chip.get_rd (hr _))
      have hx : x.showNvs.dirOf id = some w := (Chip.dirOf_congr (c := e) m1 ((congrArg FStore.poison f1).trans rfl) id).trans hdir
      rw [Chip.rd_val_showNvs, hsel, Chip.nvsOn, hx, if_pos (by rfl), hnvs]
    · rw [m2, m1]
      exact hm
  · obtain ⟨e, hrun, hf, hm, hr⟩ := Chip.regWrite_nvsVal acc
    let id := s.chip.get Fld.NVS_SEL_ID
    have hdir : e.dirOf id = some w := (Chip.dirOf_congr hm (congrArg FStore.poison hf) id).trans hw
    have hn : e.nvs id = s.chip.nvs id := Chip.nvs_congr (congrArg FStore.vals hf) id
    have hpe : e.protected_ ((slotAddr w (nextSlot w (e.nvs id)) - fDie) / 64) = false := by
      rw [hn]
      unfold Chip.protected_ at hp ⊢
      rw [Chip.get_rd (hr Reg.NVM_BP)]
      exact hp
    obtain ⟨h1, h2, h3⟩ := Chip.slotWrite_next v hdir hpe
    rw [Chip.nvsStore_slot hdir hv] at hrun
    obtain ⟨hf', hm'⟩ := (e.slotWrite id v).showNvs_kept
    rw [hn] at h1 h2 h3
    refine (act_gives (f := fun c => c.regWrite m Reg.NVS_VAL v) rfl).runs ⟨(e.slotWrite id v).showNvs, ?_, ?_, fun a ha => ?_, hrun⟩
    · exact (Chip.nvs_congr (congrArg FStore.vals hf') id).trans h1
    · exact (Chip.word_congr_mem hm' _).trans h2
    · have hb : (e.slotWrite id v).showNvs.byte a = (e.slotWrite id v).byte a := by unfold Chip.byte; rw [hm']
      have he : e.byte a = s.chip.byte a := by unfold Chip.byte; rw [hm]
      exact hb.trans ((h3 a ha).trans he)
  · refine gives_command rfl acc rfl rfl ?_
    rfl
  · refine gives_command rfl acc rfl rfl ?_
    rfl
  · refine gives_onA hA rfl (if_neg ?_)
    simp [h0, h1]
  · refine gives_onA hA rfl (if_pos ?_)
    simpa using h
  · refine gives_onA hA rfl (if_pos ?_)
    simp [hg]
  · refine gives_onA hA rfl ?_
    unfold Chip.remapBlock
    dsimp only
    rw [if_neg (by simp [hg, h1, hs, hp]), if_pos h1, if_pos h0]
    simp only [Chip.put_fst, hr, List.find?_nil, List.filter_nil, Option.map_none, Option.getD_none, Nat.zero_add]
    exact if_neg (by decide)

end Sys2Proof.Machine
end

section
/-!
SUPPORT. The checks on a host packet (R356, R364, R366, R367).
-/
namespace Sys2Proof.Machine

/-! ### The checks of R366 in their order -/

/-- A packet's row hands its payload to the bridge. -/
theorem gives_packetRow {i : Instr} {op : Nat} {h : Hdr} {bs : List Byte} {s : State} {d : Chip} (hr : PacketRow i op h bs) (hL : LOn s.chip)
    (hd : s.chip.packet h op bs = d) : Gives i s d := by
  obtain ⟨rfl, rfl⟩ | ⟨rfl, rfl⟩ | ⟨rfl, rfl⟩ | ⟨rfl, rfl⟩ | ⟨rfl, rfl⟩ | ⟨rfl, rfl⟩ | ⟨rfl, rfl⟩ | ⟨rfl, rfl, rfl⟩ |
    ⟨rfl, id, rfl, rfl⟩ := hr
  all_goals exact gives_onL hL rfl hd

section
variable {c : Chip} {h : Hdr} {op : Nat} {bs : List Byte}

/-- A packet that is a request of its own is checked as it stands. -/
theorem Chip.packet_whole (hu : c.linkUp h.spi = true) (hn : bs.length ≤ 4096) (hf : hdrFlag h 2 = false) (hm : c.hb.more = []) :
    c.packet h op bs = c.request h op bs := by
  have e : ({ c with hb := { c.hb with more := [] } } : Chip) = c := by rw [← hm]
  unfold Chip.packet
  rw [hu, hm, hf]
  exact (if_neg (show ¬(!true) = true by decide)).trans ((if_neg (by omega)).trans (congrArg (Chip.request · h op bs) e))

theorem Chip.request_malformed (hm : hdrFlag h 6 = true ∨ hdrFlag h 7 = true ∨ parseWork op bs = none) :
    c.request h op bs = c.refusePacket h St.badArg := by
  unfold Chip.request
  dsimp only
  split
  · rfl
  · rename_i hf
    rw [Bool.or_eq_true] at hf
    rw [hm.elim (fun k => absurd (Or.inl k) hf) fun k => k.elim (fun k => absurd (Or.inr k) hf) id]

section
variable {w : Work} (h6 : hdrFlag h 6 = false) (h7 : hdrFlag h 7 = false) (hw : parseWork op bs = some w)
include h6 h7 hw

theorem Chip.request_exclusive (hx : hdrFlag h 4 = true ∨ hdrFlag h 5 = true) : c.request h op bs = c.refusePacket h St.exclUnsup := by
  unfold Chip.request
  rw [h6, h7, hw]
  simp only [Bool.or_self, Bool.false_eq_true, if_false]
  exact if_pos (by simpa using hx)

variable (h4 : hdrFlag h 4 = false) (h5 : hdrFlag h 5 = false)
include h4 h5

theorem Chip.request_stranger (hx : ((c.client h.clid.toNat).opened = false ∧ isOpn w = false) ∨
    ((c.client h.clid.toNat).opened = true ∧ (c.client h.clid.toNat).spi ≠ h.spi)) : c.request h op bs = c.refusePacket h St.perm := by
  unfold Chip.request
  rw [h6, h7, hw, h4, h5]
  simp only [Bool.or_self, Bool.false_eq_true, if_false]
  exact if_pos (by simpa using hx)

variable (ho : (c.client h.clid.toNat).opened = true) (hs : (c.client h.clid.toNat).spi = h.spi)
include ho hs

theorem Chip.request_duplicate (ht : h.tag ∈ (c.client h.clid.toNat).tags) :
    c.request h op bs = (c.bump Fld.BRG_PERR_TDUP).set Fld.BRG_IST_TAGDUP := by
  unfold Chip.request
  rw [h6, h7, hw, h4, h5]
  simp only [Bool.or_self, Bool.false_eq_true, if_false]
  refine (if_neg ?_).trans (if_pos ?_)
  · simp [ho, hs]
  · simpa using ht

theorem Chip.request_noCredit (ht : h.tag ∉ (c.client h.clid.toNat).tags)
    (hc : (c.client h.clid.toNat).crl ≤ (c.client h.clid.toNat).tags.length ∨ 1024 ≤ c.creditsHeld) :
    c.request h op bs = c.refusePacket h St.noCredit := by
  unfold Chip.request
  rw [h6, h7, hw, h4, h5]
  simp only [Bool.or_self, Bool.false_eq_true, if_false]
  refine (if_neg ?_).trans ((if_neg ?_).trans (if_pos ?_))
  · simp [ho, hs]
  · simpa using ht
  · simpa using hc

end
end

/-- Settles O45: the first check that a packet fails ends it. -/
theorem packetChecks : Obligations.PacketChecks := by
  unfold Obligations.PacketChecks
  intro s i op h bs hr hL hu
  refine ⟨fun hn => gives_packetRow hr hL ?_, fun hn hf hm => gives_packetRow hr hL ?_, fun hn hf hm hx => gives_packetRow hr hL ?_,
    fun w hn hf hm h6 h7 hw =>
    ⟨fun hx => gives_packetRow hr hL ?_, fun h4 h5 => ⟨fun ho hi => gives_packetRow hr hL ?_, fun ho hs => gives_packetRow hr hL ?_, fun ho hs =>
      ⟨fun ht => gives_packetRow hr hL ?_, fun ht hc => gives_packetRow hr hL ?_⟩⟩⟩⟩
  · unfold Chip.packet
    rw [hu]
    exact (if_neg (show ¬(!true) = true by decide)).trans (if_pos hn)
  · unfold Chip.packet
    rw [hu, hm]
    exact (if_neg (show ¬(!true) = true by decide)).trans ((if_neg (by omega)).trans (if_pos hf))
  · exact (Chip.packet_whole hu hn hf hm).trans (Chip.request_malformed hx)
  · exact (Chip.packet_whole hu hn hf hm).trans (Chip.request_exclusive h6 h7 hw hx)
  · exact (Chip.packet_whole hu hn hf hm).trans (Chip.request_stranger h6 h7 hw h4 h5 (Or.inl ⟨ho, hi⟩))
  · exact (Chip.packet_whole hu hn hf hm).trans (Chip.request_stranger h6 h7 hw h4 h5 (Or.inr ⟨ho, hs⟩))
  · exact (Chip.packet_whole hu hn hf hm).trans (Chip.request_duplicate h6 h7 hw h4 h5 ho hs ht)
  · exact (Chip.packet_whole hu hn hf hm).trans (Chip.request_noCredit h6 h7 hw h4 h5 ho hs ht hc)

end Sys2Proof.Machine
end

section
/-!
SUPPORT. A device with a guarded sequence of a client still armed, the counterexample to clauses about packets and clients (R369).
-/
namespace Sys2Proof.Machine

/-- A device whose host link is up, with a guarded sequence of client 0 still armed on page FLT. -/
def armedLink : Chip :=
  let c := State.reset.chip
  let c := ({ c with fab := { c.fab with lco := true, lio := true, dst := true } }.set Fld.BRG_CTL_EN).put Fld.BRG_USTA_ST 4
  { c with guards := [{ page := Pg.FLT, off := Reg.FLT_SSTO - Pg.FLT, value := 1000#32, master := .host 0#8 }] }

/-- The same device with client 0 open. -/
def armedClient : Chip := armedLink.putClient 0 { resetClient 0 with opened := true }

/-- A packet of client 0 over USB. -/
def client0 : Hdr := { spi := false, clid := 0#8, tag := 0#8, flags := 0#8, seq := 0#16 }

theorem armedLink_idle : LOn armedLink ∧ armedLink.linkUp false = true ∧ BridgeIdle armedLink ∧ (armedLink.client 0).opened = false ∧
    (armedLink.client 0).tags = [] ∧ (armedLink.client 0).crl = 4 ∧ armedLink.creditsHeld < 1024 ∧ armedLink.hb.more = [] := by decide +kernel

theorem armedClient_letIn : LetIn armedClient client0 ∧ BridgeIdle armedClient := by decide +kernel

/-- The armed sequence fails at the packet's first access, for its twin does not follow (R369). -/
theorem armedClient_fails : (armedClient.packet client0 1 (leBytes 4 0x20000000)).guards = [] := by decide +kernel

/-- The answer to the read would leave the sequence armed. -/
theorem armedClient_answer : (((armedClient.inHand client0 1 (.accesses false true [.read 0x20000000])).respond client0 St.ok
    (leBytes 2 0xFFFF ++ leBytes 4 (armedClient.word 0x20000000).toNat)).bridgeOn).guards ≠ [] := by decide +kernel

/-- Refutes O46: a read of the scratch SRAM by a client whose guarded sequence is armed also fails that sequence (R369). -/
theorem not_packetsRun : ¬ Obligations.PacketsRun := by
  unfold Obligations.PacketsRun
  rintro ⟨-, hread, -⟩
  obtain ⟨hl, hb⟩ := armedClient_letIn
  have h := hread ⟨armedClient, []⟩ client0 0x20000000 hl hb (by decide) (by decide) (by decide)
  have hg : Gives (.rd client0 (leBytes 4 0x20000000)) ⟨armedClient, []⟩ (armedClient.packet client0 1 (leBytes 4 0x20000000)) :=
    gives_onL hl.1 rfl rfl
  have hc := h.symm.trans hg
  injection hc with hc
  exact armedClient_answer ((congrArg (fun s => s.chip.guards) hc).trans armedClient_fails)

theorem armedLink_fails : (armedLink.packet client0 3 (onePair Reg.CLI_OPN 0)).guards = [] := by decide +kernel

theorem armedLink_answer : ((((armedLink.inHand client0 3 (.accesses false false [.write Reg.CLI_OPN 0#32])).openClient 0 false).respond client0 St.ok
    (leBytes 2 0xFFFF)).bridgeOn).guards ≠ [] := by decide +kernel

/-- Refutes O47: the opening of a client whose number a guarded sequence still names fails that sequence too (R369). -/
theorem not_clientsOpenAndClose : ¬ Obligations.ClientsOpenAndClose := by
  unfold Obligations.ClientsOpenAndClose
  rintro ⟨hopen, -⟩
  obtain ⟨hL, hu, hb, ho, ht, hcr, hheld, hm⟩ := armedLink_idle
  obtain ⟨c, he, -, -, hc⟩ := hopen ⟨armedLink, []⟩ client0 hL hu rfl hm rfl rfl rfl rfl ho (ht ▸ List.not_mem_nil)
    (by rw [show (armedLink.client client0.clid.toNat) = armedLink.client 0 from rfl, ht, hcr]; decide) hheld (fun h => absurd rfl h) hb
  have hg : Gives (.clientOpen client0) ⟨armedLink, []⟩ (armedLink.packet client0 3 (onePair Reg.CLI_OPN 0)) := gives_onL hL rfl rfl
  have hx := he.symm.trans hg
  injection hx with hx
  have hguards : c.guards = [] := (congrArg (fun s => s.chip.guards) hx).trans armedLink_fails
  exact armedLink_answer (hc ▸ hguards)

end Sys2Proof.Machine
end

section
/-!
SUPPORT. The USB device (R344–R349) and the SPI target (R350–R355).
-/
namespace Sys2Proof.Machine

/-! ### The USB device (R344–R349) -/

/-- A standard request beyond the codes of USB 2.0 stalls. -/
theorem Chip.usbRequest_unknown {c : Chip} {typ req value index len : Nat} (h2 : 2 ≤ c.usbSt) (h4 : c.usbSt ≤ 4) (hr : 12 < req) :
    c.usbRequest typ req value index len = c.ep0Stall := by
  unfold Chip.usbRequest
  rw [if_neg (by simp; omega)]
  split <;> first | omega | rfl

/-! ### The SPI target (R350–R355) -/

/-- An instruction on a link that is up, its head known. -/
theorem Chip.spiInstr_known {c : Chip} {h : SpiHead} {f : Chip → Chip} (hu : c.linkUp true = true) (hl : h.lanes ≠ 3) (hk : h.known = true) :
    c.spiInstr h f = f c := by
  unfold Chip.spiInstr Chip.spiOn
  rw [hu, hk, if_neg (by decide)]
  exact if_neg (by simpa using hl)

theorem Chip.spiInstr_unknown {c : Chip} {h : SpiHead} {f : Chip → Chip} (hu : c.linkUp true = true) (hx : h.lanes = 3 ∨ h.known = false) :
    c.spiInstr h f = c.set Fld.BRG_IST_SPIFR := by
  unfold Chip.spiInstr Chip.spiOn
  rw [hu, if_neg (by decide)]
  exact if_pos (by simpa using hx)

section
variable {c : Chip} {bs : List Byte} (hu : c.linkUp true = true)
include hu

theorem Chip.spiWrite_noChannel {ch : Nat} (h1 : ch ≠ 1) (h5 : ch ≠ 5) (ok : Bool) : c.spiWrite ch bs ok = c.set Fld.BRG_IST_SPIFR := by
  unfold Chip.spiWrite Chip.spiOn
  rw [hu, if_neg (by decide)]
  exact if_pos (by simp [h1, h5])

variable {ch : Nat} (hch : ch = 1 ∨ ch = 5) (hne : bs ≠ []) (hn : bs.length ≤ 8192)
include hch hne hn

theorem Chip.spiWrite_badCrc (hc : c.on Fld.BRG_SCFG_CRC = true) : c.spiWrite ch bs false = c.set Fld.BRG_IST_SCRC := by
  have h0 : bs.length ≠ 0 := fun e => hne (List.length_eq_zero_iff.mp e)
  unfold Chip.spiWrite Chip.spiOn
  rw [hu, if_neg (by decide)]
  refine (if_neg ?_).trans (if_pos (by simp [hc]))
  obtain rfl | rfl := hch <;> simp [h0, hn]

/-- Bytes that find room are taken by their channel. -/
theorem Chip.spiWrite_room (hf : bs.length ≤ c.spiFree ch) :
    c.spiWrite ch bs true = if ch = 5 then c.printData bs else c.spiPackets bs (bs.length + 1) := by
  have h0 : bs.length ≠ 0 := fun e => hne (List.length_eq_zero_iff.mp e)
  unfold Chip.spiWrite Chip.spiOn
  rw [hu, if_neg (by decide)]
  refine (if_neg ?_).trans ((if_neg (by simp)).trans ?_)
  · obtain rfl | rfl := hch <;> simp [h0, hn]
  · have hk : ¬ c.spiFree ch < bs.length := Nat.not_lt.mpr hf
    simp only [hk, if_false, List.take_of_length_le hf]

end

theorem Chip.printData_short {c : Chip} {bs : List Byte} (h : (c.hb.jbuf ++ bs).length < 32) :
    c.printData bs = { c with hb := { c.hb with jbuf := c.hb.jbuf ++ bs } } := by
  unfold Chip.printData
  dsimp only
  rw [if_pos (by omega)]

section
variable {c : Chip} {r : Rsp} (hu : c.linkUp true = true) (hq : c.hb.q2 = [r]) (hs : c.hb.sent2 = 0) (ha : c.on Fld.BRG_SCFG_ACKM = true)
include hu hq hs ha

/-- A READ of the channel of responses, acknowledged later, whose bytes are queued already (R353). -/
theorem Chip.spiRead_queued {m : Nat} (hp : c.hb.part2 = 0) (h1 : 1 ≤ m) (hr : m ≤ r.bytes.length) (hm : m ≤ 8192) :
    c.spiRead 2 m none =
      (let body := leBytes 2 m ++ r.bytes.take m
       { c with hb := { c.hb with spiOut := body ++ c.spiCrc (leBytes 1 2 ++ leBytes 2 m ++ body), part2 := m } }) := by
  have hq2 : c.spiQ 2 = ([r], 0, 0) := by show (c.hb.q2, c.hb.sent2, c.hb.part2) = _; rw [hq, hs, hp]
  have hlen : (r.bytes.take m).length = m := by rw [List.length_take]; omega
  have hfill : c.fillSpi 2 (0 + 0 + m) (m + 1) = c := by
    unfold Chip.fillSpi
    rw [hq2]
    exact if_pos (by simp [rspBytes]; omega)
  unfold Chip.spiRead Chip.spiOn
  rw [hu, if_neg (by decide), if_neg (by simp; omega), if_neg (by decide)]
  have hout : ((rspBytes [r]).drop (0 + 0)).take m = r.bytes.take m := by simp [rspBytes]
  simp only [hq2, hfill, hout, hlen, Option.isNone_none, if_true, Option.getD_none, Nat.min_self]
  refine (if_pos ha).trans ?_
  show ({ c with hb := { c.hb with spiOut := _, part2 := c.hb.part2 + m } } : Chip) = _
  rw [hp, Nat.zero_add]
  rfl

/-- An ACK of a part of a response takes it off what was read (R354). -/
theorem Chip.spiAck_part {n : Nat} (hreq : c.hb.reqs = []) (hn : n ≤ c.hb.part2) (hr : n < r.bytes.length) :
    c.spiAck 2 n = { c with hb := { c.hb with sent2 := n, part2 := c.hb.part2 - n } } := by
  have hq2 : c.spiQ 2 = ([r], 0, c.hb.part2) := by show (c.hb.q2, c.hb.sent2, c.hb.part2) = _; rw [hq, hs]
  unfold Chip.spiAck Chip.spiOn
  rw [hu, if_neg (by decide), if_neg (by decide), ha, if_neg (by decide), hq2]
  dsimp only
  have hc : c.consumeSpi 2 (min n c.hb.part2) 2 = { c with hb := { c.hb with sent2 := n, part2 := c.hb.part2 - n } } := by
    unfold Chip.consumeSpi
    rw [hq2, Nat.min_eq_left hn]
    dsimp only
    rw [if_neg (by omega), Nat.zero_add]
    show ({ c with hb := { c.hb with q2 := [r], sent2 := n, part2 := c.hb.part2 - n } } : Chip) = _
    rw [← hq]
  refine (congrArg Chip.pumpHost hc).trans (if_pos ?_)
  exact hreq ▸ rfl

end

/-- Settles O48: each event and instruction by the branch of the interface's state, or of the channel and its checks, that takes it. -/
theorem usbAndSpi : Obligations.UsbAndSpi := by
  unfold Obligations.UsbAndSpi
  refine ⟨⟨fun s he hi h0 hh => ?_, fun s hs hL h0 => ?_, fun s hs => ⟨fun hL => ?_, fun hL => ?_⟩, fun s hs hL h4 => ?_,
    fun s hL h2 h4 => ⟨fun v x n hv h => ?_, fun x n h => ?_, fun r v x n hr => ?_⟩, fun s hL h0 h5 => ?_, fun s hL h5 => ?_,
    fun s e x hL h5 hm he hx ho hs => ⟨fun hr => ?_, fun hr => ?_⟩⟩,
    fun s h hL hu => ⟨?_, fun hp => ⟨?_, ?_, fun hx => ⟨fun bs ok => ?_, fun m got => ?_, fun n => ?_⟩, fun hl hk => ⟨fun bs ok h1 h5 => ?_,
      fun bs hch hne hn hc => ?_, fun bs hch hn hne hf => ?_, fun bs hch hne hn hf hj => ?_,
      fun m r hch hset hq hs hp2 h1 hr hm ha => ?_, fun n r hch hset hq hs hn hr ha => ?_⟩⟩⟩, fun s bs hL hu hp hn hj => ?_⟩
  · refine gives_act (f := Chip.vbusDetect) rfl (if_pos ?_)
    show (true && s.chip.on Fld.BRG_CTL_EN && s.chip.on Fld.BRG_IFC_USBE && decide (s.chip.usbSt = 0) && !s.chip.on Fld.CLK_STA_HOLD) = true
    simp [he, hi, h0, hh]
  · exact gives_onL (f := fun c => c.usbReset 0 hs) hL rfl (if_neg h0)
  · refine gives_act (f := Chip.vbusLost) rfl (if_pos ?_)
    simpa [Chip.lRuns] using hL
  · refine gives_act (f := Chip.vbusLost) rfl (if_neg ?_)
    simpa [Chip.lRuns] using hL
  · exact gives_onL (f := fun c => c.usbReset 2 hs) hL rfl (if_pos h4)
  · refine gives_onL (f := fun c => c.usbRequest 0 5 v.toNat x.toNat n.toNat) hL rfl ?_
    refine (if_neg ?_).trans (if_pos ?_)
    · simp [h2, h4]
    · simp [hv, h]
  · refine gives_onL (f := fun c => c.usbRequest 0 9 1 x.toNat n.toNat) hL rfl ?_
    exact (if_neg (by simp [h2, h4])).trans ((if_neg h).trans (if_pos rfl))
  · exact gives_onL (f := fun c => c.usbRequest 0 r.toNat v.toNat x.toNat n.toNat) hL rfl (Chip.usbRequest_unknown h2 h4 hr)
  · exact gives_onL hL rfl (if_neg (by simp [h0, h5]))
  · exact gives_onL hL rfl (if_pos h5)
  · have hevt : ((s.chip.ring 6).ents.any fun e =>
        (s.chip.client (s.chip.entryClient e)).opened && !(s.chip.client (s.chip.entryClient e)).spi) = true := by
      refine List.any_eq_true.mpr ⟨e, he, ?_⟩
      have hc : s.chip.entryClient e = x.toNat := by unfold Chip.entryClient; rw [hx]
      rw [hc, ho, hs]
      rfl
    exact gives_onL hL rfl (if_pos (by simp [h5, hr, hevt, hm]))
  · exact gives_onL hL rfl (if_neg (by simp [hr]))
  · exact gives_onL hL rfl (if_pos hu)
  · exact gives_onPads hL hp rfl (if_pos hu)
  · refine gives_onPads hL hp rfl ?_
    unfold Chip.spiReset Chip.spiOn
    rw [hu]
    rfl
  · exact gives_onPads hL hp rfl (Chip.spiInstr_unknown hu hx)
  · exact gives_onPads hL hp rfl
      (congrArg Chip.settle (Chip.spiInstr_unknown hu hx))
  · exact gives_onPads hL hp rfl
      (congrArg Chip.settle (Chip.spiInstr_unknown hu hx))
  · exact gives_onPads hL hp rfl
      ((Chip.spiInstr_known hu hl hk).trans (Chip.spiWrite_noChannel hu (fun e => h1 (Fin.ext e)) (fun e => h5 (Fin.ext e)) ok))
  · exact gives_onPads hL hp rfl
      ((Chip.spiInstr_known hu hl hk).trans (Chip.spiWrite_badCrc hu (hch.imp (congrArg Fin.val) (congrArg Fin.val)) hne hn hc))
  · refine gives_onPads hL hp rfl ((Chip.spiInstr_known hu hl hk).trans ?_)
    rw [hch]
    refine (Chip.spiWrite_room hu (Or.inl rfl) hne (by omega) hf).trans ((if_neg (by decide)).trans ?_)
    unfold Chip.spiPackets
    rw [if_neg (by simpa using hne), if_pos hn]
  · refine gives_onPads hL hp rfl ((Chip.spiInstr_known hu hl hk).trans ?_)
    rw [hch]
    exact (Chip.spiWrite_room hu (Or.inr rfl) hne hn hf).trans ((if_pos rfl).trans (Chip.printData_short hj))
  · refine gives_onPads hL hp rfl ?_
    rw [Chip.spiInstr_known hu hl hk, hch]
    refine (congrArg Chip.settle (Chip.spiRead_queued hu hq hs ha hp2 h1 hr hm)).trans (Chip.settle_idle ?_)
    exact hset.of_eq rfl rfl rfl rfl rfl
  · refine gives_onPads hL hp rfl ?_
    rw [Chip.spiInstr_known hu hl hk, hch]
    refine (congrArg Chip.settle (Chip.spiAck_part hu hq hs ha hset.2.2.2.1 hn hr)).trans (Chip.settle_idle ?_)
    exact hset.of_eq rfl rfl rfl rfl rfl
  · exact gives_onL (f := fun c => c.ep5Data bs) hL rfl ((if_pos (by simp [hu, hp, hn])).trans (Chip.printData_short hj))

end Sys2Proof.Machine
end

section
/-!
SUPPORT. The serial ports in DIRECT mode, their STA and DATA registers and their frames (R380–R389).
-/
namespace Sys2Proof.Machine

/-! ### The ports beyond their pages -/

theorem Chip.port_setPort (c : Chip) (p : Nat) (x : Port) : (c.setPort p x).port p = x := by
  unfold Chip.setPort Chip.port
  split
  · rfl
  · split <;> rfl

theorem Chip.setPort_setPort (c : Chip) (p : Nat) (x y : Port) : (c.setPort p x).setPort p y = c.setPort p y := by
  unfold Chip.setPort
  split
  · rfl
  · split <;> rfl

theorem gives_onRx {i : Instr} {s : State} {d : Chip} {p : Nat} {f : Chip → Chip} (ha : p = 2 → AOn s.chip)
    (hl : p ≠ 2 → LOn s.chip ∧ s.chip.padIn (17 + 2 * p) = true) (e : exec i s = s.act fun c => c.onRx p f)
    (hd : f s.chip = d) : Gives i s d := by
  refine gives_act e (Eq.trans ?_ hd)
  unfold Chip.onRx
  split
  · rename_i h
    exact Chip.onA_on (ha h) f
  · rename_i h
    obtain ⟨hL, hp⟩ := hl h
    exact Chip.onPads_on hL (by simpa using hp) f

theorem gives_onPort {i : Instr} {s : State} {d : Chip} {p : Nat} {f : Chip → Chip} (ha : p = 2 → AOn s.chip) (hl : p ≠ 2 → LOn s.chip)
    (e : exec i s = s.act fun c => c.onPort p f) (hd : f s.chip = d) : Gives i s d := by
  refine gives_act e (Eq.trans ?_ hd)
  unfold Chip.onPort
  split
  · rename_i h
    exact Chip.onA_on (ha h) f
  · rename_i h
    exact Chip.onL_on (hl h) f

/-! ### Characters received in DIRECT mode (R381–R383) -/

section
variable {c : Chip} {p : Nat} (hon : c.portOn p = true) (hd : c.direct p = true)
include hon hd

/-- A character that stops no transmitter enters the RX FIFO, or is lost where that is full. -/
theorem Chip.rxChar_direct (h : Hooks) (b : Byte) (hx : p ≠ 2 → c.on (uaF p Fld.UA0_FLOW_XRX) = false) :
    c.rxChar h p b false false =
      (let d := c.setPort p { c.port p with ending := false }
       if 64 ≤ (c.port p).rx.length then (d.markRx p 4).lineError p 11
       else (c.setPort p { c.port p with
         rx := (c.port p).rx ++ [{ c := if c.sevenBits p then b &&& 0x7F#8 else b }], flags := 0, ending := false }).syncPort p) := by
  have hno : ∀ e q : Bool, (decide (p ≠ 2) && !false && !false && e && c.on (uaF p Fld.UA0_FLOW_XRX) && q) = false := by
    intro e q
    by_cases e : p = 2
    · simp [e]
    · simp [hx e]
  have h2 : (decide (p = 2) && !c.direct 2) = false := by
    by_cases e : p = 2
    · simp [← e, hd]
    · simp [e]
  unfold Chip.rxChar
  rw [hon, if_neg (by decide)]
  refine (if_neg (ne_true_of_eq_false (hno _ _))).trans ((if_neg (ne_true_of_eq_false (hno _ _))).trans ((if_neg (ne_true_of_eq_false h2)).trans ?_))
  simp only [Bool.false_eq_true, if_false, Chip.port_setPort]
  refine if_congr Iff.rfl rfl ?_
  rw [show (c.setPort p { c.port p with ending := false }).direct p = true from hd, if_pos rfl]
  refine (if_pos hd).trans ?_
  rw [Chip.setPort_setPort]

/-- An XOFF character stops the transmitter and is not delivered (R383). -/
theorem Chip.rxChar_xoff (h : Hooks) {b : Byte} (hp : p ≠ 2) (hx : c.on (uaF p Fld.UA0_FLOW_XRX) = true) (h7 : c.sevenBits p = false)
    (hb : c.get (uaF p Fld.UA0_FLOW_XOFFC) = b.toNat) :
    c.rxChar h p b false false =
      (c.setPort p { c.port p with ending := c.on (uaF p Fld.UA0_STA_TXBSY) }).set (uaF p Fld.UA0_STA_XOFFR) := by
  have hesc : c.nextEscaped p = false := by
    unfold Chip.nextEscaped
    rw [hd]
    rfl
  unfold Chip.rxChar
  rw [hon, if_neg (by decide), h7, hesc]
  simp only [Bool.false_eq_true, if_false]
  refine (if_pos ?_).trans ?_
  · show (decide (p ≠ 2) && !false && !false && !false && c.on (uaF p Fld.UA0_FLOW_XRX) && c.get (uaF p Fld.UA0_FLOW_XOFFC) == b.toNat) = true
    simp [hp, hx, hb]
  · rw [Chip.port_setPort, Chip.setPort_setPort]
    rfl

end

theorem Chip.markRx_last {c : Chip} {p : Nat} {l : List RxChar} {r : RxChar} (h : (c.port p).rx = l ++ [r]) (k : Nat) :
    c.markRx p k = c.setPort p { c.port p with rx := l ++ [{ r with marks := r.marks ++ [k] }] } := by
  unfold Chip.markRx
  dsimp only
  rw [h, List.getLast?_concat]
  simp only [List.dropLast_concat]

/-- A line error leaves the mode of its port. -/
theorem Chip.direct_lineError (c : Chip) {p : Nat} (hp : p < 3) : (c.lineError p 12).direct p = c.direct p := by
  interval_cases p
  · exact Chip.on_rd ((Chip.rd_put_other _ _ (by decide)).trans ((Chip.rd_put_other _ _ (by decide)).trans (Chip.rd_put_other _ _ (by decide))))
  · exact Chip.on_rd ((Chip.rd_put_other _ _ (by decide)).trans ((Chip.rd_put_other _ _ (by decide)).trans (Chip.rd_put_other _ _ (by decide))))
  · exact Chip.on_rd ((Chip.rd_put_other _ _ (by decide)).trans (Chip.rd_put_other _ _ (by decide)))

theorem Chip.rxBreak_direct {c : Chip} {p : Nat} (h : Hooks) (hp : p < 3) (hon : c.portOn p = true) (hd : c.direct p = true) :
    c.rxBreak h p = (c.setPort p { c.port p with ending := false }).lineError p 12 := by
  unfold Chip.rxBreak
  rw [hon, if_neg (by decide)]
  dsimp only
  unfold Chip.cutPort
  rw [Chip.direct_lineError _ hp]
  exact if_pos (by rw [show (c.setPort p { c.port p with ending := false }).direct p = true from hd]; simp)

/-! ### STA and DATA (R387) -/

theorem Chip.rd_setPort (c : Chip) (p : Nat) (x : Port) (a : Nat) : (c.setPort p x).rd a = c.rd a := rfl

/-- Of page STA a port's upkeep writes bits 8 and 14 alone. -/
theorem Chip.on_sta_syncPort (c : Chip) {p k : Nat} (hp : p < 3) (h9 : 9 ≤ k) (hk : k ≤ 12) :
    (c.syncPort p).on (portSta p k) = c.on (portSta p k) := by
  have hput : ∀ (d : Chip) (f : Field) (v : Nat), (f.addr ≠ portPage p + 0xC ∨ (f.w = 1 ∧ (f.lo = 8 ∨ f.lo = 14))) →
      (d.put f v).on (portSta p k) = d.on (portSta p k) := by
    rintro d f v (h | ⟨hw, hl⟩)
    · exact Chip.on_rd (Chip.rd_put_other _ _ (Ne.symm h))
    · refine Chip.on_put_apart d v ?_ ?_
      · rw [Field.fits]
        obtain h | h := hl <;> simp [h, hw]
      · rw [Field.apart]
        obtain h | h := hl <;> simp [h, hw, portSta] <;> omega
  have hwr : ∀ (d : Chip) (a : Nat) (w : Word), a ≠ portPage p + 0xC → (d.wr a w).on (portSta p k) = d.on (portSta p k) := fun d a w h =>
    Chip.on_rd (Chip.rd_wr_other _ _ (Ne.symm h))
  have hite : ∀ (q : Prop) [Decidable q] (a b : Chip),
      (if q then a else b).on (portSta p k) = if q then a.on (portSta p k) else b.on (portSta p k) := by
    intro q _ a b
    split <;> rfl
  unfold Chip.syncPort Chip.putB
  dsimp only
  interval_cases p
  · rw [if_neg (by decide)]
    simp (disch := decide) only [Chip.set, Chip.clr, hite, hput, hwr, ite_self]
  · rw [if_neg (by decide)]
    simp (disch := decide) only [Chip.set, Chip.clr, hite, hput, hwr, ite_self]
  · rw [if_pos rfl]
    simp (disch := decide) only [hput, hwr]

/-- The page of a port. -/
theorem port_cases {P : Nat → Prop} (h0 : P 0) (h1 : P 1) (h2 : P 2) (p : Fin 3) : P p.val := by
  obtain ⟨p, hp⟩ := p
  interval_cases p
  · exact h0
  · exact h1
  · exact h2

/-- A page lies on one side of the die bridge. -/
theorem Chip.mustQueue_add {c : Chip} {m : Master} {b x : Nat} {p : PageDesc} (hp : pageAt b = some p) (hb : p.base = b) (hx : x < 0x4000) :
    c.mustQueue m (b + x) = c.mustQueue m b := by
  have hr := pageAt_region hp
  have hal := pageAt_base hp
  have hA : (0x50000000 ≤ b + x ∧ b + x < 0x70000000) ↔ (0x50000000 ≤ b ∧ b < 0x70000000) := by omega
  have hB : 0x10000000 ≤ b + x ↔ 0x10000000 ≤ b := by omega
  unfold Chip.mustQueue crosses
  simp only [Chip.deadRegion_add hp hb hx, ← Bool.decide_and, hA, hB]

section
variable {c : Chip} {m : Master} {p : Fin 3}

theorem Chip.mustQueue_port {x : Nat} (hx : x < 0x4000) : c.mustQueue m (portPage p.val + x) = c.mustQueue m (portPage p.val) :=
  port_cases (P := fun p => c.mustQueue m (portPage p + x) = c.mustQueue m (portPage p))
    (Chip.mustQueue_add (b := Pg.UA0) (p := pageUA0) rfl rfl hx) (Chip.mustQueue_add (b := Pg.UA1) (p := pageUA1) rfl rfl hx)
    (Chip.mustQueue_add (b := Pg.MLK) (p := pageMLK) rfl rfl hx) p

theorem Chip.load32_portSta (hd : c.deadRegion (portPage p.val) = false) (hm : MayRead c m (portPage p.val)) :
    c.load32 m (portPage p.val + 0xC) = ((c.rd (portPage p.val + 0xC), St.ok), c.staRead m p.val) := by
  revert hd hm
  refine port_cases (P := fun p => c.deadRegion (portPage p) = false → MayRead c m (portPage p) →
    c.load32 m (portPage p + 0xC) = ((c.rd (portPage p + 0xC), St.ok), c.staRead m p)) ?_ ?_ ?_ p
  · intro hd hm
    exact Chip.load32_mayRead (m := m) (b := Pg.UA0) (x := 0xC) (p := pageUA0) rfl rfl hd hm (by decide) (by decide)
  · intro hd hm
    exact Chip.load32_mayRead (m := m) (b := Pg.UA1) (x := 0xC) (p := pageUA1) rfl rfl hd hm (by decide) (by decide)
  · intro hd hm
    exact Chip.load32_mayRead (m := m) (b := Pg.MLK) (x := 0xC) (p := pageMLK) rfl rfl hd hm (by decide) (by decide)

theorem Chip.load32_portData (hd : c.deadRegion (portPage p.val) = false) (hm : MayRead c m (portPage p.val)) :
    c.load32 m (portData p.val) = ((c.rd (portData p.val), St.ok), (c.dataRead m p.val).2) := by
  revert hd hm
  refine port_cases (P := fun p => c.deadRegion (portPage p) = false → MayRead c m (portPage p) →
    c.load32 m (portData p) = ((c.rd (portData p), St.ok), (c.dataRead m p).2)) ?_ ?_ ?_ p
  · intro hd hm
    exact Chip.load32_mayRead (m := m) (b := Pg.UA0) (x := 0x58) (p := pageUA0) rfl rfl hd hm (by decide) (by decide)
  · intro hd hm
    exact Chip.load32_mayRead (m := m) (b := Pg.UA1) (x := 0x58) (p := pageUA1) rfl rfl hd hm (by decide) (by decide)
  · intro hd hm
    exact Chip.load32_mayRead (m := m) (b := Pg.MLK) (x := 0x54) (p := pageMLK) rfl rfl hd hm (by decide) (by decide)

/-- A read of a port's register that need not wait for the bridge. -/
theorem Chip.regRead_port {x : Nat} (hc : c.canAccess m = true) (hq : c.mustQueue m (portPage p.val) = false) (hx : x < 0x4000) {w : Word} {d : Chip}
    (hr : c.load32 m (portPage p.val + x) = ((w, St.ok), d)) :
    c.regRead m (portPage p.val + x) = Chip.settle { d with fab := { d.fab with rdata := w, rstat := St.ok } } := by
  unfold Chip.regRead
  rw [if_pos hc, Chip.mustQueue_port hx, if_neg (ne_true_of_eq_false hq), hr]

end

theorem bitsOf_cleared (w : Word) {k : Nat} (h9 : 9 ≤ k) (hk : k ≤ 12) :
    bitsOf (w &&& ~~~(BitVec.ofNat 32 (bitsOf w.toNat 9 4 * 512))).toNat k 1 = 0 := by
  have hbit : (bitsOf w.toNat 9 4 * 512).testBit k = w.getLsbD k := by
    rw [bitsOf, show 512 = 2 ^ 9 from rfl, Nat.testBit_mul_two_pow, Nat.testBit_mod_two_pow, Nat.testBit_div_two_pow, BitVec.testBit_toNat]
    simp [h9, show k - 9 < 4 by omega]
  rw [bitsOf_one, BitVec.testBit_toNat, BitVec.getLsbD_and, BitVec.getLsbD_not, BitVec.getLsbD_ofNat, hbit]
  simp [show k < 32 by omega]

/-- What a STA read has shown is cleared by the DATA read of the same master that follows. -/
theorem Chip.dataRead_clears (c : Chip) (m : Master) (p : Fin 3) {k : Nat} (h9 : 9 ≤ k) (hk : k ≤ 12) :
    ((c.staRead m p.val).dataRead m p.val).2.on (portSta p.val k) = false := by
  have hrec : ((c.staRead m p.val).port p.val).recs.find? (·.1 == m) = some (m, bitsOf (c.rd (portPage p.val + 0xC)).toNat 9 4 * 512) := by
    unfold Chip.staRead
    rw [Chip.port_setPort]
    dsimp only
    rw [List.find?_append, List.find?_eq_none.mpr fun y hy => by simpa using (List.mem_filter.mp hy).2]
    simp
  unfold Chip.dataRead
  dsimp only
  rw [hrec]
  refine (Chip.on_sta_syncPort _ p.isLt h9 hk).trans ?_
  rw [Chip.on, Chip.get]
  show (bitsOf (Chip.rd _ (portPage p.val + 0xC)).toNat k 1 != 0) = false
  rw [Chip.rd_wr_same]
  exact bne_eq_false_iff_eq.mpr (bitsOf_cleared _ h9 hk)

/-- The fields of DATA: an empty FIFO, and a character. -/
def dataFields : List FieldDesc := [{ lo := 8, w := 1, acc := .ro, reset := 1, cls := .l }, { lo := 0, w := 8, acc := .rw, reset := 0, cls := .l }]

theorem hookResv_uaData (v : Word) (c : Chip) :
    hookResv Reg.UA0_DATA v c = [] ∧ hookResv Reg.UA1_DATA v c = [] ∧ hookResv Reg.MLK_DATA v c = [] :=
  ⟨rfl, rfl, rfl⟩

theorem Chip.portAccess_kept (c : Chip) (m : Master) (p : Nat) : (c.portAccess m p).mem = c.mem ∧ (∀ a, (c.portAccess m p).rd a = c.rd a) ∧
    ((c.portAccess m p).port p).tx = (c.port p).tx ∧ ((c.portAccess m p).port p).rx = (c.port p).rx := by
  unfold Chip.portAccess
  dsimp only
  split
  · exact ⟨rfl, fun _ => rfl, by rw [Chip.port_setPort], by rw [Chip.port_setPort]⟩
  · exact ⟨rfl, fun _ => rfl, rfl, rfl⟩

theorem Chip.rd_heldData (c : Chip) (v : Word) {a b : Nat} (h : b ≠ a) : (heldIn dataFields a v c).rd b = c.rd b := Chip.rd_put_other _ _ h

/-- A write of DATA is a character for the transmitter. -/
theorem Chip.regWrite_portData {c : Chip} {m : Master} {v : Word} (p : Fin 3) (acc : Accepts c m (portData p.val) v) {d : Chip}
    (h : ((heldIn dataFields (portData p.val) v c).portAccess m p.val).dataWrite p.val (BitVec.ofNat 8 v.toNat) = (St.ok, d)) :
    c.regWrite m (portData p.val) v = d.afterWrite := by
  obtain ⟨r0, r1, r2⟩ := hookResv_uaData v c
  have hval : ∀ (b a : Nat) (e : Bool) (d : Chip), b = Pg.UA0 ∨ b = Pg.UA1 ∨ b = Pg.MLK → hookValid b (.write a e) d = [] := by
    rintro b a e d (rfl | rfl | rfl) <;> unfold hookValid <;> split <;> rfl
  revert acc h
  refine port_cases (P := fun p => Accepts c m (portData p) v →
    ((heldIn dataFields (portData p) v c).portAccess m p).dataWrite p (BitVec.ofNat 8 v.toNat) = (St.ok, d) →
    c.regWrite m (portData p) v = d.afterWrite) ?_ ?_ ?_ p
  · intro acc h
    have hp : plainL Reg.UA0_DATA := by intro n hn; interval_cases n <;> decide
    refine Chip.regWrite_held (l := ⟨pageUA0, 0x58, 0⟩) (fs := dataFields) hp acc rfl
      ⟨by decide, by decide, by decide⟩ rfl rfl rfl rfl ?_ ?_ h
    · rw [show portData 0 = Reg.UA0_DATA from rfl, r0]; rfl
    · exact (if_neg (by decide)).trans (hval _ _ _ _ (Or.inl rfl))
  · intro acc h
    have hp : plainL Reg.UA1_DATA := by intro n hn; interval_cases n <;> decide
    refine Chip.regWrite_held (l := ⟨pageUA1, 0x58, 0⟩) (fs := dataFields) hp acc rfl
      ⟨by decide, by decide, by decide⟩ rfl rfl rfl rfl ?_ ?_ h
    · rw [show portData 1 = Reg.UA1_DATA from rfl, r1]; rfl
    · exact (if_neg (by decide)).trans (hval _ _ _ _ (Or.inr (Or.inl rfl)))
  · intro acc h
    have hp : plainL Reg.MLK_DATA := by intro n hn; interval_cases n <;> decide
    refine Chip.regWrite_held (l := ⟨pageMLK, 0x54, 0⟩) (fs := dataFields) hp acc rfl
      ⟨by decide, by decide, by decide⟩ rfl rfl rfl rfl ?_ ?_ h
    · rw [show portData 2 = Reg.MLK_DATA from rfl, r2]; rfl
    · exact (if_neg (by decide)).trans (hval _ _ _ _ (Or.inr (Or.inr rfl)))

theorem Chip.syncPort_kept (c : Chip) (p : Nat) : (c.syncPort p).ser = c.ser ∧ (c.syncPort p).mem = c.mem := by
  unfold Chip.syncPort Chip.putB
  dsimp only
  simp only [apply_ite Chip.ser, apply_ite Chip.mem, Chip.set, Chip.clr, Chip.put_ser, Chip.put_mem, Chip.wr_ser, Chip.wr_mem, ite_self, and_self]

theorem Chip.port_congr {c d : Chip} (h : d.ser = c.ser) (p : Nat) : d.port p = c.port p := by
  unfold Chip.port
  rw [h]

/-- A port's mode and format stand beside its DATA register. -/
theorem Chip.mode_congr {c d : Chip} (p : Fin 3) (h : ∀ a ≠ portData p.val, d.rd a = c.rd a) :
    d.direct p.val = c.direct p.val ∧ d.sevenBits p.val = c.sevenBits p.val := by
  revert h
  refine port_cases (P := fun p => (∀ a ≠ portData p, d.rd a = c.rd a) → d.direct p = c.direct p ∧ d.sevenBits p = c.sevenBits p) ?_ ?_ ?_ p
  all_goals
    intro h
    exact ⟨Chip.on_rd (h _ (by decide)), Chip.on_rd (h _ (by decide))⟩

/-- A character written enters the TX FIFO. -/
theorem Chip.dataWrite_room {c : Chip} {p : Nat} (b : Byte) (hd : c.direct p = true) (ht : (c.port p).tx.length < 64) :
    c.dataWrite p b = (St.ok, ((c.setPort p { c.port p with tx := (c.port p).tx ++ [if c.sevenBits p then b &&& 0x7F#8 else b] }).set
      (if p = 2 then Fld.MLK_STA_TXBSY else uaF p Fld.UA0_STA_TXBSY)).syncPort p) := by
  unfold Chip.dataWrite
  rw [hd]
  exact (if_neg (by decide)).trans (if_neg (by omega))

/-! ### Frames and time-outs (R385, R389) -/

theorem Chip.startTx_direct {c : Chip} {p : Nat} (h : c.direct p = true) : c.startTx p = c := by
  unfold Chip.startTx
  exact if_neg (by simp [h])

theorem Chip.idleCut_tunnel {c : Chip} {p : Nat} (h : Hooks) (hp : p < 2) (hd : c.direct p = false) (hf : (c.port p).frame ≠ [])
    (hr : (c.port p).rx = []) : c.idleCut h p = c.finishFrame h p 0 := by
  unfold Chip.idleCut Chip.cutPort
  rw [if_neg (by simp [hd]; omega), hr]
  refine (if_pos rfl).trans ?_
  unfold Chip.cutFrame
  exact if_neg (by simp [hf])

theorem Chip.xoffTimeout_direct {c : Chip} {p : Nat} (hp : p < 2) (hx : c.on (uaF p Fld.UA0_STA_XOFFR) = true)
    (ht : c.get (uaF p Fld.UA0_FLOW_XOTMO) ≠ 0) (hd : c.direct p = true) :
    c.xoffTimeout p = ((c.setPort p { c.port p with ending := false }).set (uaF p Fld.UA0_IST_XOTMO)).clr (uaF p Fld.UA0_STA_XOFFR) := by
  unfold Chip.xoffTimeout
  refine (if_pos (by simp [hx, ht])).trans (Chip.startTx_direct (Eq.trans ?_ hd))
  unfold Chip.direct
  interval_cases p <;> exact Chip.on_rd ((Chip.rd_put_other _ _ (by decide)).trans (Chip.rd_put_other _ _ (by decide)))

/-- A frame sent in DIRECT mode empties the TX FIFO. -/
theorem Chip.frameSent_direct {c : Chip} {p : Nat} (h : Hooks) (coll : Bool) (hon : c.portOn p = true) (hd : c.direct p = true)
    (hx : p ≠ 2 → c.on (uaF p Fld.UA0_STA_XOFFR) = false) :
    c.frameSent h p coll =
      (let bsy := if p = 2 then Fld.MLK_STA_TXBSY else uaF p Fld.UA0_STA_TXBSY
       let out (l : List Byte) := (c.setPort p { c.port p with tx := [], ending := false, line := l }).clr bsy
       if p = 2 ∧ coll = true then (((out []).set Fld.MLK_IST_COLL).bump Fld.MLK_ERRC_COLL).syncPort p else (out (c.port p).tx).syncPort p) := by
  unfold Chip.frameSent
  rw [hon, if_neg, if_pos hd]
  · by_cases e : p = 2 ∧ coll = true
    · obtain ⟨rfl, rfl⟩ := e
      rfl
    · have e' : (decide (p = 2) && coll) = false := by simpa using e
      simp only [e', e]
      rfl
  · by_cases e : p = 2
    · simp [e]
    · simp [hx e]

/-- Settles O49: each event by its port, whose mode is DIRECT or, for the idle line, TUNNEL. -/
theorem serialPorts : Obligations.SerialPorts := by
  unfold Obligations.SerialPorts
  refine ⟨fun s p ha hl hd hon hx => ⟨fun b hn => gives_onRx ha hl rfl ?_, fun b l r hn hr => gives_onRx ha hl rfl ?_, gives_onRx ha hl rfl ?_⟩,
    fun s p b hL hp hpad hd hon hx h7 hb => gives_onRx (fun e => absurd e hp) (fun _ => ⟨hL, hpad⟩) rfl ?_,
    fun s m p hc hq hdead hm => ⟨gives_act rfl ?_, gives_act rfl ?_⟩, fun c m p k h9 hk => c.dataRead_clears m p h9 hk,
    fun s m p v acc hd ht => ?_, fun s p hL => ⟨fun hx ht hd => gives_onL hL rfl ?_, fun hd hf hr => gives_onL hL rfl ?_⟩,
    fun s p ha hl hon hd => ⟨gives_onPort ha (fun e => (hl e).1) rfl ?_, fun hp => ?_⟩⟩
  · exact (Chip.rxChar_direct hon hd hooks b hx).trans (if_neg (by omega))
  · refine (Chip.rxChar_direct hon hd hooks b hx).trans ((if_pos hn).trans ?_)
    rw [Chip.markRx_last (c := s.chip.setPort p.val { s.chip.port p.val with ending := false }) (l := l) (r := r)
      (by rw [Chip.port_setPort]; exact hr),
      Chip.port_setPort, Chip.setPort_setPort]
  · exact Chip.rxBreak_direct hooks p.isLt hon hd
  · exact Chip.rxChar_xoff hon hd hooks hp hx h7 hb
  · exact Chip.regRead_port hc hq (by decide) (Chip.load32_portSta hdead hm)
  · refine (Chip.regRead_port (x := if p.val = 2 then 0x54 else 0x58) hc hq (by split <;> decide) (Chip.load32_portData hdead hm)).trans ?_
    unfold Chip.dataRead
    dsimp only
    cases (s.chip.port p.val).recs.find? (·.1 == m) <;> rfl
  · let e := (heldIn dataFields (portData p.val) v s.chip).portAccess m p.val
    obtain ⟨hm, hr, htx, hrx⟩ := (heldIn dataFields (portData p.val) v s.chip).portAccess_kept m p.val
    obtain ⟨hdir, h7⟩ := Chip.mode_congr (d := e) (c := s.chip) p fun a ha => (hr a).trans (s.chip.rd_heldData v ha)
    have hroom := Chip.dataWrite_room (c := e) (p := p.val) (BitVec.ofNat 8 v.toNat) (hdir.trans hd) (by rw [htx]; exact ht)
    let bsy := if p.val = 2 then Fld.MLK_STA_TXBSY else uaF p.val Fld.UA0_STA_TXBSY
    let d := (e.setPort p.val { e.port p.val with
      tx := (e.port p.val).tx ++ [if e.sevenBits p.val then BitVec.ofNat 8 v.toNat &&& 0x7F#8 else BitVec.ofNat 8 v.toNat] }).set bsy
    obtain ⟨hser, hmem⟩ := d.syncPort_kept p.val
    have hport : (d.syncPort p.val).port p.val = { e.port p.val with
        tx := (e.port p.val).tx ++ [if e.sevenBits p.val then BitVec.ofNat 8 v.toNat &&& 0x7F#8 else BitVec.ofNat 8 v.toNat] } :=
      (Chip.port_congr hser p.val).trans (Chip.port_setPort e p.val _)
    refine (act_gives (f := fun c => c.regWrite m (portData p.val) v) rfl).runs ⟨d.syncPort p.val, ?_, ?_, ?_, Chip.regWrite_portData p acc hroom⟩
    · rw [hport, htx, h7]
      rfl
    · rw [hport]
      exact hrx
    · rw [hmem]
      exact hm
  · exact Chip.xoffTimeout_direct p.isLt hx ht hd
  · exact congrArg Chip.settle (Chip.idleCut_tunnel hooks p.isLt hd hf hr)
  · refine congrArg Chip.settle ((Chip.frameSent_direct hooks false hon hd fun e => (hl e).2).trans ?_)
    exact if_neg (by simp)
  · obtain ⟨p, hlt⟩ := p
    obtain rfl : p = 2 := hp
    refine gives_onPort (p := 2) (f := fun c => (c.frameSent hooks 2 true).settle) ha (fun e => absurd rfl e) rfl ?_
    refine congrArg Chip.settle ((Chip.frameSent_direct hooks true hon hd fun e => absurd rfl e).trans ?_)
    exact if_pos ⟨rfl, rfl⟩

end Sys2Proof.Machine
end

section
/-!
SUPPORT. What the services of Almanac answer (R430, R431, R453).
-/
namespace Sys2Proof.Machine

/-! ### What a service answers (R430) -/

section
variable {c : Chip} {q : SvcReq}

theorem Chip.cont_setCont_nil (c : Chip) (who : Nat) : (c.setCont who []).cont who = [] := by
  unfold Chip.setCont Chip.cont
  dsimp only [List.isEmpty_nil]
  rw [if_pos rfl, List.find?_eq_none.mpr fun y hy => by simpa using (List.mem_filter.mp hy).2]
  rfl

theorem Chip.service_cont (hq : q.code = Svc.cont) :
    c.service q = if c.cont q.who = [] then ((St.state, []), c) else ((St.ok, c.cont q.who), c.setCont q.who []) := by
  unfold Chip.service
  rw [if_pos hq]
  simp only [List.isEmpty_iff]

/-- In ROM mode only STATUS, IDENT and UPD run. -/
theorem Chip.service_rom (hr : c.romMode = true) (hq : q.code ∉ [Svc.status, Svc.ident, Svc.upd, Svc.cont]) :
    c.service q = ((St.badArg, []), c.setCont q.who []) := by
  simp only [List.mem_cons, List.not_mem_nil, or_false, not_or] at hq
  obtain ⟨h1, h2, h8, hc⟩ := hq
  unfold Chip.service
  rw [if_neg hc]
  refine if_pos ?_
  rw [show (c.setCont q.who []).romMode = true from hr]
  simp [h1, h2, h8]

theorem Chip.service_status (hq : q.code = Svc.status) (hr : q.req = []) :
    c.service q = ((St.ok, (c.setCont q.who []).svcStatus), c.setCont q.who []) := by
  unfold Chip.service
  rw [if_neg (by rw [hq]; decide)]
  dsimp only
  rw [if_neg (by rw [hq]; simp), if_pos hq, hr]
  rfl

theorem Chip.service_ident (hq : q.code = Svc.ident) (hr : q.req = []) :
    c.service q = ((St.ok, (c.setCont q.who []).svcIdent), c.setCont q.who []) := by
  unfold Chip.service
  rw [if_neg (by rw [hq]; decide)]
  dsimp only
  rw [if_neg (by rw [hq]; simp), if_neg (by rw [hq]; decide), if_pos hq, hr]
  rfl

section
variable (hrom : c.romMode = false)
include hrom

theorem Chip.service_paramRead (hq : q.code = Svc.paramRead) : c.service q = (c.setCont q.who []).svcParamRead q.req := by
  unfold Chip.service
  rw [if_neg (by rw [hq]; decide)]
  dsimp only
  rw [show (c.setCont q.who []).romMode = false from hrom, if_neg (by simp), if_neg (by rw [hq]; decide), if_neg (by rw [hq]; decide),
    if_neg (by rw [hq]; decide), if_neg (by rw [hq]; decide), if_pos hq]

theorem Chip.service_logRead (hq : q.code = Svc.logRead) (hk : q.rqk ≠ 2) {lo : Nat} {n : Nat} (hr : q.req = leBytes 4 lo ++ leBytes 1 n)
    (hlo : lo < 2 ^ 32) (h1 : 1 ≤ n) (h31 : n ≤ 31) :
    c.service q = ((St.ok, (c.setCont q.who []).svcLog lo n), c.setCont q.who []) := by
  have hn : ofLeBytes (q.req.drop 4) = n := by
    rw [hr, List.drop_left' (leBytes_length 4 lo), ofLeBytes_leBytes]
    omega
  have hl : ofLeBytes (q.req.take 4) = lo := by
    rw [hr, List.take_left' (leBytes_length 4 lo), ofLeBytes_leBytes]
    omega
  have hlen : q.req.length = 5 := by rw [hr, List.length_append, leBytes_length, leBytes_length]
  unfold Chip.service
  rw [if_neg (by rw [hq]; decide)]
  dsimp only
  rw [show (c.setCont q.who []).romMode = false from hrom, if_neg (by simp), if_neg (by rw [hq]; decide), if_neg (by rw [hq]; decide),
    if_pos hq, hn, hl, hlen, if_neg hk, if_neg (by simp; omega)]

/-- A write service runs behind the end of its requester's continuation. -/
theorem Chip.service_write (hq : isWrite q.code = true) : c.service q = (c.setCont q.who []).svcWrite q := by
  have hne : ∀ k, isWrite k = false → q.code ≠ k := fun k h e => by rw [e, h] at hq; cases hq
  unfold Chip.service
  rw [if_neg (hne _ rfl)]
  dsimp only
  rw [show (c.setCont q.who []).romMode = false from hrom, if_neg (by simp), if_neg (hne _ rfl), if_neg (hne _ rfl), if_neg (hne _ rfl),
    if_neg (hne _ rfl), if_neg (hne _ rfl), if_pos hq]

end

theorem Chip.bytes_congr_mem {c d : Chip} (h : d.mem = c.mem) : ∀ n a : Nat, d.bytes a n = c.bytes a n
  | 0, _ => rfl
  | n + 1, a => by
    unfold Chip.bytes Chip.byte
    rw [h, Chip.bytes_congr_mem h n (a + 1)]

/-- Bytes of a partition that hold no poison. -/
theorem Chip.svcParamRead_plain {k : Byte} {o n b sz : Nat} (hp : partAt k.toNat = some (b, sz)) (h1 : 1 ≤ n) (hn : n ≤ 240) (ho : o < 2 ^ 24)
    (hs : o + n ≤ sz) (hpo : c.fst.poison = []) :
    c.svcParamRead (k :: leBytes 3 o ++ leBytes 1 n) = ((St.ok, c.bytes (fDie + b + o) n), c) := by
  have hk : ofLeBytes ((k :: leBytes 3 o ++ leBytes 1 n).take 1) = k.toNat := by simp [ofLeBytes]
  have ho' : ofLeBytes (((k :: leBytes 3 o ++ leBytes 1 n).drop 1).take 3) = o := by
    rw [List.cons_append, List.drop_one, List.tail_cons, List.take_left' (leBytes_length 3 o), ofLeBytes_leBytes]
    omega
  have hn' : ofLeBytes ((k :: leBytes 3 o ++ leBytes 1 n).drop 4) = n := by
    rw [List.drop_left' (by rw [List.length_cons, leBytes_length]), ofLeBytes_leBytes]
    omega
  have hlen : (k :: leBytes 3 o ++ leBytes 1 n).length = 5 := by simp [leBytes_length]
  unfold Chip.svcParamRead
  rw [hk, ho', hn']
  dsimp only
  rw [hp, hlen, hpo]
  exact if_neg (by simp; omega)

/-- The parts of a PARAM_WRITE request (R430). -/
theorem paramWrite_parts {sq : List Byte} {k : Byte} {o : Nat} {bs : List Byte} (hs : sq.length = 2) (ho : o < 2 ^ 24) :
    ofLeBytes (((sq ++ k :: leBytes 3 o ++ bs).drop 2).take 1) = k.toNat ∧ ofLeBytes (((sq ++ k :: leBytes 3 o ++ bs).drop 3).take 3) = o ∧
      (sq ++ k :: leBytes 3 o ++ bs).drop 6 = bs := by
  have h2 : (sq ++ k :: leBytes 3 o ++ bs).drop 2 = k :: (leBytes 3 o ++ bs) := by
    rw [List.append_assoc, List.drop_left' hs]
    rfl
  have h3 : (sq ++ k :: leBytes 3 o ++ bs).drop 3 = leBytes 3 o ++ bs := by
    rw [← List.drop_drop (i := 1) (j := 2), h2]
    rfl
  refine ⟨?_, ?_, ?_⟩
  · rw [h2]
    simp [ofLeBytes]
  · rw [h3, List.take_left' (leBytes_length 3 o), ofLeBytes_leBytes]
    omega
  · rw [← List.drop_drop (i := 3) (j := 3), h3, List.drop_left' (leBytes_length 3 o)]

/-- A PARAM_WRITE within a partition that may be written. -/
theorem Chip.svcParamWrite_parts {sq : List Byte} {k : Byte} {o b sz : Nat} {bs : List Byte} (hr : q.req = sq ++ k :: leBytes 3 o ++ bs)
    (hs : sq.length = 2) (ho : o < 2 ^ 24) (hp : partAt k.toNat = some (b, sz)) (hk : k.toNat ≤ 1) (hne : bs ≠ []) (hl : bs.length ≤ 240)
    (hsz : o + bs.length ≤ sz) :
    c.svcParamWrite q = if q.auth = true then c.svcGroup q k.toNat o (c.patchPages (b + o) bs) else (St.perm, c) := by
  obtain ⟨p1, p2, p3⟩ := paramWrite_parts (k := k) (bs := bs) hs ho
  unfold Chip.svcParamWrite
  rw [hr, p1, p2, p3]
  dsimp only
  rw [hp]
  refine (if_neg (by simp [hne]; omega)).trans ?_
  cases q.auth <;> rfl

/-- A write service of another carrier than the reader needs no more than its request. -/
theorem Chip.svcWrite_plain (hk : q.rqk ≠ 2) (hl : 3 ≤ q.req.length) {r : Status × Chip}
    (hr : (if q.code = Svc.paramWrite then c.svcParamWrite q else if q.code = Svc.time then c.svcTime q else c.svcUpd q) = r) :
    c.svcWrite q = ((r.1, if q.code = Svc.upd then r.2.updAnswer else []), r.2) := by
  have hx : (decide (q.rqk = 2) && decide (r.1 = St.ok)) = false := by simp [hk]
  unfold Chip.svcWrite
  dsimp only
  rw [if_neg hk, if_neg (by omega), if_neg (not_not.mpr rfl), hr, hx]
  rfl

end

/-- Settles O52: each service by its code. -/
theorem serviceResults : Obligations.ServiceResults := by
  unfold Obligations.ServiceResults
  intro c q
  refine ⟨Chip.service_status, fun _ => ?_, Chip.service_ident, fun hq hne => ⟨?_, c.cont_setCont_nil q.who⟩, fun hq he => ?_, Chip.service_rom,
    fun k o n b sz hq hrom hr hp h1 hn ho hs hpo => ?_, fun k o b sz sq bs hq hrom hk2 ha hs hr hp hk hne hl ho hsz => ?_⟩
  · simp [Chip.svcStatus, leBytes_length]
  · rw [Chip.service_cont hq, if_neg hne]
  · rw [Chip.service_cont hq, if_pos he]
  · rw [Chip.service_paramRead hrom hq, hr]
    rw [Chip.svcParamRead_plain (c := c.setCont q.who []) hp h1 hn ho hs hpo, Chip.bytes_congr_mem (c := c) (d := c.setCont q.who []) rfl]
  · rw [Chip.service_write hrom (by rw [hq]; rfl)]
    have hlen : 3 ≤ q.req.length := by rw [hr]; simp [hs]; omega
    rw [Chip.svcWrite_plain hk2 hlen (if_pos hq), Chip.svcParamWrite_parts hr hs ho hp hk hne hl hsz, if_neg (ne_true_of_eq_false ha),
      if_neg (by rw [hq]; decide)]

end Sys2Proof.Machine
end

section
/-!
SUPPORT. Service requests by their carriers (R430, R431, R392, R455).
-/
namespace Sys2Proof.Machine

/-! ### Frames for a responder of the Turradar link (R392, R393) -/

/-- A frame with a good CRC and a payload in range is taken, and its end is a frame boundary (R73). -/
theorem Chip.turFrame_taken {c : Chip} (h : Hooks) (dst src ctl : Byte) (q : Nat) {bs : List Byte} (hon : c.portOn 2 = true) (hd : c.direct 2 = false)
    (h1 : bs ≠ []) (hn : bs.length ≤ 1024) : c.turFrame h dst src ctl q bs true = (c.turTake dst src ctl q bs).frameEnd h 2 := by
  have h0 : bs.length ≠ 0 := fun e => h1 (List.length_eq_zero_iff.mp e)
  unfold Chip.turFrame
  rw [hon, hd]
  exact (if_neg (by decide)).trans ((if_neg (by simp [h0]; omega)).trans (if_neg (by decide)))

/-- A responder runs a request for its node that is no repeat. -/
theorem Chip.turTake_request {c : Chip} {dst src ctl : Byte} {q : Nat} {bs : List Byte} (hr : c.on Fld.MLK_ADDR_ROLE = false) (hb : ctl.msb = false)
    (h6 : ctl.getLsbD 6 = false) (hdst : dst.toNat = c.get Fld.MLK_ADDR_A) (hq : q = 0 ∨ (src.toNat, q) ∉ c.ser.link.last) :
    c.turTake dst src ctl q bs = ((c.inc Fld.MLK_CNT_RXF).set Fld.MLK_IST_RXFRM).turRequest false src.toNat q bs
      ([dst, src, ctl] ++ leBytes 2 q ++ leBytes 2 bs.length ++ bs) := by
  have hrsp : (bitsOf ctl.toNat 6 1 == 1) = false := by rw [bitsOf_one_eq_one, BitVec.testBit_toNat, h6]
  have hdup : (decide (q ≠ 0) && c.ser.link.last.contains (src.toNat, q)) = false := by
    obtain h | h := hq
    · simp [h]
    · simp [h]
  unfold Chip.turTake
  simp only [hr, hb, hrsp, hdst, beq_self_eq_true, Bool.not_false, Bool.true_and, Bool.false_eq_true, if_false, Bool.true_or,
    Bool.not_true, Bool.or_self]
  unfold Chip.turRespond
  exact (if_neg (by rw [Bool.and_false]; decide)).trans (if_neg (ne_true_of_eq_false hdup))

/-! ### Requests by their carrier (R431, R455) -/

theorem serviceRow_exec {i : Instr} {s : State} {via : Carrier} {code : Nat} {req : List Byte} (h : ServiceRow i via code req) :
    exec i s = s.act fun c => c.serve via code req := by
  obtain ⟨rfl, rfl, rfl⟩ | ⟨rfl, rfl, rfl⟩ | ⟨rfl, rfl, rfl⟩ | ⟨rfl, q, n, rfl, rfl⟩ | ⟨rfl, p, o, n, rfl, rfl⟩ |
    ⟨rfl, q, p, o, bs, rfl, rfl⟩ | ⟨rfl, q, t, rfl, rfl⟩ | ⟨rfl, q, op, bs, rfl, rfl⟩ := h
  all_goals rfl

theorem gives_service {i : Instr} {s : State} {via : Carrier} {code : Nat} {req : List Byte} {d : Chip} (h : ServiceRow i via code req)
    (ha : AOn s.chip) (hd : (match via with
      | .mailbox => s.chip.mailboxSvc code
      | .turradar src seq =>
        s.chip.turFrame hooks (BitVec.ofNat 8 (s.chip.get Fld.MLK_ADDR_A)) src 0#8 seq.toNat (BitVec.ofNat 8 code :: req) true
      | .nimora p12 le => s.chip.apduSvc p12.toNat le.toNat code req).settle = d) : Gives i s d :=
  gives_act (serviceRow_exec h) ((Chip.onA_on ha _).trans hd)

/-- The mailbox's request runs and is answered. -/
theorem Chip.mailboxDone_runs {c : Chip} {m : Master} (hm : c.alm.mbox = some m) (hw : c.alm.waits = []) (hs : c.svcWaits (c.mailboxReq m) = false) :
    c.mailboxDone = (c.service (c.mailboxReq m)).2.deliver (c.mailboxReq m) (c.service (c.mailboxReq m)).1.1 (c.service (c.mailboxReq m)).1.2 := by
  unfold Chip.mailboxDone
  rw [hm, hw]
  refine (if_neg (by simp)).trans ?_
  unfold Chip.svcRun
  rw [hs]
  rfl

theorem gives_mailbox {i : Instr} {s : State} {m : Master} {code : Nat} {req : List Byte} {st : Status} {data : List Byte} {t : Chip}
    (h : ServiceRow i .mailbox code req) (ha : AOn s.chip) (hm : s.chip.alm.mbox = some m) (hw : s.chip.alm.waits = [])
    (hq : (s.chip.mailboxReq m).code = code) (hs : s.chip.svcWaits (s.chip.mailboxReq m) = false)
    (hr : s.chip.service (s.chip.mailboxReq m) = ((st, data), t)) : Gives i s (t.deliver (s.chip.mailboxReq m) st data).settle := by
  refine gives_service h ha (congrArg Chip.settle ((if_pos hq).trans ((Chip.mailboxDone_runs hm hw hs).trans ?_)))
  rw [hr]

/-- Only QUOTE waits for what has nothing to do with a commit group. -/
theorem Chip.svcWaits_quick {c : Chip} {q : SvcReq} (hq : q.code ≠ Svc.quote) (h : isWrite q.code = false ∨ c.gst = 0) :
    c.svcWaits q = false := by
  unfold Chip.svcWaits
  obtain h | h := h <;> simp [hq, h]

/-- A TIME request by a requester with the right (R430). -/
theorem Chip.svcTime_request {c : Chip} {q : SvcReq} (sq : BitVec 16) (t : BitVec 32) (hr : q.req = leBytes 2 sq.toNat ++ leBytes 4 t.toNat)
    (ha : q.auth = true) (hg : (c.svcGroup q 0 0 []).1 = St.ok) :
    c.svcTime q = (St.ok, ((c.svcGroup q 0 0 []).2.setRtc t.toNat).logEvent 6 (leBytes 4 (c.get Fld.RTC_SEC_S) ++ leBytes 4 t.toNat)) := by
  have hlen : q.req.length = 6 := by rw [hr, List.length_append, leBytes_length, leBytes_length]
  have hsec : ofLeBytes (q.req.drop 2) = t.toNat := by
    rw [hr, List.drop_left' (leBytes_length 2 _), ofLeBytes_leBytes]
    exact Nat.mod_eq_of_lt t.isLt
  unfold Chip.svcTime
  rw [hlen, hsec, ha]
  dsimp only
  rw [hg]
  rfl

/-- UPD's ABORT with its commit group (R451). -/
theorem Chip.svcUpd_abort {c : Chip} {q : SvcReq} (sq : BitVec 16) (bs : List Byte) (hr : q.req = leBytes 2 sq.toNat ++ 4#8 :: bs) :
    c.svcUpd q = c.updAbort.svcGroup q 0 0 [] := by
  have hop : ofLeBytes ((q.req.drop 2).take 1) = 4 := by
    rw [hr, List.drop_left' (leBytes_length 2 _)]
    rfl
  unfold Chip.svcUpd
  rw [hop]
  rfl

theorem Chip.romMode_bump (c : Chip) : (c.bump Fld.NIM_CNT_APDU).romMode = c.romMode := by
  unfold Chip.romMode Chip.bump
  simp (disch := decide) only [Chip.get_put_apart]

theorem leBytes_byte (n : Byte) : [n] = leBytes 1 n.toNat := by
  simp [leBytes]

/-- Settles O51: each carrier hands its request to the service, whose answer it delivers. -/
theorem serviceRequests : Obligations.ServiceRequests := by
  unfold Obligations.ServiceRequests
  refine ⟨fun s m acc hb => ?_, fun s m ha hm hw hs => ?_, fun s i via code req hrow ha => ⟨?_, ?_, ?_⟩, fun s m ha hm hw hrom => ?_⟩
  · refine gives_command rfl acc rfl rfl ?_
    show s.chip.mailboxGo m 1#32 = _
    unfold Chip.mailboxGo
    rw [hb]
    rfl
  · exact gives_onA ha rfl (congrArg Chip.settle (Chip.mailboxDone_runs hm hw hs))
  · rintro m rfl hm hq hw hs
    exact gives_service hrow ha (congrArg Chip.settle ((if_pos hq).trans (Chip.mailboxDone_runs hm hw hs)))
  · rintro p n rfl h3 hsl
    have hap : ∀ f : Chip → Chip, s.chip.apdu f = f (s.chip.bump Fld.NIM_CNT_APDU) := fun f => if_pos (by simp [h3, hsl])
    have hrm (b : Bool) (hr : s.chip.romMode = b) : (s.chip.bump Fld.NIM_CNT_APDU).romMode = b := s.chip.romMode_bump.trans hr
    have run {d : Chip} (hd : (s.chip.apduSvc p.toNat n.toNat code req) = d) : Gives i s d.settle :=
      gives_service hrow ha (congrArg Chip.settle hd)
    refine ⟨fun hr hc => run ?_, fun hr happ => run ?_, fun hr happ hc => run ?_, fun hr happ hc hp => run ?_, fun hr happ hc hp hs => run ?_⟩
    all_goals
      refine (hap _).trans ?_
    · refine if_pos ?_
      rw [hrm _ hr]
      simpa [and_assoc] using hc
    all_goals
      refine (if_neg (by rw [hrm _ hr]; exact Bool.false_ne_true)).trans ?_
    · exact if_pos (by simp [happ])
    all_goals
      refine (if_neg (by simp [happ])).trans ?_
    · exact if_pos hc
    all_goals
      refine (if_neg hc).trans ?_
    · exact if_pos fun h => hp (BitVec.eq_of_toNat_eq h)
    · refine (if_neg (by rw [hp]; simp)).trans ?_
      have hau : (s.chip.bump Fld.NIM_CNT_APDU).on Fld.NIM_STA_AUTH = s.chip.on Fld.NIM_STA_AUTH := Chip.on_put_apart _ _ (by decide) (by decide)
      rw [hau]
      unfold Chip.svcRun
      exact if_neg (ne_true_of_eq_false hs)
  · rintro src q rfl hon hd hl hr hq
    have hA : (BitVec.ofNat 8 (s.chip.get Fld.MLK_ADDR_A)).toNat = s.chip.get Fld.MLK_ADDR_A := by
      rw [BitVec.toNat_ofNat]
      exact Nat.mod_eq_of_lt (RegMap.get_lt s.chip.regs Fld.MLK_ADDR_A)
    refine gives_service hrow ha (congrArg Chip.settle ?_)
    show s.chip.turFrame hooks _ src 0#8 q.toNat (_ :: req) true = _
    rw [Chip.turFrame_taken hooks _ src 0#8 q.toNat hon hd (List.cons_ne_nil _ _) hl, Chip.turTake_request hr rfl rfl hA hq]
    rfl
  · have quick (h1 : (s.chip.mailboxReq m).code ≠ Svc.quote) (h2 : isWrite (s.chip.mailboxReq m).code = false) :
        s.chip.svcWaits (s.chip.mailboxReq m) = false := Chip.svcWaits_quick h1 (Or.inl h2)
    have hrqk : (s.chip.mailboxReq m).rqk ≠ 2 := by
      show 3 ≠ 2
      decide
    refine ⟨fun hq hr => ?_, fun hq hr => ?_, fun hq hc => ?_, fun lo n hq hr h1 hn => ?_, fun k o n b sz hq hr hp h1 hn ho hs hpo => ?_,
      fun hg hau => ⟨fun sq k o bs b sz hq hr hp hk hne hl ho hs hok => ?_, fun sq t hq hr hok => ?_, fun sq bs hq hr hok => ?_⟩⟩
    · exact gives_mailbox (Or.inl ⟨rfl, rfl, rfl⟩) ha hm hw hq (quick (by rw [hq]; decide) (by rw [hq]; rfl)) (Chip.service_status hq hr)
    · exact gives_mailbox (Or.inr (Or.inl ⟨rfl, rfl, rfl⟩)) ha hm hw hq (quick (by rw [hq]; decide) (by rw [hq]; rfl)) (Chip.service_ident hq hr)
    · exact gives_mailbox (Or.inr (Or.inr (Or.inl ⟨rfl, rfl, rfl⟩))) ha hm hw hq (quick (by rw [hq]; decide) (by rw [hq]; rfl))
        ((Chip.service_cont hq).trans (if_neg hc))
    · exact gives_mailbox (Or.inr (Or.inr (Or.inr (Or.inl ⟨rfl, lo, n, rfl, rfl⟩)))) ha hm hw hq (quick (by rw [hq]; decide) (by rw [hq]; rfl))
        (Chip.service_logRead hrom hq hrqk (hr.trans (by rw [leBytes_byte])) lo.isLt h1 hn)
    · refine gives_mailbox (Or.inr (Or.inr (Or.inr (Or.inr (Or.inl ⟨rfl, k, o, n, rfl, rfl⟩))))) ha hm hw hq
        (quick (by rw [hq]; decide) (by rw [hq]; rfl)) ?_
      rw [Chip.service_paramRead hrom hq, hr, leBytes_byte]
      exact Chip.svcParamRead_plain (c := s.chip.setCont (s.chip.mailboxReq m).who []) hp h1 hn ho hs hpo
    all_goals
      have wait (h1 : (s.chip.mailboxReq m).code ≠ Svc.quote) : s.chip.svcWaits (s.chip.mailboxReq m) = false := Chip.svcWaits_quick h1 (Or.inr hg)
    · refine gives_mailbox (data := []) (Or.inr (Or.inr (Or.inr (Or.inr (Or.inr (Or.inl ⟨rfl, sq, k, o, bs, rfl, rfl⟩)))))) ha hm hw hq
        (wait (by rw [hq]; decide)) ?_
      rw [Chip.service_write hrom (by rw [hq]; rfl), Chip.svcWrite_plain hrqk (by rw [hr]; simp [leBytes_length]; omega) (if_pos hq),
        Chip.svcParamWrite_parts hr (leBytes_length 2 _) ho hp hk hne hl hs, if_pos hau, hok, if_neg (by rw [hq]; decide)]
    · refine gives_mailbox (data := []) (Or.inr (Or.inr (Or.inr (Or.inr (Or.inr (Or.inr (Or.inl ⟨rfl, sq, t, rfl, rfl⟩))))))) ha hm hw hq
        (wait (by rw [hq]; decide)) ?_
      rw [Chip.service_write hrom (by rw [hq]; rfl), Chip.svcWrite_plain hrqk (by rw [hr]; simp [leBytes_length])
        ((if_neg (by rw [hq]; decide)).trans (if_pos hq)), Chip.svcTime_request sq t hr hau hok, if_neg (by rw [hq]; decide)]
      rfl
    · refine gives_mailbox (Or.inr (Or.inr (Or.inr (Or.inr (Or.inr (Or.inr (Or.inr ⟨rfl, sq, 4#8, bs, rfl, rfl⟩))))))) ha hm hw hq
        (wait (by rw [hq]; decide)) ?_
      rw [Chip.service_write hrom (by rw [hq]; rfl), Chip.svcWrite_plain hrqk (by rw [hr]; simp [leBytes_length]; omega)
        ((if_neg (by rw [hq]; decide)).trans (if_neg (by rw [hq]; decide))), Chip.svcUpd_abort sq bs hr, hok, if_pos hq]

end Sys2Proof.Machine
end

section
/-!
SUPPORT. The Nimora port's session (R454–R458, R468).
-/
namespace Sys2Proof.Machine

/-! ### The reader's session (R454–R456, R468) -/

section
variable {c : Chip}

/-- An APDU in the protocol state reaches its row, counted. -/
theorem Chip.apdu_runs (h3 : 3 ≤ c.nimSt) (hs : c.coreAsleep = false) (f : Chip → Chip) : c.apdu f = f (c.bump Fld.NIM_CNT_APDU) :=
  if_pos (by simp [h3, hs])

theorem Chip.uid_length : c.uid.length = 7 := by
  unfold Chip.uid
  rw [List.length_append, leBytes_length, leBytes_length]

/-- Both cascades hold five bytes. -/
theorem Chip.cascade_length (l : Fin 2) : (c.cascade (l.val + 1)).length = 5 := by
  match l with
  | 0 =>
    show ((0x88#8 :: c.uid.take 3) ++ [_]).length = 5
    rw [List.length_append, List.length_cons, List.length_take, c.uid_length]
    rfl
  | 1 =>
    show (c.uid.drop 3 ++ [_]).length = 5
    rw [List.length_append, List.length_drop, c.uid_length]
    rfl

section
variable (h1 : c.nimSt = 1) (l : Fin 2) (hl : c.alm.nim.level = l.val + 1)
include h1 hl

/-- Anticollision at the level reached: the bytes that are missing are sent. -/
theorem Chip.nimSelect_part {k : Nat} (hk : k < 5) :
    c.nimSelect (l.val + 1) ((c.cascade (l.val + 1)).take k) = c.nimOut ((c.cascade (l.val + 1)).drop k) := by
  have hlen : ((c.cascade (l.val + 1)).take k).length = k := by rw [List.length_take, c.cascade_length l]; omega
  unfold Chip.nimSelect
  dsimp only
  rw [hl, hlen, h1]
  exact (if_neg (by simp)).trans (if_pos hk)

/-- Anticollision at the level reached: all five bytes select. -/
theorem Chip.nimSelect_full : c.nimSelect (l.val + 1) (c.cascade (l.val + 1)) =
    if l.val + 1 = 1 then { c with alm := { c.alm with nim := { c.alm.nim with out := [0x04#8], level := 2 } } }
    else ((c.nimOut [0x20#8]).put Fld.NIM_ST_S 2).set Fld.NIM_IST_SEL := by
  have ht : (c.cascade (l.val + 1)).take 5 = c.cascade (l.val + 1) := List.take_of_length_le (c.cascade_length l).le
  unfold Chip.nimSelect
  dsimp only
  rw [hl, c.cascade_length l, h1, ht]
  exact (if_neg (by simp)).trans (if_neg (by decide))

end

end

/-! ### Energy for the reader's answers (R468) -/

section
variable {c : Chip} {f : Field} {v : Nat}

theorem Chip.energyXmit_put (hf : f.fits = true) (h1 : f.apart Fld.HRV_STA_SRC = true) (h2 : f.apart Fld.HRV_STA_ABV = true)
    (h3 : f.apart (Fld.SEN_VAL_V 1) = true) : (c.put f v).energyXmit = c.energyXmit := by
  unfold Chip.energyXmit
  rw [Chip.get_put_apart c v hf h1, Chip.get_put_apart c v hf h2, Chip.get_put_apart c v hf h3]

theorem Chip.energyRun_put (hf : f.fits = true) (h1 : f.apart Fld.HRV_STA_SRC = true) (h2 : f.apart Fld.HRV_STA_ABV = true)
    (h3 : f.apart Fld.RES_STA_VALID = true) : (c.put f v).energyRun = c.energyRun := by
  unfold Chip.energyRun
  rw [Chip.get_put_apart c v hf h1, Chip.get_put_apart c v hf h2, Chip.on_put_apart c v hf h3]

theorem Chip.skh_congr {d : Chip} (hm : d.mem = c.mem) (hp : d.fst.poison = c.fst.poison) : d.skh = c.skh := by
  unfold Chip.skh Chip.paramOk Chip.num
  rw [Chip.bytes_congr_mem hm, Chip.bytes_congr_mem hm, Chip.bytes_congr_mem hm, hp]

/-- An answer that fits its frame goes out with 90 00, where there is the energy. -/
theorem Chip.apduData_out {le : Nat} {data : List Byte} (h : data.length ≤ le) :
    (c.apduData le data).alm.nim.out = if c.energyXmit = true then data ++ [0x90#8, 0#8] else [] := by
  have hdrop : data.drop le = [] := List.drop_eq_nil_of_le h
  unfold Chip.apduData Chip.firstPart
  dsimp only
  rw [hdrop, Chip.cont_setCont_nil, List.take_of_length_le h]
  rfl

end

section
variable {c : Chip} (h3 : 3 ≤ c.nimSt) (hs : c.coreAsleep = false) (hr : c.romMode = false) (happ : c.alm.nim.app = true)
include h3 hs hr happ

/-- GET CHALLENGE of the selected application draws its bytes and sends them. -/
theorem Chip.apduChallenge_runs : c.apduChallenge 0 16 =
    ({ (c.bump Fld.NIM_CNT_APDU).drawn with alm := { c.alm with nim := { c.alm.nim with
        challenge := ((c.bump Fld.NIM_CNT_APDU).random 16).1 } } }).apduData 16 ((c.bump Fld.NIM_CNT_APDU).random 16).1 := by
  refine (Chip.apdu_runs h3 hs _).trans ((if_neg ?_).trans ((if_neg ?_).trans ((if_neg ?_).trans (if_neg ?_))))
  · rw [c.romMode_bump, hr]
    decide
  · simp [happ]
  · decide
  · decide

/-- AUTH with a key that is not the site's, or with no challenge, is not authenticated, and its challenge is consumed. -/
theorem Chip.apduAuth_fails {bs : List Byte} (hl : bs.length = 129) (he : c.energyRun = true)
    (hbad : c.skh = List.replicate 32 0#8 ∨ digest (bs.take 65) ≠ c.skh ∨ c.alm.nim.challenge = []) :
    c.apduAuth 0 bs = ({ c.bump Fld.NIM_CNT_APDU with alm := { c.alm with nim := { c.alm.nim with challenge := [] } } }.clr
      Fld.NIM_STA_AUTH).apduData 256 [St.perm] := by
  have hd : ({ c.bump Fld.NIM_CNT_APDU with alm := { c.alm with nim := { c.alm.nim with challenge := [] } } } : Chip).skh = c.skh :=
    Chip.skh_congr rfl rfl
  have hrun : ({ c.bump Fld.NIM_CNT_APDU with alm := { c.alm with nim := { c.alm.nim with challenge := [] } } } : Chip).energyRun = true :=
    (Chip.energyRun_put (c := c) (by decide) (by decide) (by decide) (by decide)).trans he
  refine (Chip.apdu_runs h3 hs _).trans ((if_neg ?_).trans ((if_neg ?_).trans ((if_neg ?_).trans ((if_neg ?_).trans ((if_neg ?_).trans
    ((if_neg ?_).trans ?_))))))
  · rw [c.romMode_bump, hr]
    decide
  · simp [happ]
  · decide
  · simp [hl]
  · exact fun h => absurd (hrun.symm.trans (by simpa using h)) (by decide)
  · intro h
    simp only [Bool.and_eq_true] at h
    obtain ⟨⟨⟨hz, hk⟩, hc⟩, _⟩ := h
    obtain hb | hb | hb := hbad
    · exact of_decide_eq_true hz (hd.trans hb)
    · exact hb ((of_decide_eq_true hk).trans hd)
    · simp [hb] at hc
  · rfl

end

/-- Settles O55: each row of the session by its case. -/
theorem nimoraSession : Obligations.NimoraSession := by
  unfold Obligations.NimoraSession
  refine ⟨fun s ha => ⟨?_, ?_, fun w hen hf h1 => ⟨fun hh => ?_, fun hh => ⟨?_, ?_⟩⟩, fun l k h1 hl hk => ?_, fun h1 hl => ?_,
    fun h1 hl => ?_, fun k h2 hk => ?_, fun h2 => ?_, fun h3 => ?_⟩, fun s ha h3 hsl => ⟨?_, fun aid hl hne => ?_,
    fun happ p n bs => ⟨fun hr => ⟨?_, ?_⟩, ?_⟩, fun hr p n bs => ⟨?_, ?_⟩, fun happ => ⟨fun hr => ?_, fun n hc => ?_,
      fun bs hl hr he hx hbad => ?_⟩⟩⟩
  · exact gives_onA ha rfl rfl
  · exact gives_onA ha rfl rfl
  · exact gives_onA ha rfl (if_pos (by simp [hen, hf, h1, hh]))
  · exact gives_onA ha rfl (if_pos (by simp [hen, hf, h1]))
  · exact gives_onA ha rfl (if_neg (by simp [hh]))
  · exact gives_onA ha rfl (Chip.nimSelect_part h1 l hl hk)
  · exact gives_onA ha rfl ((Chip.nimSelect_full h1 0 hl).trans (if_pos rfl))
  · exact gives_onA ha rfl ((Chip.nimSelect_full h1 1 hl).trans (if_neg (by decide)))
  · exact gives_onA ha rfl (if_pos (by simp [h2, hk]))
  · exact gives_onA ha rfl (if_pos h2)
  · exact gives_onA ha rfl (if_pos h3)
  all_goals
    have hap := Chip.apdu_runs h3 hsl
    have hrm : (s.chip.bump Fld.NIM_CNT_APDU).romMode = s.chip.romMode := s.chip.romMode_bump
    have hb : (s.chip.bump Fld.NIM_CNT_APDU).energyXmit = s.chip.energyXmit :=
      Chip.energyXmit_put (by decide) (by decide) (by decide) (by decide)
  · refine gives_onA ha rfl ((hap _).trans ?_)
    exact (if_neg (by decide)).trans ((if_neg (by decide)).trans (if_neg (by simp)))
  · refine gives_onA ha rfl ((hap _).trans ?_)
    exact (if_neg (by decide)).trans ((if_neg (by simp [hl])).trans (if_pos hne))
  · refine gives_onA ha rfl ((hap _).trans ?_)
    exact (if_neg (by rw [hrm, hr]; decide)).trans (if_pos (by simp [happ]))
  · refine gives_onA ha rfl ((hap _).trans ?_)
    exact (if_neg (by rw [hrm, hr]; decide)).trans (if_pos (by simp [happ]))
  · exact gives_onA ha rfl ((hap _).trans (if_pos (by simp [happ])))
  · exact gives_onA ha rfl ((hap _).trans (if_pos (hrm.trans hr)))
  · exact gives_onA ha rfl ((hap _).trans (if_pos (hrm.trans hr)))
  · refine (gives_onA ha rfl (Chip.apduChallenge_runs h3 hsl hr happ)).runs ⟨List.length_map .., ?_⟩
    rw [Chip.apduData_out (by rw [Chip.random, List.length_map, List.length_range])]
    exact if_congr (by rw [← hb]; rfl) rfl rfl
  · exact gives_onA ha rfl ((hap _).trans (if_neg (by simpa [happ] using hc)))
  · refine (gives_onA ha rfl (Chip.apduAuth_fails h3 hsl hr happ hl he hbad)).runs ⟨?_, rfl, ?_⟩
    · exact Chip.on_clr_same _ (f := Fld.NIM_STA_AUTH) (by decide)
    · rw [Chip.apduData_out (by decide)]
      have hx' := Chip.energyXmit_put (c := s.chip.bump Fld.NIM_CNT_APDU) (f := Fld.NIM_STA_AUTH) (v := 0) (by decide) (by decide)
        (by decide) (by decide)
      exact if_pos (hx'.trans (hb.trans hx))

end Sys2Proof.Machine
end

section
/-!
SUPPORT. The harvest supply (R414, R461–R469).
-/
namespace Sys2Proof.Machine

/-! ### The harvest supply (R461–R469) -/

/-- The F-die's array stays where the domain goes off (R414). -/
theorem Chip.byte_aonOff (c : Chip) {a : Nat} (h1 : fDie ≤ a) (h2 : a < fDie + 0x200000) : c.aonOff.byte a = c.byte a := by
  unfold Chip.byte
  refine if_congr Iff.rfl rfl ?_
  exact (memFind_filter c.mem (fun a => decide (fDie ≤ a) && decide (a < fDie + 0x200000)) a).trans (if_pos (by simp [h1, h2]))

/-- The open-circuit sample (R463). -/
theorem Chip.mpptSample_warm {c : Chip} (he : c.on Fld.HRV_MPPT_EN = true) (hc : c.on Fld.HRV_STA_COLD = false) (v : Nat) :
    c.mpptSample v = ((c.putB Fld.HRV_STA_PVON (decide (300 ≤ v) && decide (v ≤ 5500))).put Fld.HRV_VOC_VOC v).put Fld.HRV_VOC_VMPP
      (c.get Fld.HRV_MPPT_K * v / 100) := by
  unfold Chip.mpptSample Chip.putB
  simp (disch := decide) only [Chip.on_put_apart, Chip.get_put_apart, he, hc]
  rfl

/-- Settles O56: each row by its case. -/
theorem harvestSupply : Obligations.HarvestSupply := by
  unfold Obligations.HarvestSupply
  refine ⟨fun s k ha => ⟨fun hk habv => ⟨?_, ?_⟩, fun hk hsrc => ⟨?_, ?_⟩, fun hk up => ?_⟩,
    fun s v b r ha => ⟨fun hv hp => ?_, fun hv hs h1 h2 => ?_, fun hv hs h1 => ?_⟩,
    fun s b ha hs habv hd => ⟨fun h => ?_, fun h => ?_⟩, fun s v ha he hc => ?_, fun s k ha hv hg => ?_⟩
  · refine gives_onA ha rfl ?_
    unfold Chip.vstoCross
    dsimp only
    rw [if_pos hk, if_pos rfl, habv, if_neg (c := (true && decide (1 = 0)) = true) (by decide)]
    exact if_congr (by simp) rfl rfl
  · refine gives_onA ha rfl ?_
    unfold Chip.vstoCross
    dsimp only
    rw [if_pos hk]
    rfl
  · refine gives_onA ha rfl ?_
    unfold Chip.vstoCross
    dsimp only
    rw [if_neg (by omega), if_pos hk, if_pos (by simp [hsrc])]
    rfl
  · refine gives_onA ha rfl ?_
    unfold Chip.vstoCross
    dsimp only
    rw [if_neg (by omega), if_pos hk]
    rfl
  · refine gives_onA ha rfl ?_
    unfold Chip.vstoCross
    dsimp only
    rw [if_neg (by omega), if_neg (by omega)]
  · exact gives_onA ha rfl (if_pos (by simp [hv, hp]))
  · exact gives_onA ha rfl ((if_neg (by simp [hv])).trans (if_pos (by simp [hs, h1, h2])))
  · exact gives_onA ha rfl ((if_neg (by simp [hv])).trans ((if_neg (by simp [hs])).trans (if_pos (by simp [hs, h1]))))
  · exact gives_onA ha rfl (if_pos (by simp [hs, h, hd, Chip.vstoAt, habv]))
  · exact gives_onA ha rfl (if_neg (by simp; omega))
  · exact gives_onA ha rfl (Chip.mpptSample_warm he hc v.toNat)
  · have hoff : s.chip.aonShutdown k = { s.chip.aonOff with ret := { s.chip.aonOff.ret with brown := true } } := by
      have ht : s.chip.tearCommit k = s.chip := if_pos hg
      refine (if_pos (by simp [hv, show s.chip.fab.aon = true from ha])).trans ?_
      rw [ht]
    refine (gives_onA ha rfl hoff).runs ⟨⟨rfl, rfl, rfl⟩, rfl, rfl, fun a h1 h2 => ?_⟩
    exact s.chip.byte_aonOff h1 h2

end Sys2Proof.Machine
end

section
/-!
SUPPORT. Clocks, the RTC and pads (R484, R489–R501).
-/
namespace Sys2Proof.Machine

/-! ### Clocks, the RTC and pads (R484, R489–R501) -/

def rtcSecFields : List FieldDesc := [fd 31 0 .rw 0 .l]

theorem hookResv_rtcSec (v : Word) (c : Chip) : hookResv Reg.RTC_SEC v c = [] := rfl

/-- A write of RTC.SEC sets the clock (R484). -/
theorem Chip.regWrite_rtcSec {c : Chip} {m : Master} {v : Word} (acc : Accepts c m Reg.RTC_SEC v) :
    c.regWrite m Reg.RTC_SEC v = ((heldIn rtcSecFields Reg.RTC_SEC v c).setRtc v.toNat).rtcAlarm.afterWrite := by
  have hp : plainL Reg.RTC_SEC := by
    unfold plainL
    decide
  refine Chip.regWrite_held (l := ⟨pageRTC, 0x40, 0⟩) (fs := rtcSecFields) hp acc rfl ⟨by decide, by decide, by decide⟩ rfl rfl rfl rfl
    ?_ rfl rfl
  rw [hookResv_rtcSec]
  rfl

/-- A frequency monitor counts its windows over the limit, and reports at the last one (R494). -/
theorem Chip.freqWindow_run {c : Chip} (n : Fin 10) (dev : Nat) (h : (decide (n.val < 7) && c.on Fld.CLK_STA_HOLD) = false) {run : Nat}
    (hr : (if c.fmLimit n.val < dev then c.ret.fm.get n + 1 else 0) = run) :
    c.freqWindow n.val dev =
      (let d : Chip := { c with ret := { c.ret with fm := c.ret.fm.set n.val (min run 255) n.isLt } }
       let r : Report := { report 0x0A01 n.val 0 dev with cls := if n.val = 7 || n.val = 8 then FC.warn else FC.engine }
       if run = c.get Fld.CLK_FMW_N then if n.val < 7 then (d.set Fld.CLK_IST_FREQ).raise r else (d.set Fld.CLK_IST_FREQ).raiseP r else d) := by
  have hget : (c.ret.fm.toList[n.val]?).getD 0 = c.ret.fm.get n := by simp [Vector.get]
  unfold Chip.freqWindow
  rw [h, hget]
  dsimp only
  rw [hr, if_neg (by decide)]
  simp only [n.isLt, dite_true]
  rfl

theorem padAto_apart (w : Fin 16) : (Fld.PAD_ATO_PAD w.val).addr ≠ Reg.PAD_ATS ∧ (Fld.PAD_ATO_PAD w.val).addr ≠ Reg.PAD_IST := by
  revert w
  decide

/-- Settles O58: each row by its case. -/
theorem clocksAndPads : Obligations.ClocksAndPads := by
  unfold Obligations.ClocksAndPads
  refine ⟨fun s ha => ⟨fun h1 h2 => ?_, fun h => ?_, ?_, ?_, fun hv => ?_, fun hv => ?_⟩, fun s m v acc => ?_,
    fun s hL hh => ⟨?_, ?_, fun hd => ?_⟩, fun s hL hh => ⟨fun hau => ?_, ?_⟩, fun s n d hL hh hd hn => ?_,
    fun s n d hL hh hd h7 hn h255 => ?_, fun s n l hL hp hi hv => ⟨fun hl => ?_, fun hl => ?_⟩,
    fun s w hL hp hen hx hc => ⟨fun h0 => ?_, fun h0 => ?_⟩⟩
  · exact gives_onA ha rfl (if_pos (by rw [h1]; simp [h2]))
  · exact gives_onA ha rfl (if_neg (by simp [h]))
  · exact gives_onA ha rfl rfl
  · exact gives_onA ha rfl rfl
  · exact gives_onA ha rfl (if_pos hv)
  · exact gives_onA ha rfl (if_neg (by simp [hv]))
  · refine (gives_act rfl (Chip.regWrite_rtcSec acc)).runs ⟨(heldIn rtcSecFields Reg.RTC_SEC v s.chip).setRtc v.toNat,
      ⟨rfl, fun a ha => ?_⟩, ?_, ?_, ?_, rfl⟩
    · simp only [List.mem_cons, List.not_mem_nil, or_false, not_or] at ha
      obtain ⟨h1, h2, h3⟩ := ha
      unfold Chip.setRtc
      rw [Chip.clr, Chip.rd_put_other _ _ h3, Chip.rd_put_other _ _ h2, Chip.rd_put_other _ _ h1]
      exact Chip.rd_put_other _ _ h1
    · unfold Chip.setRtc
      simp (disch := decide) only [Chip.clr, Chip.get_put_apart, Chip.get_put_same]
      exact Nat.mod_eq_of_lt v.isLt
    · unfold Chip.setRtc
      simp (disch := decide) only [Chip.clr, Chip.get_put_apart, Chip.get_put_same]
      rfl
    · exact Chip.on_clr_same _ (by decide)
  · refine gives_onL (f := fun c => c.clockLost 1) hL rfl ((if_neg (by simp [hh])).trans ?_)
    exact congrArg Chip.usbDetach (if_neg (by simp [hh]))
  · refine gives_onL (f := fun c => c.clockLost 0) hL rfl ((if_neg (by simp [hh])).trans ?_)
    exact congrArg Chip.usbDetach (if_neg (by simp [hh]))
  · exact gives_onL (f := fun c => c.sscChange) hL rfl ((if_neg (by simp [hh])).trans (if_neg hd))
  · exact gives_onL (f := fun c => c.clockBack) hL rfl (congrArg Chip.usbAttach (if_pos (by simp [hh, hau])))
  · exact gives_onL (f := fun c => c.sscChange) hL rfl (if_pos hh)
  · refine gives_onL (f := fun c => c.freqWindow n.val d.toNat) hL rfl ?_
    rw [Chip.freqWindow_run n d.toNat (by obtain h | h := hh <;> simp [h]) (if_neg (Nat.not_lt.mpr hd))]
    exact if_neg hn.symm
  · refine gives_onL (f := fun c => c.freqWindow n.val d.toNat) hL rfl ?_
    rw [Chip.freqWindow_run n d.toNat (by simp [hh]) (if_pos hd)]
    dsimp only
    rw [if_pos hn, if_pos h7, Nat.min_eq_left (by omega), if_neg (by simp; omega)]
  · refine gives_onL (f := fun c => c.gpEdge n.val l) hL rfl (if_pos ?_)
    rw [hl, hv]
    cases l <;> simp
  · refine gives_onL (f := fun c => c.gpEdge n.val l) hL rfl ((if_neg ?_).trans ?_)
    · rw [hl, hv, hi, hp]
      cases l <;> decide
    · rw [hv]
      cases l <;> rfl
  all_goals
    have hfr (f : Field) (h1 : f.addr ≠ Reg.PAD_ATS) (h2 : f.addr ≠ Reg.PAD_IST) :
        ((s.chip.put Fld.PAD_ATS_X (s.chip.get Fld.PAD_ATS_X ||| 2 ^ w.val)).set ⟨Reg.PAD_IST, 8 + w.val, 1⟩).get f = s.chip.get f :=
      (Chip.get_rd (Chip.rd_put_other _ _ h2)).trans (Chip.get_rd (Chip.rd_put_other _ _ h1))
    refine gives_onL (f := fun c => c.watcherExpired w.val) hL rfl ((if_neg (by simp [hp, hen, hx, hc])).trans ?_)
    dsimp only
    rw [hfr _ (by decide) (by decide)]
  · exact if_pos h0
  · obtain ⟨ha1, ha2⟩ := padAto_apart w
    rw [hfr _ ha1 ha2]
    exact if_neg h0

end Sys2Proof.Machine
end

section
/-!
SUPPORT. Guarded sequences (R63–R66).
-/
namespace Sys2Proof.Machine

/-! ### Guarded sequences (R63–R66) -/

section
variable {c : Chip} {m : Master} {l : Loc} {v : Word} {o : Nat}

/-- A value write of a guarded register arms the latch of its page. -/
theorem Chip.writeReg_arms (hlt : l.off < 0x800) (hal : l.alias_ = 0) (ho : l.off ≠ 0x20) (hg : guardedAt l.page l.off = true)
    (hf : (fieldsAt l.page l.off).isNone = false) (hheld : c.held = []) (hlat : c.latch l.page.base = none)
    (hperm : c.permits m l.page l.off v = true) :
    c.writeReg hooks m l v = (St.ok, { c with guards := c.guards ++ [{ page := l.page.base, off := l.off, value := v, master := m }] }) := by
  have hnt : ¬ 0x800 ≤ l.off := by omega
  unfold Chip.writeReg
  simp only [hnt, decide_false, Bool.false_eq_true, if_false, hheld, List.any_nil, hlat, hf, Bool.false_and, Bool.false_or, hal,
    show aliasWord 0 (c.rd (l.page.base + l.off)) v = v from rfl, hperm, ho, Bool.not_true, hg, Bool.not_false, Bool.and_self, decide_true, if_true]

section
variable (hk : l.off = o + 0x800) (hal : l.alias_ = 0) (ho : o ≠ 0x20) (hg : guardedAt l.page o = true)
  (hf : (fieldsAt l.page o).isNone = false) (hheld : c.held = [])
include hk hal ho hg hf hheld

/-- The twin with the complement completes the sequence: the value is committed, the latch is free. -/
theorem Chip.writeReg_twin (hlat : c.latch l.page.base = some { page := l.page.base, off := o, value := v, master := m })
    (hperm : c.permits m l.page o v = true) (hpre : hookPre m (l.page.base + o) v (c.unlatch l.page.base) = St.ok)
    (hgr : c.guardRight m = true) (hst : c.stateOk m l.page o v = true) :
    c.writeReg hooks m l (~~~v) = (c.unlatch l.page.base).commit hooks m l.page o 0 v := by
  have ht : 0x800 ≤ l.off := by omega
  have hsub : l.off - 0x800 = o := by omega
  have hperm' : (c.unlatch l.page.base).permits m l.page o v = true := hperm
  have hst' : (c.unlatch l.page.base).stateOk m l.page o v = true := hst
  have hgr' : (c.unlatch l.page.base).guardRight m = true := hgr
  unfold Chip.writeReg
  simp only [ht, hsub, decide_true, if_true, hheld, List.any_nil, Bool.false_eq_true, if_false, hlat, hal, BitVec.not_not, Bool.and_self, hf, hg,
    Bool.not_true, Bool.and_false, Bool.or_false, Bool.false_or, Bool.false_and, hperm', ho, decide_false, judge_plain rfl hpre, hst', ne_eq,
    not_true_eq_false, St.perm, St.state, St.ok]
  refine (if_neg (by decide)).trans ((if_neg (by decide)).trans (if_neg fun h => ?_))
  have e : (!(c.unlatch l.page.base).guardRight m) = true := h
  rw [hgr'] at e
  cases e

/-- A twin with another value ends the sequence, where no check refuses it before. -/
theorem Chip.writeReg_wrongTwin {w : Word} (hw : w ≠ v) (hlat : c.latch l.page.base = some { page := l.page.base, off := o, value := w, master := m })
    (hperm : (c.guardFail l.page.base m).permits m l.page o v = true) (hpre : hookPre m (l.page.base + o) v (c.guardFail l.page.base m) = St.ok)
    (hst2 : (c.guardFail l.page.base m).stateOk m l.page o v = true) :
    c.writeReg hooks m l (~~~v) = (St.guard, c.guardFail l.page.base m) := by
  have ht : 0x800 ≤ l.off := by omega
  have hsub : l.off - 0x800 = o := by omega
  unfold Chip.writeReg
  simp only [ht, hsub, decide_true, if_true, hheld, List.any_nil, Bool.false_eq_true, if_false, hlat, hal, BitVec.not_not, Bool.and_true, hf, hg,
    Bool.not_true, Bool.and_false, Bool.or_false, Bool.false_or, Bool.false_and, hperm, ho, decide_false, judge_plain rfl hpre, hst2, ne_eq,
    not_true_eq_false, hw, Bool.not_false, St.perm, St.state, St.ok]
  exact (if_neg (by decide)).trans (if_neg (by decide))

end

/-- A guarded pair that passes every check of R84 and R63 ends as the commit of its value does. -/
theorem Chip.regPair_commit {a : Nat} {k : Loc} {d : Chip} (acc : Accepts c m a v) (hgr : c.guardRight m = true) (hl : locate a = some l)
    (hk : locate (a + 0x800) = some k) (hlk : k.page = l.page ∧ k.off = l.off + 0x800 ∧ k.alias_ = 0) (hdk : c.deadRegion (a + 0x800) = false)
    (ho : l.off ≠ 0x20) (hb : l.page.base + l.off = a) (hg : guardedAt l.page l.off = true) (hf : (fieldsAt l.page l.off).isNone = false)
    (hcommit : c.commit hooks m l.page l.off 0 v = (St.ok, d)) : c.regPair m a v = d.settle := by
  obtain ⟨hcan, hmq, hdead, h4, ⟨_, hheld, hgu⟩, l', hl', hal, hlt, hperm, _, hpre, hst⟩ := acc
  rw [hl] at hl'
  cases hl'
  obtain ⟨k1, k2, k3⟩ := hlk
  let t : Chip := { c with guards := c.guards ++ [{ page := l.page.base, off := l.off, value := v, master := m }] }
  have hun : t.unlatch k.page.base = c := by
    have : t.unlatch k.page.base = { c with guards := [] } := by simp [t, Chip.unlatch, hgu, k1]
    rw [this, ← hgu]
  have hfirst : c.store32 m a v = (St.ok, t) := by
    unfold Chip.store32 Chip.write32
    rw [hdead, hl]
    refine (if_neg (by decide)).trans ((if_neg (by simp [h4])).trans ?_)
    exact Chip.writeReg_arms hlt hal ho hg hf hheld (by simp [Chip.latch, hgu]) hperm
  have hsecond : t.store32 m (a + 0x800) (~~~v) = (St.ok, d) := by
    unfold Chip.store32 Chip.write32
    rw [show t.deadRegion (a + 0x800) = false from hdk, hk]
    refine (if_neg (by decide)).trans ((if_neg (by simp; omega)).trans ?_)
    refine (Chip.writeReg_twin (c := t) (m := m) (l := k) (o := l.off) (v := v) k2 k3 ho (by rw [k1]; exact hg) (by rw [k1]; exact hf) hheld ?_
      (by rw [k1]; exact hperm) ?_ hgr (by rw [k1]; exact hst)).trans ?_
    · show (c.guards ++ _).find? _ = _
      simp [hgu, k1]
    · rw [hun, k1, hb]
      exact hpre
    · rw [hun, k1]
      exact hcommit
  unfold Chip.regPair Chip.guardedPair
  rw [if_pos hcan, hmq, if_neg (by decide), hfirst]
  dsimp only
  rw [if_pos rfl, hsecond]

end

/-- An Orrery context's write of an address that does not lie behind the die bridge. -/
theorem Chip.busWrite_orr {c : Chip} (hL : LOn c) (x : Fin 4) {a : Nat} {v : Word} (h : crosses (.orr x) a = false) :
    c.busWrite (.orr x) a v = (c.store32 (.orr x) a v).2.settle := by
  have hcan : c.canAccess (.orr x) = true := by simp [Chip.canAccess, Chip.lRuns, hL.1, hL.2]
  unfold Chip.busWrite Chip.masterWrite
  rw [if_pos hcan, h, if_neg (by simp), if_neg (by simp)]

/-- The field of FLT.SSTO. -/
def sstoFields : List FieldDesc := [{ lo := 0, w := 13, acc := .rwg, reset := 200, cls := .l, legal := .among [(50, 5000)] }]

def sstoLoc : Loc := ⟨pageFLT, 0x5C, 0⟩
def sstoTwin : Loc := ⟨pageFLT, 0x85C, 0⟩

theorem hookPre_ssto (x : Fin 4) (v : Word) (c : Chip) : hookPre (.orr x) Reg.FLT_SSTO v c = St.ok := rfl
theorem hookResv_ssto (v : Word) (c : Chip) : hookResv Reg.FLT_SSTO v c = [] := rfl

theorem Chip.store32_ssto {c : Chip} (hL : LOn c) (x : Fin 4) (v : Word) :
    c.store32 (.orr x) Reg.FLT_SSTO v = c.writeReg hooks (.orr x) sstoLoc v := by
  have hd : c.deadRegion Reg.FLT_SSTO = false := Chip.deadRegion_lDie hL (by decide)
  unfold Chip.store32 Chip.write32
  rw [hd]
  rfl

theorem Chip.store32_sstoTwin {c : Chip} (hL : LOn c) (x : Fin 4) (v : Word) :
    c.store32 (.orr x) (Reg.FLT_SSTO + 0x800) v = c.writeReg hooks (.orr x) sstoTwin v := by
  have hd : c.deadRegion (Reg.FLT_SSTO + 0x800) = false := Chip.deadRegion_lDie hL (by decide)
  unfold Chip.store32 Chip.write32
  rw [hd]
  rfl

/-- FLT.SSTO takes a value in its range (R63, R528). -/
theorem Chip.commit_ssto {c : Chip} (x : Fin 4) (v : Word) (hs : c.shadows = []) (hh : c.held = []) (h1 : 50 ≤ bitsOf v.toNat 0 13)
    (h2 : bitsOf v.toNat 0 13 ≤ 5000) :
    c.commit hooks (.orr x) pageFLT 0x5C 0 v = (St.ok, (heldIn sstoFields Reg.FLT_SSTO v c).afterCommit) := by
  have hp : plainL Reg.FLT_SSTO := by
    unfold plainL
    decide
  have hfs : sstoFields.all (fun f => f.heldOk v []) = true := by
    simp [sstoFields, FieldDesc.heldOk, Legal.ok, h1, h2]
  exact Chip.commit_held (fs := sstoFields) (p := pageFLT) (o := 0x5C) (a := Reg.FLT_SSTO) (d := heldIn sstoFields Reg.FLT_SSTO v c) hp ⟨hs, hh⟩
    ⟨by decide, by decide, by decide⟩ rfl rfl rfl hfs rfl rfl

/-- The latch that a value for FLT.SSTO arms. -/
def sstoArmed (x : Fin 4) (v : Word) : GuardLatch := { page := Pg.FLT, off := 0x5C, value := v, master := .orr x }

section
variable {c : Chip} {x : Fin 4} {v : Word} (hg : c.guards = [sstoArmed x v])
include hg

theorem Chip.latch_ssto : c.latch Pg.FLT = some (sstoArmed x v) := by
  unfold Chip.latch
  rw [hg]
  rfl

theorem Chip.unlatch_ssto : c.unlatch Pg.FLT = { c with guards := [] } := by
  unfold Chip.unlatch
  rw [hg]
  rfl

variable (hh : c.held = [])
include hh

theorem Chip.writeReg_sstoTwin : c.writeReg hooks (.orr x) sstoTwin (~~~v) =
    ({ c with guards := [] } : Chip).commit hooks (.orr x) pageFLT 0x5C 0 v := by
  have h := Chip.writeReg_twin (c := c) (m := .orr x) (l := sstoTwin) (v := v) (o := 0x5C) rfl rfl (by decide) rfl rfl hh (Chip.latch_ssto hg) rfl
    (hookPre_ssto x v _) rfl rfl
  rwa [show c.unlatch sstoTwin.page.base = _ from Chip.unlatch_ssto hg] at h

theorem Chip.writeReg_sstoWrong {w : Word} (hw : v ≠ w) : c.writeReg hooks (.orr x) sstoTwin (~~~w) =
    (St.guard, (({ c with guards := [] }.set (hCGERR Pg.FLT)).set (hGERR Pg.FLT)).erc Pg.FLT (.orr x) St.guard) := by
  have h := Chip.writeReg_wrongTwin (c := c) (m := .orr x) (l := sstoTwin) (v := w) (o := 0x5C) rfl rfl (by decide) rfl rfl hh hw
    (Chip.latch_ssto hg) rfl (hookPre_ssto x w _) rfl
  rwa [Chip.guardFail, show c.unlatch sstoTwin.page.base = _ from Chip.unlatch_ssto hg] at h

end

/-- Settles O13: the value write arms, the right twin commits, a wrong twin and the end of the window fail the sequence. -/
theorem guardedPair : Obligations.GuardedPair := by
  unfold Obligations.GuardedPair
  refine ⟨fun s x v hL hset hh hlat => ?_, fun s x v hL hsh hh h1 h2 hg => ?_, fun s x v w hL hset hh hw hg => ?_, fun s g pg ha hp hg => ?_⟩
  · refine gives_act rfl ((Chip.busWrite_orr hL x (a := Reg.FLT_SSTO) rfl).trans ?_)
    rw [Chip.store32_ssto hL, Chip.writeReg_arms (l := sstoLoc) (by decide) rfl (by decide) rfl rfl hh hlat rfl]
    exact Chip.settle_idle (hset.of_eq rfl rfl rfl rfl rfl)
  · refine (gives_act rfl ((Chip.busWrite_orr hL x (a := Reg.FLT_SSTO + 0x800) rfl).trans ?_)).runs
      ⟨heldIn sstoFields Reg.FLT_SSTO v { s.chip with guards := [] }, rfl, ?_, fun a ha => Chip.rd_put_other _ _ (by simpa using ha), rfl, rfl⟩
    · rw [Chip.store32_sstoTwin hL, Chip.writeReg_sstoTwin hg hh, Chip.commit_ssto (c := { s.chip with guards := [] }) x v hsh hh h1 h2]
      rfl
    · exact (Chip.get_put_same _ _ (by decide)).trans (Nat.mod_mod _ _)
  · have hne : v ≠ ~~~w := fun e => hw (by rw [e, BitVec.not_not])
    have h := Chip.writeReg_sstoWrong hg hh hne
    rw [BitVec.not_not] at h
    refine gives_act rfl ((Chip.busWrite_orr hL x (a := Reg.FLT_SSTO + 0x800) rfl).trans ?_)
    rw [Chip.store32_sstoTwin hL, h]
    exact Chip.settle_idle (hset.of_eq rfl rfl rfl rfl rfl)
  · have hany : s.chip.guards.any (·.page == pageBase pg) = true := by simp [hg, hp]
    have hfind : s.chip.guards.find? (·.page == pageBase pg) = some g := by simp [hg, hp]
    refine gives_onA ha rfl ?_
    unfold Chip.windowEnds Chip.loneOn
    rw [if_pos hany]
    dsimp only
    unfold Chip.guardExpiry
    rw [hfind]
    dsimp only
    unfold Chip.guardFail Chip.unlatch
    rw [hg]
    simp [hp]

end Sys2Proof.Machine
end

section
/-!
SUPPORT. The fault engine, Last Line and the interlock (R511–R528).
-/
namespace Sys2Proof.Machine

/-! ### Faults (R511, R516, R528) -/

section
variable {c : Chip} {m : Master} {v : Word}

/-- A register whose word reads 0 whatever was written, too, takes its value before what follows the write. -/
theorem Chip.commit_heldZero {d : Chip} {p : PageDesc} {o a : Nat} {fs : List FieldDesc} (ha : plainL a)
    (hn : c.shadows = [] ∧ c.held = []) (ho : o ≠ 8 ∧ o ≠ 0x18 ∧ o ≠ 0x1C) (hb : p.base + o = a) (hf : fieldsAt p o = some fs)
    (hz : readsZero p o = true) (hen : p.en1 = true) (hfs : fs.all (fun f => f.heldOk v (hookResv a v c)) = true)
    (hp : hookPost m a (c.rd a) v (heldIn fs a v c) = (St.ok, d)) :
    c.commit hooks m p o 0 v = (St.ok, (d.wr a 0#32).afterCommit) := by
  obtain ⟨hsh, hheld⟩ := hn
  obtain ⟨h8, h18, h1C⟩ := ho
  have hcs (w old : Word) : (fs.any fun f => f.cls == Cls.s && (f.acc == Acc.rw || f.acc == Acc.rwg) &&
      bitsOf w.toNat f.lo f.w != bitsOf old.toNat f.lo f.w && ((0 : Nat) == 0 || touches f v)) = false :=
    List.any_eq_false.mpr fun f hfm => by simp [heldOk_cls (List.all_eq_true.mp hfs f hfm)]
  have hsh2 : (heldIn fs a v c).shadows = [] := heldIn_plain (P := fun t => t.shadows = []) (fun _ _ _ h => h) a v fs c hsh
  unfold Chip.commit Chip.afterCommit
  simp only [hf, hb, show aliasWord 0 (c.rd a) v = v from rfl, hcs, Bool.and_false, Bool.false_eq_true, if_false]
  simp only [show hooks.resv = hookResv from rfl, show hooks.post = hookPost from rfl, foldl_writeField_held ha fs hfs, Bool.false_and, Bool.or_false,
    Bool.false_eq_true, if_false, hen, if_true, ne_eq, not_true_eq_false, h8, h18, h1C, decide_false, show actsOn 0 v fs = true from rfl,
    show askedOf 0 v fs = v from rfl, Bool.not_true, hp, hz, Chip.applyShadows_none hsh2]
  rfl

end

/-! ### Last Line and its registers (R517, R519) -/

def llrFields : List FieldDesc := [{ lo := 0, w := 1, acc := .rwg, reset := 0, cls := .l }]
def frcFields : List FieldDesc := [{ lo := 0, w := 1, acc := .rwg, reset := 0, cls := .l }]

theorem Chip.deadRegion_ilk {c : Chip} {x y : Nat} (hx : x < 0x4000) (hy : y < 0x4000) (h : c.deadRegion (Pg.ILK + x) = false) :
    c.deadRegion (Pg.ILK + y) = false := by
  have hp : pageAt Pg.ILK = some pageILK := rfl
  rw [Chip.deadRegion_add hp rfl hx] at h
  rw [Chip.deadRegion_add hp rfl hy, h]

section
variable {c : Chip} {m : Master} (hgr : c.guardRight m = true)
include hgr

/-- The release of Last Line with no trigger active (R519). -/
theorem Chip.regPair_llr (acc : Accepts c m Reg.ILK_LLR 1#32) (hA : c.get Fld.ILK_LLA_A = 0) :
    c.regPair m Reg.ILK_LLR 1#32 = ((heldIn llrFields Reg.ILK_LLR 1#32 c).releaseLL.wr Reg.ILK_LLR 0#32).afterWrite := by
  have hp : plainL Reg.ILK_LLR := by
    unfold plainL
    decide
  have hA' : (heldIn llrFields Reg.ILK_LLR 1#32 c).get Fld.ILK_LLA_A = 0 := (Chip.get_rd (Chip.rd_put_other _ _ (by decide))).trans hA
  have hpost : hookPost m Reg.ILK_LLR (c.rd Reg.ILK_LLR) 1#32 (heldIn llrFields Reg.ILK_LLR 1#32 c) =
      (St.ok, (heldIn llrFields Reg.ILK_LLR 1#32 c).releaseLL) := by
    show (heldIn llrFields Reg.ILK_LLR 1#32 c).lastLineRelease = _
    exact if_pos hA'
  obtain ⟨_, _, hdead, _, ⟨hsh, hheld, _⟩, _⟩ := id acc
  exact Chip.regPair_commit (l := ⟨pageILK, 0x50, 0⟩) (k := ⟨pageILK, 0x850, 0⟩) acc hgr rfl rfl ⟨rfl, rfl, rfl⟩
    (Chip.deadRegion_ilk (x := 0x50) (y := 0x850) (by decide) (by decide) hdead) (by decide) rfl rfl rfl
    (Chip.commit_heldZero (p := pageILK) (o := 0x50) (fs := llrFields) hp ⟨hsh, hheld⟩ ⟨by decide, by decide, by decide⟩ rfl rfl rfl rfl rfl
      hpost)

/-- The forced trip (R517). -/
theorem Chip.regPair_frc (acc : Accepts c m Reg.ILK_FRC 1#32) :
    c.regPair m Reg.ILK_FRC 1#32 = (heldIn frcFields Reg.ILK_FRC 1#32 c).forceLL.afterWrite := by
  have hp : plainL Reg.ILK_FRC := by
    unfold plainL
    decide
  obtain ⟨_, _, hdead, _⟩ := id acc
  exact Chip.regPair_held (l := ⟨pageILK, 0x54, 0⟩) (k := ⟨pageILK, 0x854, 0⟩) (fs := frcFields) hp acc hgr rfl rfl ⟨rfl, rfl, rfl⟩
    (Chip.deadRegion_ilk (x := 0x54) (y := 0x854) (by decide) (by decide) hdead) ⟨by decide, by decide, by decide, by decide⟩ rfl rfl rfl rfl
    rfl rfl rfl

end

/-! ### The interlock's channels (R520, R521) -/

theorem Chip.filt_lt (c : Chip) : c.get Fld.ILK_IN_FILT < 4 := RegMap.get_lt c.regs Fld.ILK_IN_FILT

theorem Chip.get_filt_ilkSet (c : Chip) (k : Fin 2) (b : Bool) : (c.ilkSet k.val b).get Fld.ILK_IN_FILT =
    if b then c.get Fld.ILK_IN_FILT ||| 2 ^ k.val else c.get Fld.ILK_IN_FILT &&& (3 - 2 ^ k.val) := by
  have h : c.get Fld.ILK_IN_FILT < 2 ^ 2 := c.filt_lt
  have hk : 2 ^ k.val < 2 ^ 2 := Nat.pow_lt_pow_right (by decide) k.isLt
  unfold Chip.ilkSet
  dsimp only
  simp (disch := decide) only [Chip.get_put_apart, Chip.get_put_same]
  refine Nat.mod_eq_of_lt ?_
  split
  · exact Nat.or_lt_two_pow h hk
  · exact Nat.and_lt_two_pow _ ((Nat.sub_le _ _).trans_lt (by decide))

/-- A trigger that has gone no longer holds Last Line. -/
theorem Chip.llActive_clears (c : Chip) (k : Fin 2) : bitsOf ((c.llActive k.val false).get Fld.ILK_LLA_A) k.val 1 = 0 := by
  have h : c.get Fld.ILK_LLA_A < 2 ^ 13 := RegMap.get_lt c.regs Fld.ILK_LLA_A
  unfold Chip.llActive
  dsimp only
  rw [Chip.get_put_same _ _ (by decide)]
  simp only [Bool.false_eq_true, if_false]
  unfold bitsOf
  match k with
  | 0 =>
    show (_ - (if _ / 2 ^ 0 % 2 ^ 1 = 1 then 2 ^ 0 else 0)) % 2 ^ 13 / 2 ^ 0 % 2 ^ 1 = 0
    split <;> omega
  | 1 =>
    show (_ - (if _ / 2 ^ 1 % 2 ^ 1 = 1 then 2 ^ 1 else 0)) % 2 ^ 13 / 2 ^ 1 % 2 ^ 1 = 0
    split <;> omega

/-- Settles O59: each row by its case. -/
theorem faultsAndInterlock : Obligations.FaultsAndInterlock := by
  unfold Obligations.FaultsAndInterlock
  refine ⟨⟨fun s t hL hx => ⟨fun he ht => ?_, fun he => ?_⟩, fun s m v e acc hf => ⟨fun hc he => ?_, fun hc => ?_⟩,
    fun s m v acc hc => ?_, fun s m acc hgr hA => ?_, fun s m acc hgr => ?_⟩,
    fun s k ha => ⟨fun hk => ⟨?_, fun t ho ht hd => ?_, fun t ht => ?_, fun b ho => ?_⟩, fun h3 => ?_, fun hk b => ?_⟩⟩
  · exact gives_onL (f := fun c => c.safeTimeout t.toNat) hL rfl (if_pos (by simp [he, ht, hx]))
  · exact gives_onL (f := fun c => c.safeTimeout t.toNat) hL rfl (if_neg (by simp [he]))
  · refine gives_command rfl acc rfl rfl ?_
    show s.chip.faultDone v.toNat = _
    unfold Chip.faultDone
    rw [hf]
    exact if_pos (by simp [hc, he])
  · refine gives_command rfl acc rfl rfl ?_
    show s.chip.faultDone v.toNat = _
    unfold Chip.faultDone
    rw [hf]
    exact if_neg (by simp; omega)
  · refine gives_command rfl acc rfl rfl ?_
    show s.chip.faultInject v = _
    exact if_neg hc
  · exact (gives_act rfl (Chip.regPair_llr hgr acc hA)).runs ⟨heldIn llrFields Reg.ILK_LLR 1#32 s.chip, rfl, rfl, fun a ha =>
      Chip.rd_put_other _ _ (by simpa using ha)⟩
  · exact (gives_act rfl (Chip.regPair_frc hgr acc)).runs ⟨heldIn frcFields Reg.ILK_FRC 1#32 s.chip, Chip.get_put_same _ _ (by decide),
      ⟨rfl, fun a ha => Chip.rd_put_other _ _ (by simpa using ha)⟩, rfl⟩
  · exact gives_onA ha rfl (if_pos (by simp [hk]))
  · exact gives_onA ha rfl (if_pos (by simp [hk, ho, ht, hd]))
  · exact gives_onA ha rfl (if_neg (by simp; omega))
  · have hclose : s.chip.ilkClose k.val b = { (s.chip.ilkSet k.val true).llActive k.val false with flt :=
        { ((s.chip.ilkSet k.val true).llActive k.val false).flt with bothOpen := b } } := by
      unfold Chip.ilkClose
      rw [if_neg (by simp [hk]), ho]
      rfl
    have h : Gives (.ilkClose k b) s _ := gives_onA ha rfl hclose
    refine h.runs ⟨?_, Chip.llActive_clears (s.chip.ilkSet k.val true) k, rfl, rfl, fun a hl => ?_, rfl⟩
    · show bitsOf (((s.chip.ilkSet k.val true).llActive k.val false).get Fld.ILK_IN_FILT) k.val 1 == 1
      unfold Chip.llActive
      rw [Chip.get_put_apart _ _ (by decide) (by decide), Chip.get_filt_ilkSet, if_pos rfl, bitsOf_one_eq_one,
        Nat.testBit_or, Nat.testBit_two_pow_self, Bool.or_true]
    · simp only [List.mem_cons, List.not_mem_nil, or_false, not_or] at hl
      obtain ⟨h1, h2, h3⟩ := hl
      show ((s.chip.ilkSet k.val true).llActive k.val false).rd a = _
      unfold Chip.llActive Chip.ilkSet
      dsimp only
      rw [Chip.rd_put_other _ _ h2, Chip.rd_put_other _ _ h3, Chip.rd_put_other _ _ h1, Chip.rd_put_other _ _ h1]
      rfl
  · have hk : s.chip.ilkClosed k.val = true := by
      unfold Chip.ilkClosed
      rw [h3]
      revert k
      decide
    refine gives_onA ha rfl ?_
    unfold Chip.ilkOpen
    rw [if_neg (by simp [hk]), h3]
    rfl
  · exact gives_onA ha rfl (if_pos hk)

end Sys2Proof.Machine
end

section
/-!
SUPPORT. EXTEST while the lanes are retrained (R546, R570).
-/
namespace Sys2Proof.Machine

/-- The L-die runs, the engine is off, the pads of the debug port are read, and a line is high while the lanes are retrained: RETRAIN drops the
lines (R570), but the statement ranges over every state. -/
def retrainingLit : Chip :=
  let c := State.reset.chip
  { c with fab := { c.fab with lco := true, lio := true, dst := true, retraining := true, ldEn := true } }

theorem retrainingLit_off : tapPads.all retrainingLit.padIn = true ∧ retrainingLit.engine = Eng.off := by decide +kernel

theorem retrainingLit_extest : retrainingLit.extest.fab.ldEn = true := by decide +kernel

/-- Refutes O60: while the lanes are retrained the lines' new levels are only kept for later, so EXTEST leaves a line that is high as it is. -/
theorem not_debugAndReset : ¬ Obligations.DebugAndReset := by
  unfold Obligations.DebugAndReset
  rintro ⟨-, -, -, -, h⟩
  obtain ⟨hpads, heng⟩ := retrainingLit_off
  obtain ⟨hx, -⟩ := h ⟨retrainingLit, []⟩ ⟨rfl, rfl⟩
  obtain ⟨c, e, -, -, hl⟩ := hx hpads (Or.inl heng)
  have hg : Gives .extest ⟨retrainingLit, []⟩ retrainingLit.extest := gives_onPads ⟨rfl, rfl⟩ hpads rfl rfl
  have hc := e.symm.trans hg
  injection hc with hc
  have hld : c.fab.ldEn = true := (congrArg (fun s => s.chip.fab.ldEn) hc).trans retrainingLit_extest
  exact Bool.false_ne_true ((congrArg Prod.fst hl).symm.trans hld)

end Sys2Proof.Machine
end

section
/-!
SUPPORT. STANDBY while the lanes are retrained (R475, R570).
-/
namespace Sys2Proof.Machine

/-- The same with a STANDBY request noted. -/
def standbyLit : Chip := { retrainingLit with ret := { retrainingLit.ret with req := some 4 } }

/-- What STANDBY_ENTRY does (R475, R485). -/
def Chip.standbyEntered (c : Chip) : Chip := c.wakeAfter c.standbyEntry Chip.standbyWake

theorem standbyLit_due : standbyLit.pow.pfail = false ∧ standbyLit.ret.req = some 4 ∧ standbyLit.ret.early = 0 := by decide +kernel

theorem standbyLit_entered : standbyLit.standbyEntered.fab.ldEn = true := by decide +kernel

/-- Refutes O57: while the lanes are retrained the lines' new levels are only kept for later, so the entry of STANDBY leaves a line that is high as
it is. -/
theorem not_retentionLevels : ¬ Obligations.RetentionLevels := by
  unfold Obligations.RetentionLevels
  rintro ⟨-, -, h, -⟩
  obtain ⟨hp, hreq, hearly⟩ := standbyLit_due
  obtain ⟨hs, -⟩ := h ⟨standbyLit, []⟩ ⟨rfl, rfl⟩ hp
  obtain ⟨c, e, -, -, -, -, -, -, hl⟩ := hs hreq hearly
  have hg : Gives .standbyEntry ⟨standbyLit, []⟩ standbyLit.standbyEntered := gives_onL (f := Chip.standbyEntered) ⟨rfl, rfl⟩ rfl rfl
  have hc := e.symm.trans hg
  injection hc with hc
  have hld : c.fab.ldEn = true := (congrArg (fun s => s.chip.fab.ldEn) hc).trans standbyLit_entered
  exact Bool.false_ne_true ((congrArg Prod.fst hl).symm.trans hld)

end Sys2Proof.Machine
end

section
/-!
SUPPORT. The log, the keys, sensors, tamper and temperatures (R408, R433–R442).
-/
namespace Sys2Proof.Machine

/-! ### Log, keys, sensors, tamper and temperatures (R408, R433–R442) -/

section
variable {c : Chip}

/-- LOG.TAKE gives the next sequence number (R438). -/
theorem Chip.load32_logTake {m : Master} (ha : c.fab.aon = true) (hm : MayRead c m Pg.LOG) :
    c.load32 m Reg.LOG_TAKE = ((BitVec.ofNat 32 (c.get Fld.LOG_NSEQ_N), St.ok), c.logTake.2) := by
  have hd : c.deadRegion Pg.LOG = false := by
    unfold Chip.deadRegion
    rw [ha]
    rfl
  exact Chip.load32_mayRead (m := m) (b := Pg.LOG) (x := 0x44) (p := pageLOG) rfl rfl hd hm (by decide) (by decide)

theorem Chip.nowMs_put {f : Field} {v : Nat} (h1 : Reg.RTC_SEC ≠ f.addr) (h2 : Reg.RTC_SUB ≠ f.addr) : (c.put f v).nowMs = c.nowMs := by
  unfold Chip.nowMs Chip.now
  rw [Chip.get_rd (f := Fld.RTC_SEC_S) (Chip.rd_put_other c v h1), Chip.get_rd (f := Fld.RTC_SUB_T) (Chip.rd_put_other c v h2)]

theorem Chip.logTake_taken (c : Chip) : c.logTake.2.alm.taken = c.alm.taken ++ [(c.get Fld.LOG_NSEQ_N, c.nowMs)] := by
  unfold Chip.logTake Chip.takeLseq
  dsimp only
  rw [Chip.nowMs_put (by decide) (by decide), Chip.nowMs_put (by decide) (by decide)]
  rfl

/-- A number that is owed does not disturb a settled chip. -/
theorem Settled.logTake (h : Settled c) (w : Word) (st : Status) :
    Settled { c.logTake.2 with fab := { c.logTake.2.fab with rdata := w, rstat := st } } := h

theorem Chip.logCommit_group (hr : c.logReady ≠ []) (hg : c.gst = 0) {st : Status} {t : Chip}
    (h : c.ownGroup false (c.logPages c.logIndex c.logReady) = (st, t)) (hok : st = St.ok) : c.logCommit = t.logCommitted c.logReady := by
  unfold Chip.logCommit
  dsimp only
  rw [if_neg (by simpa using hr), if_neg (by simp [hg]), h]
  exact if_pos hok

theorem Chip.keyCopy_first (h : c.keyOk 0 = true) : c.keyCopy = some 0 := by
  unfold Chip.keyCopy
  rw [List.find?_cons, h]

/-- A temperature changes registers only. -/
theorem Chip.setTemp_fab (c : Chip) (k : Nat) (t : BitVec 12) : (c.setTemp k t).fab = c.fab := by
  unfold Chip.setTemp Chip.syncPkg
  dsimp only
  split <;> rfl

/-- One channel of a scan (R433). -/
def Chip.scanOne (vals : List (BitVec 16)) (t : Chip) (n : Nat) : Chip :=
  match vals[n]? with
  | some v =>
    if bitsOf (t.get Fld.SEN_SCAN_EN) n 1 = 1 then
      (t.put (Fld.SEN_VAL_V n) v.toNat).putB (Fld.SEN_VAL_VLD n) (n < 5 || (v.toNat != 0 && v.toNat < 1800))
    else t
  | none => t

theorem Chip.rd_scanOne_other (vals : List (BitVec 16)) (t : Chip) {n a : Nat} (h : a ≠ Reg.SEN_VAL n) : (Chip.scanOne vals t n).rd a = t.rd a := by
  unfold Chip.scanOne
  split
  · split
    · rw [Chip.putB, Chip.rd_put_other _ _ h, Chip.rd_put_other _ _ h]
    · rfl
  · rfl

theorem Chip.get_scanned (vals : List (BitVec 16)) {f : Field} : ∀ k : Nat, (∀ n < k, f.addr ≠ Reg.SEN_VAL n) →
    ((List.range k).foldl (Chip.scanOne vals) c).get f = c.get f
  | 0, _ => rfl
  | k + 1, h => by
    rw [List.range_succ, List.foldl_append]
    exact (Chip.get_rd (Chip.rd_scanOne_other vals _ (h k (by omega)))).trans (Chip.get_scanned vals k fun n hn => h n (by omega))

theorem sen_below {a : Nat} (h : a < Reg.SEN_VAL 0) (n : Nat) : a ≠ Reg.SEN_VAL n := by
  unfold Reg.SEN_VAL at *
  omega

theorem Chip.scanOne_off (vals : List (BitVec 16)) {t : Chip} {n : Nat} (he : bitsOf (t.get Fld.SEN_SCAN_EN) n 1 ≠ 1) :
    Chip.scanOne vals t n = t := by
  unfold Chip.scanOne
  split
  · exact if_neg he
  · rfl

theorem Chip.get_scanOne {vals : List (BitVec 16)} {t : Chip} {n : Nat} (hn : n < vals.length) (he : bitsOf (t.get Fld.SEN_SCAN_EN) n 1 = 1) :
    (Chip.scanOne vals t n).get (Fld.SEN_VAL_V n) = (vals.getD n 0#16).toNat % 2 ^ (Fld.SEN_VAL_V n).w := by
  unfold Chip.scanOne
  rw [List.getElem?_eq_getElem hn]
  dsimp only
  rw [if_pos he, Chip.putB, Chip.get_put_apart _ _ (by simp [Field.fits]) (by simp [Field.apart]), Chip.get_put_same _ _ (by simp [Field.fits]),
    List.getD_eq_getElem _ _ hn]

theorem Chip.get_scanOne_other (vals : List (BitVec 16)) (t : Chip) {n k : Nat} (h : n ≠ k) :
    (Chip.scanOne vals t k).get (Fld.SEN_VAL_V n) = t.get (Fld.SEN_VAL_V n) := by
  refine Chip.get_rd (Chip.rd_scanOne_other vals _ ?_)
  show 0x50038080 + 4 * n ≠ 0x50038080 + 4 * k
  omega

/-- A scan gives an enabled channel its reading and no other (R433). -/
theorem Chip.scanned_val {vals : List (BitVec 16)} {n : Nat} (hn : n < vals.length) (he : bitsOf (c.get Fld.SEN_SCAN_EN) n 1 = 1) :
    ∀ k > n, ((List.range k).foldl (Chip.scanOne vals) c).get (Fld.SEN_VAL_V n) = (vals.getD n 0#16).toNat % 2 ^ (Fld.SEN_VAL_V n).w
  | k + 1, hk => by
    rw [List.range_succ, List.foldl_append]
    by_cases hkn : n = k
    · subst hkn
      refine Chip.get_scanOne hn ?_
      rwa [Chip.get_scanned vals n fun n _ => sen_below (by decide) n]
    · exact (Chip.get_scanOne_other vals _ hkn).trans (Chip.scanned_val hn he k (by omega))

theorem Chip.scanned_kept (vals : List (BitVec 16)) {n : Nat} (he : bitsOf (c.get Fld.SEN_SCAN_EN) n 1 ≠ 1) :
    ∀ k, ((List.range k).foldl (Chip.scanOne vals) c).get (Fld.SEN_VAL_V n) = c.get (Fld.SEN_VAL_V n)
  | 0 => rfl
  | k + 1 => by
    rw [List.range_succ, List.foldl_append]
    refine Eq.trans ?_ (Chip.scanned_kept vals he k)
    by_cases hkn : n = k
    · subst hkn
      refine congrArg (fun d : Chip => d.get (Fld.SEN_VAL_V n)) (Chip.scanOne_off vals ?_)
      rwa [Chip.get_scanned vals n fun n _ => sen_below (by decide) n]
    · exact Chip.get_scanOne_other vals _ hkn

theorem Chip.sensorScan_awake (hs : c.coreAsleep = false) (hsrc : c.get Fld.HRV_STA_SRC ≠ 2) (vals : List (BitVec 16)) :
    c.sensorScan vals = (List.range 7).foldl (Chip.scanOne vals) c := by
  let d := (List.range 7).foldl (Chip.scanOne vals) c
  have hsrc' : d.get Fld.HRV_STA_SRC ≠ 2 := by
    rwa [Chip.get_scanned vals 7 fun n _ => sen_below (by decide) n]
  have e : c.sensorScan vals = if c.coreAsleep = true then c else
      if (decide (d.get Fld.HRV_STA_SRC = 2) && decide (2600 ≤ c.get (Fld.SEN_VAL_V 1)) && decide (d.get (Fld.SEN_VAL_V 1) < 2600)) = true then
        d.aonWarning else d := rfl
  rw [e, if_neg (ne_true_of_eq_false hs), if_neg (by simp [hsrc'])]

theorem Chip.coreAsleep_put {f : Field} {v : Nat} (h : Reg.HRV_STA ≠ f.addr) : (c.put f v).coreAsleep = c.coreAsleep := by
  unfold Chip.coreAsleep
  rw [Chip.get_rd (f := Fld.HRV_STA_SRC) (Chip.rd_put_other c v h), Chip.get_rd (f := Fld.HRV_STA_ABV) (Chip.rd_put_other c v h)]

/-- A tamper input counts in its own field (R435). -/
theorem Chip.tamper_active {f : Field} (n : Nat) (hf : (if n = 0 then Fld.SEN_TCNT_C0 else Fld.SEN_TCNT_C1) = f)
    (h : bitsOf (c.get Fld.SEN_TCFG_EN) n 1 = 1) :
    c.tamper n =
      (let e := ((c.bump f).put Fld.SEN_STA_TLVL ((c.bump f).get Fld.SEN_STA_TLVL ||| 2 ^ n)).set Fld.SEN_IST_TAMP
       if c.coreAsleep = true then e else e.logEvent 7 (leBytes 1 n ++ leBytes 1 ((c.bump f).get f))) := by
  have hfa : Reg.HRV_STA ≠ f.addr := by
    subst hf
    split <;> decide
  have hasleep : (((c.bump f).put Fld.SEN_STA_TLVL ((c.bump f).get Fld.SEN_STA_TLVL ||| 2 ^ n)).set Fld.SEN_IST_TAMP).coreAsleep = c.coreAsleep :=
    (Chip.coreAsleep_put (by decide)).trans ((Chip.coreAsleep_put (by decide)).trans (Chip.coreAsleep_put hfa))
  have hb : (if n = 0 then c.bump Fld.SEN_TCNT_C0 else c.bump Fld.SEN_TCNT_C1) = c.bump f := by
    subst hf
    split <;> rfl
  have hg : (if n = 0 then (c.bump f).get Fld.SEN_TCNT_C0 else (c.bump f).get Fld.SEN_TCNT_C1) = (c.bump f).get f := by
    subst hf
    split <;> rfl
  unfold Chip.tamper
  rw [if_pos h, hb]
  dsimp only
  rw [hasleep, hg]

end

/-- Settles O53: each row by its case. -/
theorem almanacUpkeep : Obligations.AlmanacUpkeep := by
  unfold Obligations.AlmanacUpkeep
  refine ⟨⟨fun s m hc hq ha hm hset => ?_, fun s x r ha ht => ?_, fun s ha => ⟨fun h => ?_, fun h hg => ?_, fun h hg hok => ?_⟩,
    fun s ha => ⟨fun h0 h1 => ?_, fun hg h0 h1 => ?_⟩⟩, fun s vals ha hs => ?_, fun s vals ha hs hsrc hl => ?_,
    fun s n ha => ⟨fun h => ?_, fun h => ?_⟩, fun s k t ha => ⟨fun h => ?_, fun h hp => ?_, fun h hp => ?_, fun h hp => ?_, fun h hp => ?_⟩⟩
  · have hread : s.chip.regRead m Reg.LOG_TAKE = { s.chip.logTake.2 with fab := { s.chip.logTake.2.fab with
        rdata := BitVec.ofNat 32 (s.chip.get Fld.LOG_NSEQ_N), rstat := St.ok } } := by
      unfold Chip.regRead
      rw [if_pos hc, hq, if_neg Bool.false_ne_true, Chip.load32_logTake ha hm]
      exact Chip.settle_idle (hset.logTake _ _)
    have h : Gives (.logTake m) s _ := gives_act rfl hread
    refine h.runs ⟨rfl, rfl, ?_, s.chip.logTake_taken, fun a hl => ?_, rfl⟩
    · show ((s.chip.put Fld.LOG_NSEQ_N _).put Fld.LOG_TAKE_N _).get Fld.LOG_NSEQ_N = _
      rw [Chip.get_put_apart _ _ (by decide) (by decide), Chip.get_put_same _ _ (by decide)]
    · simp only [List.mem_cons, List.not_mem_nil, or_false, not_or] at hl
      exact (Chip.rd_put_other (s.chip.put Fld.LOG_NSEQ_N _) _ hl.2).trans (Chip.rd_put_other _ _ hl.1)
  · refine gives_onA ha rfl ?_
    unfold Chip.gapTimeout
    rw [ht]
  · refine gives_onA ha rfl ?_
    unfold Chip.logCommit
    rw [h]
    rfl
  · refine gives_onA ha rfl ?_
    unfold Chip.logCommit
    dsimp only
    rw [if_neg (by simpa using h), if_pos hg]
  · exact gives_onA ha rfl (Chip.logCommit_group h hg rfl hok)
  · refine gives_onA ha rfl ?_
    unfold Chip.keygen
    rw [Chip.keyCopy_first h0]
    split
    · rfl
    · exact if_pos h1
  · refine gives_onA ha rfl ?_
    unfold Chip.keygen
    rw [Chip.keyCopy_first h0, if_neg (not_not.mpr hg)]
    exact if_neg (ne_true_of_eq_false h1)
  · exact gives_onA ha rfl (if_pos hs)
  · refine (gives_onA ha rfl (Chip.sensorScan_awake hs hsrc vals)).runs fun n hn => ?_
    split
    · rename_i he
      exact Chip.scanned_val (hl ▸ hn) he 7 hn
    · rename_i he
      exact Chip.scanned_kept vals he 7
  · exact gives_onA ha rfl (if_neg (by rw [h]; decide))
  · exact gives_onA ha rfl (Chip.tamper_active n.val rfl h)
  · refine gives_onA ha rfl ?_
    unfold Chip.tempHot
    rw [h, ← s.chip.setTemp_fab k.val t]
    rfl
  · refine gives_onA ha rfl ?_
    unfold Chip.tempWarn
    rw [h]
    exact (if_neg (by decide)).trans (if_pos hp)
  · refine gives_onA ha rfl ?_
    unfold Chip.tempWarn
    rw [h]
    exact (if_pos rfl).trans (if_pos hp)
  · refine gives_onA ha rfl ?_
    unfold Chip.tempCrit
    rw [h]
    exact (if_neg (by decide)).trans (if_pos hp)
  · refine gives_onA ha rfl ?_
    unfold Chip.tempCrit
    rw [h]
    exact (if_pos rfl).trans (if_pos hp)

end Sys2Proof.Machine
end

section
/-!
SUPPORT. Updates (R451, R452).
-/
namespace Sys2Proof.Machine

/-! ### Updates (R451, R452) -/

theorem gives_updCmd {i : Instr} {s : State} {m : Master} {v : Word} {d : Chip} (e : exec i s = s.act fun c => c.regWrite m Reg.UPD_CMD v)
    (acc : Accepts s.chip m Reg.UPD_CMD v) (hc : commandReg Reg.UPD_CMD v = true) (hd : s.chip.updCmd v = (St.ok, d)) : Gives i s d.afterWrite :=
  gives_command e acc hc rfl hd

/-- The word of UPD.CMD by its kind and operation. -/
def updWord (kind op : Nat) : Word := BitVec.ofNat 32 (kind * 256 + op)

theorem commandReg_updWord {k : Nat} (hk : k = 1 ∨ k = 2) :
    commandReg Reg.UPD_CMD (updWord k 1) = true ∧ commandReg Reg.UPD_CMD (updWord k 5) = true := by
  obtain rfl | rfl := hk <;> exact ⟨rfl, rfl⟩

section
variable {c : Chip}

theorem Chip.updCmd_begin {k : Nat} (hk : k = 1 ∨ k = 2) (ha : c.updArmed = false) (h2 : c.updSt ≠ 2) : c.updCmd (updWord k 1) =
    (St.ok, (((({ c with alm := { c.alm with kind := k, slot := 0, gather := [] } } : Chip).clr (okBit k)).put Fld.UPD_DOFS_N 0).put
      Fld.UPD_STA_ERR 0).put Fld.UPD_STA_ST 1) := by
  have h : c.updCmd (updWord k 1) = c.updBegin k 0 := by obtain rfl | rfl := hk <;> rfl
  rw [h]
  exact (if_neg (by simp; omega)).trans (if_neg (by simp [ha, h2]))

theorem Chip.updCmd_clone {k : Nat} (hk : k = 1 ∨ k = 2) (ha : c.updArmed = false) : c.updCmd (updWord k 5) =
    (St.ok, (({ c with alm := { c.alm with kind := k, clone := true } } : Chip).clr (okBit k)).put Fld.UPD_STA_ST 2) := by
  have h : c.updCmd (updWord k 5) = c.updClone k := by obtain rfl | rfl := hk <;> rfl
  rw [h]
  exact (if_neg (by simp; omega)).trans (if_neg (by simp [ha]))

/-- A block is pushed while the image is received and no group is open (R451). -/
theorem Chip.updPush_runs (h1 : c.updSt = 1) (hl : c.get Fld.UPD_DOFS_N < c.get Fld.UPD_LEN_N) {r : Status × Chip}
    (hr : c.ownGroup false (c.patchPages (imgAt c.alm.kind c.updSlot + c.get Fld.UPD_DOFS_N)
      (c.dwin.take (c.get Fld.UPD_LEN_N - c.get Fld.UPD_DOFS_N))) = r) (hok : r.1 = St.ok) :
    c.updPush = (St.ok, r.2.put Fld.UPD_DOFS_N (c.get Fld.UPD_DOFS_N + 1024)) := by
  unfold Chip.updPush Chip.updPushBy
  dsimp only
  rw [if_neg (not_not.mpr h1), if_neg (by omega), hr]
  exact if_pos hok

theorem Chip.romMode_put {f : Field} {v : Nat} (h : Reg.PSY_BST ≠ f.addr) : (c.put f v).romMode = c.romMode := by
  unfold Chip.romMode
  rw [Chip.get_rd (f := Fld.PSY_BST_STG) (Chip.rd_put_other c v h), Chip.get_rd (f := Fld.PSY_BST_FAIL) (Chip.rd_put_other c v h)]

theorem Chip.updSlot_put {f : Field} {v : Nat} (h : Reg.PSY_BST ≠ f.addr) : (c.put f v).updSlot = c.updSlot := by
  unfold Chip.updSlot Chip.bootSlot
  rw [Chip.romMode_put h, Chip.get_rd (f := Fld.PSY_BST_SLOT) (Chip.rd_put_other c v h)]
  rfl

/-- The outcome of VERIFY (R451). -/
theorem Chip.updVerified_verify (h2 : c.updSt = 2) (hcl : c.alm.clone = false) : c.updVerified =
    (let d : Chip := { c with alm := { c.alm with clone := false } }
     let e := d.imageErr c.alm.kind d.updSlot
     ((((d.put Fld.UPD_STA_ERR e).put Fld.UPD_STA_ST (if e = 0 then 3 else 4)).putB (okBit c.alm.kind) (e == 0)).set Fld.UPD_IST_DONE).logEvent
       5 (leBytes 1 3 ++ leBytes 1 c.alm.kind ++ leBytes 1 d.updSlot ++ leBytes 1 e)) := by
  have hok : Reg.PSY_BST ≠ (okBit c.alm.kind).addr := by
    unfold okBit
    split <;> decide
  unfold Chip.updVerified
  rw [if_neg (by simp [h2, hcl]), hcl]
  simp only [Bool.false_eq_true, if_false, if_true]
  rw [Chip.set, Chip.putB, Chip.updSlot_put (by decide), Chip.updSlot_put hok, Chip.updSlot_put (by decide), Chip.updSlot_put (by decide)]

end

/-- The fields of UPD.ARM. -/
def armFields : List FieldDesc :=
  [{ lo := 8, w := 1, acc := .rwg, reset := 0, cls := .l }, { lo := 0, w := 1, acc := .rwg, reset := 0, cls := .l }]

/-- A verified pair of images is armed as a trial by a guarded write (R452). -/
theorem Chip.regPair_arm {c : Chip} {m : Master} {b : Bool} (acc : Accepts c m Reg.UPD_ARM (BitVec.ofNat 32 (256 + b.toNat)))
    (hgr : c.guardRight m = true) (hs : c.updSlot = b.toNat) (hfw : c.on Fld.UPD_STA_FWOK = true) (heng : c.on Fld.UPD_STA_ENGOK = true)
    (ht : c.alm.trialRun = false) :
    c.regPair m Reg.UPD_ARM (BitVec.ofNat 32 (256 + b.toNat)) =
      ((((c.put Fld.UPD_ARM_EN 1).put Fld.UPD_ARM_SLOT b.toNat).setUpd (c.get Fld.UPD_SLOT_ACTIVE) 1 b.toNat 1).set Fld.UPD_IST_ARMD).afterWrite := by
  let d := (c.put Fld.UPD_ARM_EN 1).put Fld.UPD_ARM_SLOT b.toNat
  have hp : plainL Reg.UPD_ARM := by
    unfold plainL
    decide
  have hin : heldIn armFields Reg.UPD_ARM (BitVec.ofNat 32 (256 + b.toNat)) c = d := by cases b <;> rfl
  have hslot : d.updSlot = b.toNat := (Chip.updSlot_put (by decide)).trans ((Chip.updSlot_put (by decide)).trans hs)
  have hon (f : Field) (hf : f.addr ≠ Reg.UPD_ARM) : d.get f = c.get f :=
    (Chip.get_rd (Chip.rd_put_other _ _ hf)).trans (Chip.get_rd (Chip.rd_put_other _ _ hf))
  have hpost : hookPost m Reg.UPD_ARM (c.rd Reg.UPD_ARM) (BitVec.ofNat 32 (256 + b.toNat))
      (heldIn armFields Reg.UPD_ARM (BitVec.ofNat 32 (256 + b.toNat)) c) =
      (St.ok, (d.setUpd (c.get Fld.UPD_SLOT_ACTIVE) 1 b.toNat 1).set Fld.UPD_IST_ARMD) := by
    have h : hookPost m Reg.UPD_ARM (c.rd Reg.UPD_ARM) (BitVec.ofNat 32 (256 + b.toNat)) d = d.updArm true b.toNat := by cases b <;> rfl
    have hF : d.on Fld.UPD_STA_FWOK = true := by rw [Chip.on, hon _ (by decide)]; exact hfw
    have hE : d.on Fld.UPD_STA_ENGOK = true := by rw [Chip.on, hon _ (by decide)]; exact heng
    have hT : d.alm.trialRun = false := ht
    rw [hin, h]
    unfold Chip.updArm
    rw [hslot, hF, hE, hT, hon _ (by decide)]
    simp
  obtain ⟨_, _, hdead, _⟩ := id acc
  have hpg : pageAt Pg.UPD = some pageUPD := rfl
  have hd2 : c.deadRegion (Reg.UPD_ARM + 0x800) = false :=
    (Chip.deadRegion_add (x := 0x854) hpg rfl (by decide)).trans ((Chip.deadRegion_add (x := 0x54) hpg rfl (by decide)).symm.trans hdead)
  refine Chip.regPair_held (l := ⟨pageUPD, 0x54, 0⟩) (k := ⟨pageUPD, 0x854, 0⟩) (fs := armFields) hp acc hgr rfl rfl ⟨rfl, rfl, rfl⟩
    hd2 ⟨by decide, by decide, by decide, by decide⟩ rfl rfl rfl rfl ?_ rfl hpost
  cases b <;> rfl

/-- Settles O54: each command by the operation it names. -/
theorem updates : Obligations.Updates := by
  unfold Obligations.Updates
  refine ⟨fun s m k hk => ⟨fun acc ha h2 => ?_, fun acc ha => ?_⟩, fun s m hw => ?_, fun s m acc hg h1 hl hok => ?_, fun s m acc h1 => ?_,
    fun s ha h2 hc => ?_, fun s m acc => ?_, fun s m acc h => ?_, fun s m b acc hgr hs hfw heng ht => ?_,
    fun s ha => ⟨fun ht hst => ?_, fun ht => ?_⟩⟩
  · exact gives_updCmd rfl acc (commandReg_updWord hk).1 (Chip.updCmd_begin hk ha h2)
  · exact gives_updCmd rfl acc (commandReg_updWord hk).2 (Chip.updCmd_clone hk ha)
  · exact gives_act (f := fun c => if c.pushWaits then c else c.regWrite m Reg.UPD_CMD 2#32) rfl (if_pos hw)
  · refine gives_act (f := fun c => if c.pushWaits then c else c.regWrite m Reg.UPD_CMD 2#32) rfl ((if_neg (by simp [Chip.pushWaits, hg])).trans ?_)
    exact Chip.regWrite_command acc rfl rfl (Chip.updPush_runs h1 hl rfl hok)
  · exact gives_updCmd rfl acc rfl (if_pos h1)
  · exact gives_onA ha rfl (congrArg Chip.settle (Chip.updVerified_verify h2 hc))
  · exact gives_updCmd rfl acc rfl rfl
  · refine gives_updCmd rfl acc rfl (if_pos ?_)
    obtain h | ⟨h, hj⟩ := h
    · simp [h]
    · simp [hj, or_assoc, h]
  · exact gives_act rfl (Chip.regPair_arm acc hgr hs hfw heng ht)
  · exact gives_onA ha rfl (if_pos (by simp [ht, hst]))
  · exact gives_onA ha rfl (if_neg (by simp [ht]))

end Sys2Proof.Machine
end

section
/-!
SUPPORT. Plain writes, writes that set, clear or invert bits, and refused writes (R41, R60, R61, R68, R84).
-/
namespace Sys2Proof.Machine

/-! ### Plain writes and refused writes (R41, R60, R61, R68, R84) -/

/-- A whole word that a class-L register takes. -/
def wholeL : List FieldDesc := [{ lo := 0, w := 32, acc := .rw, reset := 0, cls := .l }]

theorem bitsOf_word (v : Word) : bitsOf v.toNat 0 32 = v.toNat := by
  unfold bitsOf
  rw [pow_zero, Nat.div_one]
  exact Nat.mod_eq_of_lt v.isLt

/-- A register whose one field is the whole word reads what was put into it. -/
theorem Chip.rd_put_whole (c : Chip) (a : Nat) (v : Word) : (c.put ⟨a, 0, 32⟩ v.toNat).rd a = v := by
  have h : (c.put ⟨a, 0, 32⟩ v.toNat).get ⟨a, 0, 32⟩ = v.toNat := (Chip.get_put_same c _ rfl).trans (Nat.mod_eq_of_lt v.isLt)
  exact BitVec.eq_of_toNat_eq ((bitsOf_word _).symm.trans h)

theorem onlyRegs_put (c : Chip) (f : Field) (v : Nat) : OnlyRegs c (c.put f v) [f.addr] :=
  ⟨rfl, fun _ ha => Chip.rd_put_other c v (by simpa using ha)⟩

/-- What lets an Orrery context's write of an L-die register through. -/
theorem accepts_orr {c : Chip} (hL : LOn c) (hn : NoneWaiting c) (x : Fin 4) {a : Nat} {v : Word} {l : Loc} (ha : 0x10000000 ≤ a ∧ a < 0x50000000)
    (h4 : a % 4 = 0) (hl : locate a = some l) (hal : l.alias_ = 0) (hlt : l.off < 0x800) (h20 : l.off ≠ 0x20)
    (hpre : hookPre (.orr x) a v c = St.ok) : Accepts c (.orr x) a v := by
  have hq : c.mustQueue (.orr x) a = false := by
    unfold Chip.mustQueue crosses
    rw [if_neg (by simp), show (decide (0x50000000 ≤ a) && decide (a < 0x70000000)) = false by simp; omega]
    rfl
  exact ⟨by simp [Chip.canAccess, Chip.lRuns, hL.1, hL.2], hq, Chip.deadRegion_lDie hL ha, h4, hn, l, hl, hal, hlt, rfl,
    fun h => absurd h h20, hpre, rfl⟩

section
variable {c : Chip}

/-- Writes of IMG.PITCH on an enabled page (R180). -/
theorem Chip.store32_pitch (hL : LOn c) (hn : NoneWaiting c) (x : Fin 4) (v : Word) :
    c.store32 (.orr x) Reg.IMG_PITCH v = (St.ok, (c.put Fld.IMG_PITCH_P v.toNat).afterCommit) := by
  have hp : plainL Reg.IMG_PITCH := by
    unfold plainL
    decide
  have acc : Accepts c (.orr x) Reg.IMG_PITCH v :=
    accepts_orr hL hn x (by decide) rfl (l := ⟨pageIMG, 0x44, 0⟩) rfl rfl (by decide) (by decide) rfl
  have hin : heldIn wholeL Reg.IMG_PITCH v c = c.put Fld.IMG_PITCH_P v.toNat := congrArg (c.put Fld.IMG_PITCH_P) (bitsOf_word v)
  exact hin ▸ Chip.store32_held (l := ⟨pageIMG, 0x44, 0⟩) (fs := wholeL) (d := heldIn wholeL Reg.IMG_PITCH v c) hp acc rfl
    ⟨by decide, by decide, by decide⟩ rfl rfl rfl rfl rfl ((if_neg (by decide)).trans rfl) rfl

theorem aliasWord_zero (k : Nat) (hk : k = 1 ∨ k = 2 ∨ k = 3) (old : Word) : aliasWord k old 0#32 = old := by
  obtain rfl | rfl | rfl := hk
  · exact BitVec.or_zero
  · exact BitVec.and_allOnes
  · exact BitVec.xor_zero

theorem hookPre_pitch (x : Fin 4) (v : Word) (c : Chip) : hookPre (.orr x) Reg.IMG_PITCH v c = St.ok := rfl
theorem hookResv_pitch (v : Word) (c : Chip) : hookResv Reg.IMG_PITCH v c = [] := rfl
theorem hookPost_pitch (m : Master) (old v : Word) (c : Chip) : hookPost m Reg.IMG_PITCH old v c = (St.ok, c) := rfl
theorem hookValid_pitch (c : Chip) : hookValid Pg.IMG (.write Reg.IMG_PITCH true) c = [] := rfl

/-- The same through the addresses that set, clear and invert bits (R60, R61): a word that names no bit leaves the register as it is. -/
theorem Chip.store32_pitchAlias (hL : LOn c) (hn : NoneWaiting c) (hen : c.on (hEN Pg.IMG) = true) (x : Fin 4) (v : Word) {k : Nat}
    (hk : k = 1 ∨ k = 2 ∨ k = 3) : ∃ d, OnlyRegs c d [Reg.IMG_PITCH] ∧ d.rd Reg.IMG_PITCH = aliasWord k (c.rd Reg.IMG_PITCH) v ∧
      c.store32 (.orr x) (Reg.IMG_PITCH + k * 0x1000) v = (St.ok, d.afterCommit) := by
  have hp : plainL Reg.IMG_PITCH := by
    unfold plainL
    decide
  let w := aliasWord k (c.rd Reg.IMG_PITCH) v
  have hl : locate (Reg.IMG_PITCH + k * 0x1000) = some ⟨pageIMG, 0x44, k⟩ := by obtain rfl | rfl | rfl := hk <;> rfl
  have hfs : wholeL.all (fun f => f.aliasOk w v (hookResv Reg.IMG_PITCH w c)) = true := by
    rw [hookResv_pitch]
    simp [wholeL, FieldDesc.aliasOk, Legal.ok]
  have hin : aliasIn wholeL Reg.IMG_PITCH w v c = if bitsOf v.toNat 0 32 != 0 then c.put Fld.IMG_PITCH_P w.toNat else c := by
    rw [← bitsOf_word w]
    rfl
  have hstore : c.store32 (.orr x) (Reg.IMG_PITCH + k * 0x1000) v = (St.ok, (aliasIn wholeL Reg.IMG_PITCH w v c).afterCommit) := by
    refine Chip.store32_alias (a := Reg.IMG_PITCH) (l := ⟨pageIMG, 0x44, k⟩) (fs := wholeL) (w := w) hp hL hn ?_ ?_ hl ?_
      (show 0x44 < 0x800 by decide) ⟨show 0x44 ≠ 0x18 by decide, show 0x44 ≠ 0x1C by decide, show 0x44 ≠ 0x20 by decide⟩ rfl
      (show fieldsAt pageIMG 0x44 = some wholeL from rfl) (show readsZero pageIMG 0x44 = false from rfl)
      (show guardedAt pageIMG 0x44 = false from rfl) hen rfl rfl (hookPre_pitch x _ c) hfs (hookValid_pitch _) ?_
    · unfold Reg.IMG_PITCH
      omega
    · unfold Reg.IMG_PITCH
      omega
    · show k ≠ 0
      omega
    · rw [hookPost_pitch]
      exact ite_self _
  refine ⟨aliasIn wholeL Reg.IMG_PITCH w v c, ?_, ?_, hstore⟩
  · rw [hin]
    split
    · exact onlyRegs_put c Fld.IMG_PITCH_P _
    · exact ⟨rfl, fun _ _ => rfl⟩
  · rw [hin]
    split
    · exact Chip.rd_put_whole c Reg.IMG_PITCH w
    · rename_i ht
      have hv : v = 0#32 := by
        have : v.toNat = 0 := (bitsOf_word v).symm.trans (by simpa using ht)
        exact BitVec.eq_of_toNat_eq this
      rw [hv]
      exact (aliasWord_zero k hk _).symm

end

/-- A write that the checks of R84 let through is committed. -/
theorem Chip.store32_commit {c : Chip} {m : Master} {a : Nat} {v : Word} {l : Loc} {fs : List FieldDesc} (acc : Accepts c m a v)
    (hl : locate a = some l) (hb : l.page.base + l.off = a) (hg : guardedAt l.page l.off = false) (hf : fieldsAt l.page l.off = some fs) :
    c.store32 m a v = c.commit hooks m l.page l.off 0 v := by
  obtain ⟨_, _, hdead, h4, ⟨_, hheld, hgu⟩, l', hl', hal, hlt, hperm, hown, hpre, hst⟩ := acc
  rw [hl] at hl'
  cases hl'
  have hlat : c.latch l.page.base = none := by simp [Chip.latch, hgu]
  have hnt : ¬ 0x800 ≤ l.off := by omega
  have how : (decide (l.off = 0x20) && !c.ownOk m l.page.base v) = false := by
    by_cases e : l.off = 0x20
    · simp [hown e]
    · simp [e]
  have halias : aliasWord l.alias_ (c.rd a) v = v := by rw [hal]; rfl
  unfold Chip.store32 Chip.write32
  simp only [hdead, Bool.false_eq_true, if_false, h4, ne_eq, not_true_eq_false, hl]
  unfold Chip.writeReg
  simp only [hnt, decide_false, Bool.false_eq_true, if_false, hheld, List.any_nil, hlat, hf, Option.isNone_some, Bool.false_or, Bool.false_and, hb,
    halias, hperm, Bool.not_true, hg, Option.getD_some, judge_plain hal hpre, hst]
  simp only [how, hal, Bool.false_eq_true, if_false, ne_eq, not_true_eq_false, decide_false, Bool.false_and, St.perm, St.state, St.ok]
  exact (if_neg (by decide)).trans (if_neg (by decide))

/-- The one field of ENC.OLS, of class S. -/
def olsField : FieldDesc := { lo := 0, w := 32, acc := .rw, reset := 0x10000, cls := .s }

theorem hookResv_ols (v : Word) (c : Chip) : hookResv (Reg.ENC_OLS 0) v c = [] := rfl
theorem hookPre_ols (x : Fin 4) (v : Word) (c : Chip) : hookPre (.orr x) (Reg.ENC_OLS 0) v c = St.ok := rfl
theorem hookPost_ols (m : Master) (old v : Word) (c : Chip) : hookPost m (Reg.ENC_OLS 0) old v c = (St.ok, c) := rfl

/-- A class-S field that a write would change on an enabled block is left, and the write marked (R68). -/
theorem writeField_closed {p : PageDesc} {a : Nat} {m : Master} {w : Word} {resv : List Nat} {j : Judged} {f : FieldDesc} (hacc : f.acc = .rw)
    (hcls : f.cls = .s) (hl : (!f.legal.ok (bitsOf w.toNat f.lo f.w) f.w || resv.contains f.lo) = false)
    (hne : bitsOf w.toNat f.lo f.w ≠ j.s.get ⟨a, f.lo, f.w⟩) {j' : Judged} (hj : { j with ign := true } = j') :
    writeField p a m 0 w w resv false j f = j' := by
  unfold writeField
  rw [hacc, hcls]
  dsimp only
  rw [hl, if_neg (by simp), if_neg hne, ← hj]
  rfl

section
variable {c : Chip} {m : Master} {v : Word}

/-- A class-S field of an enabled block stays as it is (R68). -/
theorem Chip.commit_olsClosed (hs : c.shadows = []) (hen : c.on (hEN Pg.ENC) = true) (hv : v ≠ c.rd (Reg.ENC_OLS 0)) :
    c.commit hooks m pageENC 0x5C 0 v = (St.cfgIgnored, ((c.set (hIGN Pg.ENC)).erc Pg.ENC m St.cfgIgnored).afterCommit) := by
  have hnv : bitsOf v.toNat 0 32 ≠ c.get ⟨Reg.ENC_OLS 0, 0, 32⟩ := by
    intro h
    exact hv (BitVec.eq_of_toNat_eq ((bitsOf_word v).symm.trans (h.trans (bitsOf_word _))))
  have hopen : (hooks.sOpen m (Reg.ENC_OLS 0) c).getD (c.sOpen pageENC) = false := by
    show (pageENC.en1 || !c.on (hEN Pg.ENC)) = false
    rw [hen]
    rfl
  have hfield : [olsField].foldl (writeField pageENC (Reg.ENC_OLS 0) m 0 v v (hookResv (Reg.ENC_OLS 0) v c) false)
      { s := c, ign := false, bad := false, applied := false } = { s := c, ign := true, bad := false, applied := false } :=
    writeField_closed (p := pageENC) (m := m) (f := olsField) (j := { s := c, ign := false, bad := false, applied := false }) rfl rfl rfl hnv rfl
  have hf : fieldsAt pageENC 0x5C = some [olsField] := rfl
  have hz : readsZero pageENC 0x5C = false := rfl
  have hsh : (c.set (hIGN Pg.ENC)).shadows = [] := hs
  unfold Chip.commit Chip.afterCommit
  simp only [hf, show pageENC.base = Pg.ENC from rfl, show Pg.ENC + 0x5C = Reg.ENC_OLS 0 from rfl,
    show aliasWord 0 (c.rd (Reg.ENC_OLS 0)) v = v from rfl, show hooks.gate Pg.ENC = none from rfl,
    Option.getD_none, bne_self_eq_false, Bool.or_false, hen, Bool.not_true, Bool.and_false, Bool.false_and,
    Bool.false_eq_true, if_false, show hooks.resv = hookResv from rfl, hopen, hfield, show hooks.post = hookPost from rfl]
  simp only [ite_self, ne_eq, not_true_eq_false, if_false, show ¬ (0x5C : Nat) = 8 by decide, show ¬ (0x5C : Nat) = 0x18 by decide,
    show ¬ (0x5C : Nat) = 0x1C by decide, decide_false, Bool.false_and, Bool.false_eq_true, Chip.applyShadows_none hsh,
    show actsOn 0 v [olsField] = true from rfl, Bool.not_true, Bool.or_false, if_true, hz, hookPost_ols]
  rfl

end

theorem writes_pitchAlias {i : Instr} {s : State} (hL : LOn s.chip) (hn : NoneWaiting s.chip) (hen : s.chip.on (hEN Pg.IMG) = true) (x : Fin 4)
    (v : Word) {k : Nat} (e : exec i s = s.act fun c => c.busWrite (.orr x) (Reg.IMG_PITCH + k * 0x1000) v) (hk : k = 1 ∨ k = 2 ∨ k = 3) :
    Writes i s Reg.IMG_PITCH (aliasWord k (s.chip.rd Reg.IMG_PITCH) v) := by
  obtain ⟨d, ho, hr, hst⟩ := Chip.store32_pitchAlias hL hn hen x v hk
  have hc : crosses (.orr x) (Reg.IMG_PITCH + k * 0x1000) = false := by obtain rfl | rfl | rfl := hk <;> rfl
  have h : Gives i s d.afterWrite := gives_act e ((Chip.busWrite_orr hL x hc).trans (by rw [hst]; rfl))
  exact h.runs ⟨d, ho, hr, rfl⟩

/-- A bus error changes registers only. -/
theorem Chip.busError_regs (c : Chip) (m : Master) (a k : Nat) : c.busError m a k = { c with regs := (c.busError m a k).regs } := by
  rw [Chip.busError_eq]
  split <;> rfl

/-- An access outside every region (R41). -/
theorem Chip.store32_unmapped (c : Chip) (m : Master) (v : Word) {a : Nat} (ha : 0x84000000 ≤ a) (h4 : a % 4 = 0) :
    c.store32 m a v = (St.badArg, c.busError m a Kind.unmapped) := by
  have hd : c.deadRegion a = false := by
    simp [Chip.deadRegion]
    omega
  have hl : locate a = none := by
    unfold locate pageAt
    rw [if_neg (by simp; omega), if_neg (by simp; omega)]
    rfl
  unfold Chip.store32 Chip.write32
  rw [hd, hl]
  dsimp only
  rw [if_neg Bool.false_ne_true, if_neg (not_not.mpr h4), if_neg (by simp; omega), if_neg (by simp; omega), if_neg (by simp; omega)]

/-- Settles O12: plain and other writes of IMG.PITCH, a class-S field of an enabled block, an address outside every region. -/
theorem plainAliasAndRefusedWrites : Obligations.PlainAliasAndRefusedWrites := by
  unfold Obligations.PlainAliasAndRefusedWrites
  refine ⟨fun s x v hL hn hen => ⟨?_, ?_, ?_, ?_⟩, fun s x v hL hn hen hv => ?_, fun s m a v hc hm hal hset ha h4 => ?_⟩
  · have h : Gives (.registerWrite (.orr x) (BitVec.ofNat 32 Reg.IMG_PITCH) v) s _ :=
      gives_act rfl ((Chip.busWrite_orr hL x (a := Reg.IMG_PITCH) rfl).trans (by rw [Chip.store32_pitch hL hn]))
    exact h.runs ⟨s.chip.put Fld.IMG_PITCH_P v.toNat, onlyRegs_put s.chip Fld.IMG_PITCH_P _, Chip.rd_put_whole s.chip Reg.IMG_PITCH v, rfl⟩
  · exact writes_pitchAlias hL hn hen x v rfl (k := 1) (by simp)
  · exact writes_pitchAlias hL hn hen x v rfl (k := 2) (by simp)
  · exact writes_pitchAlias hL hn hen x v rfl (k := 3) (by simp)
  · have acc : Accepts s.chip (.orr x) (Reg.ENC_OLS 0) v :=
      accepts_orr hL hn x (by decide) rfl (l := ⟨pageENC, 0x5C, 0⟩) rfl rfl (by decide) (by decide) (hookPre_ols x v _)
    have hst : s.chip.store32 (.orr x) (Reg.ENC_OLS 0) v = _ :=
      (Chip.store32_commit (l := ⟨pageENC, 0x5C, 0⟩) acc rfl rfl rfl rfl).trans (Chip.commit_olsClosed hn.1 hen hv)
    have h : Gives (.registerWrite (.orr x) (BitVec.ofNat 32 (Reg.ENC_OLS 0)) v) s _ :=
      gives_act rfl ((Chip.busWrite_orr hL x (a := Reg.ENC_OLS 0) rfl).trans (by rw [hst]))
    refine h.runs ⟨(s.chip.set (hIGN Pg.ENC)).erc Pg.ENC (.orr x) St.cfgIgnored, ⟨rfl, fun a ha => ?_⟩, ?_, ?_,
      Chip.on_set_same _ (by decide) (by decide), rfl⟩
    · simp only [List.mem_cons, List.not_mem_nil, or_false, not_or] at ha
      obtain ⟨h1, h2, h3⟩ := ha
      exact (Chip.rd_put_other _ _ h1).trans ((Chip.rd_wr_other _ _ h2).trans (Chip.rd_put_other _ _ h3))
    · refine (Chip.on_rd ((Chip.rd_put_other _ _ (by decide)).trans (Chip.rd_wr_other _ _ (by decide)))).trans ?_
      exact Chip.on_set_same _ (by decide) (by decide)
    · refine (Chip.rd_put_other _ _ (by decide)).trans ((Chip.rd_wr_same _ _ _).trans ?_)
      exact congrArg (BitVec.ofNat 32) (by simp [mClid, mCode, St.cfgIgnored])
  · have hcr : crosses m a.toNat = true → m = .alm := by
      intro h
      by_contra hne
      simp [crosses, hne] at h
      omega
    have hst : s.chip.store32 m a.toNat v = (St.badArg, s.chip.busError m a.toNat Kind.unmapped) := s.chip.store32_unmapped m v ha h4
    have hw : s.chip.masterWrite m a.toNat v = s.chip.store32 m a.toNat v := by
      unfold Chip.masterWrite
      rw [if_neg ?_, if_neg ?_]
      · cases m with
        | host x => cases hm
        | orr | hel | debug | alm => rfl
      · simpa using hcr
      · simp only [Bool.and_eq_true, not_and, decide_eq_true_eq]
        rintro ⟨⟨he, -⟩, hb⟩
        rw [hal he] at hb
        cases hb
    refine gives_act rfl ((if_pos hc).trans ?_)
    rw [hw, hst]
    have hd := s.chip.busError_regs m a.toNat Kind.unmapped
    exact Chip.settle_idle (hset.of_eq (hd ▸ rfl) (hd ▸ rfl) (hd ▸ rfl) (hd ▸ rfl) (hd ▸ rfl))

end Sys2Proof.Machine
end

section
/-!
SUPPORT. The common header of a page: CFS, OWN, held writes, blocks that stop (R57, R58, R68, R82, R573).
-/
namespace Sys2Proof.Machine

/-! ### The common header of a page (R57, R58, R82) -/

/-- The page of a selector, whose CFS and OWN are plain registers. -/
theorem pageAt_pageBase (pg : PageSel) :
    ∃ p, pageAt (pageBase pg) = some p ∧ p.base = pageBase pg ∧ guardedAt p 0x1C = false ∧ guardedAt p 0x20 = false := by
  have h : ∀ pg : PageSel, (pageAt (pageBase pg)).any
      (fun p => p.base == pageBase pg && !guardedAt p 0x1C && !guardedAt p 0x20) = true := by
    decide +kernel
  have hp := h pg
  cases e : pageAt (pageBase pg) with
  | none => rw [e] at hp; cases hp
  | some p =>
    rw [e, Option.any_some] at hp
    simp only [Bool.and_eq_true, beq_iff_eq, Bool.not_eq_true'] at hp
    obtain ⟨⟨h1, h2⟩, h3⟩ := hp
    exact ⟨p, rfl, h1, h2, h3⟩

/-- What follows a write of CFS or OWN: on a serial page what the master saw is forgotten, on Meridian's its words are brought up to date. -/
def Chip.headerPost (c : Chip) (m : Master) (b : Nat) : Chip :=
  let d := if b = Pg.UA0 then c.portAccess m 0 else if b = Pg.UA1 then c.portAccess m 1 else if b = Pg.MLK then c.portAccess m 2 else c
  if b = Pg.MER then hookApplied Pg.MER d else d

theorem hookPost_cfs (pg : PageSel) (m : Master) (old v : Word) (c : Chip) :
    hookPost m (pageBase pg + 0x1C) old v c = (St.ok, c.headerPost m (pageBase pg)) := by
  fin_cases pg <;> rfl

theorem hookPost_own (pg : PageSel) (m : Master) (old v : Word) (c : Chip) :
    hookPost m (pageBase pg + 0x20) old v c = (St.ok, c.headerPost m (pageBase pg)) := by
  fin_cases pg <;> rfl

theorem hookResv_cfs (pg : PageSel) (v : Word) (c : Chip) : hookResv (pageBase pg + 0x1C) v c = [] := by
  fin_cases pg <;> rfl

theorem hookResv_own (pg : PageSel) (v : Word) (c : Chip) : hookResv (pageBase pg + 0x20) v c = [] := by
  fin_cases pg <;> rfl

theorem hookPre_cfs (pg : PageSel) (x : Fin 4) (v : Word) (c : Chip) : hookPre (.orr x) (pageBase pg + 0x1C) v c = St.ok := by
  fin_cases pg <;> rfl

/-- Only the serial ports, the loops and the derived words of page `b` have changed. -/
def HeaderKept (b : Nat) (c d : Chip) : Prop := d = { c with regs := d.regs, ser := d.ser, hel := d.hel } ∧ RegsKept c d (derivedRegs b)

theorem HeaderKept.refl (b : Nat) (c : Chip) : HeaderKept b c c := ⟨rfl, fun _ _ => rfl⟩

theorem HeaderKept.trans {b : Nat} {c d e : Chip} (h : HeaderKept b c d) (k : HeaderKept b d e) : HeaderKept b c e :=
  ⟨by rw [k.1, h.1], fun a ha => (k.2 a ha).trans (h.2 a ha)⟩

theorem headerKept_portAccess (b : Nat) (c : Chip) (m : Master) (p : Nat) : HeaderKept b c (c.portAccess m p) := by
  unfold Chip.portAccess Chip.setPort
  dsimp only
  split
  · exact ⟨rfl, fun _ _ => rfl⟩
  · exact HeaderKept.refl b c

theorem headerKept_merSync (c : Chip) : HeaderKept Pg.MER c c.merSync := by
  have hput : ∀ (d : Chip) (f : Field) (v : Nat), f.addr ∈ derivedRegs Pg.MER → HeaderKept Pg.MER d (d.put f v) :=
    fun d f v hf => ⟨rfl, fun a ha => Chip.rd_put_other d v fun e => ha (e ▸ hf)⟩
  unfold Chip.merSync Chip.putS Chip.putB
  dsimp only
  exact (((hput _ _ _ (by decide)).trans (hput _ _ _ (by decide))).trans (hput _ _ _ (by decide))).trans (hput _ _ _ (by decide))

theorem headerKept_helCmd (b : Nat) (c : Chip) (n k : Nat) : HeaderKept b c (c.helCmd n k) := by
  unfold Chip.helCmd Chip.setSlot
  split
  · exact ⟨rfl, fun _ _ => rfl⟩
  · exact HeaderKept.refl b c

theorem headerKept_applied (c : Chip) : HeaderKept Pg.MER c (hookApplied Pg.MER c) := by
  unfold hookApplied
  rw [if_pos rfl]
  dsimp only
  split
  · exact (headerKept_merSync c).trans (headerKept_helCmd Pg.MER _ 0 _)
  · exact headerKept_merSync c

theorem headerKept_post (c : Chip) (m : Master) (b : Nat) : HeaderKept b c (c.headerPost m b) := by
  have hport : HeaderKept b c (if b = Pg.UA0 then c.portAccess m 0 else if b = Pg.UA1 then c.portAccess m 1
      else if b = Pg.MLK then c.portAccess m 2 else c) := by
    split
    · exact headerKept_portAccess b c m 0
    · split
      · exact headerKept_portAccess b c m 1
      · split
        · exact headerKept_portAccess b c m 2
        · exact HeaderKept.refl b c
  unfold Chip.headerPost
  dsimp only
  by_cases e : b = Pg.MER
  · rw [if_pos e]
    refine hport.trans ?_
    rw [e]
    exact headerKept_applied _
  · rw [if_neg e]
    exact hport

/-! ### CFS.DROP (R58) -/

/-- The fields of a page's CFS. -/
def cfsFields : List FieldDesc :=
  [fd 15 8 .ro 0 .l, fd 4 4 .ro 0 .l, fd 3 3 .wo 0 .l, fd 2 2 .ro 0 .l, fd 1 1 .w1c 0 .l, fd 0 0 .w1c 0 .l]

/-- A write of DROP leaves the sticky bits of CFS as they are. -/
def Chip.cfsBits (c : Chip) (a : Nat) : Chip :=
  let d := c.put ⟨a, 1, 1⟩ (bitsOf (c.get ⟨a, 1, 1⟩ - (c.get ⟨a, 1, 1⟩ &&& 0)) 0 1)
  d.put ⟨a, 0, 1⟩ (bitsOf (d.get ⟨a, 0, 1⟩ - (d.get ⟨a, 0, 1⟩ &&& 0)) 0 1)

theorem foldl_cfs (p : PageDesc) (a : Nat) (m : Master) (o : Bool) (c : Chip) :
    cfsFields.foldl (writeField p a m 0 8#32 8#32 [] o) { s := c, ign := false, bad := false, applied := false } =
      { s := c.cfsBits a, ign := false, bad := false, applied := false } := rfl

/-- No header register is a parameter of a loop. -/
theorem atOnce_cfs (pg : PageSel) (h : Shadow) (c : Chip) (e : h.addr = pageBase pg + 0x1C) : hookAtOnce h c = false := by
  have hs : ∀ pg : PageSel, ((List.range 12).any fun n => slotAddr? n (pageBase pg + 0x1C)) = false := by decide +kernel
  have hs' := hs pg
  rw [List.any_eq_false] at hs'
  have hany : ((List.range 12).any fun n => slotAddr? n h.addr && c.get (Fld.HLP_ST_MODE n) == 0) = false := by
    rw [List.any_eq_false]
    intro n hn
    rw [e]
    simp [hs' n hn]
  unfold hookAtOnce
  rw [hany, Bool.and_false]

/-- Shadows of which none is selected stay. -/
theorem Chip.applyShadows_unselected (h : Hooks) (c : Chip) (b : Nat) (q : Shadow → Bool) (hq : ∀ x, q x = false) :
    c.applyShadows h b q = c := by
  have hf : (c.shadows.filter fun x => x.page == b && q x) = [] := by simp [hq]
  unfold Chip.applyShadows
  dsimp only
  rw [hf]
  rfl

/-- The chip after DROP: no shadow of the page waits any more. -/
def Chip.dropped (c : Chip) (b : Nat) : Chip :=
  let d := c.cfsBits (b + 0x1C)
  ({ d with shadows := d.shadows.filter (·.page != b) }).syncShadow b

theorem Chip.commit_drop {c d : Chip} {m : Master} {p : PageDesc} (pg : PageSel) (hb : p.base = pageBase pg)
    (hd : (c.dropped (pageBase pg)).headerPost m (pageBase pg) = d) :
    c.commit hooks m p 0x1C 0 8#32 = (St.ok, d.afterCommit) := by
  have hf : fieldsAt p 0x1C = some cfsFields := rfl
  have hz : readsZero p 0x1C = false := rfl
  have hcs : ∀ w old : Word, (cfsFields.any fun f => f.cls == .s && (f.acc == .rw || f.acc == .rwg) &&
      bitsOf w.toNat f.lo f.w != bitsOf old.toNat f.lo f.w && ((0 : Nat) == 0 || touches f 8#32)) = false := fun _ _ => rfl
  have hsel : ∀ (t u : Chip) (x : Shadow), (x.addr == pageBase pg + 0x1C && t.get (hBND (pageBase pg)) != 0xF && hookAtOnce x u) = false := by
    intro t u x
    by_cases e : x.addr = pageBase pg + 0x1C
    · rw [atOnce_cfs pg x u e, Bool.and_false]
    · rw [beq_eq_false_iff_ne.mpr e, Bool.false_and, Bool.false_and]
  unfold Chip.commit Chip.afterCommit
  simp only [hf, hb, show aliasWord 0 (c.rd (pageBase pg + 0x1C)) 8#32 = 8#32 from rfl, hcs, Bool.and_false, Bool.false_eq_true, if_false,
    show hooks.resv = hookResv from rfl, hookResv_cfs, foldl_cfs, Bool.false_and, show ¬ (0x1C : Nat) = 8 by decide, decide_false,
    show decide (0x40 ≤ (0x1C : Nat)) = false from rfl, ite_self, ne_eq, not_true_eq_false, show hooks.atOnce = hookAtOnce from rfl,
    Chip.applyShadows_unselected _ _ _ _ (hsel _ _), show ¬ (0x1C : Nat) = 0x18 by decide, if_true, show hooks.post = hookPost from rfl,
    show actsOn 0 8#32 cfsFields = true from rfl, Bool.not_true, Bool.or_false, hookPost_cfs, hz]
  subst hd
  rfl

/-- The page of a selector is powered where its die is (R42). -/
theorem Chip.deadRegion_pageBase {c : Chip} (hL : LOn c) (hA : AOn c) (pg : PageSel) : c.deadRegion (pageBase pg) = false := by
  obtain ⟨p, hp, -⟩ := pageAt_pageBase pg
  have hr := pageAt_region hp
  simp only [Chip.deadRegion, hL.1, hA]
  simp
  omega

/-- A write of a register that is not guarded, on a page where no write is held and no sequence armed, is committed where the checks of R84 pass. -/
theorem Chip.writeReg_commit {c : Chip} {m : Master} {l : Loc} {v : Word} {fs : List FieldDesc} (hal : l.alias_ = 0) (hlt : l.off < 0x800)
    (hheld : c.held.any (·.page == l.page.base) = false) (hlat : c.latch l.page.base = none) (hf : fieldsAt l.page l.off = some fs)
    (hg : guardedAt l.page l.off = false) (hperm : c.permits m l.page l.off v = true) (hown : (l.off = 0x20 → c.ownOk m l.page.base v = true))
    (hpre : hookPre m (l.page.base + l.off) v c = St.ok) (hst : c.stateOk m l.page l.off v = true) :
    c.writeReg hooks m l v = c.commit hooks m l.page l.off 0 v := by
  have hnt : ¬ 0x800 ≤ l.off := by omega
  have how : (decide (l.off = 0x20) && !c.ownOk m l.page.base v) = false := by
    by_cases e : l.off = 0x20
    · simp [hown e]
    · simp [e]
  have halias : aliasWord 0 (c.rd (l.page.base + l.off)) v = v := rfl
  unfold Chip.writeReg
  simp only [hnt, decide_false, Bool.false_eq_true, if_false, hheld, hlat, hf, Option.isNone_some, Bool.false_or, Bool.false_and,
    hal, halias, hperm, Bool.not_true, hg, Option.getD_some, judge_plain rfl hpre, hst, how, ne_eq, not_true_eq_false, St.perm, St.state, St.ok]
  exact (if_neg (by decide)).trans (if_neg (by decide))

/-- A write of an aligned address of a powered page goes to its register. -/
theorem Chip.store32_reg {c : Chip} {m : Master} {a : Nat} {v : Word} {l : Loc} (hd : c.deadRegion a = false)
    (h4 : a % 4 = 0) (hl : locate a = some l) :
    c.store32 m a v = c.writeReg hooks m l v := by
  unfold Chip.store32 Chip.write32
  rw [hd, hl]
  exact (if_neg Bool.false_ne_true).trans (if_neg (not_not.mpr h4))

/-- A context's write of a page's CFS (R57, R84). -/
theorem Chip.store32_cfs {c : Chip} (x : Fin 4) (v : Word) {pg : PageSel} {p : PageDesc}
    (hp : pageAt (pageBase pg) = some p) (hb : p.base = pageBase pg) (hg : guardedAt p 0x1C = false)
    (hd : c.deadRegion (pageBase pg) = false) (hgu : c.guards = []) (hheld : c.held = []) :
    c.store32 (.orr x) (pageBase pg + 0x1C) v = c.commit hooks (.orr x) p 0x1C 0 v := by
  have hpre : hookPre (.orr x) (p.base + 0x1C) v c = St.ok := by rw [hb]; exact hookPre_cfs pg x v c
  refine (Chip.store32_reg ((Chip.deadRegion_add hp hb (by decide)).trans hd) (page_add_aligned hp hb (by decide))
    (locate_add hp hb (by decide))).trans ?_
  exact Chip.writeReg_commit (l := ⟨p, 0x1C, 0⟩) (fs := cfsFields) rfl (show 0x1C < 0x800 by decide) (by simp [hheld])
    (by simp [Chip.latch, hgu]) rfl hg rfl
    (fun h => absurd (show (0x1C : Nat) = 0x20 from h) (by decide)) hpre rfl

theorem Chip.syncShadow_kept {c : Chip} (b a : Nat) (ha : a ≠ b + 0x1C) : (c.syncShadow b).rd a = c.rd a := by
  have hp : a ≠ (hPEND b).addr := ha
  have hh : a ≠ (hHOLD b).addr := ha
  unfold Chip.syncShadow Chip.putB
  dsimp only
  rw [Chip.rd_put_other _ _ hh, Chip.rd_put_other _ _ hp]

theorem Chip.cfsBits_kept {c : Chip} (r a : Nat) (ha : a ≠ r) : (c.cfsBits r).rd a = c.rd a := by
  have h1 : a ≠ (⟨r, 1, 1⟩ : Field).addr := ha
  have h0 : a ≠ (⟨r, 0, 1⟩ : Field).addr := ha
  unfold Chip.cfsBits
  dsimp only
  rw [Chip.rd_put_other _ _ h0, Chip.rd_put_other _ _ h1]

theorem Chip.rd_shadows (c : Chip) (l : List Shadow) (a : Nat) : ({ c with shadows := l } : Chip).rd a = c.rd a := rfl

theorem Chip.dropped_kept (c : Chip) (b a : Nat) (ha : a ≠ b + 0x1C) : (c.dropped b).rd a = c.rd a := by
  unfold Chip.dropped
  dsimp only
  rw [Chip.syncShadow_kept b a ha, Chip.rd_shadows, Chip.cfsBits_kept (b + 0x1C) a ha]

/-- No shadow waits: PEND is 0. -/
theorem Chip.dropped_pend (c : Chip) (b : Nat) : (c.dropped b).on (hPEND b) = false := by
  have hany : ((c.cfsBits (b + 0x1C)).shadows.filter (·.page != b)).any (·.page == b) = false := by
    rw [List.any_eq_false]
    intro x hx
    simpa using (List.mem_filter.mp hx).2
  unfold Chip.dropped Chip.syncShadow Chip.putB
  dsimp only
  rw [hany]
  refine (Chip.on_put_apart _ _ rfl ?_).trans (Chip.on_clr_same _ (f := hPEND b) rfl)
  simp [Field.apart, hHOLD, hPEND]

/-- The words of a page that follow from others are not those of its header. -/
theorem not_derived_header (pg : PageSel) :
    pageBase pg + 0x1C ∉ derivedRegs (pageBase pg) ∧ pageBase pg + 0x20 ∉ derivedRegs (pageBase pg) := by
  revert pg
  decide +kernel

theorem runs_cfsDrop {s : State} {x : Fin 4} {pg : PageSel} (hL : LOn s.chip) (hA : AOn s.chip) (hgu : s.chip.guards = []) (hheld : s.chip.held = [])
    (hq : s.chip.mustQueue (.orr x) (pageBase pg + 0x1C) = false) (hn : s.chip.noneAdmitted = false) :
    Runs (.cfsDrop (.orr x) pg) s fun c => ∃ d, d.shadows = s.chip.shadows.filter (fun h => h.page != pageBase pg) ∧
      d.on (hPEND (pageBase pg)) = false ∧ RegsKept s.chip d ((pageBase pg + 0x1C) :: derivedRegs (pageBase pg)) ∧ d.mem = s.chip.mem ∧
      c = d.journalIdle.settle := by
  obtain ⟨p, hp, hb, hg, -⟩ := pageAt_pageBase pg
  obtain ⟨hk, hr⟩ := headerKept_post (s.chip.dropped (pageBase pg)) (.orr x) (pageBase pg)
  have hst := (Chip.store32_cfs x 8#32 hp hb hg (Chip.deadRegion_pageBase hL hA pg) hgu hheld).trans (Chip.commit_drop (m := .orr x) pg hb rfl)
  generalize (s.chip.dropped (pageBase pg)).headerPost (.orr x) (pageBase pg) = d at hk hr hst
  have hnd : d.noneAdmitted = false := by rw [hk]; exact hn
  have hac : d.afterCommit = d.journalIdle := by
    unfold Chip.afterCommit
    rw [if_neg (ne_true_of_eq_false hnd)]
  have hcan : s.chip.canAccess (.orr x) = true := by simp [Chip.canAccess, Chip.lRuns, hL.1, hL.2]
  have h : Gives (.cfsDrop (.orr x) pg) s d.journalIdle.settle := by
    refine gives_act rfl ((if_pos hcan).trans ?_)
    rw [hq, if_neg Bool.false_ne_true, hst, hac]
  refine h.runs ⟨d, by rw [hk]; rfl, ?_, fun a ha => ?_, by rw [hk]; rfl, rfl⟩
  · exact (Chip.on_rd (hr _ (not_derived_header pg).1)).trans (s.chip.dropped_pend _)
  · simp only [List.mem_cons, not_or] at ha
    exact (hr a ha.2).trans (s.chip.dropped_kept _ a ha.1)

/-! ### Held writes (R68, R85) -/

theorem Chip.heldApplied_one {c : Chip} {w : HeldWrite} {l : Loc} {b : Nat} (h : c.on (hENA (gateOf b)) = false) (hw : w.page = b)
    (hh : c.held = [w]) (hl : locate w.addr = some l) :
    c.heldApplied b =
      (let d := { c with held := [] }
       let r := if w.judged then d.commit hooks w.master l.page l.off l.alias_ w.value else d.writeReg hooks w.master l w.value
       ([(w, r.1)], r.2)) := by
  have hin : c.held.filter (·.page == b) = [w] := by simp [hh, hw]
  have hout : c.held.filter (·.page != b) = [] := by simp [hh, hw]
  unfold Chip.heldApplied
  rw [h, if_neg Bool.false_ne_true, hin, hout]
  simp only [List.foldl_cons, List.foldl_nil, List.nil_append]
  unfold Chip.heldOne
  rw [hl]

theorem gives_heldWrite {s : State} {pg : PageSel} {w : HeldWrite} {l : Loc} (hA : AOn s.chip) (h : s.chip.on (hENA (gateOf (pageBase pg))) = false)
    (hw : w.page = pageBase pg) (hh : s.chip.held = [w]) (hl : locate w.addr = some l) :
    Gives (.heldWriteApply pg) s
      (let d := { s.chip with held := [] }
       let r := if w.judged then d.commit hooks w.master l.page l.off l.alias_ w.value else d.writeReg hooks w.master l w.value
       (r.2.resumeHeld (pageBase pg) [(w, r.1)]).settle) := by
  refine gives_onA (f := fun c => if c.on (hENA (gateOf (pageBase pg))) then c else
    ((c.heldApplied (pageBase pg)).2.resumeHeld (pageBase pg) (c.heldApplied (pageBase pg)).1).settle) hA rfl ?_
  rw [h, if_neg Bool.false_ne_true, Chip.heldApplied_one h hw hh hl]

/-- A class-S field that may be written takes a legal value (R68). -/
theorem writeField_open {p : PageDesc} {a : Nat} {m : Master} {w : Word} {resv : List Nat} {j : Judged} {f : FieldDesc} (hacc : f.acc = .rw)
    (hcls : f.cls = .s) (hl : (!f.legal.ok (bitsOf w.toNat f.lo f.w) f.w || resv.contains f.lo) = false) :
    writeField p a m 0 w w resv true j f = if bitsOf w.toNat f.lo f.w = j.s.get ⟨a, f.lo, f.w⟩ then j
      else { j with s := j.s.put ⟨a, f.lo, f.w⟩ (bitsOf w.toNat f.lo f.w) } := by
  unfold writeField
  rw [hacc, hcls]
  dsimp only
  rw [hl]
  rfl

theorem hookValid_ols (b : Bool) (c : Chip) : hookValid Pg.ENC (.write (Reg.ENC_OLS 0) b) c = [] := rfl

/-- An offset of the encoder, written while the block is disabled, stands in its register (R68). -/
theorem Chip.commit_olsOpen {c : Chip} {m : Master} {v : Word} (hs : c.shadows = []) (hen : c.on (hEN Pg.ENC) = false)
    (hena : c.on (hENA Pg.ENC) = false) :
    c.commit hooks m pageENC 0x5C 0 v = (St.ok, (if v.toNat = c.get ⟨Reg.ENC_OLS 0, 0, 32⟩ then c
      else c.put ⟨Reg.ENC_OLS 0, 0, 32⟩ v.toNat).afterCommit) := by
  have hopen : (hooks.sOpen m (Reg.ENC_OLS 0) c).getD (c.sOpen pageENC) = true := by
    show (pageENC.en1 || !c.on (hEN Pg.ENC)) = true
    rw [hen]
    rfl
  have hfield : [olsField].foldl (writeField pageENC (Reg.ENC_OLS 0) m 0 v v (hookResv (Reg.ENC_OLS 0) v c) true)
      { s := c, ign := false, bad := false, applied := false } =
      { s := if v.toNat = c.get ⟨Reg.ENC_OLS 0, 0, 32⟩ then c else c.put ⟨Reg.ENC_OLS 0, 0, 32⟩ v.toNat,
        ign := false, bad := false, applied := false } := by
    refine (writeField_open (p := pageENC) (m := m) (f := olsField) (j := { s := c, ign := false, bad := false, applied := false })
      rfl rfl rfl).trans ?_
    show (if bitsOf v.toNat 0 32 = c.get ⟨Reg.ENC_OLS 0, 0, 32⟩ then ({ s := c, ign := false, bad := false, applied := false } : Judged)
      else { s := c.put ⟨Reg.ENC_OLS 0, 0, 32⟩ (bitsOf v.toNat 0 32), ign := false, bad := false, applied := false }) = _
    rw [bitsOf_word]
    exact (apply_ite (fun t => ({ s := t, ign := false, bad := false, applied := false } : Judged)) _ _ _).symm
  generalize hd : (if v.toNat = c.get ⟨Reg.ENC_OLS 0, 0, 32⟩ then c else c.put ⟨Reg.ENC_OLS 0, 0, 32⟩ v.toNat) = d at hfield
  have hsh : d.shadows = [] := by
    rw [← hd]
    split <;> exact hs
  have hf : fieldsAt pageENC 0x5C = some [olsField] := rfl
  have hz : readsZero pageENC 0x5C = false := rfl
  unfold Chip.commit Chip.afterCommit
  simp only [hf, show pageENC.base = Pg.ENC from rfl, show Pg.ENC + 0x5C = Reg.ENC_OLS 0 from rfl,
    show aliasWord 0 (c.rd (Reg.ENC_OLS 0)) v = v from rfl, show hooks.gate Pg.ENC = none from rfl,
    Option.getD_none, bne_self_eq_false, Bool.or_false, hen, hena, Bool.and_false, Bool.false_and,
    Bool.false_eq_true, if_false, show hooks.resv = hookResv from rfl, hopen, hfield, show hooks.post = hookPost from rfl]
  simp only [show hooks.valid = hookValid from rfl, hookValid_ols, ite_self, ne_eq, not_true_eq_false, if_false, show ¬ (0x5C : Nat) = 8 by decide,
    show ¬ (0x5C : Nat) = 0x18 by decide, show ¬ (0x5C : Nat) = 0x1C by decide, decide_false, Bool.false_and, Bool.false_eq_true,
    Chip.applyShadows_none hsh, show actsOn 0 v [olsField] = true from rfl, Bool.not_true, Bool.or_false, if_true, hz, hookPost_ols]
  rfl

theorem runs_heldOls {s : State} {pg : PageSel} {x : Fin 4} {v : Word} (hA : AOn s.chip) (hpg : pageBase pg = Pg.ENC)
    (hena : s.chip.on (hENA Pg.ENC) = false) (hen : s.chip.on (hEN Pg.ENC) = false) (hs : s.chip.shadows = [])
    (hh : s.chip.held = [{ page := Pg.ENC, addr := Reg.ENC_OLS 0, value := v, master := .orr x }]) :
    Runs (.heldWriteApply pg) s fun c => ∃ d, OnlyRegs { s.chip with held := [] } d [Reg.ENC_OLS 0] ∧ d.rd (Reg.ENC_OLS 0) = v ∧
      c = (d.afterCommit.resumeHeld Pg.ENC
        [({ page := Pg.ENC, addr := Reg.ENC_OLS 0, value := v, master := .orr x }, St.ok)]).settle := by
  have hgate : s.chip.on (hENA (gateOf (pageBase pg))) = false := by rw [hpg]; exact hena
  have h := gives_heldWrite (l := ⟨pageENC, 0x5C, 0⟩) hA hgate hpg.symm hh (show locate (Reg.ENC_OLS 0) = _ from rfl)
  dsimp only at h
  rw [if_pos rfl, Chip.commit_olsOpen (c := { s.chip with held := [] }) hs hen hena, hpg] at h
  refine h.runs ⟨_, ?_, ?_, rfl⟩
  · split
    · exact ⟨rfl, fun _ _ => rfl⟩
    · exact onlyRegs_put _ ⟨Reg.ENC_OLS 0, 0, 32⟩ _
  · split
    · rename_i he
      exact BitVec.eq_of_toNat_eq ((bitsOf_word _).symm.trans he.symm)
    · exact Chip.rd_put_whole _ _ v

/-! ### Page ownership (R82) -/

theorem hookValid_own (pg : PageSel) (c : Chip) : hookValid (pageBase pg) (.write (pageBase pg + 0x20) true) c = [] := by
  fin_cases pg <;> rfl

/-- The fields of a page's OWN. -/
def ownFields : List FieldDesc := [fd 9 9 .rw 0 .l, fd 8 8 .rw 0 .l, fd 7 0 .rw 0 .l]

theorem plainL_own (pg : PageSel) : plainL (pageBase pg + 0x20) := by
  revert pg
  unfold plainL
  decide +kernel

/-- The word that claims a page for a client, or gives it up. -/
def ownWord (b : Bool) (x : BitVec 8) : Word := BitVec.ofNat 32 (256 * b.toNat + x.toNat)

theorem bitsOf_ownWord (b : Bool) (x : BitVec 8) :
    bitsOf (ownWord b x).toNat 9 1 = 0 ∧ bitsOf (ownWord b x).toNat 8 1 = b.toNat ∧ bitsOf (ownWord b x).toNat 0 8 = x.toNat := by
  have hx := x.isLt
  unfold ownWord bitsOf
  cases b <;> simp only [Bool.toNat_false, Bool.toNat_true, BitVec.toNat_ofNat] <;> omega

theorem heldIn_own (c : Chip) (a : Nat) (b : Bool) (x : BitVec 8) :
    heldIn ownFields a (ownWord b x) c = ((c.put ⟨a, 9, 1⟩ 0).put ⟨a, 8, 1⟩ b.toNat).put ⟨a, 0, 8⟩ x.toNat := by
  obtain ⟨h9, h8, h0⟩ := bitsOf_ownWord b x
  show ((c.put ⟨a, 9, 1⟩ (bitsOf (ownWord b x).toNat 9 1)).put ⟨a, 8, 1⟩ (bitsOf (ownWord b x).toNat 8 1)).put ⟨a, 0, 8⟩
    (bitsOf (ownWord b x).toNat 0 8) = _
  rw [h9, h8, h0]

/-- The chip in which page `pg` is client `x`'s, or nobody's. -/
def Chip.owned (c : Chip) (pg : PageSel) (b : Bool) (x : BitVec 8) : Chip :=
  ((c.put (hOSHR (pageBase pg)) 0).put (hOVLD (pageBase pg)) b.toNat).put (hOCLID (pageBase pg)) x.toNat

section
variable (c : Chip) (pg : PageSel) (b : Bool) (x : BitVec 8)

theorem Chip.owned_get : (c.owned pg b x).get (hOCLID (pageBase pg)) = x.toNat :=
  (Chip.get_put_same _ _ rfl).trans (Nat.mod_eq_of_lt x.isLt)

theorem Chip.owned_valid : (c.owned pg b x).on (hOVLD (pageBase pg)) = b := by
  unfold Chip.owned
  rw [Chip.on_put_apart _ _ rfl (by simp [Field.apart, hOCLID, hOVLD])]
  unfold Chip.on
  rw [Chip.get_put_same _ _ rfl]
  cases b <;> rfl

theorem Chip.owned_shared : (c.owned pg b x).on (hOSHR (pageBase pg)) = false := by
  unfold Chip.owned
  rw [Chip.on_put_apart _ _ rfl (by simp [Field.apart, hOCLID, hOSHR]), Chip.on_put_apart _ _ rfl (by simp [Field.apart, hOVLD, hOSHR])]
  exact Chip.on_clr_same _ rfl

theorem Chip.owned_kept (a : Nat) (ha : a ≠ pageBase pg + 0x20) : (c.owned pg b x).rd a = c.rd a := by
  have h1 : a ≠ (hOCLID (pageBase pg)).addr := ha
  have h2 : a ≠ (hOVLD (pageBase pg)).addr := ha
  have h3 : a ≠ (hOSHR (pageBase pg)).addr := ha
  unfold Chip.owned
  rw [Chip.rd_put_other _ _ h1, Chip.rd_put_other _ _ h2, Chip.rd_put_other _ _ h3]

end

theorem runs_ownershipWrite {s : State} {x : BitVec 8} {pg : PageSel} {b : Bool} (acc : Accepts s.chip (.host x) (pageBase pg + 0x20) (ownWord b x))
    (hen : s.chip.on (hEN (pageBase pg)) = true) :
    Runs (.ownershipWrite (.host x) pg (ownWord b x)) s fun c => ∃ d, d.get (hOCLID (pageBase pg)) = x.toNat ∧
      d.on (hOVLD (pageBase pg)) = b ∧ d.on (hOSHR (pageBase pg)) = false ∧
      RegsKept s.chip d ((pageBase pg + 0x20) :: derivedRegs (pageBase pg)) ∧ d.mem = s.chip.mem ∧ c = d.afterWrite := by
  obtain ⟨p, hp, hb, -, hg⟩ := pageAt_pageBase pg
  have hval : (if p.en1 = true then ([] : List Field) else
      hookValid p.base (.write (pageBase pg + 0x20) (s.chip.on (hEN p.base))) (heldIn ownFields (pageBase pg + 0x20) (ownWord b x) s.chip)) = [] := by
    rw [hb, hen, hookValid_own]
    exact ite_self _
  have hfs : ownFields.all (fun f => f.heldOk (ownWord b x) (hookResv (pageBase pg + 0x20) (ownWord b x) s.chip)) = true := by
    rw [hookResv_own]
    rfl
  have h := Chip.regWrite_held (l := ⟨p, 0x20, 0⟩) (fs := ownFields) (plainL_own pg) acc (locate_add hp hb (by decide))
    ⟨by simp, by simp, by simp⟩ (by rw [hb]) hg rfl rfl hfs hval (hookPost_own pg (.host x) _ _ _)
  obtain ⟨hk, hr⟩ := headerKept_post (s.chip.owned pg b x) (.host x) (pageBase pg)
  rw [heldIn_own] at h
  change _ = ((s.chip.owned pg b x).headerPost (.host x) (pageBase pg)).afterWrite at h
  generalize (s.chip.owned pg b x).headerPost (.host x) (pageBase pg) = d at hk hr h
  have hown := hr _ (not_derived_header pg).2
  have hgv : Gives (.ownershipWrite (.host x) pg (ownWord b x)) s d.afterWrite := gives_act rfl h
  refine hgv.runs ⟨d, (Chip.get_rd hown).trans (s.chip.owned_get pg b x), (Chip.on_rd hown).trans (s.chip.owned_valid pg b x),
    (Chip.on_rd hown).trans (s.chip.owned_shared pg b x), fun a ha => ?_, by rw [hk]; rfl, rfl⟩
  simp only [List.mem_cons, not_or] at ha
  exact (hr a ha.2).trans (s.chip.owned_kept pg b x a ha.1)

theorem settled_erc {c : Chip} (h : Settled c) (b : Nat) (m : Master) (k : Status) : Settled (c.erc b m k) := h.of_eq rfl rfl rfl rfl rfl

/-- A page that another client owns is not written (R82). -/
theorem gives_ownershipRefused {s : State} {x : BitVec 8} {pg : PageSel} {v : Word} (hc : s.chip.canAccess (.host x) = true)
    (hq : s.chip.mustQueue (.host x) (pageBase pg + 0x20) = false) (hset : Settled s.chip) (hheld : s.chip.held = [])
    (hd : s.chip.deadRegion (pageBase pg) = false) (hlat : s.chip.latch (pageBase pg) = none) (hov : s.chip.on (hOVLD (pageBase pg)) = true)
    (hne : s.chip.get (hOCLID (pageBase pg)) ≠ x.toNat) :
    Gives (.ownershipWrite (.host x) pg v) s (s.chip.erc (pageBase pg) (.host x) St.perm) := by
  obtain ⟨p, hp, hb, -, hg⟩ := pageAt_pageBase pg
  have hown : s.chip.ownOk (.host x) (pageBase pg) v = false := by
    unfold Chip.ownOk
    dsimp only
    rw [if_pos hov, beq_eq_false_iff_ne.mpr hne, Bool.false_and]
  have hst : s.chip.store32 (.host x) (pageBase pg + 0x20) v = (St.perm, s.chip.erc (pageBase pg) (.host x) St.perm) := by
    refine (Chip.store32_reg ((Chip.deadRegion_add hp hb (by decide)).trans hd) (page_add_aligned hp hb (by decide))
      (locate_add hp hb (by decide))).trans ?_
    unfold Chip.writeReg
    simp only [show ¬ 0x800 ≤ 0x20 % 0x1000 by decide, decide_false, Bool.false_eq_true, if_false, hheld, List.any_nil, hb, hlat,
      show 0x20 % 0x1000 = 0x20 from rfl, show 0x20 / 0x1000 = 0 from rfl, show (fieldsAt p 0x20).isNone = false from rfl, Bool.false_and,
      Bool.or_false, show ∀ w, aliasWord 0 (s.chip.rd w) v = v from fun _ => rfl, hown, Bool.not_false, decide_true, Bool.and_self,
      Bool.or_true, if_true]
    rfl
  refine gives_act rfl ((if_pos hc).trans ?_)
  rw [hq, if_neg Bool.false_ne_true, hst]
  exact Chip.settle_idle (settled_erc hset _ _ _)

/-! ### Blocks that stop (R58, R573) -/

theorem runs_merStopped {s : State} {pg : PageSel} (hg : Gives (.blockStopped pg) s s.chip.merHalt) (he : s.chip.on Fld.MER_CTL_EN = false)
    (ha : s.chip.on Fld.MER_STA_ENA = true) (hn : s.chip.noSweep = true) (hl : s.chip.on Fld.MER_STA_LOCK = false) :
    Runs (.blockStopped pg) s fun c => ∃ m, OnlyRegs { s.chip with mer := m } c [Pg.MER + 0xC] ∧ c.on Fld.MER_STA_ENA = false ∧
      c.on Fld.MER_STA_FLY = false ∧ c.mer.tracking = false ∧ c.mer.windowOpen = false ∧ c.mer.bdLaser = false ∧
      c.mer.s0.armed = false ∧ c.mer.s1.armed = false ∧ c.mer.s2.armed = false := by
  have k := merStopped_merHalt he ha hn hl
  have hstop : s.chip.merHalt = s.chip.merStop := by
    unfold Chip.merHalt Chip.lockFell
    rw [if_neg (by simp [hl])]
  refine hg.runs ⟨s.chip.merHalt.mer, ?_, k.ena, ?_, k.tracking, k.windowOpen, k.bdLaser, k.armed⟩
  · rw [hstop]
    unfold Chip.merStop
    rw [if_pos (by simp [he, ha, hn]), if_neg (ne_true_of_eq_false hl)]
    refine ⟨rfl, fun a h => ?_⟩
    have h' : a ≠ Pg.MER + 0xC := by simpa using h
    exact (Chip.rd_put_other _ _ h').trans ((Chip.rd_put_other _ _ h').trans (Chip.rd_put_other _ _ h'))
  · rw [hstop]
    unfold Chip.merStop Chip.clr
    rw [if_pos (by simp [he, ha, hn]), if_neg (ne_true_of_eq_false hl)]
    refine (Chip.on_put_apart _ _ rfl (by decide)).trans ((Chip.on_put_apart _ _ rfl (by decide)).trans (Chip.on_clr_same _ rfl))

/-- Settles O14: CFS.DROP, held writes, blocks that stop, page ownership. -/
theorem pageHeaderCommands : Obligations.PageHeaderCommands := by
  unfold Obligations.PageHeaderCommands
  refine ⟨fun s x pg hL hA hgu hheld hq hn _ => runs_cfsDrop hL hA hgu hheld hq hn,
    ⟨fun s pg w l hA h hw hh hl => gives_heldWrite hA h hw hh hl, fun s pg x v hA hpg hena hen hs hh => runs_heldOls hA hpg hena hen hs hh,
      fun s pg h => gives_act rfl ?_, fun s pg hA hpg hen hena hr => gives_onA hA rfl ?_, fun s pg hA hpg => ?_⟩,
    fun s x pg => ⟨fun b acc hen => runs_ownershipWrite acc hen,
      fun hc hq hset hheld hd hlat hov hne v => gives_ownershipRefused hc hq hset hheld hd hlat hov hne⟩⟩
  · dsimp only
    rw [if_pos h]
    exact ite_self _
  · unfold Chip.blockStopped
    rw [if_neg hpg, if_pos (by simp [hen, hena, hr])]
  · have hg : Gives (.blockStopped pg) s s.chip.merHalt := gives_onA hA rfl (if_pos hpg)
    exact ⟨hg, fun he ha hn hl => runs_merStopped hg he ha hn hl⟩

end Sys2Proof.Machine
end

section
/-!
SUPPORT. What raising a fault leaves (R509): whatever items, drivers, rings, events and clients it touches, the configuration of the sync chain
and the debug port stay.
-/
namespace Sys2Proof.Machine

/-- The configuration of the sync chain (SYN.CFG, R399) and the debug port: no fault touches them. -/
def Chip.steady (c : Chip) : Word × Debug := (c.rd Reg.SYN_CFG, c.dbg)

section
variable (c : Chip)
@[simp] theorem Chip.steady_mem (x : List Host.Cell) : ({ c with mem := x } : Chip).steady = c.steady := rfl
@[simp] theorem Chip.steady_alm (x : Almanac) : ({ c with alm := x } : Chip).steady = c.steady := rfl
@[simp] theorem Chip.steady_mer (x : Meridian) : ({ c with mer := x } : Chip).steady = c.steady := rfl
@[simp] theorem Chip.steady_mot (x : Motion) : ({ c with mot := x } : Chip).steady = c.steady := rfl
@[simp] theorem Chip.steady_hel (x : Heliostat) : ({ c with hel := x } : Chip).steady = c.steady := rfl
@[simp] theorem Chip.steady_orr (x : Orrery) : ({ c with orr := x } : Chip).steady = c.steady := rfl
@[simp] theorem Chip.steady_cst (x : Store) : ({ c with cst := x } : Chip).steady = c.steady := rfl
@[simp] theorem Chip.steady_hb (x : HostBridge) : ({ c with hb := x } : Chip).steady = c.steady := rfl
@[simp] theorem Chip.steady_doc (x : DocEngine) : ({ c with doc := x } : Chip).steady = c.steady := rfl
@[simp] theorem Chip.steady_mrk (x : Marking) : ({ c with mrk := x } : Chip).steady = c.steady := rfl
@[simp] theorem Chip.steady_img (x : Imaging) : ({ c with img := x } : Chip).steady = c.steady := rfl
@[simp] theorem Chip.steady_flt (x : Faults) : ({ c with flt := x } : Chip).steady = c.steady := rfl
@[simp] theorem Chip.steady_fab (x : Fabric) : ({ c with fab := x } : Chip).steady = c.steady := rfl
@[simp] theorem Chip.steady_docFlt (x : DocEngine) (y : Faults) : ({ c with doc := x, flt := y } : Chip).steady = c.steady := rfl
@[simp] theorem Chip.steady_docMot (x : DocEngine) (y : Motion) : ({ c with doc := x, mot := y } : Chip).steady = c.steady := rfl
end

@[simp] theorem Chip.steady_ite (p : Prop) [Decidable p] (c d : Chip) : (if p then c else d).steady = if p then c.steady else d.steady :=
  apply_ite Chip.steady p c d

@[simp] theorem foldl_steady {α : Type} {f : Chip → α → Chip} (hf : ∀ t x, (f t x).steady = t.steady) (l : List α) (c : Chip) :
    (l.foldl f c).steady = c.steady := by
  induction l generalizing c with
  | nil => rfl
  | cons x l ih => exact (ih (f c x)).trans (hf c x)

/-- A register outside SYN.CFG. -/
@[simp] theorem Chip.put_steady (c : Chip) {f : Field} (v : Nat) (h : f.addr ≠ Reg.SYN_CFG) : (c.put f v).steady = c.steady :=
  Prod.ext (Chip.rd_put_other c v (Ne.symm h)) rfl

@[simp] theorem Chip.putB_steady (c : Chip) {f : Field} (v : Bool) (h : f.addr ≠ Reg.SYN_CFG) : (c.putB f v).steady = c.steady := c.put_steady _ h

@[simp] theorem Chip.set_steady (c : Chip) {f : Field} (h : f.addr ≠ Reg.SYN_CFG) : (c.set f).steady = c.steady := c.put_steady _ h

@[simp] theorem Chip.clr_steady (c : Chip) {f : Field} (h : f.addr ≠ Reg.SYN_CFG) : (c.clr f).steady = c.steady := c.put_steady _ h

@[simp] theorem Chip.bump_steady (c : Chip) {f : Field} (h : f.addr ≠ Reg.SYN_CFG) : (c.bump f).steady = c.steady := c.put_steady _ h


@[simp] theorem Chip.takeLseq_steady (c : Chip) : (c.takeLseq).2.steady = c.steady := by
  unfold Chip.takeLseq
  simp (disch := decide)

@[simp] theorem Chip.logArrive_steady (c : Chip) (r : LogRec) : (c.logArrive r).steady = c.steady := by
  unfold Chip.logArrive
  simp (disch := decide)

@[simp] theorem Chip.stageLog_steady (c : Chip) (b : LogBody) : (c.stageLog b).2.steady = c.steady := by
  unfold Chip.stageLog
  simp (disch := decide)

@[simp] theorem Chip.markUnlit_steady (c : Chip) : (c.markUnlit).steady = c.steady := rfl

@[simp] theorem Chip.syncPoly_steady (c : Chip) : (c.syncPoly).steady = c.steady := rfl

@[simp] theorem Chip.polyState_steady (c : Chip) (st : Nat) : (c.polyState st).steady = c.steady := by
  unfold Chip.polyState
  simp (disch := decide)

@[simp] theorem Chip.polyDrive_steady (c : Chip) (on : Bool) : (c.polyDrive on).steady = c.steady := by
  unfold Chip.polyDrive
  simp (disch := decide)

@[simp] theorem Chip.showSols_steady (c : Chip) : (c.showSols).steady = c.steady := by
  unfold Chip.showSols
  simp (disch := decide)

@[simp] theorem Chip.setSlot_steady (c : Chip) (n : Nat) (x : Slot) : (c.setSlot n x).steady = c.steady := by
  unfold Chip.setSlot
  split <;> simp (disch := decide)

@[simp] theorem Chip.helCmd_steady (c : Chip) (n : Nat) (mode : Nat) : (c.helCmd n mode).steady = c.steady := by
  unfold Chip.helCmd
  simp (disch := decide)

@[simp] theorem Chip.cutDrivers_steady (c : Chip) : (c.cutDrivers).steady = c.steady := by
  unfold Chip.cutDrivers
  refine (foldl_steady (fun t n => ?_) _ _).trans ?_
  · split
    · rfl
    · exact Chip.helCmd_steady t n _
  · refine (Chip.markUnlit_steady _).trans ((Chip.put_steady _ _ (by decide)).trans ((Chip.polyDrive_steady _ _).trans ?_))
    refine (Chip.showSols_steady _).trans ?_
    exact (Chip.put_steady _ _ (by decide)).trans ((Chip.put_steady _ _ (by decide)).trans (Chip.put_steady c _ (by decide)))

@[simp] theorem Chip.tripLL_steady (c : Chip) (b : Nat) : (c.tripLL b).steady = c.steady := by
  unfold Chip.tripLL
  simp (disch := decide)

@[simp] theorem Chip.solOff_steady (c : Chip) (mask : Nat) : (c.solOff mask).steady = c.steady := rfl

@[simp] theorem Chip.setAxis_steady (c : Chip) (a : Nat) (x : Axis) : (c.setAxis a x).steady = c.steady := rfl

@[simp] theorem Chip.endRamp_steady (c : Chip) {a : Nat} (h : a < 2) : (c.endRamp a).steady = c.steady := by
  have hf : (Fld.MOT_CM_SPD a).addr ≠ Reg.SYN_CFG := by show 0x4004004C + 4 * a ≠ 0x40064040; omega
  unfold Chip.endRamp
  exact (Chip.put_steady _ _ hf).trans (Chip.setAxis_steady c a _)

@[simp] theorem Chip.stopAxis_steady (c : Chip) {a : Nat} (h : a < 2) : (c.stopAxis a).steady = c.steady := by
  have hf : (Fld.MOT_CM_MODE a).addr ≠ Reg.SYN_CFG := by show 0x4004004C + 4 * a ≠ 0x40064040; omega
  unfold Chip.stopAxis
  split
  · rfl
  · exact (Chip.put_steady _ _ hf).trans ((Chip.helCmd_steady _ _ _).trans (c.endRamp_steady h))

@[simp] theorem Chip.stopAxes_steady (c : Chip) : (c.stopAxes).steady = c.steady :=
  (Chip.stopAxis_steady _ (by decide)).trans (c.stopAxis_steady (by decide))

@[simp] theorem Chip.setCtx_steady (c : Chip) (n : Nat) (x : Ctx) : (c.setCtx n x).steady = c.steady := rfl

@[simp] theorem Chip.eventTo_steady (c : Chip) (x k : Nat) : (c.eventTo x k).steady = c.steady := by
  have hf : (Fld.ORC_PEND_PND x).addr ≠ Reg.SYN_CFG := by show 0x40024070 + 128 * x ≠ 0x40064040; omega
  have hset : ∀ t : Chip, (if (c.ctx x).evl.contains k then t else t.setCtx x { c.ctx x with evl := k :: (c.ctx x).evl }).steady = t.steady := by
    intro t
    split
    · rfl
    · exact Chip.setCtx_steady t x _
  unfold Chip.eventTo
  refine (foldl_steady (fun t n => ?_) _ _).trans (hset c)
  split
  · exact Chip.put_steady _ _ hf
  · rfl

@[simp] theorem Chip.eventAll_steady (c : Chip) (k : Nat) : (c.eventAll k).steady = c.steady := by
  unfold Chip.eventAll
  simp (disch := decide)

@[simp] theorem Chip.eventIn_steady (c : Chip) (k : Nat) : (c.eventIn k).steady = c.steady := by
  unfold Chip.eventIn
  simp (disch := decide)

@[simp] theorem Chip.route_steady (c : Chip) (src : Nat) : (c.route src).steady = c.steady := by
  unfold Chip.route
  simp (disch := decide)

@[simp] theorem Chip.refusedPush_steady (c : Chip) (n : Nat) : (c.refusedPush n).steady = c.steady := by
  have hf : (Fld.RNG_STAT_REF n).addr ≠ Reg.SYN_CFG := by show 0x4001C10C + 16 * n ≠ 0x40064040; omega
  exact (Chip.set_steady _ (by decide)).trans (Chip.bump_steady _ hf)

@[simp] theorem Chip.setRing_steady (c : Chip) (n : Nat) (r : RingSt) : (c.setRing n r).steady = c.steady := by
  have hf : (Fld.RNG_RDEP_D n).addr ≠ Reg.SYN_CFG := by show 0x4001C108 + 16 * n ≠ 0x40064040; omega
  unfold Chip.setRing
  exact Chip.put_steady _ _ hf

@[simp] theorem Chip.setBytes_steady (c : Chip) (a : Nat) (bs : List Byte) : (c.setBytes a bs).steady = c.steady := rfl

@[simp] theorem Chip.setWord_steady (c : Chip) (a : Nat) (w : Word) : (c.setWord a w).steady = c.steady := rfl

@[simp] theorem Chip.storeEntry_steady (c : Chip) (n : Nat) (e : Entry) : (c.storeEntry n e).steady = c.steady :=
  (Chip.setRing_steady _ n _).trans (Chip.setWord_steady c _ _)

theorem Chip.bumpStl_steady (c : Chip) (n : Nat) : (c.bump (Fld.RNG_STAT_STL n)).steady = c.steady :=
  Chip.bump_steady c (f := Fld.RNG_STAT_STL n) (by show 0x4001C10C + 16 * n ≠ 0x40064040; omega)

@[simp] theorem Chip.push_steady (c : Chip) (n : Nat) (k : RCls) (e : Entry) : (c.push n k e).2.steady = c.steady := by
  unfold Chip.push
  dsimp only
  repeat' split
  all_goals simp [Chip.bumpStl_steady]

@[simp] theorem Chip.storeBytes_steady (c : Chip) (a : Nat) (bs : List Byte) : (c.storeBytes a bs).steady = c.steady := rfl

@[simp] theorem Chip.pushData_steady (c : Chip) (n : Nat) (k : RCls) (bs : List Byte) (item : Nat) (cl : Option Byte) :
    (c.pushData n k bs item cl).2.steady = c.steady := by
  unfold Chip.pushData
  dsimp only
  repeat' split
  all_goals simp [Chip.bumpStl_steady]

@[simp] theorem Chip.putClient_steady (c : Chip) (id : Nat) (x : Client) : (c.putClient id x).steady = c.steady := rfl

@[simp] theorem Chip.showClient_steady (c : Chip) : (c.showClient).steady = c.steady := by
  unfold Chip.showClient
  simp (disch := decide)

@[simp] theorem Chip.setClient_steady (c : Chip) (id : Nat) (x : Client) : (c.setClient id x).steady = c.steady := by
  unfold Chip.setClient
  simp (disch := decide)

@[simp] theorem Chip.sendEvt_steady (c : Chip) (id : Nat) (code : Nat) (data : List Byte) : (c.sendEvt id code data).steady = c.steady := by
  unfold Chip.sendEvt
  simp (disch := decide)

@[simp] theorem Chip.sendEvs_steady (c : Chip) (code : Nat) (data : List Byte) : (c.sendEvs code data).steady = c.steady := by
  refine foldl_steady (fun t id => ?_) _ c
  split
  · exact Chip.sendEvt_steady t id code data
  · rfl

@[simp] theorem Chip.goto_steady (c : Chip) (st cause : Nat) : (c.goto st cause).steady = c.steady := by
  unfold Chip.goto
  dsimp only
  rw [Chip.sendEvs_steady, Chip.putB_steady _ _ (by decide), Chip.route_steady]
  simp (disch := decide)

@[simp] theorem Chip.updItem_steady (c : Chip) (id : Nat) (f : Item → Item) : (c.updItem id f).steady = c.steady := rfl

@[simp] theorem Chip.dropClosing_steady (c : Chip) (id : Nat) : (c.dropClosing id).steady = c.steady := rfl

@[simp] theorem Chip.syncPool_steady (c : Chip) : (c.syncPool).steady = c.steady := by
  unfold Chip.syncPool
  simp (disch := decide)

@[simp] theorem Chip.freeRsv_steady (c : Chip) {i : Nat} (h : i < 8) : (c.freeRsv i).steady = c.steady := by
  have hf : (Fld.CST_RSVI_ITEM i).addr ≠ Reg.SYN_CFG := by show 0x40018080 + 16 * i ≠ 0x40064040; omega
  unfold Chip.freeRsv
  split
  · exact Chip.put_steady _ _ hf
  · rfl

@[simp] theorem Chip.released_steady (c : Chip) {i : Nat} (h : i < 8) : (c.released i).steady = c.steady :=
  (Chip.syncPool_steady _).trans (c.freeRsv_steady h)

@[simp] theorem Chip.setRun_steady (c : Chip) (i stn g base : Nat) : (c.setRun i stn g base).steady = c.steady := by
  have hF : (Fld.CST_RSVF_G i).addr ≠ Reg.SYN_CFG := by show 0x40018084 + 16 * i ≠ 0x40064040; omega
  have hR : (Fld.CST_RSVR_G i).addr ≠ Reg.SYN_CFG := by show 0x40018088 + 16 * i ≠ 0x40064040; omega
  unfold Chip.setRun
  split
  · exact (Chip.put_steady _ (f := Fld.CST_RSVF_BASE i) _ hF).trans (Chip.put_steady _ _ hF)
  · exact (Chip.put_steady _ (f := Fld.CST_RSVR_BASE i) _ hR).trans (Chip.put_steady _ _ hR)

@[simp] theorem Chip.consumedStn_steady (c : Chip) (e : Entry) (stn : Nat) : (c.consumedStn e stn).steady = c.steady := by
  unfold Chip.consumedStn
  split
  · rfl
  · rename_i i hi
    have h8 : i < 8 := List.mem_range.mp (List.mem_of_find?_eq_some hi)
    dsimp only
    repeat' split
    all_goals simp [h8]

@[simp] theorem Chip.consumed_steady (c : Chip) (n : Nat) (e : Entry) : (c.consumed n e).steady = c.steady := by
  unfold Chip.consumed
  simp (disch := decide)

@[simp] theorem Chip.dropFetched_steady (c : Chip) (id : Nat) : (c.dropFetched id).steady = c.steady :=
  (foldl_steady (fun t e => Chip.consumed_steady t 3 e) _ _).trans (Chip.setRing_steady c 3 _)

@[simp] theorem Chip.syncNip_steady (c : Chip) : (c.syncNip).steady = c.steady := by
  unfold Chip.syncNip
  simp (disch := decide)

@[simp] theorem Chip.retireWt_steady (c : Chip) (id : Nat) : (c.retireWt id).steady = c.steady := by
  unfold Chip.retireWt
  simp (disch := decide)

@[simp] theorem Chip.event_steady (c : Chip) (k : Nat) : (c.event k).steady = c.steady := by
  unfold Chip.event
  simp (disch := decide)

@[simp] theorem Chip.setHv_steady (c : Chip) (n : Nat) (x : HvSt) : (c.setHv n x).steady = c.steady := rfl

@[simp] theorem Chip.trnOff_steady (c : Chip) : (c.trnOff).steady = c.steady := by
  unfold Chip.trnOff
  simp (disch := decide)

@[simp] theorem Chip.startHv_steady (c : Chip) (n : Nat) (x : HvSt) (level : Nat) : (c.startHv n x level).steady = c.steady := rfl

@[simp] theorem Chip.hvDown_steady (c : Chip) : (c.hvDown).steady = c.steady := by
  unfold Chip.hvDown
  split <;> simp (disch := decide)

@[simp] theorem Chip.abortMark_steady (c : Chip) : (c.abortMark).steady = c.steady := by
  unfold Chip.abortMark
  simp (disch := decide)

@[simp] theorem Chip.markEnd_steady (c : Chip) (x : Item) : (c.markEnd x).steady = c.steady := by
  unfold Chip.markEnd
  split <;> simp (disch := decide)

@[simp] theorem Chip.setTrig_steady (c : Chip) (n : Nat) (t : Trigger) : (c.setTrig n t).steady = c.steady := rfl

@[simp] theorem Chip.closeTrig_steady (c : Chip) {n : Nat} (h : n < 2) (e r : Nat) : (c.closeTrig n e r).steady = c.steady := by
  obtain rfl | rfl : n = 0 ∨ n = 1 := by omega
  · unfold Chip.closeTrig
    simp (disch := decide)
  · unfold Chip.closeTrig
    simp (disch := decide)

theorem Chip.imgEndOne_steady (u : Chip) {n : Nat} (h : n < 2) (id reason : Nat) :
    (let t := u.trig n
     if t.item = id && id ≠ 0 && t.stop.isNone then
       match (if u.firedLives n then t.fired else none) with
       | some _ => u.setTrig n { t with pend := [], stop := some reason }
       | none => (u.setTrig n { t with pend := [] }).closeTrig n 1 reason
     else u).steady = u.steady := by
  dsimp only
  repeat' split
  all_goals simp [h]

@[simp] theorem Chip.imgEnd_steady (c : Chip) (id reason : Nat) : (c.imgEnd id reason).steady = c.steady :=
  (Chip.imgEndOne_steady _ (by decide) id reason).trans (Chip.imgEndOne_steady c (by decide) id reason)

@[simp] theorem Chip.endItem_steady (c : Chip) (id out reason : Nat) (status : Status) (fseq : Nat) (wait : Bool) :
    (c.endItem id out reason status fseq wait).steady = c.steady := by
  unfold Chip.endItem
  split <;> simp (disch := decide)

@[simp] theorem Chip.endAs_steady (c : Chip) (id reason fseq : Nat) (waitQ wait : Bool) : (c.endAs id reason fseq waitQ wait).steady = c.steady := by
  unfold Chip.endAs
  split <;> simp (disch := decide)

@[simp] theorem Chip.startClosings_steady (c : Chip) : (c.startClosings).steady = c.steady := rfl

@[simp] theorem Chip.releaseWaits_steady (c : Chip) : (c.releaseWaits).steady = c.steady := by
  unfold Chip.releaseWaits
  simp (disch := decide)

@[simp] theorem Chip.hvAllOff_steady (c : Chip) : (c.hvAllOff).steady = c.steady := rfl

@[simp] theorem Chip.beamOff_steady (c : Chip) : (c.beamOff).steady = c.steady := by
  unfold Chip.beamOff
  simp (disch := decide)

@[simp] theorem Chip.endCands_steady (c : Chip) (reason : Nat) (fseq : Nat) (wait : Bool) : (c.endCands reason fseq wait).steady = c.steady := rfl

@[simp] theorem Chip.endAll_steady (c : Chip) (reason fseq : Nat) (waitQ wait : Bool) : (c.endAll reason fseq waitQ wait).steady = c.steady :=
  (Chip.endCands_steady _ _ _ _).trans (foldl_steady (fun t id => Chip.endAs_steady t id _ _ _ _) _ c)

@[simp] theorem Chip.jamStop_steady (c : Chip) (cause sensor item fseq : Nat) : (c.jamStop cause sensor item fseq).steady = c.steady := by
  unfold Chip.jamStop
  simp (disch := decide)

@[simp] theorem Chip.atRaise_steady (c : Chip) (r : Report) (lseq : Nat) : (c.atRaise r lseq).steady = c.steady := by
  have hll : ((faultLL r).foldl (fun t b => { t.tripLL b with flt := { t.flt with raisedLL := t.flt.raisedLL ||| 2 ^ b } }) c).steady = c.steady :=
    foldl_steady (fun t b => (Chip.steady_flt (t.tripLL b) _).trans (Chip.tripLL_steady t b)) _ c
  generalize hd : (faultLL r).foldl (fun t b => { t.tripLL b with flt := { t.flt with raisedLL := t.flt.raisedLL ||| 2 ^ b } }) c = d at hll
  show (if r.code = 0x0301 then _ else if r.code = 0x0302 then _ else _ : Chip).steady = _
  rw [hd]
  repeat' split
  all_goals simp [hll]

@[simp] theorem Chip.countFault_steady (c : Chip) (cls : Nat) : (c.countFault cls).steady = c.steady := by
  unfold Chip.countFault
  split <;> simp (disch := decide)

@[simp] theorem Chip.latchReason_steady (c : Chip) (r : Report) (lseq : Nat) : (c.latchReason r lseq).steady = c.steady := by
  unfold Chip.latchReason
  split <;> simp (disch := decide)

@[simp] theorem Chip.recordFault_steady (c : Chip) (r : Report) : (c.recordFault r).2.steady = c.steady := by
  unfold Chip.recordFault
  simp (disch := decide)

@[simp] theorem Chip.faultEvt_steady (c : Chip) (r : Report) (n : Nat) : (c.faultEvt r n).steady = c.steady := by
  unfold Chip.faultEvt
  simp (disch := decide)

@[simp] theorem Chip.syncQueue_steady (c : Chip) : (c.syncQueue).steady = c.steady := by
  unfold Chip.syncQueue
  dsimp only
  split <;> simp (disch := decide)

@[simp] theorem Chip.syncBridges_steady (c : Chip) : (c.syncBridges).steady = c.steady := rfl

@[simp] theorem Chip.gateDrivers_steady (c : Chip) : (c.gateDrivers).steady = c.steady := by
  unfold Chip.gateDrivers
  refine (Chip.syncBridges_steady _).trans ((Chip.markUnlit_steady _).trans ((Chip.showSols_steady _).trans ((Chip.polyDrive_steady _ _).trans ?_)))
  refine (Chip.put_steady _ _ (by decide)).trans ((Chip.putB_steady _ _ (by decide)).trans ?_)
  exact (Chip.put_steady _ _ (by decide)).trans (Chip.put_steady c _ (by decide))

@[simp] theorem Chip.driveLines_steady (c : Chip) (ld hv htr mtr : Bool) : (c.driveLines ld hv htr mtr).steady = c.steady := by
  unfold Chip.driveLines
  simp (disch := decide)

@[simp] theorem Chip.sidebands_steady (c : Chip) (ld hv htr mtr : Bool) : (c.sidebands ld hv htr mtr).steady = c.steady := by
  unfold Chip.sidebands
  simp (disch := decide)

@[simp] theorem Chip.gclr_steady (c : Chip) : (c.gclr).steady = c.steady := rfl

@[simp] theorem Chip.startEntry_steady (c : Chip) (h : FaultEntry) : (c.startEntry h).steady = c.steady := by
  have hoff : ∀ t : Chip, ((List.range 9).foldl (fun t n => t.helCmd (3 + n) Mode.off) t).steady = t.steady :=
    fun t => foldl_steady (fun t n => Chip.helCmd_steady t _ _) _ t
  unfold Chip.startEntry
  dsimp only
  rw [Chip.endAll_steady]
  simp (disch := decide) [hoff]

@[simp] theorem Chip.pump_steady (n : Nat) : ∀ c : Chip, (c.pump n).steady = c.steady := by
  induction n with
  | zero => intro c; exact Chip.syncQueue_steady c
  | succ n ih =>
    intro c
    unfold Chip.pump
    dsimp only
    repeat' split
    all_goals simp [ih]

@[simp] theorem Chip.runQueue_steady (c : Chip) : (c.runQueue).steady = c.steady := by
  unfold Chip.runQueue
  simp (disch := decide)

@[simp] theorem Chip.enqueue_steady (c : Chip) (e : FaultEntry) : (c.enqueue e).steady = c.steady := by
  unfold Chip.enqueue
  simp (disch := decide)

@[simp] theorem Chip.queueFault_steady (c : Chip) (r : Report) (n : Nat) : (c.queueFault r n).steady = c.steady := by
  unfold Chip.queueFault
  simp (disch := decide)

@[simp] theorem Chip.raise1_steady (c : Chip) (r : Report) : (c.raise1 r).steady = c.steady := by
  unfold Chip.raise1
  simp (disch := decide)

@[simp] theorem Chip.raise_steady (c : Chip) (r : Report) : (c.raise r).steady = c.steady := by
  unfold Chip.raise
  simp (disch := decide)

end Sys2Proof.Machine
end

section
/-!
SUPPORT. The Turradar link and the sync chain (R389–R402).
-/
namespace Sys2Proof.Machine

/-! ### The Turradar link (R391–R395) -/

section
variable {c : Chip}

/-- A frame with a bad CRC is counted and dropped. -/
theorem Chip.turFrame_badCrc {h : Hooks} {dst src ctl : Byte} {q : Nat} {bs : List Byte} (hp : c.portOn 2 = true) (hd : c.direct 2 = false)
    (hb : bs ≠ []) (hn : bs.length ≤ 1024) :
    c.turFrame h dst src ctl q bs false = ((c.bump Fld.MLK_ERRC_CRCE).set Fld.MLK_IST_CRCE).frameEnd h 2 := by
  have h0 : bs.length ≠ 0 := by simpa using hb
  unfold Chip.turFrame
  dsimp only
  rw [hp, hd, if_neg (by decide), if_neg (by simp [h0]; omega)]
  exact if_pos rfl

/-- A node drops a request for another one. -/
theorem Chip.turTake_other {dst src ctl : Byte} {q : Nat} {bs : List Byte} (hr : c.on Fld.MLK_ADDR_ROLE = false) (hb : ctl.msb = false)
    (ha : dst.toNat ≠ c.get Fld.MLK_ADDR_A) : c.turTake dst src ctl q bs = c := by
  unfold Chip.turTake
  dsimp only
  rw [hr, if_neg Bool.false_ne_true, hb, beq_eq_false_iff_ne.mpr ha]
  exact if_pos (by simp)

/-- The response that a controller waits for ends its request. -/
theorem Chip.turTake_answer {dst src ctl : Byte} {q : Nat} {bs f : List Byte} (hr : c.on Fld.MLK_ADDR_ROLE = true) (hf : c.ser.link.outst = some f)
    (hc : ctl.getLsbD 6 = true) (hs : f.take 1 = [src]) (hq : (f.drop 3).take 2 = leBytes 2 q) :
    c.turTake dst src ctl q bs = c.turOver.turToHost 0 ([dst, src, ctl] ++ leBytes 2 q ++ leBytes 2 bs.length ++ bs) := by
  have h6 : (bitsOf ctl.toNat 6 1 == 1) = true := by rw [bitsOf_one_eq_one]; exact hc
  unfold Chip.turTake
  dsimp only
  rw [hr, if_pos rfl, hf]
  exact if_pos (by simp [h6, hs, hq])

/-- A request without a response is begun again. -/
theorem Chip.turTimeout_again {f : List Byte} (hf : c.ser.link.outst = some f) (h : c.ser.link.tries < c.get Fld.MLK_TIM_RTRY) :
    c.turTimeout = ((({ c with ser := { c.ser with link := { c.ser.link with
      outst := none, sending := some f, tries := c.ser.link.tries + 1 } } } : Chip).clr Fld.MLK_STA_WAIT).set Fld.MLK_STA_TXBSY) := by
  unfold Chip.turTimeout
  rw [hf]
  exact if_pos h

/-- After the last repeat the request ends with NORSP. -/
theorem Chip.turTimeout_last {f : List Byte} (hf : c.ser.link.outst = some f) (h : c.get Fld.MLK_TIM_RTRY ≤ c.ser.link.tries) :
    c.turTimeout = (((c.turOver.set Fld.MLK_IST_NORSP).bump Fld.MLK_ERRC_NORSP).turToHost 64 (f.take 7)).turSend := by
  unfold Chip.turTimeout
  rw [hf]
  exact if_neg (Nat.not_lt.mpr h)

/-- A port in TUNNEL mode that ends a frame on the link ends its request there. -/
theorem Chip.frameSent_link {h : Hooks} (hp : c.portOn 2 = true) (hd : c.direct 2 = false) (coll : Bool) :
    c.frameSent h 2 coll = c.requestSent h coll := by
  unfold Chip.frameSent
  dsimp only
  rw [hp, hd, if_neg (by simp), if_neg Bool.false_ne_true, if_pos rfl]

/-- The chip in which the request on the link is the one that waits for its response. -/
def Chip.responseAwaited (c : Chip) (f : List Byte) : Chip :=
  { c.set Fld.MLK_STA_WAIT with ser := { c.ser with link := { c.ser.link with outst := some f } } }

/-- A request that is no broadcast then waits for its response, collided or not. -/
theorem Chip.requestSent_waits {h : Hooks} {f : List Byte} {b : Byte} (hs : c.ser.link.sending = some f) (hb : f[2]? = some b) (hm : b.msb = false)
    (coll : Bool) :
    c.requestSent h coll =
      (let d := ({ c with ser := { c.ser with link := { c.ser.link with sending := none } } } : Chip).clr Fld.MLK_STA_TXBSY
       ((if coll then d.linkColl else d.linkOut f).frameEnd h 2).responseAwaited f) := by
  unfold Chip.requestSent
  rw [hs]
  dsimp only
  rw [hb]
  exact if_neg (ne_true_of_eq_false hm)

/-- On VIN there is energy for every answer (R393). -/
theorem Chip.turEnergy_vin (h : c.get Fld.HRV_STA_SRC = 0) (n : Nat) : c.turEnergy n = true := by
  unfold Chip.turEnergy
  rw [h]
  rfl

/-- What an answer on the link does, as there is energy for it. -/
theorem Chip.turAnswerOut_sent {h : Hooks} {a : Answer} (hp : c.ser.link.pend = some a) (hsrc : c.get Fld.HRV_STA_SRC = 0) (coll : Bool) :
    c.turAnswerOut h false coll =
      (let d : Chip := { c with ser := { c.ser with link := { c.ser.link with pend := none } } }
       (if coll then d.linkColl else d.linkOut a.frame).frameEnd h 2) := by
  have he := Chip.turEnergy_vin (c := { c with ser := { c.ser with link := { c.ser.link with pend := none } } }) hsrc a.frame.length
  unfold Chip.turAnswerOut
  rw [hp]
  exact (if_neg Bool.false_ne_true).trans (if_neg (by rw [he]; decide))

theorem Chip.turAnswerOut_late {h : Hooks} {a : Answer} (hp : c.ser.link.pend = some a) (coll : Bool) :
    c.turAnswerOut h true coll =
      ({ c with ser := { c.ser with link := { c.ser.link with pend := none } } } : Chip).set Fld.MLK_IST_LATE := by
  unfold Chip.turAnswerOut
  rw [hp]
  exact if_pos rfl

end

/-! ### The sync chain (R399–R402) -/

/-- The chip after a good word has been taken, before it is forwarded. -/
def Chip.wordTaken (c : Chip) (w : Word) : Chip :=
  let d := ((c.wr Reg.SYN_RXW w).set Fld.SYN_STA_SYNC).clr Fld.SYN_STA_LOST
  { d with ser := { d.ser with sync := { d.ser.sync with halt := false, flt := w.getLsbD 6 } } }

/-- A follower stands one hop further than the sender of its word. -/
def Chip.hopped (c : Chip) (w : Word) : Chip := ((c.wordTaken w).put Fld.SYN_POS_P (bitsOf w.toNat 0 5 + 1)).set Fld.SYN_POS_VLD

/-- The word that a follower forwards. -/
def Chip.onward (c : Chip) (w : Word) : Nat :=
  syncWord (bitsOf w.toNat 16 16) (bitsOf w.toNat 8 8 ||| c.get Fld.SYN_USRO_U) (w.getLsbD 7) (w.getLsbD 6 || c.ownFlt) c.ownHalt
    (bitsOf w.toNat 0 5 + 1)

/-- The chip after a follower has forwarded a good word. -/
def Chip.forwarded (c : Chip) (w : Word) : Chip :=
  let d := c.hopped w
  { d with ser := { d.ser with sync := { d.ser.sync with epoch := bitsOf w.toNat 16 16, sent := d.onward w } } }

section
variable {c : Chip} {w : Word}

theorem Chip.wordTaken_kept (c : Chip) (w : Word) (a : Nat) (h1 : a ≠ Reg.SYN_RXW) (h2 : a ≠ Pg.SYN + 0xC) : (c.wordTaken w).rd a = c.rd a :=
  (Chip.rd_put_other _ _ h2).trans ((Chip.rd_put_other _ _ h2).trans (Chip.rd_wr_other _ _ h1))

theorem Chip.hopped_kept (c : Chip) (w : Word) (a : Nat) (h1 : a ≠ Reg.SYN_RXW) (h2 : a ≠ Reg.SYN_POS) (h3 : a ≠ Pg.SYN + 0xC) :
    (c.hopped w).rd a = c.rd a :=
  (Chip.rd_put_other _ _ h2).trans ((Chip.rd_put_other _ _ h2).trans (c.wordTaken_kept w a h1 h3))

theorem Chip.hopped_sta (c : Chip) (w : Word) : (c.hopped w).rd Reg.SYN_STA = (c.wordTaken w).rd Reg.SYN_STA :=
  (Chip.rd_put_other _ _ (by decide)).trans (Chip.rd_put_other _ _ (by decide))

theorem Chip.wordTaken_word (c : Chip) (w : Word) : (c.wordTaken w).rd Reg.SYN_RXW = w :=
  (Chip.rd_put_other _ _ (by decide)).trans ((Chip.rd_put_other _ _ (by decide)).trans (Chip.rd_wr_same _ _ _))

theorem Chip.hopped_word (c : Chip) (w : Word) : (c.hopped w).rd Reg.SYN_RXW = w :=
  (Chip.rd_put_other _ _ (by decide)).trans ((Chip.rd_put_other _ _ (by decide)).trans (c.wordTaken_word w))

theorem Chip.wordTaken_sync (c : Chip) (w : Word) : (c.wordTaken w).on Fld.SYN_STA_SYNC = true :=
  (Chip.on_put_apart ((c.wr Reg.SYN_RXW w).set Fld.SYN_STA_SYNC) (f := Fld.SYN_STA_LOST) 0 (by decide) (by decide)).trans
    (Chip.on_set_same _ (by decide) (by decide))

theorem Chip.wordTaken_lost (c : Chip) (w : Word) : (c.wordTaken w).on Fld.SYN_STA_LOST = false :=
  Chip.on_clr_same ((c.wr Reg.SYN_RXW w).set Fld.SYN_STA_SYNC) (f := Fld.SYN_STA_LOST) rfl

theorem Chip.hopped_pos (c : Chip) {w : Word} (h : bitsOf w.toNat 0 5 ≠ 31) : (c.hopped w).get Fld.SYN_POS_P = bitsOf w.toNat 0 5 + 1 := by
  have hlt : bitsOf w.toNat 0 5 < 32 := Nat.mod_lt _ (by decide)
  have h32 : bitsOf w.toNat 0 5 + 1 < 2 ^ 5 := by omega
  unfold Chip.hopped Chip.set
  rw [Chip.get_put_apart _ _ (by decide) (by decide), Chip.get_put_same _ _ (by decide)]
  exact Nat.mod_eq_of_lt h32

theorem Chip.hopped_valid (c : Chip) (w : Word) : (c.hopped w).on Fld.SYN_POS_VLD = true := by
  unfold Chip.hopped
  exact Chip.on_set_same _ (by decide) (by decide)

/-- What a follower forwards of its own is as it was before the word. -/
theorem Chip.hopped_onward (c : Chip) (w : Word) : (c.hopped w).onward w = c.onward w := by
  have husr : (c.hopped w).get Fld.SYN_USRO_U = c.get Fld.SYN_USRO_U := Chip.get_rd (c.hopped_kept w _ (by decide) (by decide) (by decide))
  have hcfg : (c.hopped w).rd Reg.SYN_CFG = c.rd Reg.SYN_CFG := c.hopped_kept w _ (by decide) (by decide) (by decide)
  have heng : (c.hopped w).engine = c.engine := Chip.get_rd (c.hopped_kept w Reg.DOC_ST (by decide) (by decide) (by decide))
  unfold Chip.onward Chip.ownFlt Chip.ownHalt
  rw [husr, heng, Chip.on_rd (f := Fld.SYN_CFG_FOUT) hcfg, Chip.on_rd (f := Fld.SYN_CFG_HOUT) hcfg]

theorem Chip.forwarded_rd (c : Chip) (w : Word) (a : Nat) : (c.forwarded w).rd a = (c.hopped w).rd a := rfl

theorem Chip.syncRx_forwards (hen : c.on Fld.SYN_CTL_EN = true) (hhead : c.on Fld.SYN_CFG_HEAD = false) (h5 : w.getLsbD 5 = false)
    (hhop : bitsOf w.toNat 0 5 ≠ 31) : c.syncRx w (syncCrc w) = c.forwarded w := by
  have b5 : (bitsOf w.toNat 5 1 == 1) = false := by rw [bitsOf_one_eq_one]; exact h5
  have b6 : (bitsOf w.toNat 6 1 == 1) = w.getLsbD 6 := bitsOf_one_eq_one _ _
  have b7 : (bitsOf w.toNat 7 1 == 1) = w.getLsbD 7 := bitsOf_one_eq_one _ _
  have hh : (c.wordTaken w).on Fld.SYN_CFG_HEAD = false := (Chip.on_rd (c.wordTaken_kept w _ (by decide) (by decide))).trans hhead
  unfold Chip.syncRx
  simp only [hen, b5, b6, b7, Bool.not_true, Bool.false_eq_true, if_false, ne_eq, not_true_eq_false, Bool.false_and, Bool.false_or]
  change (if (c.wordTaken w).on Fld.SYN_CFG_HEAD = true then _ else if bitsOf w.toNat 0 5 = 31 then _ else _) = _
  rw [hh, if_neg Bool.false_ne_true, if_neg hhop]
  rfl

theorem runs_syncForward {s : State} {w : Word} (hg : Gives (.syncWordReceived w (syncCrc w)) s (s.chip.forwarded w))
    (hhop : bitsOf w.toNat 0 5 ≠ 31) :
    Runs (.syncWordReceived w (syncCrc w)) s fun c =>
      c.rd Reg.SYN_RXW = w ∧ c.on Fld.SYN_STA_SYNC = true ∧ c.on Fld.SYN_STA_LOST = false ∧ c.get Fld.SYN_POS_P = bitsOf w.toNat 0 5 + 1 ∧
        c.on Fld.SYN_POS_VLD = true ∧ c.ser.sync.epoch = bitsOf w.toNat 16 16 ∧
        c.ser.sync.sent = syncWord (bitsOf w.toNat 16 16) (bitsOf w.toNat 8 8 ||| s.chip.get Fld.SYN_USRO_U) (w.getLsbD 7)
          (w.getLsbD 6 || s.chip.ownFlt) s.chip.ownHalt (bitsOf w.toNat 0 5 + 1) ∧
        RegsKept s.chip c [Reg.SYN_RXW, Reg.SYN_POS, Pg.SYN + 0xC] ∧ c.mem = s.chip.mem := by
  have hrd := s.chip.forwarded_rd w
  refine hg.runs ⟨(hrd _).trans (s.chip.hopped_word w), (Chip.on_rd ((hrd _).trans (s.chip.hopped_sta w))).trans (s.chip.wordTaken_sync w),
    (Chip.on_rd ((hrd _).trans (s.chip.hopped_sta w))).trans (s.chip.wordTaken_lost w), (Chip.get_rd (hrd _)).trans (s.chip.hopped_pos hhop),
    (Chip.on_rd (hrd _)).trans (s.chip.hopped_valid w), rfl, s.chip.hopped_onward w, fun a ha => (hrd a).trans ?_, rfl⟩
  simp only [List.mem_cons, List.not_mem_nil, or_false, not_or] at ha
  exact s.chip.hopped_kept w a ha.1 ha.2.1 ha.2.2

theorem Chip.syncRx_badCrc {k : Byte} (hen : c.on Fld.SYN_CTL_EN = true) (hk : k ≠ syncCrc w) :
    c.syncRx w k = (c.bump Fld.SYN_ERRC_CRCE).set Fld.SYN_IST_CRCE := by
  unfold Chip.syncRx
  rw [hen]
  exact (if_neg (by decide)).trans (if_pos hk)

/-- The head's chip after it has counted the epoch, before it sends its word. -/
def Chip.counted (c : Chip) : Chip :=
  let d := { c with ser := { c.ser with sync := { c.ser.sync with epoch := (c.ser.sync.epoch + 1) % 65536 } } }
  (d.put Fld.SYN_POS_P 0).set Fld.SYN_POS_VLD

theorem Chip.counted_kept (c : Chip) (a : Nat) (h : a ≠ Reg.SYN_POS) : c.counted.rd a = c.rd a :=
  (Chip.rd_put_other _ _ h).trans (Chip.rd_put_other _ _ h)

theorem Chip.counted_pos (c : Chip) : c.counted.get Fld.SYN_POS_P = 0 ∧ c.counted.on Fld.SYN_POS_VLD = true := by
  unfold Chip.counted Chip.set
  refine ⟨?_, Chip.on_set_same _ (by decide) (by decide)⟩
  rw [Chip.get_put_apart _ _ (by decide) (by decide), Chip.get_put_same _ _ (by decide)]
  rfl

/-- The word of a head. -/
theorem Chip.ownWord_head (h : c.on Fld.SYN_CFG_HEAD = true) (u : Bool) :
    c.ownWord u = syncWord c.ser.sync.epoch (c.get Fld.SYN_USRO_U) u (c.ownFlt || c.ser.sync.flt) (c.ownHalt || c.ser.sync.halt) 0 := by
  unfold Chip.ownWord
  dsimp only
  rw [h, if_pos rfl, if_pos rfl, Nat.or_zero]

theorem Chip.counted_ownWord (h : c.on Fld.SYN_CFG_HEAD = true) :
    c.counted.ownWord false = syncWord ((c.ser.sync.epoch + 1) % 65536) (c.get Fld.SYN_USRO_U) false (c.ownFlt || c.ser.sync.flt)
      (c.ownHalt || c.ser.sync.halt) 0 := by
  have husr : c.counted.get Fld.SYN_USRO_U = c.get Fld.SYN_USRO_U := Chip.get_rd (c.counted_kept _ (by decide))
  have hcfg : c.counted.rd Reg.SYN_CFG = c.rd Reg.SYN_CFG := c.counted_kept _ (by decide)
  have heng : c.counted.engine = c.engine := Chip.get_rd (c.counted_kept Reg.DOC_ST (by decide))
  have hser : c.counted.ser.sync = { c.ser.sync with epoch := (c.ser.sync.epoch + 1) % 65536 } := rfl
  have hhead : c.counted.on Fld.SYN_CFG_HEAD = true := (Chip.on_rd hcfg).trans h
  rw [Chip.ownWord_head hhead, husr, hser]
  unfold Chip.ownFlt Chip.ownHalt
  rw [heng, Chip.on_rd (f := Fld.SYN_CFG_FOUT) hcfg, Chip.on_rd (f := Fld.SYN_CFG_HOUT) hcfg]

theorem Chip.syncTick_head (hen : c.on Fld.SYN_CTL_EN = true) (h : c.on Fld.SYN_CFG_HEAD = true) :
    c.syncTick = { c.counted with ser := { c.counted.ser with sync := { c.counted.ser.sync with sent := c.counted.ownWord false } } } := by
  unfold Chip.syncTick
  rw [hen, h]
  rfl

theorem runs_syncTick {s : State} (hL : LOn s.chip) (hen : s.chip.on Fld.SYN_CTL_EN = true) (h : s.chip.on Fld.SYN_CFG_HEAD = true) :
    Runs .syncPeriodTick s fun c => c.ser.sync.epoch = (s.chip.ser.sync.epoch + 1) % 65536 ∧ c.get Fld.SYN_POS_P = 0 ∧
      c.on Fld.SYN_POS_VLD = true ∧
      c.ser.sync.sent = syncWord ((s.chip.ser.sync.epoch + 1) % 65536) (s.chip.get Fld.SYN_USRO_U) false (s.chip.ownFlt || s.chip.ser.sync.flt)
        (s.chip.ownHalt || s.chip.ser.sync.halt) 0 ∧ RegsKept s.chip c [Reg.SYN_POS] ∧ c.mem = s.chip.mem := by
  have hg : Gives .syncPeriodTick s _ := gives_onL hL rfl (Chip.syncTick_head hen h)
  exact hg.runs ⟨rfl, s.chip.counted_pos.1, s.chip.counted_pos.2, Chip.counted_ownWord h,
    fun a ha => s.chip.counted_kept a (by simpa using ha), rfl⟩

/-- An own HALT that the last word did not carry goes out at once. -/
theorem Chip.syncUrgent_halt (hen : c.on Fld.SYN_CTL_EN = true) (hh : c.ownHalt = true) (hs : bitsOf c.ser.sync.sent 5 1 = 0) :
    c.syncUrgent = { c with ser := { c.ser with sync := { c.ser.sync with sent := c.ownWord true } } } := by
  unfold Chip.syncUrgent
  exact if_pos (by simp [hen, hh, hs])

theorem Chip.syncUrgent_none (hh : c.ownHalt = false) (hf : c.ownFlt = false) : c.syncUrgent = c := by
  unfold Chip.syncUrgent
  exact if_neg (by simp [hh, hf])

theorem Chip.syncLost_again (h : c.on Fld.SYN_STA_LOST = true) : c.syncLost = c := by
  unfold Chip.syncLost
  exact if_neg (by simp [h])

/-- A chain that is lost is reported; whatever the fault engine does of it, LOSSH stays as it is. -/
theorem Chip.syncLost_raises (hen : c.on Fld.SYN_CTL_EN = true) (h : c.on Fld.SYN_STA_LOST = false) (hl : c.on Fld.SYN_CFG_LOSSH = false) :
    c.syncLost = (((c.set Fld.SYN_STA_LOST).set Fld.SYN_IST_LOST).clr Fld.SYN_STA_SYNC).raise (report 0x0A03 0 0 (c.rd Reg.SYN_POS).toNat) := by
  have hpos : (((c.set Fld.SYN_STA_LOST).set Fld.SYN_IST_LOST).clr Fld.SYN_STA_SYNC).rd Reg.SYN_POS = c.rd Reg.SYN_POS :=
    (Chip.rd_put_other _ _ (by decide)).trans ((Chip.rd_put_other _ _ (by decide)).trans (Chip.rd_put_other _ _ (by decide)))
  have hcfg : ∀ r, ((((c.set Fld.SYN_STA_LOST).set Fld.SYN_IST_LOST).clr Fld.SYN_STA_SYNC).raise r).on Fld.SYN_CFG_LOSSH = false := by
    intro r
    have h0 : (((c.set Fld.SYN_STA_LOST).set Fld.SYN_IST_LOST).clr Fld.SYN_STA_SYNC).steady = c.steady :=
      (Chip.clr_steady _ (by decide)).trans ((Chip.set_steady _ (by decide)).trans (Chip.set_steady c (by decide)))
    have h1 := congrArg Prod.fst ((Chip.raise_steady _ r).trans h0)
    exact (Chip.on_rd (f := Fld.SYN_CFG_LOSSH) h1).trans hl
  unfold Chip.syncLost
  rw [hen, h, if_pos (by decide)]
  dsimp only
  rw [hpos]
  exact if_neg (ne_true_of_eq_false (hcfg _))

end

/-- Settles O50: the frames of the Turradar link, their ends and time-outs, and the words of the sync chain. -/
theorem turradarAndSync : Obligations.TurradarAndSync := by
  unfold Obligations.TurradarAndSync
  refine ⟨⟨fun s dst src ctl q bs hA hp hd hb hn => ⟨?_, fun hr hm ha => ?_, fun hr hm h6 ha hq => ?_, fun f hr hf h6 hs hq => ?_⟩,
    fun s f hA hf => ⟨fun h => ?_, fun h => ?_⟩, fun s f b hA hp hd hs hb hm => ⟨?_, ?_⟩,
    fun s a hA hp => ⟨fun k => ?_, fun hsrc => ⟨?_, ?_⟩⟩⟩,
    fun s w k hL hpad hen => ⟨fun hk => ?_, fun hh h5 hhop => ?_⟩,
    fun s hL hen => ⟨fun h => runs_syncTick hL hen h, ?_, fun hh hs => ?_, fun hh hf => ?_, fun h => ?_, fun h hl => ?_⟩⟩
  · exact gives_onA hA rfl (congrArg Chip.settle (Chip.turFrame_badCrc hp hd hb hn))
  · refine gives_onA hA rfl (congrArg Chip.settle ?_)
    rw [Chip.turFrame_taken hooks dst src ctl q.toNat hp hd hb hn, Chip.turTake_other hr hm ha]
  · refine gives_onA hA rfl (congrArg Chip.settle ?_)
    rw [Chip.turFrame_taken hooks dst src ctl q.toNat hp hd hb hn, Chip.turTake_request hr hm h6 ha hq]
  · refine gives_onA hA rfl (congrArg Chip.settle ?_)
    rw [Chip.turFrame_taken hooks dst src ctl q.toNat hp hd hb hn, Chip.turTake_answer hr hf h6 hs hq]
  · exact gives_onA hA rfl (congrArg Chip.settle (Chip.turTimeout_again hf h))
  · exact gives_onA hA rfl (congrArg Chip.settle (Chip.turTimeout_last hf h))
  · exact gives_onPort (p := 2) (fun _ => hA) (fun h => absurd rfl h) rfl
      (congrArg Chip.settle ((Chip.frameSent_link hp hd false).trans (Chip.requestSent_waits hs hb hm false)))
  · exact gives_onPort (p := 2) (fun _ => hA) (fun h => absurd rfl h) rfl
      (congrArg Chip.settle ((Chip.frameSent_link hp hd true).trans (Chip.requestSent_waits hs hb hm true)))
  · exact gives_onA hA rfl (Chip.turAnswerOut_late hp k)
  · exact gives_onA hA rfl (Chip.turAnswerOut_sent hp hsrc true)
  · exact gives_onA hA rfl (Chip.turAnswerOut_sent hp hsrc false)
  · exact gives_onPads hL (by simp [hpad]) rfl (Chip.syncRx_badCrc hen hk)
  · exact runs_syncForward (gives_onPads hL (by simp [hpad]) rfl (Chip.syncRx_forwards hen hh h5 hhop)) hhop
  · refine gives_onL hL rfl ?_
    unfold Chip.syncEpoch
    exact if_pos hen
  · exact gives_onL hL rfl (Chip.syncUrgent_halt hen hh hs)
  · exact gives_onL hL rfl (Chip.syncUrgent_none hh hf)
  · exact gives_onL hL rfl (Chip.syncLost_again h)
  · exact gives_onL hL rfl (Chip.syncLost_raises hen h hl)

end Sys2Proof.Machine
end

section
/-!
SUPPORT. The start of the always-on domain and the boot stages (R43–R46, R465, R537).
-/
namespace Sys2Proof.Machine

/-! ### The ferroelectric store as a start of the always-on domain leaves it (R411, R421, R465) -/

/-- Only pages NVM and NVS, memory and the state of the F-die have changed. -/
def OnlyFerro (c d : Chip) : Prop :=
  d = { c with regs := d.regs, mem := d.mem, fst := d.fst } ∧ ∀ a, a / 0x4000 ≠ 0x14010 → a / 0x4000 ≠ 0x14011 → d.rd a = c.rd a

namespace OnlyFerro
variable {b c d : Chip}

theorem refl (c : Chip) : OnlyFerro c c := ⟨rfl, fun _ _ _ => rfl⟩

theorem trans (h : OnlyFerro b c) (k : OnlyFerro c d) : OnlyFerro b d := ⟨by rw [k.1, h.1], fun a h1 h2 => (k.2 a h1 h2).trans (h.2 a h1 h2)⟩

theorem put (h : OnlyFerro c d) {f : Field} (hf : f.addr / 0x4000 = 0x14010 ∨ f.addr / 0x4000 = 0x14011) (v : Nat) : OnlyFerro c (d.put f v) :=
  h.trans ⟨rfl, fun _ h1 h2 => Chip.rd_put_other _ _ fun e => hf.elim (fun k => h1 (e ▸ k)) (fun k => h2 (e ▸ k))⟩

theorem wr (h : OnlyFerro c d) {r : Nat} (hr : r / 0x4000 = 0x14010 ∨ r / 0x4000 = 0x14011) (w : Word) : OnlyFerro c (d.wr r w) :=
  h.trans ⟨rfl, fun _ h1 h2 => Chip.rd_wr_other _ _ fun e => hr.elim (fun k => h1 (e ▸ k)) (fun k => h2 (e ▸ k))⟩

theorem ite {p : Prop} [Decidable p] (h : OnlyFerro b c) (k : OnlyFerro b d) : OnlyFerro b (if p then c else d) := by
  split
  · exact h
  · exact k

theorem fst (h : OnlyFerro c d) (x : FStore) : OnlyFerro c { d with fst := x } := h.trans ⟨rfl, fun _ _ _ => rfl⟩

theorem ofStore (h : OnlyStore c d) : OnlyFerro c d := ⟨h.1, fun a h1 _ => h.2 a h1⟩

theorem foldl {α : Type} {f : Chip → α → Chip} (hf : ∀ t x, OnlyFerro t (f t x)) : ∀ (l : List α) (c : Chip), OnlyFerro c (l.foldl f c)
  | [], c => refl c
  | x :: l, c => (hf c x).trans (foldl hf l (f c x))

theorem get (h : OnlyFerro c d) {f : Field} (h1 : f.addr / 0x4000 ≠ 0x14010) (h2 : f.addr / 0x4000 ≠ 0x14011) : d.get f = c.get f :=
  Chip.get_rd (h.2 _ h1 h2)

theorem on (h : OnlyFerro c d) {f : Field} (h1 : f.addr / 0x4000 ≠ 0x14010) (h2 : f.addr / 0x4000 ≠ 0x14011) : d.on f = c.on f :=
  Chip.on_rd (h.2 _ h1 h2)

theorem fab (h : OnlyFerro c d) : d.fab = c.fab := by rw [h.1]

theorem ret (h : OnlyFerro c d) : d.ret = c.ret := by rw [h.1]

end OnlyFerro

theorem onlyFerro_setNvs (c : Chip) (id : Nat) (v : NvsVal) : OnlyFerro c (c.setNvs id v) := ⟨rfl, fun _ _ _ => rfl⟩

theorem onlyFerro_showNvs (c : Chip) : OnlyFerro c c.showNvs := by
  unfold Chip.showNvs Chip.putB
  exact (((((((OnlyFerro.refl c).wr (by decide) _).put (by decide) _).put (by decide) _).put (by decide) _).put (by decide) _).put (by decide) _).put
    (by decide) _

theorem onlyFerro_slotWrite (c : Chip) (id : Nat) (v : Word) : OnlyFerro c (c.slotWrite id v) := by
  unfold Chip.slotWrite
  split
  · exact OnlyFerro.refl c
  · dsimp only
    exact (OnlyFerro.refl c).ite (((OnlyFerro.ofStore (onlyStore_fWrites _ c)).trans (onlyFerro_setNvs _ id _)).trans (onlyFerro_showNvs _))

theorem onlyFerro_nvsStore (c : Chip) (id : Nat) (v : Word) : OnlyFerro c (c.nvsStore id v) := by
  unfold Chip.nvsStore
  split
  · exact OnlyFerro.refl c
  · split
    · exact (onlyFerro_setNvs c id _).trans (onlyFerro_showNvs _)
    · exact onlyFerro_slotWrite c id v

theorem onlyFerro_scanValue (c : Chip) (id : Nat) : OnlyFerro c (c.scanValue id) := by
  unfold Chip.scanValue
  split
  · exact OnlyFerro.refl c
  · dsimp only
    split
    · exact (onlyFerro_setNvs c id _).put (by decide) _
    · split
      · exact (onlyFerro_setNvs c id _).put (by decide) _
      · exact onlyFerro_setNvs c id _

theorem onlyFerro_scanRings (c : Chip) : OnlyFerro c c.scanRings := by
  unfold Chip.scanRings
  exact ((OnlyFerro.foldl onlyFerro_scanValue _ _).put (c := { c with fst := { c.fst with vals := [] } }) (by decide) 0).trans
    (onlyFerro_showNvs _) |> ((OnlyFerro.refl c).fst _).trans

theorem onlyFerro_showGroup (c : Chip) (st : Nat) : OnlyFerro c (c.showGroup st) := by
  unfold Chip.showGroup Chip.putB
  dsimp only
  split
  · exact ((((((OnlyFerro.refl c).put (by decide) _).put (by decide) _).put (by decide) _).put (by decide) _).put (by decide) _).put (by decide) _
  · exact ((((((OnlyFerro.refl c).put (by decide) _).put (by decide) _).put (by decide) _).put (by decide) _).put (by decide) _).put (by decide) _

theorem onlyFerro_recover (c : Chip) : OnlyFerro c c.recover := by
  have hw : ∀ (t : Chip) (l : List (Nat × Word)), OnlyFerro t (t.fWrites l) := fun t l => OnlyFerro.ofStore (onlyStore_fWrites l t)
  have h0 : OnlyFerro c ((({ c with fst := { c.fst with
      owner := none, pages := [], sel := none, preload := false, heldOpen := [] } } : Chip).showGroup 0).clr Fld.NVM_STA_RCVR) :=
    (((OnlyFerro.refl c).fst _).trans (onlyFerro_showGroup _ 0)).put (by decide) 0
  unfold Chip.recover
  dsimp only
  split
  · exact ((h0.put (by decide) _).put (by decide) _).put (by decide) _
  · split
    · exact (((((h0.trans (OnlyFerro.foldl (fun t i => hw t _) _ _)).trans
        (OnlyFerro.ofStore (onlyStore_fWrite _ _ _))).put (by decide) _).put (by decide) _).put (by decide) _).put (by decide) _
    · exact (((h0.put (by decide) _).put (by decide) _).put (by decide) _).put (by decide) _

/-- The always-on domain and the F-die up, the power stage where VIN feeds them. -/
def Chip.aonFed (c : Chip) (sup : Nat) : Chip :=
  { c with fab := { c.fab with aon := true, fnv := true, pst := sup == 0 }
           ret := { c.ret with vin := sup == 0 }, pow := { c.pow with resBleed := c.pow.resBleed && sup != 0 } }

/-- The supply that feeds the domain, shown, and the level it starts in. -/
def Chip.supplied (c : Chip) (sup : Nat) : Chip :=
  let d := c.put Fld.HRV_STA_SRC sup
  if sup = 0 then d else d.toLevel 0x10

/-- The RTC starts from the second that was saved, its time lost. -/
def Chip.rtcStarted (c : Chip) : Chip :=
  let sec := (c.nvs 12).v
  let d := (c.wr Reg.RTC_SEC sec).set Fld.RTC_STA_LOST
  if sec = 0#32 then d else d.nvsStore 12 0#32

theorem Chip.aonStart_eq (c : Chip) (sup : Nat) : c.aonStart sup =
    (let t := ((c.aonOff.aonFed sup).recover.scanRings.supplied sup).rtcStarted
     if c.ret.brown then t.set Fld.HRV_IST_BROWN else t) := rfl

theorem Chip.supplied_kept (c : Chip) (sup : Nat) : (c.supplied sup).fab = c.fab ∧ (c.supplied sup).ret = c.ret := by
  unfold Chip.supplied
  dsimp only
  split
  · exact ⟨rfl, rfl⟩
  · exact ⟨rfl, rfl⟩

theorem Chip.supplied_src (c : Chip) {sup : Nat} (h : sup < 3) : (c.supplied sup).get Fld.HRV_STA_SRC = sup := by
  have h1 : (c.put Fld.HRV_STA_SRC sup).get Fld.HRV_STA_SRC = sup :=
    (Chip.get_put_same _ _ rfl).trans (Nat.mod_eq_of_lt (by show sup < 4; omega))
  unfold Chip.supplied
  dsimp only
  split
  · exact h1
  · unfold Chip.toLevel
    rw [Chip.get_put_apart _ _ (by decide) (by decide), Chip.get_put_apart _ _ (by decide) (by decide), h1]

theorem Chip.rtcStarted_kept (c : Chip) : OnlyFerro ((c.wr Reg.RTC_SEC (c.nvs 12).v).set Fld.RTC_STA_LOST) c.rtcStarted := by
  unfold Chip.rtcStarted
  dsimp only
  exact (OnlyFerro.refl _).ite (onlyFerro_nvsStore _ 12 0#32)

theorem Chip.rtcStarted_lost (c : Chip) : c.rtcStarted.on Fld.RTC_STA_LOST = true :=
  (c.rtcStarted_kept.on (f := Fld.RTC_STA_LOST) (by decide) (by decide)).trans
    (Chip.on_set_same (c.wr Reg.RTC_SEC (c.nvs 12).v) (by decide) (by decide))

theorem Chip.rtcStarted_src (c : Chip) : c.rtcStarted.get Fld.HRV_STA_SRC = c.get Fld.HRV_STA_SRC := by
  refine (c.rtcStarted_kept.get (f := Fld.HRV_STA_SRC) (by decide) (by decide)).trans ?_
  unfold Chip.set
  rw [Chip.get_put_apart _ _ (by decide) (by decide)]
  exact Chip.get_rd (Chip.rd_wr_other _ _ (by decide))

/-- A start of the always-on domain (R465). -/
theorem Chip.aonStart_result (c : Chip) {sup : Nat} (h : sup < 3) :
    (c.aonStart sup).fab = (c.aonOff.aonFed sup).fab ∧ (c.aonStart sup).ret = (c.aonOff.aonFed sup).ret ∧
      (c.aonStart sup).on Fld.RTC_STA_LOST = true ∧ (c.aonStart sup).get Fld.HRV_STA_SRC = sup := by
  have h1 : OnlyFerro (c.aonOff.aonFed sup) (c.aonOff.aonFed sup).recover.scanRings := (onlyFerro_recover _).trans (onlyFerro_scanRings _)
  obtain ⟨hf2, hr2⟩ := (c.aonOff.aonFed sup).recover.scanRings.supplied_kept sup
  have hs2 := (c.aonOff.aonFed sup).recover.scanRings.supplied_src h
  have hf1 := h1.fab
  have hr1 := h1.ret
  rw [Chip.aonStart_eq]
  dsimp only
  generalize (c.aonOff.aonFed sup).recover.scanRings.supplied sup = t at hf2 hr2 hs2
  have hf3 : t.rtcStarted.fab = t.fab := t.rtcStarted_kept.fab
  have hr3 : t.rtcStarted.ret = t.ret := t.rtcStarted_kept.ret
  have hl3 := t.rtcStarted_lost
  have hs3 := t.rtcStarted_src
  generalize t.rtcStarted = u at hf3 hr3 hl3 hs3
  split
  · refine ⟨hf3.trans (hf2.trans hf1), hr3.trans (hr2.trans hr1), ?_, ?_⟩
    · exact (Chip.on_put_apart u (f := Fld.HRV_IST_BROWN) 1 (by decide) (by decide)).trans hl3
    · exact (Chip.get_put_apart u (f := Fld.HRV_IST_BROWN) 1 (by decide) (by decide)).trans (hs3.trans hs2)
  · exact ⟨hf3.trans (hf2.trans hf1), hr3.trans (hr2.trans hr1), hl3, hs3.trans hs2⟩

theorem runs_aonPor {s : State} {sup : Supply} (ha : s.chip.fab.aon = false) :
    (s.chip.ret.ship = false ∨ sup = .vsys) → Runs (.aonPor sup) s fun c =>
      c.fab.aon = true ∧ c.fab.fnv = true ∧ c.fab.pst = decide (sup = .vsys) ∧
      c.on Fld.RTC_STA_LOST = true ∧ c.ret.vin = decide (sup = .vsys) ∧
      c.get Fld.HRV_STA_SRC = (match sup with | .vsys => 0 | .vsto => 1 | .vbat => 2) := by
  have key : ∀ n : Nat, n < 3 → (s.chip.ret.ship = false ∨ n = 0) → exec (.aonPor sup) s = s.act (fun c => c.aonPor n) →
      Runs (.aonPor sup) s fun c => c.fab.aon = true ∧ c.fab.fnv = true ∧ c.fab.pst = (n == 0) ∧
        c.on Fld.RTC_STA_LOST = true ∧ c.ret.vin = (n == 0) ∧ c.get Fld.HRV_STA_SRC = n := by
    intro n hn hship e
    obtain ⟨hf, hr, hl, hsrc⟩ := s.chip.aonStart_result hn
    have hno : (s.chip.fab.aon || (s.chip.ret.ship && n != 0)) = false := by
      rcases hship with k | k
      · simp [ha, k]
      · simp [ha, k]
    have hg : Gives (.aonPor sup) s (s.chip.aonStart n) := gives_act e (if_neg (ne_true_of_eq_false hno))
    exact hg.runs ⟨by rw [hf]; rfl, by rw [hf]; rfl, by rw [hf]; rfl, hl, by rw [hr]; rfl, hsrc⟩
  intro hs
  cases sup with
  | vsys => exact key 0 (by decide) (.inr rfl) rfl
  | vsto => exact key 1 (by decide) (hs.imp_right fun h => nomatch h) rfl
  | vbat => exact key 2 (by decide) (hs.imp_right fun h => nomatch h) rfl

/-! ### The boot stages (R43–R46, R537) -/

/-- The L-die has started: its clocks and what the reset left (R43). -/
structure LDieUp (c d : Chip) : Prop where
  lco : d.fab.lco = true
  lio : d.fab.lio = true
  lock : d.on Fld.CLK_STA_LOCK = true
  depth : d.get Fld.CLK_STA_SSD = c.get Fld.CLK_SSC_DEPTH
  cause : d.get Fld.DBG_RST_CAUSE = c.ret.cause % 256
  stage : d.get Fld.PSY_BST_STG = 5
  mem : d.mem = c.mem

theorem ldieUp_lDieStart (c : Chip) : LDieUp c c.lDieStart := by
  let t : Chip := ({ c with fab := { c.fab with lco := true, lio := true } }).llActive 8 false
  have hd : t.get Fld.CLK_SSC_DEPTH = c.get Fld.CLK_SSC_DEPTH := Chip.get_put_apart _ _ (by decide) (by decide)
  have hd4 : c.get Fld.CLK_SSC_DEPTH < 4 := RegMap.get_lt c.regs Fld.CLK_SSC_DEPTH
  refine ⟨rfl, rfl, ?_, ?_, ?_, ?_, rfl⟩
  · unfold Chip.lDieStart Chip.putB
    simp (disch := decide) only [Chip.set, Chip.on_put_apart]
    exact Chip.on_set_same t (by decide) (by decide)
  · unfold Chip.lDieStart Chip.putB
    simp (disch := decide) only [Chip.get_put_apart, Chip.get_put_same]
    exact (congrArg (· % 4) hd).trans (Nat.mod_eq_of_lt hd4)
  · unfold Chip.lDieStart Chip.putB
    simp (disch := decide) only [Chip.get_put_apart, Chip.get_put_same]
    rfl
  · unfold Chip.lDieStart Chip.putB
    exact Chip.get_put_same _ _ (by decide)

/-- The work of boot stage `g` (R43). -/
def Chip.stageWork (c : Chip) (g : Nat) : Chip :=
  if g = 0 then c.put Fld.PSY_BST_STG 1
  else if g = 1 then c.romStage
  else if g = 2 then
    if c.vinStarts then ({ c with pow := { c.pow with buckOn := true } }).put Fld.PSY_BST_STG 3 else c
  else if g = 3 then (((c.setRail 0 true).setRail 1 true).setRail 2 true).put Fld.PSY_BST_STG 4
  else if g = 4 then c.lDieStart
  else if g = 5 then (({ c with fab := { c.fab with dst := true } }).storeStart).put Fld.PSY_BST_STG 6
  else if g = 6 then (((c.set Fld.DBR_LST_TRND).put Fld.DBR_LST_UP 15).llActive 5 false).put Fld.PSY_BST_STG 7
  else if g = 7 then c.loadStage
  else if g = 8 then c.hostStage
  else if g = 9 && c.pow.passed then c.bootDone
  else c

theorem stageWork_rom (c : Chip) : c.stageWork 1 = c.romStage := by
  unfold Chip.stageWork
  rw [if_neg (by decide), if_pos rfl]

section
variable {c : Chip} (ha : AOn c) (hf : c.get Fld.PSY_BST_FAIL = 0) (hp : c.pow.pfail = false)
include ha hf hp

/-- A boot stage that is not done (R45, R46). -/
theorem Chip.bootStage_failed : c.bootStage false =
    if c.get Fld.PSY_BST_STG = 3 then c.bootFail 0x02
    else if 4 ≤ c.get Fld.PSY_BST_STG && c.get Fld.PSY_BST_STG ≤ 7 then
      (if c.get Fld.PSY_BST_STG = 7 then c.loadStart else c).stageFail (c.get Fld.PSY_BST_STG - 1)
    else c := by
  unfold Chip.bootStage
  dsimp only
  rw [ha, hf, hp]
  exact (if_neg (by decide)).trans (if_pos rfl)

/-- A boot stage that is done does its work (R43). -/
theorem Chip.bootStage_done {g : Nat} (hg : c.get Fld.PSY_BST_STG = g) : c.bootStage true = c.stageWork g := by
  unfold Chip.bootStage
  dsimp only
  have hgo : (!c.fab.aon || c.get Fld.PSY_BST_FAIL != 0 || c.pow.pfail) = false := by simp [hf, hp, show c.fab.aon = true from ha]
  rw [hgo, hg]
  refine (if_neg (by decide)).trans ((if_neg (by decide)).trans ?_)
  rfl

end

/-- Before the bridge is up a failure only leaves its code and a record (R45). -/
theorem Chip.bootFail_early {c : Chip} {code g : Nat} (hg : c.get Fld.PSY_BST_STG = g) (h : g < 6) :
    c.bootFail code = ((c.put Fld.PSY_BST_FAIL code).stageLog (report 0x0107 code g).body).2 := by
  have h6 : (decide (6 ≤ g) && (c.put Fld.PSY_BST_FAIL code).fab.lco) = false := by simp; omega
  unfold Chip.bootFail
  dsimp only
  rw [hg, h6]
  rfl

theorem Chip.stageFail_early {c : Chip} {code g : Nat} (hg : c.get Fld.PSY_BST_STG = g) (h : g < 6) : c.stageFail code = c.bootFail code := by
  have h6 : (decide (6 ≤ g) && decide (g < 8)) = false := by simp; omega
  unfold Chip.stageFail
  dsimp only
  rw [hg, h6]
  rfl

/-- From the bridge on a failure takes the engine to FAULT and brings up the host's side (R46). -/
theorem Chip.stageFail_bridge {c : Chip} {code : Nat} (hg : c.get Fld.PSY_BST_STG = 6) (hl : c.fab.lco = true) :
    c.stageFail code = ((((((c.put Fld.PSY_BST_FAIL code).set Fld.BRG_CTL_EN).set Fld.BRG_IFC_USBE).set Fld.BRG_IFC_SPIE).goto Eng.fault 0x09).raise
      (report 0x0107 code 6)).hostWork := by
  have hb : c.bootFail code = (((((c.put Fld.PSY_BST_FAIL code).set Fld.BRG_CTL_EN).set Fld.BRG_IFC_USBE).set Fld.BRG_IFC_SPIE).goto Eng.fault
      0x09).raise (report 0x0107 code 6) := by
    unfold Chip.bootFail
    dsimp only
    rw [hg, if_pos (by simp; exact hl), if_pos (by decide)]
  unfold Chip.stageFail
  dsimp only
  rw [hg, hb]
  exact if_pos rfl

/-- The end of stage ROM with no image to start. -/
theorem Chip.romStage_none {c : Chip} (h : c.syncUpd.romChoice.1 = none) : c.romStage = (c.syncUpd.logBoot.bootFail 0x01).logCommit := by
  unfold Chip.romStage
  dsimp only
  rw [h]
  rfl

/-- Stage ROM starts the slot it chooses. -/
theorem Chip.romStage_starts {c : Chip} {k : Nat} {fb trial : Bool} (h : c.syncUpd.romChoice = (some (k, fb), false, trial)) :
    c.romStage =
      (let d := (c.syncUpd.putB Fld.PSY_BST_FALLBK fb).startSlot k
       (({ d with alm := { d.alm with trialRun := trial } }).put Fld.PSY_BST_STG 2).almStart) := by
  unfold Chip.romStage
  dsimp only
  rw [h]
  rfl

/-- An armed slot that has failed is disarmed, with a record. -/
theorem Chip.romStage_disarms {c : Chip} {k : Nat} {fb trial : Bool} (h : c.syncUpd.romChoice = (some (k, fb), true, trial)) :
    c.romStage =
      (let b := c.syncUpd
       let arm := b.get Fld.UPD_SLOT_ARMSLOT
       let d := (b.putB Fld.PSY_BST_FALLBK fb).startSlot k
       let e := (((Chip.setUpd { d with alm := { d.alm with trialRun := trial } } (b.get Fld.UPD_SLOT_ACTIVE) 0 0 0).put
         Fld.PSY_BST_STG 2).almStart)
       (e.drawn).logEvent 5 (leBytes 1 e.freeWord.toNat ++ [1#8] ++ leBytes 1 arm ++ leBytes 1 (b.imageErr 1 arm))) := by
  unfold Chip.romStage
  dsimp only
  rw [h]
  dsimp only
  simp only [if_true]

theorem Chip.loadStage_fails {c : Chip} (h : c.loadSteps = none) : c.loadStage = c.loadStart.stageFail 0x06 := by
  unfold Chip.loadStage
  rw [h]

theorem Chip.loadStage_loads {c t : Chip} (h : c.loadSteps = some t) :
    c.loadStage = (if t.engineSetup.ret.waking then t.engineSetup.restore else t.engineSetup).put Fld.PSY_BST_STG 8 := by
  unfold Chip.loadStage
  rw [h]

theorem Chip.hostStage_test {c : Chip} (h : c.ret.cause ≠ 5 ∨ c.get Fld.RES_VRES_MV < 30000) :
    c.hostStage =
      (let d := (c.hostWork.set Fld.RES_CHG_CHEN).syncCharge
       ({ d with pow := { d.pow with passed := false, bootFails := 0 } }).put Fld.PSY_BST_STG 9) := by
  unfold Chip.hostStage
  exact if_neg (by simp; omega)

/-- A wake whose reserve is full needs no test. -/
theorem Chip.hostStage_wakes {c : Chip} (h5 : c.ret.cause = 5) (hv : 30000 ≤ c.get Fld.RES_VRES_MV) :
    c.hostStage = ((c.hostWork.set Fld.RES_CHG_CHEN).syncCharge).bootDone := by
  unfold Chip.hostStage
  exact if_pos (by simp [h5, hv])

/-- What the boot ROM has staged is committed where no group is open (R45). -/
theorem Chip.logCommit_commits {c : Chip} (hr : c.logReady ≠ []) (hg : c.gst = 0)
    (hs : (c.ownGroup false (c.logPages c.logIndex c.logReady)).1 = St.ok) :
    c.logCommit = (c.ownGroup false (c.logPages c.logIndex c.logReady)).2.logCommitted c.logReady := by
  unfold Chip.logCommit
  dsimp only
  rw [if_neg (by simpa using hr), if_neg (not_not.mpr hg)]
  exact if_pos hs

/-- A stage from RAILS to DSTORE that fails leaves STG, its code in FAIL and a record. -/
theorem Chip.bootStage_failsEarly {c : Chip} (ha : AOn c) (hf : c.get Fld.PSY_BST_FAIL = 0) (hp : c.pow.pfail = false) {g : Nat}
    (h3 : 3 ≤ g) (h6 : g < 6) (hg : c.get Fld.PSY_BST_STG = g) :
    c.bootStage false = ((c.put Fld.PSY_BST_FAIL (g - 1)).stageLog (report 0x0107 (g - 1) g).body).2 := by
  rw [Chip.bootStage_failed ha hf hp, hg]
  by_cases e : g = 3
  · rw [if_pos e, Chip.bootFail_early hg h6, e]
  · rw [if_neg e, if_pos (by simp; omega), if_neg (by omega), Chip.stageFail_early hg h6, Chip.bootFail_early hg h6]

/-- A boot stage that is done, as a command (R43). -/
theorem gives_bootStage {s : State} {d : Chip} {g : Nat} (ha : AOn s.chip) (hf : s.chip.get Fld.PSY_BST_FAIL = 0) (hp : s.chip.pow.pfail = false)
    (hg : s.chip.get Fld.PSY_BST_STG = g) (hd : s.chip.stageWork g = d) : Gives (.bootStageComplete true) s d :=
  gives_onA ha rfl ((Chip.bootStage_done ha hf hp hg).trans hd)

/-- Settles O9: each boot stage done or failed, the power-on reset of the always-on domain, the ROM's record and the LOAD time-out. -/
theorem bootSequence : Obligations.BootSequence := by
  unfold Obligations.BootSequence
  refine ⟨fun s ha hf hp => ⟨fun hg => ?_, fun hg h => ?_, fun k fb trial hg h => ?_, fun k fb trial hg h => ?_, fun hg hv => ?_, fun hg => ?_,
    fun hg => ?_, fun hg => ?_, fun hg => ?_, fun hg => ⟨fun h => ?_, fun t h => ⟨fun hw => ?_, fun hw => ?_⟩⟩,
    fun hg => ⟨fun h => ?_, fun h5 hv => ?_⟩,
    fun hg h => ?_, fun g h3 h6 hg => ?_, fun hg hl => ?_, fun hg => ?_⟩,
    fun s sup ha hs => runs_aonPor ha hs, fun s ha hrom hr hg hs => gives_onA ha rfl ?_, fun s ha hg hf => gives_onA ha rfl ?_⟩
  · exact gives_bootStage ha hf hp hg (if_pos rfl)
  · exact gives_bootStage ha hf hp hg ((stageWork_rom _).trans (Chip.romStage_none h))
  · exact gives_bootStage ha hf hp hg ((stageWork_rom _).trans (Chip.romStage_starts h))
  · exact gives_bootStage ha hf hp hg ((stageWork_rom _).trans (Chip.romStage_disarms h))
  · refine gives_bootStage ha hf hp hg ?_
    simp [Chip.stageWork, hv]
  · refine gives_bootStage ha hf hp hg ?_
    simp [Chip.stageWork]
  · have h : Gives (.bootStageComplete true) s s.chip.lDieStart := by
      refine gives_bootStage ha hf hp hg ?_
      simp [Chip.stageWork]
    have k := ldieUp_lDieStart s.chip
    exact h.runs ⟨k.lco, k.lio, k.lock, k.depth, k.cause, k.stage, k.mem⟩
  · refine gives_bootStage ha hf hp hg ?_
    simp [Chip.stageWork]
  · refine gives_bootStage ha hf hp hg ?_
    simp [Chip.stageWork]
  · refine gives_bootStage ha hf hp hg ?_
    simp [Chip.stageWork, Chip.loadStage_fails h]
  · refine gives_bootStage ha hf hp hg ?_
    simp [Chip.stageWork, Chip.loadStage_loads h, hw]
  · refine gives_bootStage ha hf hp hg ?_
    simp [Chip.stageWork, Chip.loadStage_loads h, hw]
  · refine gives_bootStage ha hf hp hg ?_
    simp [Chip.stageWork, Chip.hostStage_test h]
  · refine gives_bootStage ha hf hp hg ?_
    simp [Chip.stageWork, Chip.hostStage_wakes h5 hv]
  · refine gives_bootStage ha hf hp hg ?_
    simp [Chip.stageWork, h]
  · exact gives_onA ha rfl (Chip.bootStage_failsEarly ha hf hp h3 h6 hg)
  · refine gives_onA ha rfl ((Chip.bootStage_failed ha hf hp).trans ?_)
    rw [hg]
    exact Chip.stageFail_bridge hg hl
  · refine gives_onA ha rfl ((Chip.bootStage_failed ha hf hp).trans ?_)
    rw [hg]
    rfl
  · unfold Chip.bootRecordRetry
    rw [hrom, if_pos rfl]
    exact Chip.logCommit_commits hr hg hs
  · unfold Chip.loadTimeout
    rw [hg, hf]
    exact if_pos rfl

end Sys2Proof.Machine
end

section
/-!
SUPPORT. The register queues of the die bridge, and retraining (R29–R32, R570).
-/
namespace Sys2Proof.Machine

/-! ### A read leaves the debug port -/

section
variable (c : Chip)

theorem Chip.setRing_dbg (n : Nat) (r : RingSt) : (c.setRing n r).dbg = c.dbg := congrArg Prod.snd (c.setRing_steady n r)

theorem Chip.consumed_dbg (n : Nat) (e : Entry) : (c.consumed n e).dbg = c.dbg := congrArg Prod.snd (c.consumed_steady n e)

theorem Chip.storeEntry_dbg (n : Nat) (e : Entry) : (c.storeEntry n e).dbg = c.dbg := congrArg Prod.snd (c.storeEntry_steady n e)

theorem Chip.refusedPush_dbg (n : Nat) : (c.refusedPush n).dbg = c.dbg := rfl

theorem Chip.raise_dbg (r : Report) : (c.raise r).dbg = c.dbg := congrArg Prod.snd (c.raise_steady r)

theorem Chip.answerPush_dbg (who : Option Master) (st : Status) : (c.answerPush who st).dbg = c.dbg := by
  unfold Chip.answerPush
  split <;> rfl

end

theorem foldl_dbg {α : Type} {f : Chip → α → Chip} (hf : ∀ t x, (f t x).dbg = t.dbg) (l : List α) (c : Chip) :
    (l.foldl f c).dbg = c.dbg := by
  induction l generalizing c with
  | nil => rfl
  | cons x l ih => exact (ih (f c x)).trans (hf c x)

theorem Chip.retryPush_dbg (c : Chip) (n : Nat) : (c.retryPush n).dbg = c.dbg := by
  unfold Chip.retryPush
  dsimp only
  split
  · rfl
  · split
    · exact (Chip.storeEntry_dbg _ n _).trans (c.setRing_dbg n _)
    · rfl

theorem Chip.dropDiscarded_dbg (n k : Nat) : ∀ c : Chip, (c.dropDiscarded n k).dbg = c.dbg := by
  induction k with
  | zero => exact fun _ => rfl
  | succ k ih =>
    intro c
    unfold Chip.dropDiscarded
    dsimp only
    split
    · split
      · refine (ih _).trans ((Chip.consumed_dbg _ n _).trans ?_)
        exact (Chip.bump_dbg _ _).trans (c.setRing_dbg n _)
      · rfl
    · rfl

theorem Chip.emptyRing_dbg (c : Chip) (n : Nat) : (c.emptyRing n).dbg = c.dbg := by
  have h : ∀ l : List Entry, (l.foldl (fun t e => t.consumed n e) (c.setRing n noEntries)).dbg = c.dbg := fun l =>
    (foldl_dbg (fun t e => t.consumed_dbg n e) l _).trans (c.setRing_dbg n _)
  unfold Chip.emptyRing
  dsimp only
  split
  · split
    · exact h _
    · exact (Chip.answerPush_dbg _ _ _).trans (h _)
  · exact (foldl_dbg (fun t _ => t.refusedPush_dbg n) _ _).trans (h _)

theorem Chip.ringError_dbg (c : Chip) (n : Nat) : (c.ringError n).dbg = c.dbg := by
  unfold Chip.ringError
  exact (Chip.raise_dbg _ _).trans (Chip.emptyRing_dbg (c.countStoreUe (c.headAddr n)) n)

theorem Chip.pop_dbg (c : Chip) (n : Nat) (k : RCls) : (c.pop n k).2.dbg = c.dbg := by
  have hd := Chip.dropDiscarded_dbg n (c.ring n).ents.length c
  unfold Chip.pop
  split
  · rfl
  · split
    · rfl
    · dsimp only
      generalize c.dropDiscarded n (c.ring n).ents.length = t at hd
      have hone : ∀ (r : RingSt) (e : Entry) (b : Bool) (q : RingSt), (if b then (t.setRing n r).retryPush n
          else ((t.setRing n q).consumed n e).retryPush n).dbg = c.dbg := by
        intro r e b q
        split
        · exact (Chip.retryPush_dbg _ n).trans ((t.setRing_dbg n r).trans hd)
        · exact (Chip.retryPush_dbg _ n).trans ((Chip.consumed_dbg _ n e).trans ((t.setRing_dbg n q).trans hd))
      split
      · exact hd
      · dsimp only
        split
        · exact hone _ _ _ _
        · exact (Chip.dropDiscarded_dbg n _ _).trans (hone _ _ _ _)

theorem Chip.popRing_dbg (c : Chip) (n : Nat) (k : RCls) : (c.popRing n k).2.dbg = c.dbg := by
  unfold Chip.popRing
  split
  · exact c.ringError_dbg n
  · exact c.pop_dbg n k

theorem Chip.hpop_dbg (c : Chip) : c.hpop.2.dbg = c.dbg := by
  have h := c.popRing_dbg (c.get Fld.RNG_HSEL_RING) .host
  unfold Chip.hpop
  split
  · rfl
  · generalize c.popRing (c.get Fld.RNG_HSEL_RING) .host = r at h
    obtain ⟨_ | _ | _ | _, t⟩ := r
    all_goals exact h

theorem Chip.calTda_dbg (c : Chip) (w : Option Word) : (c.calTda w).2.dbg = c.dbg := by
  unfold Chip.calTda
  cases w with
  | none => rfl
  | some v =>
    dsimp only
    split <;> rfl

theorem Chip.tdaAccess_dbg (c : Chip) (m : Master) (w : Option Word) : (c.tdaAccess m w).2.dbg = c.dbg := by
  unfold Chip.tdaAccess
  split
  · rfl
  · split
    · rfl
    · split
      · rfl
      · split
        · rfl
        · cases w <;> rfl

theorem Chip.windowRead_dbg (c : Chip) (a : Nat) : (c.windowRead a).2.dbg = c.dbg := by
  unfold Chip.windowRead
  repeat' split
  all_goals rfl

theorem Chip.ueRead_dbg (c : Chip) (a : Nat) (w : Word) : (c.ueRead a w).2.dbg = c.dbg := by
  unfold Chip.ueRead
  split <;> rfl

theorem Chip.syncPort_dbg (c : Chip) (p : Nat) : (c.syncPort p).dbg = c.dbg := by
  unfold Chip.syncPort
  dsimp only
  repeat' split
  all_goals rfl

theorem Chip.portAccess_dbg (c : Chip) (m : Master) (p : Nat) : (c.portAccess m p).dbg = c.dbg := by
  unfold Chip.portAccess
  dsimp only
  split <;> rfl

theorem Chip.dataRead_dbg (c : Chip) (m : Master) (p : Nat) : (c.dataRead m p).2.dbg = c.dbg := Chip.syncPort_dbg _ p

theorem ite_dbg {p : Prop} [Decidable p] {x y : (Word × Status) × Chip} {d : Debug} (hx : x.2.dbg = d) (hy : y.2.dbg = d) :
    (if p then x else y).2.dbg = d := by
  split
  · exact hx
  · exact hy

theorem Chip.portRead_dbg (c : Chip) (m : Master) (k o : Nat) (w : Word) :
    (if o = 0xC then ((w, St.ok), c.staRead m k)
      else if o = (if k = 2 then 0x54 else 0x58) then (((c.dataRead m k).1, St.ok), (c.dataRead m k).2)
      else ((w, St.ok), c.portAccess m k)).2.dbg = c.dbg :=
  ite_dbg rfl (ite_dbg (c.dataRead_dbg m k) (c.portAccess_dbg m k))

theorem Chip.htbRead_dbg (c : Chip) (i : Nat) : ((c.put Fld.HTB_TAD_I ((i + 1) % 2048)).putS Fld.HTB_TDA_V
    ((c.put Fld.HTB_TAD_I ((i + 1) % 2048)).tableEntry ((c.put Fld.HTB_TAD_I ((i + 1) % 2048)).get Fld.HTB_TAD_I))).dbg = c.dbg :=
  (Chip.putS_dbg _ _ _).trans (Chip.put_dbg _ _ _)

theorem Chip.logTake_dbg (c : Chip) : c.logTake.2.dbg = c.dbg := rfl

/-- What a read does with its data is done to buffers, tables and rings. -/
theorem Chip.hookRead_dbg (c : Chip) (m : Master) (a : Nat) (w : Word) : (hookRead m a w c).2.dbg = c.dbg := by
  unfold hookRead
  refine ite_dbg (c.ueRead_dbg a w) (ite_dbg (c.windowRead_dbg a) (ite_dbg (ite_dbg rfl rfl) (ite_dbg (ite_dbg rfl rfl) ?_)))
  cases pageAt a with
  | none => rfl
  | some p =>
    refine ite_dbg (c.portRead_dbg m _ _ w) (ite_dbg c.hpop_dbg (ite_dbg (c.calTda_dbg none) (ite_dbg (c.htbRead_dbg _) ?_)))
    exact ite_dbg (c.tdaAccess_dbg m none) (ite_dbg c.logTake_dbg (ite_dbg (Chip.clr_dbg c _) rfl))

theorem Chip.busError_dbg (c : Chip) (m : Master) (a k : Nat) : (c.busError m a k).dbg = c.dbg := by rw [c.busError_regs m a k]

theorem Chip.load32_dbg (c : Chip) (m : Master) (a : Nat) : (c.load32 m a).2.dbg = c.dbg := by
  unfold Chip.load32 Chip.read32
  refine ite_dbg (c.busError_dbg m a _) (ite_dbg (c.busError_dbg m a _) ?_)
  cases locate a with
  | some l => exact ite_dbg (c.hookRead_dbg m a _) rfl
  | none => exact ite_dbg (c.hookRead_dbg m a _) (c.busError_dbg m a _)

/-! ### The register queues of the die bridge (R29–R32) -/

theorem Chip.pairDone_hb (c : Chip) (m : Master) (st : Status) : (c.pairDone m st).hb = c.hb := by
  unfold Chip.pairDone
  cases m with
  | orr k => dsimp only; split <;> rfl
  | debug => dsimp only; unfold Chip.dbgEnds; split <;> rfl
  | host _ | hel | alm => rfl

theorem Chip.postedError_hb (c : Chip) (m : Master) (st : Status) : (c.postedError m st).hb = c.hb := by
  unfold Chip.postedError
  cases m with
  | orr k => dsimp only; split <;> rfl
  | host _ | hel | alm | debug => rfl

theorem Chip.roomFor_hb (c : Chip) (m : Master) : (c.roomFor m).hb = c.hb := by
  unfold Chip.roomFor
  cases m with
  | orr k => dsimp only; split <;> rfl
  | debug => dsimp only; split <;> rfl
  | host _ | hel | alm => rfl

theorem Chip.hostApplied_other {c : Chip} {m : Master} (h : mHost m = false) (st : Status) (k b : Bool) : c.hostApplied m st k b = c := by
  unfold Chip.hostApplied
  rw [if_pos (by simp [h])]

/-- A master's oldest write is applied (R31). -/
theorem Chip.postedApplied_eq {c : Chip} {m : Master} {w : PostedWrite} {rest : List PostedWrite} (hm : mHost m = false)
    (hr : c.fab.retraining = false) (ht : takePosted m c.fab.posted = some (w, rest))
    (hp : w.addr = Reg.UPD_CMD → bitsOf w.value.toNat 0 4 = 2 → c.pushWaits = false) :
    c.postedApplied m =
      (let d := { c with fab := { c.fab with posted := rest } }
       let r := if w.pair then d.guardedPair w.master w.addr w.value else d.store32 w.master w.addr w.value
       ((if w.pair then r.2.pairDone m r.1 else r.2.postedError m r.1).roomFor m).pumpHost) := by
  unfold Chip.postedApplied
  rw [if_neg (by simp [hr]), ht]
  dsimp only
  rw [if_neg, Chip.hostApplied_other hm]
  · rfl
  · simp only [Bool.and_eq_true, decide_eq_true_eq]
    rintro ⟨⟨ha, hv⟩, hw⟩
    rw [hp ha hv] at hw
    cases hw

/-- A master's oldest write gets no answer (R32). -/
theorem Chip.regTimeout_write {c : Chip} {m : Master} {w : PostedWrite} {rest : List PostedWrite} (hm : mHost m = false) (hq : c.hb.reqs = [])
    (hr : c.fab.retraining = false) (ht : takePosted m c.fab.posted = some (w, rest)) :
    c.regTimeout m =
      (let d := (({ c with fab := { c.fab with posted := rest } }).busError w.master w.addr Kind.timeout).bump Fld.DBR_REGT_N
       (if w.pair then d.pairDone m St.timeout else d.postedError m St.timeout).roomFor m) := by
  unfold Chip.regTimeout
  rw [if_neg (by simp [hr]), ht]
  dsimp only
  rw [Chip.hostApplied_other hm]
  refine Chip.pumpHost_idle ?_
  rw [Chip.roomFor_hb]
  split
  · rw [Chip.pairDone_hb, Chip.bump_hb, Chip.busError_regs]
    exact hq
  · rw [Chip.postedError_hb, Chip.bump_hb, Chip.busError_regs]
    exact hq

/-- A read that returns goes to its master (R29, R30). -/
theorem Chip.readReturn_eq {c : Chip} {m : Master} {rd : HeldRead} (hr : c.fab.retraining = false) (hm : rd.master = m)
    (hreads : c.fab.reads = [rd]) (hp : c.fab.posted = []) :
    c.readReturn m = ((c.dropRead rd).load32 rd.master rd.addr).2.readDone rd ((c.dropRead rd).load32 rd.master rd.addr).1.1
      ((c.dropRead rd).load32 rd.master rd.addr).1.2 := by
  unfold Chip.readReturn
  rw [hreads, List.find?_cons, hm, beq_self_eq_true]
  dsimp only
  rw [if_neg (by simp [hr, hp]), hm]

/-- A read's data for the context's own store, with what the F-die's cells make of it. -/
theorem Chip.readDone_cells {c : Chip} {rd : HeldRead} (h : rd.dst = 1) (w : Word) (st : Status) :
    c.readDone rd w st = ({ c with fab := { c.fab with rdata := w, rstat := st } } : Chip).cellsRead rd.addr rd.found := by
  unfold Chip.readDone
  exact if_pos h

/-- The debugger's read ends with its data. -/
theorem Chip.readDone_debug {c : Chip} {rd : HeldRead} (hm : rd.master = .debug) (h : rd.dst ≠ 1) (w : Word) (st : Status) :
    c.readDone rd w st = ({ c with fab := { c.fab with rdata := w, rstat := st } } : Chip).dbgEnds st w := by
  unfold Chip.readDone
  dsimp only
  rw [if_neg h, hm]

theorem runs_debugRead {s : State} {rd : HeldRead} (hL : LOn s.chip) (hr : s.chip.fab.retraining = false) (hm : rd.master = .debug) (hd : rd.dst = 0)
    (ha : s.chip.dbg.accSts = 1) (hreads : s.chip.fab.reads = [rd]) (hp : s.chip.fab.posted = []) :
    Runs (.pDieReadReturn .debug) s fun c =>
      let r := (s.chip.dropRead rd).load32 rd.master rd.addr
      c.fab.rdata = r.1.1 ∧ c.fab.rstat = r.1.2 ∧ c.dbg.accData = (if r.1.2 = St.ok then r.1.1 else r.1.2.setWidth 32) ∧
        c.dbg.accSts = (if r.1.2 = St.ok then 0 else 2) ∧ c.regs = r.2.regs ∧ c.mem = r.2.mem := by
  have hdbg : ((s.chip.dropRead rd).load32 rd.master rd.addr).2.dbg.accSts = 1 := by rw [Chip.load32_dbg]; exact ha
  have h : Gives (.pDieReadReturn .debug) s _ := gives_onL hL rfl (Chip.readReturn_eq hr hm hreads hp)
  generalize (s.chip.dropRead rd).load32 rd.master rd.addr = r at hdbg h
  rw [Chip.readDone_debug hm (by rw [hd]; decide)] at h
  unfold Chip.dbgEnds at h
  rw [if_pos hdbg] at h
  exact h.runs ⟨rfl, rfl, rfl, rfl, rfl, rfl⟩

/-- A read that gets no answer ends in a bus error (R32). -/
theorem Chip.regTimeout_read {c : Chip} {m : Master} {rd : HeldRead} (hr : c.fab.retraining = false) (hm : rd.master = m)
    (hreads : c.fab.reads = [rd]) (ht : takePosted m c.fab.posted = none) :
    c.regTimeout m = (((c.dropRead rd).busError rd.master rd.addr Kind.timeout).bump Fld.DBR_REGT_N).readDone rd 0#32 St.timeout := by
  subst hm
  unfold Chip.regTimeout
  rw [if_neg (by simp [hr]), ht]
  dsimp only
  rw [hreads, List.find?_cons, beq_self_eq_true]

/-- A read that failed leaves the cells' counters. -/
theorem Chip.cellsRead_failed {c : Chip} (h : c.fab.rstat = St.timeout) (a : Nat) (f : CellFault) : c.cellsRead a f = c := by
  unfold Chip.cellsRead
  dsimp only
  rw [h]
  exact if_pos rfl

theorem runs_debugTimeout {s : State} {rd : HeldRead} (hL : LOn s.chip) (hr : s.chip.fab.retraining = false) (hm : rd.master = .debug)
    (hreads : s.chip.fab.reads = [rd]) (ht : takePosted .debug s.chip.fab.posted = none) :
    Runs (.regTimeout .debug) s fun c => c.fab.rdata = 0#32 ∧ c.fab.rstat = St.timeout ∧ c.fab.reads = [] ∧
      c.regs = (((s.chip.dropRead rd).busError .debug rd.addr Kind.timeout).bump Fld.DBR_REGT_N).regs := by
  have h : Gives (.regTimeout .debug) s _ := gives_onL hL rfl (Chip.regTimeout_read hr hm hreads ht)
  have hrest : (s.chip.dropRead rd).fab.reads = [] := by
    unfold Chip.dropRead
    rw [hreads]
    simp [eraseFirst]
  have hb : (((s.chip.dropRead rd).busError .debug rd.addr Kind.timeout).bump Fld.DBR_REGT_N).fab.reads = [] := by
    rw [Chip.bump_fab, Chip.busError_regs]
    exact hrest
  rw [hm] at h
  generalize ((s.chip.dropRead rd).busError .debug rd.addr Kind.timeout).bump Fld.DBR_REGT_N = t at h hb
  by_cases hd : rd.dst = 1
  · rw [Chip.readDone_cells hd, Chip.cellsRead_failed rfl] at h
    exact h.runs ⟨rfl, rfl, hb, rfl⟩
  · rw [Chip.readDone_debug hm hd] at h
    unfold Chip.dbgEnds at h
    split at h
    · exact h.runs ⟨rfl, rfl, hb, rfl⟩
    · exact h.runs ⟨rfl, rfl, hb, rfl⟩

/-! ### Retraining (R570) -/

theorem hookPost_trn (m : Master) (old : Word) (c : Chip) : hookPost m Reg.DBR_TRN old 1#32 c = c.retrain := rfl

theorem Chip.retrain_starts {c : Chip} (hr : c.fab.retraining = false) (he : c.engine = Eng.off ∨ c.engine = Eng.fault) :
    c.retrain = (St.ok, ((({ c with fab := { c.fab with
        retraining := true, wantLd := c.fab.ldEn, wantHv := c.fab.hvEn, wantHtr := c.fab.htrEn, wantMtr := c.fab.mtrEn,
        downFlight := none, upFlight := none } } : Chip).driveLines false false false false).clr Fld.DBR_LST_TRND).put Fld.DBR_LST_UP 0) := by
  unfold Chip.retrain
  rw [if_neg (ne_true_of_eq_false hr), if_pos (by simpa using he)]

/-- A second RETRAIN while one runs changes nothing. -/
theorem Chip.retrain_again {c : Chip} (hr : c.fab.retraining = true) (he : c.engine = Eng.off ∨ c.engine = Eng.fault) : c.retrain = (St.ok, c) := by
  unfold Chip.retrain
  rw [if_pos hr, if_pos (by simpa using he)]

/-- Settles O7: the queued accesses of the masters other than the host, their time-outs, and retraining. -/
theorem bridgeQueueAndRetraining : Obligations.BridgeQueueAndRetraining := by
  unfold Obligations.BridgeQueueAndRetraining
  refine ⟨fun s m hm hL hq hr => ⟨fun w rest ht hp => ?_, fun w rest ht => ?_, fun rd hrd hd hreads hp => ?_,
    fun rd hrd hmd hd ha hreads hp => ?_,
    fun rd hrd hmd hreads ht => ?_⟩, fun s m acc hr he => ?_, fun s m acc hr he => ?_, fun s hL hr => ?_, fun s hL hr => ?_⟩
  · exact gives_onL hL rfl (congrArg Chip.settle (Chip.postedApplied_eq hm hr ht hp))
  · exact gives_onL hL rfl (Chip.regTimeout_write hm hq hr ht)
  · refine gives_onL hL rfl ((Chip.readReturn_eq hr hrd hreads hp).trans ?_)
    exact Chip.readDone_cells hd _ _
  · subst hmd
    exact runs_debugRead hL hr hrd hd ha hreads hp
  · subst hmd
    exact runs_debugTimeout hL hr hrd hreads ht
  · exact gives_command rfl acc rfl rfl ((hookPost_trn m _ s.chip).trans (Chip.retrain_starts hr he))
  · exact gives_command rfl acc rfl rfl ((hookPost_trn m _ s.chip).trans (Chip.retrain_again hr he))
  · refine gives_onL hL rfl ?_
    unfold Chip.retrainDone
    exact if_pos hr
  · refine gives_onL hL rfl ?_
    unfold Chip.retrainTimeout
    exact if_pos hr

end Sys2Proof.Machine
end
